-- ==== Sys2Proof/Word.lean ====
section
/-! DEFINITION. The machine's words and the plain tables State is built from. -/

namespace Sys2Proof

/-- A 64-bit register or memory word. -/
abbrev Word := BitVec 64

/-- The smallest unit of memory (R30, R69). -/
abbrev Byte := BitVec 8

/-- Sparse data by key: a list of keys and values, each key at most once. -/
abbrev Tbl (κ ν : Type) := List (κ × ν)

end Sys2Proof
end

