-- ==== Sys2Proof/Syntax.lean ====
section
/-! DEFINITION. The instructions: one constructor for each row of the opcode table. The word rows carry their raw
fields, named as the table names them (a, b, d, e the fields SA, SB, DA, DB; k the joined K10; o the OFF15; t the
TAG); the rows without a word are the steps the machine and its surroundings take by themselves: what such a step is
about stands in the state it acts on (`State.arg`), as a word's thread or rule does. -/

namespace Sys2Proof

/-- Every row of the opcode table. -/
inductive Instr where
  /-- R178: A thread executes nop, which changes nothing but the PC. -/
  | nop (t : BitVec 4)
  /-- R178: An element rule fires nop, producing an all-zero token that its tag action pushes or tests. -/
  | nopElement (d : BitVec 5) (e : BitVec 5) (t : BitVec 4)
  /-- R121: Commits the current reach and frees the thread context, dropping entries that still name it. -/
  | done (t : BitVec 4)
  /-- R179: Raises the ending fault TRAP_SW with the software code in the fault barge's address field. -/
  | trap (k : BitVec 10) (t : BitVec 4)
  /-- R157: Reads a thread or core CSR into a register. -/
  | csrr (k : BitVec 10) (d : BitVec 5) (t : BitVec 4)
  /-- R158: Writes a CSR: a thread CSR at once, NRETRY or RTIMEOUT as a buffered effect performed at commit. -/
  | csrw (a : BitVec 5) (k : BitVec 10) (t : BitVec 4)
  /-- R122: Holds the thread back until the other READY contexts have each issued once. -/
  | yield (t : BitVec 4)
  /-- R180: Raises TRAP_SW with 0x400 + code in the address field, marking a breakpoint. -/
  | brk (k : BitVec 10) (t : BitVec 4)
  /-- R181: A thread reads its sticky flags into a register and, with selector 1, clears them. -/
  | stat (k : BitVec 10) (d : BitVec 5) (t : BitVec 4)
  /-- R181: An element rule reads its plane's flags or generator state as a token and, with selector 1, clears the flags. -/
  | statElement (k : BitVec 10) (d : BitVec 5) (t : BitVec 4)
  /-- R123: Reads the device cycle counter into a register. -/
  | clk (d : BitVec 5) (t : BitVec 4)
  /-- R124: Reads one identity item, chosen by the selector, into a register. -/
  | id (d : BitVec 5) (k : BitVec 5) (t : BitVec 4)
  /-- R161: Adds two registers modulo 2^64. -/
  | add (a : BitVec 5) (b : BitVec 5) (d : BitVec 5) (t : BitVec 4)
  /-- R161: Subtracts two registers modulo 2^64. -/
  | sub (a : BitVec 5) (b : BitVec 5) (d : BitVec 5) (t : BitVec 4)
  /-- R161: Gives the low 64 bits of the product. -/
  | mul (a : BitVec 5) (b : BitVec 5) (d : BitVec 5) (t : BitVec 4)
  /-- R161: Gives the high 64 bits of the signed product. -/
  | mulh (a : BitVec 5) (b : BitVec 5) (d : BitVec 5) (t : BitVec 4)
  /-- R161: Gives the high 64 bits of the unsigned product. -/
  | mulhu (a : BitVec 5) (b : BitVec 5) (d : BitVec 5) (t : BitVec 4)
  /-- R161: Divides as signed under R91, setting dz on a zero divisor. -/
  | div (a : BitVec 5) (b : BitVec 5) (d : BitVec 5) (t : BitVec 4)
  /-- R161: Divides as unsigned under R91. -/
  | divu (a : BitVec 5) (b : BitVec 5) (d : BitVec 5) (t : BitVec 4)
  /-- R161: Gives the signed remainder under R91. -/
  | rem (a : BitVec 5) (b : BitVec 5) (d : BitVec 5) (t : BitVec 4)
  /-- R161: Gives the unsigned remainder under R91. -/
  | remu (a : BitVec 5) (b : BitVec 5) (d : BitVec 5) (t : BitVec 4)
  /-- R161: Computes the bitwise AND of two registers. -/
  | and (a : BitVec 5) (b : BitVec 5) (d : BitVec 5) (t : BitVec 4)
  /-- R161: Computes the bitwise OR of two registers. -/
  | or (a : BitVec 5) (b : BitVec 5) (d : BitVec 5) (t : BitVec 4)
  /-- R161: Computes the bitwise XOR of two registers. -/
  | xor (a : BitVec 5) (b : BitVec 5) (d : BitVec 5) (t : BitVec 4)
  /-- R161: Shifts left by bits 5..0 of the second source. -/
  | shl (a : BitVec 5) (b : BitVec 5) (d : BitVec 5) (t : BitVec 4)
  /-- R161: Shifts right logically by bits 5..0 of the second source. -/
  | shr (a : BitVec 5) (b : BitVec 5) (d : BitVec 5) (t : BitVec 4)
  /-- R161: Shifts right arithmetically by bits 5..0 of the second source. -/
  | sar (a : BitVec 5) (b : BitVec 5) (d : BitVec 5) (t : BitVec 4)
  /-- R161: Computes a AND NOT b. -/
  | andn (a : BitVec 5) (b : BitVec 5) (d : BitVec 5) (t : BitVec 4)
  /-- R163: Adds a sign-extended 10-bit immediate. -/
  | addk (a : BitVec 5) (k : BitVec 10) (d : BitVec 5) (t : BitVec 4)
  /-- R163: ANDs with a sign-extended immediate. -/
  | andk (a : BitVec 5) (k : BitVec 10) (d : BitVec 5) (t : BitVec 4)
  /-- R163: ORs with a sign-extended immediate. -/
  | ork (a : BitVec 5) (k : BitVec 10) (d : BitVec 5) (t : BitVec 4)
  /-- R163: XORs with a sign-extended immediate. -/
  | xork (a : BitVec 5) (k : BitVec 10) (d : BitVec 5) (t : BitVec 4)
  /-- R163: Shifts left by an immediate count of 0 to 63. -/
  | shlk (a : BitVec 5) (k : BitVec 10) (d : BitVec 5) (t : BitVec 4)
  /-- R163: Shifts right logically by an immediate count. -/
  | shrk (a : BitVec 5) (k : BitVec 10) (d : BitVec 5) (t : BitVec 4)
  /-- R163: Shifts right arithmetically by an immediate count. -/
  | sark (a : BitVec 5) (k : BitVec 10) (d : BitVec 5) (t : BitVec 4)
  /-- R164: Loads a sign-extended 10-bit constant. -/
  | ldk (k : BitVec 10) (d : BitVec 5) (t : BitVec 4)
  /-- R164: Shifts a register left by 10 bits and appends a 10-bit constant. -/
  | ldkh (a : BitVec 5) (k : BitVec 10) (d : BitVec 5) (t : BitVec 4)
  /-- R165: Reads any entry of the thread's literal table. -/
  | ldl (k : BitVec 10) (d : BitVec 5) (t : BitVec 4)
  /-- R162: Gives the smaller of two signed values. -/
  | min (a : BitVec 5) (b : BitVec 5) (d : BitVec 5) (t : BitVec 4)
  /-- R162: Gives the larger of two signed values. -/
  | max (a : BitVec 5) (b : BitVec 5) (d : BitVec 5) (t : BitVec 4)
  /-- R162: Gives the smaller of two unsigned values. -/
  | minu (a : BitVec 5) (b : BitVec 5) (d : BitVec 5) (t : BitVec 4)
  /-- R162: Gives the larger of two unsigned values. -/
  | maxu (a : BitVec 5) (b : BitVec 5) (d : BitVec 5) (t : BitVec 4)
  /-- R162: Counts the leading zero bits. -/
  | clz (a : BitVec 5) (d : BitVec 5) (t : BitVec 4)
  /-- R162: Counts the one bits. -/
  | popc (a : BitVec 5) (d : BitVec 5) (t : BitVec 4)
  /-- R166: Sign-extends the low n bits. -/
  | sext (a : BitVec 5) (k : BitVec 10) (d : BitVec 5) (t : BitVec 4)
  /-- R166: Zero-extends the low n bits. -/
  | zext (a : BitVec 5) (k : BitVec 10) (d : BitVec 5) (t : BitVec 4)
  /-- R167: Chooses one of two sources by a predicate. -/
  | sel (a : BitVec 5) (b : BitVec 5) (d : BitVec 5) (e : BitVec 5) (t : BitVec 4)
  /-- R168: Multiplies and accumulates modulo 2^64, setting iovf on signed overflow. -/
  | mac (a : BitVec 5) (b : BitVec 5) (d : BitVec 5) (t : BitVec 4)
  /-- R169: Adds and saturates to the INT64 range, setting of on a clamp. -/
  | adds (a : BitVec 5) (b : BitVec 5) (d : BitVec 5) (t : BitVec 4)
  /-- R169: Subtracts and saturates to the INT64 range, setting of on a clamp. -/
  | subs (a : BitVec 5) (b : BitVec 5) (d : BitVec 5) (t : BitVec 4)
  /-- R170: Writes a = b to a predicate and, optionally, its complement to a second one. -/
  | cmpEq (a : BitVec 5) (b : BitVec 5) (d : BitVec 5) (e : BitVec 5) (t : BitVec 4)
  /-- R170: Writes a ≠ b to a predicate and, optionally, its complement. -/
  | cmpNe (a : BitVec 5) (b : BitVec 5) (d : BitVec 5) (e : BitVec 5) (t : BitVec 4)
  /-- R170: Writes the signed a < b to a predicate and, optionally, its complement. -/
  | cmpLt (a : BitVec 5) (b : BitVec 5) (d : BitVec 5) (e : BitVec 5) (t : BitVec 4)
  /-- R170: Writes the unsigned a < b to a predicate and, optionally, its complement. -/
  | cmpLtu (a : BitVec 5) (b : BitVec 5) (d : BitVec 5) (e : BitVec 5) (t : BitVec 4)
  /-- R170: Writes the signed a ≤ b to a predicate and, optionally, its complement. -/
  | cmpLe (a : BitVec 5) (b : BitVec 5) (d : BitVec 5) (e : BitVec 5) (t : BitVec 4)
  /-- R170: Writes the unsigned a ≤ b to a predicate and, optionally, its complement. -/
  | cmpLeu (a : BitVec 5) (b : BitVec 5) (d : BitVec 5) (e : BitVec 5) (t : BitVec 4)
  /-- R171: Writes equality with a signed immediate to a predicate. -/
  | cmpkEq (a : BitVec 5) (k : BitVec 10) (d : BitVec 5) (t : BitVec 4)
  /-- R171: Writes the signed less-than against an immediate to a predicate. -/
  | cmpkLt (a : BitVec 5) (k : BitVec 10) (d : BitVec 5) (t : BitVec 4)
  /-- R172: ANDs two predicates, either of which may be inverted. -/
  | pand (a : BitVec 5) (b : BitVec 5) (d : BitVec 5) (i : BitVec 5) (t : BitVec 4)
  /-- R172: ORs two predicates, either of which may be inverted. -/
  | por (a : BitVec 5) (b : BitVec 5) (d : BitVec 5) (i : BitVec 5) (t : BitVec 4)
  /-- R172: XORs two predicates, either of which may be inverted. -/
  | pxor (a : BitVec 5) (b : BitVec 5) (d : BitVec 5) (i : BitVec 5) (t : BitVec 4)
  /-- R173: Copies a predicate into a register as 0 or 1. -/
  | pget (a : BitVec 5) (d : BitVec 5) (t : BitVec 4)
  /-- R173: Sets a predicate from whether a register is nonzero. -/
  | pset (a : BitVec 5) (d : BitVec 5) (t : BitVec 4)
  /-- R174: Branches unconditionally within the handler's code. -/
  | br (o : BitVec 15) (t : BitVec 4)
  /-- R174: Branches when a register is zero. -/
  | brz (a : BitVec 5) (o : BitVec 15) (t : BitVec 4)
  /-- R174: Branches when a register is nonzero. -/
  | brnz (a : BitVec 5) (o : BitVec 15) (t : BitVec 4)
  /-- R175: Writes the return address to h9 and branches. -/
  | jl (o : BitVec 15) (t : BitVec 4)
  /-- R175: Jumps to a code address held in a register, after the checks of R37. -/
  | jr (a : BitVec 5) (t : BitVec 4)
  /-- R176: Decrements a register and branches while it is nonzero. -/
  | loop (a : BitVec 5) (o : BitVec 15) (t : BitVec 4)
  /-- R183: Commits the current reach once its probes have answered and opens the next reach. -/
  | reach (k : BitVec 10) (t : BitVec 4)
  /-- R245: Waits until the thread's released effects inside a scope are performed. -/
  | fence (k : BitVec 5) (t : BitVec 4)
  /-- R246: Waits until every effect the thread has released is performed everywhere. -/
  | drain (t : BitVec 4)
  /-- R203: Discards the current reach on purpose and re-enters it. -/
  | retry (t : BitVec 4)
  /-- R223: Loads a byte, zero-extended. -/
  | ldB (a : BitVec 5) (k : BitVec 10) (d : BitVec 5) (t : BitVec 4)
  /-- R223: Loads a halfword, zero-extended. -/
  | ldH (a : BitVec 5) (k : BitVec 10) (d : BitVec 5) (t : BitVec 4)
  /-- R223: Loads a word, zero-extended. -/
  | ldW (a : BitVec 5) (k : BitVec 10) (d : BitVec 5) (t : BitVec 4)
  /-- R223: Loads a doubleword. -/
  | ldD (a : BitVec 5) (k : BitVec 10) (d : BitVec 5) (t : BitVec 4)
  /-- R223: Buffers a byte store as an effect. -/
  | stB (a : BitVec 5) (k : BitVec 10) (s : BitVec 5) (t : BitVec 4)
  /-- R223: Buffers a halfword store as an effect. -/
  | stH (a : BitVec 5) (k : BitVec 10) (s : BitVec 5) (t : BitVec 4)
  /-- R223: Buffers a word store as an effect. -/
  | stW (a : BitVec 5) (k : BitVec 10) (s : BitVec 5) (t : BitVec 4)
  /-- R223: Buffers a doubleword store as an effect. -/
  | stD (a : BitVec 5) (k : BitVec 10) (s : BitVec 5) (t : BitVec 4)
  /-- R224: Loads at a register-indexed address. -/
  | ldx (a : BitVec 5) (b : BitVec 5) (d : BitVec 5) (e : BitVec 5) (t : BitVec 4)
  /-- R224: Buffers a store at a register-indexed address. -/
  | stx (a : BitVec 5) (b : BitVec 5) (s : BitVec 5) (e : BitVec 5) (t : BitVec 4)
  /-- R225: Loads 1 to 4 doublewords into consecutive registers, written in one step. -/
  | ldV (a : BitVec 5) (d : BitVec 5) (e : BitVec 5) (t : BitVec 4)
  /-- R226: Buffers a store of 1 to 4 consecutive registers as one effect. -/
  | stV (a : BitVec 5) (s : BitVec 5) (e : BitVec 5) (t : BitVec 4)
  /-- R227: Closing atomic add performed at the home. -/
  | atomAdd (a : BitVec 5) (b : BitVec 5) (d : BitVec 5) (t : BitVec 4)
  /-- R227: Closing atomic AND. -/
  | atomAnd (a : BitVec 5) (b : BitVec 5) (d : BitVec 5) (t : BitVec 4)
  /-- R227: Closing atomic OR. -/
  | atomOr (a : BitVec 5) (b : BitVec 5) (d : BitVec 5) (t : BitVec 4)
  /-- R227: Closing atomic XOR. -/
  | atomXor (a : BitVec 5) (b : BitVec 5) (d : BitVec 5) (t : BitVec 4)
  /-- R227: Closing atomic signed maximum. -/
  | atomMax (a : BitVec 5) (b : BitVec 5) (d : BitVec 5) (t : BitVec 4)
  /-- R227: Closing atomic signed minimum. -/
  | atomMin (a : BitVec 5) (b : BitVec 5) (d : BitVec 5) (t : BitVec 4)
  /-- R227: Closing atomic exchange. -/
  | atomXchg (a : BitVec 5) (b : BitVec 5) (d : BitVec 5) (t : BitVec 4)
  /-- R227: Closing atomic compare-and-swap. -/
  | atomCas (a : BitVec 5) (b : BitVec 5) (d : BitVec 5) (c : BitVec 5) (t : BitVec 4)
  /-- R227: Closing atomic FP32 add by RNE. -/
  | atomFadd (a : BitVec 5) (b : BitVec 5) (d : BitVec 5) (t : BitVec 4)
  /-- R227: Closing atomic add of four BF16 lanes. -/
  | atomBadd (a : BitVec 5) (b : BitVec 5) (d : BitVec 5) (t : BitVec 4)
  /-- R232: Reserves a queue slot and, at commit, releases a value into it with CORE scope. -/
  | pushCore (a : BitVec 5) (b : BitVec 5) (d : BitVec 5) (t : BitVec 4)
  /-- R232: Queue push with HIVE scope. -/
  | pushHive (a : BitVec 5) (b : BitVec 5) (d : BitVec 5) (t : BitVec 4)
  /-- R232: Queue push with DIE scope. -/
  | pushDie (a : BitVec 5) (b : BitVec 5) (d : BitVec 5) (t : BitVec 4)
  /-- R232: Queue push with DEVICE scope. -/
  | pushDev (a : BitVec 5) (b : BitVec 5) (d : BitVec 5) (t : BitVec 4)
  /-- R232: Queue push with SYSTEM scope. -/
  | pushSys (a : BitVec 5) (b : BitVec 5) (d : BitVec 5) (t : BitVec 4)
  /-- R233: Reserves the oldest queue entry and takes its value. -/
  | popCore (a : BitVec 5) (d : BitVec 5) (e : BitVec 5) (t : BitVec 4)
  /-- R233: Queue pop, HIVE variant. -/
  | popHive (a : BitVec 5) (d : BitVec 5) (e : BitVec 5) (t : BitVec 4)
  /-- R233: Queue pop, DIE variant. -/
  | popDie (a : BitVec 5) (d : BitVec 5) (e : BitVec 5) (t : BitVec 4)
  /-- R233: Queue pop, DEVICE variant. -/
  | popDev (a : BitVec 5) (d : BitVec 5) (e : BitVec 5) (t : BitVec 4)
  /-- R233: Queue pop, SYSTEM variant. -/
  | popSys (a : BitVec 5) (d : BitVec 5) (e : BitVec 5) (t : BitVec 4)
  /-- R107: Checks and buffers one barge, which is sent at commit. -/
  | send (a : BitVec 5) (b : BitVec 5) (d : BitVec 5) (e : BitVec 5) (t : BitVec 4)
  /-- R131: Parks the thread until n deposits have applied. -/
  | park (k : BitVec 10) (t : BitVec 4)
  /-- R133: Waits in MWAIT while the completion queue is empty. -/
  | waitm (t : BitVec 4)
  /-- R134: Reserves the oldest unreserved completion and copies it into two registers. -/
  | getm (d : BitVec 5) (e : BitVec 5) (t : BitVec 4)
  /-- R138: Reserves the bottom deque entry for a barge that becomes visible at commit. -/
  | spawn (a : BitVec 5) (b : BitVec 5) (d : BitVec 5) (e : BitVec 5) (t : BitVec 4)
  /-- R142: Closing effect that decrements a join record at its home. -/
  | join (a : BitVec 5) (d : BitVec 5) (t : BitVec 4)
  /-- R135: Closing effect that ships the thread as a packet to the home of an address. -/
  | migr (a : BitVec 5) (t : BitVec 4)
  /-- R146: Buffers one arrival for an arrival counter. -/
  | count (a : BitVec 5) (k : BitVec 10) (t : BitVec 4)
  /-- R145: Reserves an idle counter and sets it at commit. -/
  | cset (a : BitVec 5) (d : BitVec 5) (t : BitVec 4)
  /-- R379: Checks a haul descriptor, reserves its tag and issues the haul as an engine effect. -/
  | haul (a : BitVec 5) (d : BitVec 5) (t : BitVec 4)
  /-- R379: Issues a haul that passes through a transform subgraph. -/
  | haulX (a : BitVec 5) (d : BitVec 5) (t : BitVec 4)
  /-- R380: Buffers a cancel of the haul that holds a tag. -/
  | hcancel (a : BitVec 5) (t : BitVec 4)
  /-- R382: Buffers a request that a handler consumer empty a ring slot. -/
  | hslot (a : BitVec 5) (t : BitVec 4)
  /-- R383: Reads the state of a haul tag. -/
  | hstat (a : BitVec 5) (d : BitVec 5) (t : BitVec 4)
  /-- R347: Checks an op record and buffers it for the member's joint queue. -/
  | gang (a : BitVec 5) (t : BitVec 4)
  /-- R356: Buffers a clear of the member's slice of a bank. -/
  | jzero (e : BitVec 5) (t : BitVec 4)
  /-- R357: Checks a drain record and buffers a drain of the member's slice. -/
  | jdrain (a : BitVec 5) (e : BitVec 5) (t : BitVec 4)
  /-- R359: Buffers an ordered combine of n partial slots into the slice. -/
  | jdrainO (g : BitVec 5) (k : BitVec 10) (b : BitVec 5) (t : BitVec 4)
  /-- R360: Reads the state of the member's slice. -/
  | jstat (d : BitVec 5) (e : BitVec 5) (t : BitVec 4)
  /-- R361: Reads the hive's comparator status. -/
  | jred (d : BitVec 5) (t : BitVec 4)
  /-- R393: Asks the lockkeeper to reserve an instance and buffers its load. -/
  | gload (a : BitVec 5) (d : BitVec 5) (t : BitVec 4)
  /-- R398: Buffers activation of a SHADOW instance and, optionally, retirement of an ACTIVE one. -/
  | gswap (a : BitVec 5) (b : BitVec 5) (t : BitVec 4)
  /-- R401: Buffers a cut of an instance at a checkpoint id, or immediately. -/
  | gmark (a : BitVec 5) (b : BitVec 5) (t : BitVec 4)
  /-- R412: Reads the quiescence detector, the sequencer or a snapshot record. -/
  | gquiet (a : BitVec 5) (d : BitVec 5) (t : BitVec 4)
  /-- R396: Buffers new sequencer weights and boost bit for one compute tile. -/
  | gctx (a : BitVec 5) (b : BitVec 5) (t : BitVec 4)
  /-- R407: Buffers the write of a CUT instance to memory and its freeing. -/
  | gsave (a : BitVec 5) (b : BitVec 5) (t : BitVec 4)
  /-- R408: Buffers the resumption of a cut, in place or from memory. -/
  | grest (a : BitVec 5) (b : BitVec 5) (t : BitVec 4)
  /-- R424: Reserves a window entry and opens it at commit. -/
  | wopen (a : BitVec 5) (d : BitVec 5) (t : BitVec 4)
  /-- R425: Buffers the revocation of a window. -/
  | wclose (a : BitVec 5) (t : BitVec 4)
  /-- R429: Reserves a remote slot and buffers a copy from a window. -/
  | rget (a : BitVec 5) (d : BitVec 5) (t : BitVec 4)
  /-- R429: Reserves a remote slot and buffers a copy to a window. -/
  | rput (a : BitVec 5) (d : BitVec 5) (t : BitVec 4)
  /-- R429: Reserves a remote slot and buffers an atomic at a window. -/
  | ratom (a : BitVec 5) (d : BitVec 5) (t : BitVec 4)
  /-- R439: Reads link, remote-slot or window status. -/
  | nstat (a : BitVec 5) (d : BitVec 5) (t : BitVec 4)
  /-- R449: Reserves a group slot and buffers the binding of a collective group. -/
  | cjoin (a : BitVec 5) (d : BitVec 5) (t : BitVec 4)
  /-- R454: Reads collective group, peer or plane-trust state. -/
  | cstat (a : BitVec 5) (d : BitVec 5) (t : BitVec 4)
  /-- R296: An element rule copies a token. -/
  | mov (a : BitVec 5) (d : BitVec 5) (e : BitVec 5) (t : BitVec 4)
  /-- R297: Selects one of two sources by a q predicate. -/
  | pick (a : BitVec 5) (b : BitVec 5) (d : BitVec 5) (e : BitVec 5) (t : BitVec 4)
  /-- R298: Sends a token down one of two outputs by a control head. -/
  | steer (a : BitVec 5) (b : BitVec 5) (d : BitVec 5) (e : BitVec 5)
  /-- R299: Joins two streams in the order a control stream gives. -/
  | merge (a : BitVec 5) (k : BitVec 10) (d : BitVec 5) (t : BitVec 4)
  /-- R300: Joins two streams in arrival order. -/
  | mergeu (a : BitVec 5) (b : BitVec 5) (d : BitVec 5) (t : BitVec 4)
  /-- R301: Passes a token only when its condition head tests true. -/
  | guard (a : BitVec 5) (b : BitVec 5) (d : BitVec 5)
  /-- R302: Pushes acc and then steps acc by the source. -/
  | gen (a : BitVec 5) (d : BitVec 5) (e : BitVec 5) (t : BitVec 4)
  /-- R303: Pushes one token repeatedly, popping after the counted repeats. -/
  | rep (a : BitVec 5) (b : BitVec 5) (d : BitVec 5) (e : BitVec 5) (t : BitVec 4)
  /-- R304: Consumes a head of any kind. -/
  | drop (a : BitVec 5) (t : BitVec 4)
  /-- R305: Relabels a token as EOS. -/
  | eos (a : BitVec 5) (d : BitVec 5) (e : BitVec 5) (t : BitVec 4)
  /-- R305: Relabels a token as CTRL. -/
  | ctl (a : BitVec 5) (d : BitVec 5) (e : BitVec 5) (t : BitVec 4)
  /-- R306: Joins completion tokens of any kind into a DATA token. -/
  | sync (a : BitVec 5) (d : BitVec 5) (e : BitVec 5) (t : BitVec 4)
  /-- R307: Adds lane by lane. -/
  | vadd (a : BitVec 5) (b : BitVec 5) (d : BitVec 5) (e : BitVec 5) (t : BitVec 4)
  /-- R307: Subtracts lane by lane. -/
  | vsub (a : BitVec 5) (b : BitVec 5) (d : BitVec 5) (e : BitVec 5) (t : BitVec 4)
  /-- R307: Multiplies lane by lane. -/
  | vmul (a : BitVec 5) (b : BitVec 5) (d : BitVec 5) (e : BitVec 5) (t : BitVec 4)
  /-- R307: Computes a · b + acc lane by lane with one rounding. -/
  | vfma (a : BitVec 5) (b : BitVec 5) (d : BitVec 5) (e : BitVec 5) (t : BitVec 4)
  /-- R307: Gives the lane maximum. -/
  | vmax (a : BitVec 5) (b : BitVec 5) (d : BitVec 5) (e : BitVec 5) (t : BitVec 4)
  /-- R307: Gives the lane minimum. -/
  | vmin (a : BitVec 5) (b : BitVec 5) (d : BitVec 5) (e : BitVec 5) (t : BitVec 4)
  /-- R307: Bitwise AND of two tokens. -/
  | vand (a : BitVec 5) (b : BitVec 5) (d : BitVec 5) (e : BitVec 5) (t : BitVec 4)
  /-- R307: Bitwise OR of two tokens. -/
  | vor (a : BitVec 5) (b : BitVec 5) (d : BitVec 5) (e : BitVec 5) (t : BitVec 4)
  /-- R307: Bitwise XOR of two tokens. -/
  | vxor (a : BitVec 5) (b : BitVec 5) (d : BitVec 5) (e : BitVec 5) (t : BitVec 4)
  /-- R307: Shifts integer lanes left. -/
  | vshl (a : BitVec 5) (b : BitVec 5) (d : BitVec 5) (e : BitVec 5) (t : BitVec 4)
  /-- R307: Shifts integer lanes right with sign fill. -/
  | vshr (a : BitVec 5) (b : BitVec 5) (d : BitVec 5) (e : BitVec 5) (t : BitVec 4)
  /-- R307: Compares lanes for equality, giving all ones or zero. -/
  | vcmpEq (a : BitVec 5) (b : BitVec 5) (d : BitVec 5) (e : BitVec 5) (t : BitVec 4)
  /-- R307: Compares lanes for less-than, giving all ones or zero. -/
  | vcmpLt (a : BitVec 5) (b : BitVec 5) (d : BitVec 5) (e : BitVec 5) (t : BitVec 4)
  /-- R307: Gives the lane absolute value. -/
  | vabs (a : BitVec 5) (d : BitVec 5) (e : BitVec 5) (t : BitVec 4)
  /-- R307: Sums the lanes left to right into one value. -/
  | vred (a : BitVec 5) (d : BitVec 5) (e : BitVec 5) (t : BitVec 4)
  /-- R307: Forms the dot product of two tokens in lane order. -/
  | vdot (a : BitVec 5) (b : BitVec 5) (d : BitVec 5) (e : BitVec 5) (t : BitVec 4)
  /-- R308: Converts lanes to another format by a mode, optionally saturating. -/
  | vcvt (a : BitVec 5) (k : BitVec 10) (d : BitVec 5) (t : BitVec 4)
  /-- R309: Computes 1/a in each lane. -/
  | vrcp (a : BitVec 5) (d : BitVec 5) (e : BitVec 5) (t : BitVec 4)
  /-- R309: Computes 1/√a in each lane. -/
  | vrsq (a : BitVec 5) (d : BitVec 5) (e : BitVec 5) (t : BitVec 4)
  /-- R309: Computes 2^a in each lane. -/
  | vexp2 (a : BitVec 5) (d : BitVec 5) (e : BitVec 5) (t : BitVec 4)
  /-- R309: Computes log2 a in each lane. -/
  | vlog2 (a : BitVec 5) (d : BitVec 5) (e : BitVec 5) (t : BitVec 4)
  /-- R310: Permutes lanes by an index token. -/
  | vperm (a : BitVec 5) (b : BitVec 5) (d : BitVec 5) (e : BitVec 5) (t : BitVec 4)
  /-- R310: Broadcasts one lane to every lane. -/
  | vbcast (a : BitVec 5) (b : BitVec 5) (d : BitVec 5) (e : BitVec 5) (t : BitVec 4)
  /-- R311: Forms running lane sums carried in acc. -/
  | vscan (a : BitVec 5) (d : BitVec 5) (e : BitVec 5) (t : BitVec 4)
  /-- R334: A memory node issues a 16-byte load whose data becomes its completion token. -/
  | mld (a : BitVec 5) (d : BitVec 5) (e : BitVec 5) (t : BitVec 4)
  /-- R335: A memory node issues a masked store of up to 16 bytes. -/
  | mst (a : BitVec 5) (b : BitVec 5) (d : BitVec 5) (e : BitVec 5) (t : BitVec 4)
  /-- R336: A memory node issues an atomic at the home. -/
  | matom (a : BitVec 5) (k : BitVec 10) (d : BitVec 5) (t : BitVec 4)
  /-- R330: Takes the next token, or the status, of a store-tile generator. -/
  | sld (s : BitVec 5) (d : BitVec 5) (e : BitVec 5) (t : BitVec 4)
  /-- R332: Writes a token into a generator's write port. -/
  | sst (a : BitVec 5) (g : BitVec 5) (t : BitVec 4)
  /-- R338: Steps a bitmap expansion by its phase, emitting (coordinate, value) tokens. -/
  | bmexp (a : BitVec 5) (b : BitVec 5) (d : BitVec 5) (e : BitVec 5) (t : BitVec 4)
  /-- R340: Consumes one matched pair from an intersection unit. -/
  | isect (a : BitVec 5) (b : BitVec 5) (d : BitVec 5) (e : BitVec 5) (t : BitVec 4)
  /-- R444: Gives one token to a collective node. -/
  | xsend (a : BitVec 5) (d : BitVec 5)
  /-- R445: Takes one result token and its source rank from a collective node. -/
  | xrecv (a : BitVec 5) (d : BitVec 5) (e : BitVec 5) (t : BitVec 4)
  /-- R44: A thread issues a word with opcode 0x00, a reserved opcode or an element-only opcode and takes an ending fault. -/
  | illegalOp
  /-- R37: A thread fetches at or beyond the end of its handler's code and raises BOUNDS. -/
  | fetchBounds
  /-- R23: The host's LAUNCH barge is taken by die 0's lockkeeper, which checks the manifest and loads and starts the job. -/
  | launch
  /-- R27: The lead's lockkeeper takes a member's SPAN_JOIN, counts it and answers every member when the count is reached. -/
  | spanJoin
  /-- R27: A member receives the lead's member table and session key, or its refusal, and completes or refuses its launch. -/
  | spanAnswer
  /-- R27: A member has had no member table 10 s after SPAN_JOIN and refuses its launch with LINK_TIMEOUT. -/
  | spanJoinTimeout
  /-- R27: The lead's count has not reached devices 10 s after its step 8, so it refuses its launch and every member. -/
  | spanLeadTimeout
  /-- R25: A JOB_END barge arrives at a lockkeeper; dispatch of the SID stops, or the barge is passed on toward die 0 or the lead. -/
  | jobEnd
  /-- R25: Once every committed effect of the SID is performed, the lockkeeper frees the job's state, returns its hives and retires the SID. -/
  | jobEndTeardown
  /-- R410: The completion condition has held for 4,096 cycles on every die, so the SID is complete and is ended as at JOB_END. -/
  | completionDetect
  /-- R410: The SID has been idle for 2^24 cycles without being complete; report records are built and the SID is killed. -/
  | deadlockDetect
  /-- R28: The lead takes a member's QUIET report and, when all are quiet, starts counting rounds. -/
  | quietReport
  /-- R28: The lead takes a member's ACTIVE report. -/
  | activeReport
  /-- R28: A member answers the lead's request for a fresh report with its state and packet counts. -/
  | freshReportRequest
  /-- R28: A member has had no route to the lead for 10 s and kills its share of the job. -/
  | leadUnreachable
  /-- R28: A kill passed by or to the lead arrives and is carried out under R473. -/
  | spanKill
  /-- R110: A barge or thread packet arrives at a core's basin and takes a slot, spills, enters the lane or is refused. -/
  | bargeArrival
  /-- R109: A BUSY reply reaches the source send unit, which schedules a resend or, after 16, drops the barge. -/
  | busyReply
  /-- R109: The send unit's back-off wait ends and it resends the refused barge or packet. -/
  | bargeResend
  /-- R108: A destination device's failure report for a barge reaches the sending unit, which reports REMOTE_VIOLATION. -/
  | remoteReject
  /-- R112: A head that has waited 4,096 cycles moves to the tail of the next higher priority. -/
  | promotion
  /-- R113: A fault barge not dispatched within 4,096 cycles is redelivered as a rank-7 fault to the die's lockkeeper. -/
  | faultRedelivery
  /-- R117: A core dispatches one item into its lowest FREE context: a basin head, its own deque entry, or a stolen entry. -/
  | dispatch
  /-- R125: A continuation barge or result deposit reaches its context and is applied, held or dropped. -/
  | deposit
  /-- R127: A held deposit applies, one per cycle, to a context in a park wait. -/
  | heldDepositApply
  /-- R222: A remote load's reply, NACK or poison reaches the waiting thread. -/
  | loadReply
  /-- R132: A completion enters the core's completion queue and wakes every MWAIT context. -/
  | completionArrival
  /-- R139: An idle core holds a context and sends a steal request into its steal domain. -/
  | stealRequest
  /-- R139: A victim core takes a steal request and sends its top entry or answers empty. -/
  | stealVictim
  /-- R139: The thief receives the answer and dispatches the entry or releases the held context. -/
  | stealAnswer
  /-- R142: The home decrements a join record, deposits the result and sends the continuation at zero. -/
  | joinPerform
  /-- R147: An arrival is counted by an arrival counter in its phase or toward the next one. -/
  | counterArrival
  /-- R147: A counter still at or above target fires again in the next cycle. -/
  | counterCarryFire
  /-- R193: Once its waits end, a boundary commits the reach, making reservations permanent and releasing effects. -/
  | commit
  /-- R193: A committed effect leaves the core, at most one per cycle, when the outstanding limit allows. -/
  | effectRelease
  /-- R190: A translation probe's answer returns to the buffered effect. -/
  | probeAnswer
  /-- R197: A lockkeeper pre-emption takes effect at the first allowed point and discards or suspends the reach. -/
  | preemption
  /-- R197: The lockkeeper ends a pre-emption and the context becomes READY. -/
  | preemptionEnd
  /-- R209: A fault reaches the lockkeeper, which sends a FAULT event and kills the SID. -/
  | rank7Fault
  /-- R276: The resume message of a resolved page fault reaches the suspended thread or stalled unit, which re-enters or reissues. -/
  | faultResume
  /-- R219: A home performs an arriving load and replies. -/
  | loadPerform
  /-- R219: A home performs an arriving store and acknowledges it. -/
  | storePerform
  /-- R236: The acknowledgement of a store, atomic or settle reaches the issuing core. -/
  | storeAck
  /-- R228: A home performs an atomic in one access and deposits the old value. -/
  | atomicPerform
  /-- R231: A queue's home takes a push or pop reservation request and answers success or failure. -/
  | queueReserve
  /-- R231: A queue's home takes a commit or discard settle and updates the header. -/
  | queueSettle
  /-- R220: An edge core recalls or downgrades a companion-cached line before an access or new filter entry. -/
  | snoopRecall
  /-- R220: A companion processor access to HBM reaches the edge core's filter and home order. -/
  | companionRequest
  /-- R234: A committed push is sent to its home once earlier releases inside its scope are performed. -/
  | pushSend
  /-- R244: The thread packet of a committed migr is sent after every earlier release is performed. -/
  | migrShip
  /-- R245: The last awaited acknowledgement arrives and the fence retires. -/
  | fenceDone
  /-- R246: The last awaited perform arrives and the drain retires. -/
  | drainDone
  /-- R271: A station takes a translation request and answers a hit or starts or joins a walk. -/
  | translation
  /-- R270: A walk's level reads complete and the station answers the translation. -/
  | pageWalk
  /-- R272: A miss refused with a retry is reissued 64 cycles later. -/
  | missRetry
  /-- R278: The owner's SHOOTDOWN barge makes stations drop entries and restart walks for the pages named. -/
  | shootdown
  /-- R279: Once accesses released with the old translation are performed, a SHOT event is sent. -/
  | shot
  /-- R314: A token or marker arrives in a consumer's input latch. -/
  | tokenArrival
  /-- R314: An acknowledgement arrives and frees the producer's output slot. -/
  | arcAck
  /-- R395: The sequencer's count for its current plane runs out or the plane is not eligible, and it moves on, counting skips. -/
  | planeSwitch
  /-- R333: A memory node's access is answered and its completion token is pushed, or the rule stalls on a fault. -/
  | memNodeCompletion
  /-- R323: A store-tile generator takes a token at its write port by mode and kind. -/
  | writePortToken
  /-- R323: Once no pass can begin or the consumer has emptied every slot, the buffer places EOS if required, resets its indices and reopens. -/
  | bufferReopen
  /-- R325: A generator in RUN begins a pass when its slot or window is full. -/
  | passStart
  /-- R327: A towpath start token moves a generator to RUN. -/
  | towpathStart
  /-- R327: A towpath stop token moves a generator to IDLE. -/
  | towpathStop
  /-- R329: A freed-slot notice reaches an engine producer, which may begin filling that slot. -/
  | freedSlotNotice
  /-- R349: All eight members' gang heads leave together and are compared by the wired barrier. -/
  | jointBarrier
  /-- R349: An op reaching the head of the hive op queue has its slice states, generators and bindings checked. -/
  | opHeadCheck
  /-- R350: An op starts once its shard flag is set and no slice instruction runs on its bank. -/
  | opStart
  /-- R350: A K block starts once every slot it reads is full. -/
  | blockStart
  /-- R350: An op's last block is added, its partial slot written if ORDERED, and last seq updated. -/
  | opComplete
  /-- R348: A jzero, jdrain or jdrain.o leaves the joint queue and begins once earlier ops on its bank are done. -/
  | sliceStart
  /-- R357: Every write of a drain is performed; the full bit is set and the towpath token sent. -/
  | jdrainComplete
  /-- R359: All n partial slots are full and are combined in ascending shard order into the slice. -/
  | partialCombine
  /-- R372: The engine starts a queued haul, pre-checks its addresses and binds its rings. -/
  | haulStart
  /-- R376: A haul memory access is answered: performed, stalled on NACK, failed, or poisoned. -/
  | haulAccessAnswer
  /-- R378: Once every access is performed the haul sends its completion and unbinds. -/
  | haulComplete
  /-- R380: The engine performs a released hcancel on whatever haul holds the tag. -/
  | haulCancel
  /-- R382: The store tile performs an hslot, emptying the drain slot and sending its notice, or reports ILLEGAL_FORM. -/
  | hslotPerform
  /-- R393: The lockkeeper takes a gload reservation request for planes and generators and answers. -/
  | graphReserve
  /-- R394: The released load writes each element record into its plane. -/
  | gloadPerform
  /-- R394: Every plane is written; the instance becomes SHADOW and the completion is sent. -/
  | gloadDone
  /-- R398: The lockkeeper performs a gswap, checks the instances and places RECONF at the old sources. -/
  | gswapPerform
  /-- R399: A node that has RECONF on every entering edge and is quiet records its held tokens and passes RECONF. -/
  | reconfPass
  /-- R400: Every node has passed RECONF; the swap completes or, with strays, is abandoned. -/
  | swapEnd
  /-- R401: The lockkeeper performs a gmark and the instance becomes MARKING. -/
  | gmarkPerform
  /-- R402: A node records for the cut, waits for its accesses, saves state and sends MARK. -/
  | nodeRecord
  /-- R402: Every node has recorded and every MARK is received; the instance is CUT and completions sent. -/
  | cutComplete
  /-- R407: The lockkeeper starts writing a CUT instance to memory through the haul engine. -/
  | gsavePerform
  /-- R407: The last write of a save is performed and the instance becomes FREE. -/
  | gsaveDone
  /-- R408: A grest resumes a cut in place or reads a cut area in full. -/
  | grestPerform
  /-- R408: A rebuilt instance becomes ACTIVE and its hauls resume. -/
  | grestDone
  /-- R396: A tile takes released gctx weights, clears skip counts and resets its count. -/
  | gctxPerform
  /-- R418: A link receiver finds a CRC failure and the sender resends from that flit. -/
  | replayRequest
  /-- R419: A lane blamed for 64 failures is replaced by the spare. -/
  | laneSpare
  /-- R419: The lane change ends and flits cross again; LANE_SPARED is sent. -/
  | laneSpareDone
  /-- R420: A link goes DOWN; its replay buffer is discarded, routes change and LINK_DOWN is sent. -/
  | linkDown
  /-- R420: Once per millisecond a DOWN link tries to train, and goes UP with LINK_UP if it trains. -/
  | linkTrain
  /-- R417: A destination router takes an ordered packet in sequence, or discards a duplicate or bad seal. -/
  | routerAccept
  /-- R417: A destination acknowledgement frees kept ordered packets at the source router. -/
  | routerAck
  /-- R417: After 65,536 cycles without acknowledgement, or a route change, the router resends in order. -/
  | routerResend
  /-- R423: A window entry's home takes a wopen reservation or open request. -/
  | windowReserve
  /-- R426: A remote access piece is checked at the entry home and performed or failed. -/
  | windowPieceCheck
  /-- R425: The entry home performs a wclose, making the entry CLOSING. -/
  | wclosePerform
  /-- R425: Accesses checked before the close are performed; the entry is FREE and the completion sent. -/
  | windowFreed
  /-- R432: A window's home performs a ratom once, by request id, and answers with the old value. -/
  | ratomPerform
  /-- R430: An answer for a remote piece, element or operation reaches the requester. -/
  | remoteAnswer
  /-- R433: An attempt's wait runs out; it is resent or, after NRETRY, the operation gives up with LINK_TIMEOUT. -/
  | remoteAttemptTimeout
  /-- R434: A requester's release frees its request-id table entry. -/
  | requestIdRelease
  /-- R434: A request-id entry is freed 2^30 cycles after its first arrival. -/
  | requestIdExpiry
  /-- R449: The lockkeeper takes a cjoin reservation request for one group rank. -/
  | cjoinReserve
  /-- R449: After release the lockkeeper checks the instance, table, ratio and key node, then starts path checks. -/
  | cjoinCheck
  /-- R450: A peer's lockkeeper takes a group check barge and answers. -/
  | pathCheck
  /-- R450: The answer arrives; when every peer is counted the plan is set and the cjoin completes. -/
  | pathCheckAnswer
  /-- R450: After RTIMEOUT a peer not yet joined is asked again. -/
  | pathCheckReask
  /-- R460: A switch acknowledges installation of the job key. -/
  | keyInstallAck
  /-- R440: A collective node takes a contribution and combines it when it is the combining rank. -/
  | contributionArrival
  /-- R452: A reduced or gathered result token arrives at a rank's node for delivery. -/
  | resultArrival
  /-- R456: A switch's SPDM response arrives and the next attestation step runs. -/
  | spdmResponse
  /-- R456: No response within 100 ms; the request is resent, or after 3 tries the reason is timeout. -/
  | spdmTimeout
  /-- R455: The lockkeeper as responder takes an SPDM request from the companion or a member lockkeeper. -/
  | spdmRequest
  /-- R458: The owner's POLICY barge sets the attestation policy for later jobs. -/
  | policy
  /-- R467: A parity or uncorrectable error squashes the firing and holds the element. -/
  | elementError
  /-- R469: A second error within 1 ms moves all four planes to the spare, ending with ELEMENT_SPARED. -/
  | spareMove
  /-- R470: The owner's TWIN barge arms a twin pair of instances. -/
  | twin
  /-- R472: The owner's KILL barge kills a SID. -/
  | kill
  /-- R472: An uncorrectable error not pinned to a unit kills the SIDs it carries or serves. -/
  | unpinnedError
  /-- R473: A die's lockkeeper stops dispatch, frees threads, instances and remote state of the SID. -/
  | dieKill
  /-- R473: No released effect of the SID is in flight; pages are quarantined, memories zeroed and KILLED sent. -/
  | killDrainDone
  /-- R275: The frame is zero-filled; both bits are cleared with a shootdown. -/
  | scrubDone
  /-- R474: An uncorrectable error in lockkeeper memory kills the die's SIDs and restarts the lockkeeper. -/
  | lockkeeperMemoryError
  /-- R488: A restarted lockkeeper reloads the job table, clears lkrestart and resumes work. -/
  | lockkeeperRestartDone
  /-- R485: Power-good starts firmware verification of the active slot. -/
  | powerGood
  /-- R485: After verification, HBM PHYs, SerDes and clocks are calibrated and the node id read. -/
  | calibrate
  /-- R485: All memories are written to zero with fresh ECC. -/
  | memoryZeroInit
  /-- R485: Elements are self-tested and failing ones mapped to spares. -/
  | elementSelfTest
  /-- R485: Start-up completes, ready is set and the cycle counter starts. -/
  | ready
  /-- R477: The companion writes 64 bytes to the barge port, forming a host barge. -/
  | bargePortWrite
  /-- R478: A malformed host barge or unknown service index is dropped with REFUSED. -/
  | unknownService
  /-- R482: A write of 1 to DCR_CLAIM makes the writer owner when none owns, or confirms a handover. -/
  | claimWrite
  /-- R483: The owner writes successor 0 to DCR_HANDOVER and gives up ownership. -/
  | relinquish
  /-- R483: The owner names another master in DCR_HANDOVER, which becomes pending. -/
  | handover
  /-- R483: An unconfirmed handover lapses after 1 s with an OWNER event of cause revert. -/
  | handoverTimeout
  /-- R483: The owner's path stays DOWN for 1 s and ownership lapses. -/
  | ownerPathLost
  /-- R490: The owner writes FENCED for an ONLINE hive; a held hive is moved. -/
  | hiveFence
  /-- R491: The hive's state is copied to the target, redirection begins, and cuts and pre-emptions end. -/
  | hiveMoveDone
  /-- R490: The owner writes TESTING for a FENCED hive to start self-test. -/
  | hiveTest
  /-- R490: Self-test ends; the hive is FENCED with status 0 or 2. -/
  | hiveTestDone
  /-- R490: The owner writes REPAIRING; elements are retested and spares freed, then FENCED. -/
  | hiveRepair
  /-- R490: The owner writes ONLINE for a FENCED hive; its memories are zeroed and it becomes allottable. -/
  | hiveOnline
  /-- R421: The owner writes the off bit of DCR_LINK_STATE to hold a link DOWN or release it. -/
  | linkOff
  /-- R466: The owner writes ones to clear DCR_RAS counters. -/
  | rasClear
  /-- R480: The companion writes DCR_HB_BASE, setting the basin and resetting head and tail. -/
  | hostBasinBase
  /-- R480: The companion writes head in DCR_HB_PTR, freeing ring entries for held events. -/
  | hostBasinHead
  /-- R492: An accepted write of DCR_PWR_CAP sets a new cap and sends a POWER event. -/
  | powerCap
  /-- R493: A write of ones clears sticky bits of DCR_PWR_EVENT. -/
  | powerEventClear
  /-- R494: The owner writes the thermal limit of DCR_THERM. -/
  | thermalLimit
  /-- R481: A master writes a DCR without behaviour of its own; it is applied or ignored. -/
  | dcrWrite
  /-- R494: A die crosses the temperature limit, throttling and sending THERMAL. -/
  | thermalCrossing
  /-- R494: A die reaches 110 °C; every SID is killed and the device stops. -/
  | thermalTrip
  /-- R489: The owner's FW_STAGE barge verifies an image and writes it to the inactive slot. -/
  | fwStage
  /-- R489: The owner's FW_ACTIVATE barge marks the staged slot active and restarts both lockkeepers. -/
  | fwActivate
  /-- R493: The measured power reaches or falls back from the cap, so the device sets hit and limiting and starts or stops throttling. -/
  | capReached
  /-- R450: A group check barge gets no answer within the timing of R433, and the join completes with LINK_TIMEOUT. -/
  | pathCheckTimeout
  /-- R418: A link receiver's in-order acknowledgement of good flits reaches the sender, which frees its replay buffer and may resume sending below 256 outstanding flits. -/
  | linkFlitAck
  /-- R350: A K block's products finish accumulating, and after the last block of a slot that slot is emptied and its freed-slot notice is sent. -/
  | blockEnd
  /-- R455: A member lockkeeper, as SPDM requester, receives a response from the lead's lockkeeper while it opens its secured session before SPAN_JOIN. -/
  | leadSessionResponse
  /-- R452: A measured switch answers a reduction request or a group registration with an error or a refusal, and the group's plan is set again, falling back to ENDPOINT. -/
  | switchErrorAnswer
  deriving DecidableEq, Repr

end Sys2Proof
end

