-- ==== Sys2Proof/WellFormed.lean ====
section
/-! DEFINITION. Which words are well formed: the port checks (check 2 of R44, R38, R40) and the checks of fields and
TAG (check 3 of R44, R34, R43, R45). A step that has no word is well formed. -/

namespace Sys2Proof.WellFormed

open Sys2Proof

/-- A source port of a handler thread (R38): h0 to h9, z, pw, self, k0 to k15. -/
def srcH (p : BitVec 5) : Bool := p.toNat ≤ 12 || 16 ≤ p.toNat

/-- A destination port of a handler thread (R38, R159): h0 to h9, z, pw. -/
def dstH (p : BitVec 5) : Bool := p.toNat ≤ 11

/-- A field that takes h0 to h9 only (R168, R176). -/
def regH (p : BitVec 5) : Bool := p.toNat ≤ 9

/-- A field that takes h0 to h9 or z (R142, R227). -/
def regzH (p : BitVec 5) : Bool := p.toNat ≤ 10

/-- A predicate that is written (R150). -/
def predW (p : BitVec 5) : Bool := 1 ≤ p.toNat && p.toNat ≤ 7

/-- A predicate that is read. -/
def predR (p : BitVec 5) : Bool := p.toNat ≤ 7

/-- The assigned CSR indices (R152). -/
def csrKnown (k : BitVec 10) : Bool :=
  [0x000, 0x001, 0x002, 0x003, 0x010, 0x011, 0x012, 0x013, 0x020, 0x030, 0x031, 0x040, 0x050, 0x051, 0x060].contains
    k.toNat

/-- The CSRs that `csrw` may write (R152, R158). -/
def csrWritable (k : BitVec 10) : Bool := [0x011, 0x020, 0x050, 0x051].contains k.toNat

/-- A source port of an element rule (R40). -/
def srcE (p : BitVec 5) : Bool := p.toNat ≤ 13 || (16 ≤ p.toNat && p.toNat ≤ 23)

/-- A destination port of an element rule (R40). -/
def dstE (p : BitVec 5) : Bool := p.toNat ≤ 11 || p.toNat == 13

/-- The tag actions that push nothing (R45). -/
def tagNone (t : BitVec 4) : Bool := t == 3 || (8 ≤ t.toNat && t.toNat ≤ 11)

/-- R45 for an instruction with a DB destination: a field that receives nothing is zero. -/
def tagW (d e : BitVec 5) (t : BitVec 4) : Bool :=
  (d == 0 || !(t == 2 || tagNone t)) && (e == 0 || t == 1 || t == 2)

/-- R45 where DB holds something else: actions 1 and 2 are refused (R181, R297, R299, R308, R336). -/
def tagK (d : BitVec 5) (t : BitVec 4) : Bool := (d == 0 || !tagNone t) && t != 1 && t != 2

/-- The outputs `steer` may name (R298): a channel or null. -/
def steerDst (p : BitVec 5) : Bool := p.toNat ≤ 7 || p == 9

/-- `merge` names three different channels (R299). -/
def mergeDistinct (a : BitVec 5) (k : BitVec 10) : Bool :=
  let x := k.toNat % 8
  let y := k.toNat / 8 % 8
  x != y && a.toNat != x && a.toNat != y

/-- The selector of `vcvt` (R308): a target format 0 to 12, a rounding 0 to 4, bits 9..8 zero. -/
def cvtOk (k : BitVec 10) : Bool := k.toNat % 16 ≤ 12 && k.toNat / 16 % 8 ≤ 4 && k.toNat < 256


/-- Check 2 of R44 for a thread, and R40 for a rule: every port field names a port it may. -/
def portsOk : Instr → Bool
  | .nop _
  | .done _
  | .trap _ _
  | .yield _
  | .brk _ _
  | .pand _ _ _ _ _
  | .por _ _ _ _ _
  | .pxor _ _ _ _ _
  | .br _ _
  | .jl _ _
  | .reach _ _
  | .fence _ _
  | .drain _
  | .retry _
  | .park _ _
  | .waitm _
  | .getm _ _ _
  | .jzero _ _
  | .jdrainO _ _ _ _ => true
  | .nopElement d e _
  | .sld _ d e _ => dstE d && dstE e
  | .csrr _ d _
  | .stat _ d _
  | .clk d _
  | .id d _ _
  | .ldk _ d _
  | .ldl _ d _
  | .pget _ d _
  | .jstat d _ _
  | .jred d _ => dstH d
  | .csrw a _ _
  | .cmpkEq a _ _ _
  | .cmpkLt a _ _ _
  | .pset a _ _
  | .brz a _ _
  | .brnz a _ _
  | .jr a _
  | .ldV a _ _ _
  | .stV a _ _ _
  | .spawn a _ _ _ _
  | .migr a _
  | .count a _ _
  | .cset a _ _
  | .haul a _ _
  | .haulX a _ _
  | .hcancel a _
  | .hslot a _
  | .gang a _
  | .jdrain a _ _
  | .gload a _ _
  | .wopen a _ _
  | .wclose a _
  | .rget a _ _
  | .rput a _ _
  | .ratom a _ _
  | .cjoin a _ _ => srcH a
  | .statElement _ d _ => dstE d
  | .add a b d _
  | .sub a b d _
  | .mul a b d _
  | .mulh a b d _
  | .mulhu a b d _
  | .div a b d _
  | .divu a b d _
  | .rem a b d _
  | .remu a b d _
  | .and a b d _
  | .or a b d _
  | .xor a b d _
  | .shl a b d _
  | .shr a b d _
  | .sar a b d _
  | .andn a b d _
  | .min a b d _
  | .max a b d _
  | .minu a b d _
  | .maxu a b d _
  | .sel a b d _ _
  | .adds a b d _
  | .subs a b d _
  | .ldx a b d _ _ => srcH a && srcH b && dstH d
  | .addk a _ d _
  | .andk a _ d _
  | .ork a _ d _
  | .xork a _ d _
  | .shlk a _ d _
  | .shrk a _ d _
  | .sark a _ d _
  | .ldkh a _ d _
  | .clz a d _
  | .popc a d _
  | .sext a _ d _
  | .zext a _ d _
  | .ldB a _ d _
  | .ldH a _ d _
  | .ldW a _ d _
  | .ldD a _ d _
  | .hstat a d _
  | .gquiet a d _
  | .nstat a d _
  | .cstat a d _ => srcH a && dstH d
  | .mac a b d _ => srcH a && srcH b && regH d
  | .cmpEq a b _ _ _
  | .cmpNe a b _ _ _
  | .cmpLt a b _ _ _
  | .cmpLtu a b _ _ _
  | .cmpLe a b _ _ _
  | .cmpLeu a b _ _ _
  | .pushCore a b _ _
  | .pushHive a b _ _
  | .pushDie a b _ _
  | .pushDev a b _ _
  | .pushSys a b _ _
  | .send a b _ _ _
  | .gswap a b _
  | .gmark a b _
  | .gctx a b _
  | .gsave a b _
  | .grest a b _ => srcH a && srcH b
  | .loop a _ _ => regH a
  | .stB a _ s _
  | .stH a _ s _
  | .stW a _ s _
  | .stD a _ s _ => srcH a && srcH s
  | .stx a b s _ _ => srcH a && srcH b && srcH s
  | .atomAdd a b d _
  | .atomAnd a b d _
  | .atomOr a b d _
  | .atomXor a b d _
  | .atomMax a b d _
  | .atomMin a b d _
  | .atomXchg a b d _
  | .atomFadd a b d _
  | .atomBadd a b d _ => srcH a && srcH b && regzH d
  | .atomCas a b d c _ => srcH a && srcH b && regzH d && srcH c
  | .popCore a _ e _
  | .popHive a _ e _
  | .popDie a _ e _
  | .popDev a _ e _
  | .popSys a _ e _ => srcH a && dstH e
  | .join a d _ => srcH a && regzH d
  | .mov a d e _
  | .gen a d e _
  | .eos a d e _
  | .ctl a d e _
  | .sync a d e _
  | .vabs a d e _
  | .vred a d e _
  | .vrcp a d e _
  | .vrsq a d e _
  | .vexp2 a d e _
  | .vlog2 a d e _
  | .vscan a d e _
  | .mld a d e _
  | .xrecv a d e _ => srcE a && dstE d && dstE e
  | .pick a b d _ _
  | .mergeu a b d _
  | .guard a b d => srcE a && srcE b && dstE d
  | .steer a b d e
  | .rep a b d e _
  | .vadd a b d e _
  | .vsub a b d e _
  | .vmul a b d e _
  | .vfma a b d e _
  | .vmax a b d e _
  | .vmin a b d e _
  | .vand a b d e _
  | .vor a b d e _
  | .vxor a b d e _
  | .vshl a b d e _
  | .vshr a b d e _
  | .vcmpEq a b d e _
  | .vcmpLt a b d e _
  | .vdot a b d e _
  | .vperm a b d e _
  | .vbcast a b d e _
  | .mst a b d e _
  | .bmexp a b d e _
  | .isect a b d e _ => srcE a && srcE b && dstE d && dstE e
  | .merge a _ d _
  | .vcvt a _ d _
  | .matom a _ d _
  | .xsend a d => srcE a && dstE d
  | .drop a _
  | .sst a _ _ => srcE a
  | .illegalOp
  | .fetchBounds
  | .launch
  | .spanJoin
  | .spanAnswer
  | .spanJoinTimeout
  | .spanLeadTimeout
  | .jobEnd
  | .jobEndTeardown
  | .completionDetect
  | .deadlockDetect
  | .quietReport
  | .activeReport
  | .freshReportRequest
  | .leadUnreachable
  | .spanKill
  | .bargeArrival
  | .busyReply
  | .bargeResend
  | .remoteReject
  | .promotion
  | .faultRedelivery
  | .dispatch
  | .deposit
  | .heldDepositApply
  | .loadReply
  | .completionArrival
  | .stealRequest
  | .stealVictim
  | .stealAnswer
  | .joinPerform
  | .counterArrival
  | .counterCarryFire
  | .commit
  | .effectRelease
  | .probeAnswer
  | .preemption
  | .preemptionEnd
  | .rank7Fault
  | .faultResume
  | .loadPerform
  | .storePerform
  | .storeAck
  | .atomicPerform
  | .queueReserve
  | .queueSettle
  | .snoopRecall
  | .companionRequest
  | .pushSend
  | .migrShip
  | .fenceDone
  | .drainDone
  | .translation
  | .pageWalk
  | .missRetry
  | .shootdown
  | .shot
  | .tokenArrival
  | .arcAck
  | .planeSwitch
  | .memNodeCompletion
  | .writePortToken
  | .bufferReopen
  | .passStart
  | .towpathStart
  | .towpathStop
  | .freedSlotNotice
  | .jointBarrier
  | .opHeadCheck
  | .opStart
  | .blockStart
  | .opComplete
  | .sliceStart
  | .jdrainComplete
  | .partialCombine
  | .haulStart
  | .haulAccessAnswer
  | .haulComplete
  | .haulCancel
  | .hslotPerform
  | .graphReserve
  | .gloadPerform
  | .gloadDone
  | .gswapPerform
  | .reconfPass
  | .swapEnd
  | .gmarkPerform
  | .nodeRecord
  | .cutComplete
  | .gsavePerform
  | .gsaveDone
  | .grestPerform
  | .grestDone
  | .gctxPerform
  | .replayRequest
  | .laneSpare
  | .laneSpareDone
  | .linkDown
  | .linkTrain
  | .routerAccept
  | .routerAck
  | .routerResend
  | .windowReserve
  | .windowPieceCheck
  | .wclosePerform
  | .windowFreed
  | .ratomPerform
  | .remoteAnswer
  | .remoteAttemptTimeout
  | .requestIdRelease
  | .requestIdExpiry
  | .cjoinReserve
  | .cjoinCheck
  | .pathCheck
  | .pathCheckAnswer
  | .pathCheckReask
  | .keyInstallAck
  | .contributionArrival
  | .resultArrival
  | .spdmResponse
  | .spdmTimeout
  | .spdmRequest
  | .policy
  | .elementError
  | .spareMove
  | .twin
  | .kill
  | .unpinnedError
  | .dieKill
  | .killDrainDone
  | .scrubDone
  | .lockkeeperMemoryError
  | .lockkeeperRestartDone
  | .powerGood
  | .calibrate
  | .memoryZeroInit
  | .elementSelfTest
  | .ready
  | .bargePortWrite
  | .unknownService
  | .claimWrite
  | .relinquish
  | .handover
  | .handoverTimeout
  | .ownerPathLost
  | .hiveFence
  | .hiveMoveDone
  | .hiveTest
  | .hiveTestDone
  | .hiveRepair
  | .hiveOnline
  | .linkOff
  | .rasClear
  | .hostBasinBase
  | .hostBasinHead
  | .powerCap
  | .powerEventClear
  | .thermalLimit
  | .dcrWrite
  | .thermalCrossing
  | .thermalTrip
  | .fwStage
  | .fwActivate
  | .capReached
  | .pathCheckTimeout
  | .linkFlitAck
  | .blockEnd
  | .leadSessionResponse
  | .switchErrorAnswer => true

/-- Check 3 of R44 for a thread (TAG and ranges), and the checks of one word of a rule (R45 and each description). -/
def rangesOk : Instr → Bool
  | .nop t
  | .done t
  | .trap _ t
  | .yield t
  | .brk _ t
  | .clk _ t
  | .add _ _ _ t
  | .sub _ _ _ t
  | .mul _ _ _ t
  | .mulh _ _ _ t
  | .mulhu _ _ _ t
  | .div _ _ _ t
  | .divu _ _ _ t
  | .rem _ _ _ t
  | .remu _ _ _ t
  | .and _ _ _ t
  | .or _ _ _ t
  | .xor _ _ _ t
  | .shl _ _ _ t
  | .shr _ _ _ t
  | .sar _ _ _ t
  | .andn _ _ _ t
  | .addk _ _ _ t
  | .andk _ _ _ t
  | .ork _ _ _ t
  | .xork _ _ _ t
  | .ldk _ _ t
  | .ldkh _ _ _ t
  | .ldl _ _ t
  | .min _ _ _ t
  | .max _ _ _ t
  | .minu _ _ _ t
  | .maxu _ _ _ t
  | .clz _ _ t
  | .popc _ _ t
  | .mac _ _ _ t
  | .adds _ _ _ t
  | .subs _ _ _ t
  | .br _ t
  | .brz _ _ t
  | .brnz _ _ t
  | .jl _ t
  | .jr _ t
  | .loop _ _ t
  | .reach _ t
  | .drain t
  | .retry t
  | .ldB _ _ _ t
  | .ldH _ _ _ t
  | .ldW _ _ _ t
  | .ldD _ _ _ t
  | .stB _ _ _ t
  | .stH _ _ _ t
  | .stW _ _ _ t
  | .stD _ _ _ t
  | .atomAdd _ _ _ t
  | .atomAnd _ _ _ t
  | .atomOr _ _ _ t
  | .atomXor _ _ _ t
  | .atomMax _ _ _ t
  | .atomMin _ _ _ t
  | .atomXchg _ _ _ t
  | .atomCas _ _ _ _ t
  | .atomFadd _ _ _ t
  | .atomBadd _ _ _ t
  | .waitm t
  | .join _ _ t
  | .migr _ t
  | .hcancel _ t
  | .hslot _ t
  | .hstat _ _ t
  | .gang _ t
  | .jred _ t
  | .gswap _ _ t
  | .gmark _ _ t
  | .gquiet _ _ t
  | .gctx _ _ t
  | .gsave _ _ t
  | .grest _ _ t
  | .wclose _ t
  | .nstat _ _ t
  | .cstat _ _ t => t != 8
  | .nopElement d e t
  | .mov _ d e t
  | .gen _ d e t
  | .rep _ _ d e t
  | .eos _ d e t
  | .ctl _ d e t
  | .sync _ d e t
  | .vadd _ _ d e t
  | .vsub _ _ d e t
  | .vmul _ _ d e t
  | .vfma _ _ d e t
  | .vmax _ _ d e t
  | .vmin _ _ d e t
  | .vand _ _ d e t
  | .vor _ _ d e t
  | .vxor _ _ d e t
  | .vshl _ _ d e t
  | .vshr _ _ d e t
  | .vcmpEq _ _ d e t
  | .vcmpLt _ _ d e t
  | .vabs _ d e t
  | .vred _ d e t
  | .vdot _ _ d e t
  | .vrcp _ d e t
  | .vrsq _ d e t
  | .vexp2 _ d e t
  | .vlog2 _ d e t
  | .vperm _ _ d e t
  | .vbcast _ _ d e t
  | .vscan _ d e t => tagW d e t
  | .csrr k _ t => t != 8 && csrKnown k
  | .csrw _ k t => t != 8 && csrWritable k
  | .stat k _ t => t != 8 && k.toNat ≤ 1
  | .statElement k d t => tagK d t && k.toNat ≤ 2
  | .id _ k t
  | .fence k t => t != 8 && k.toNat ≤ 4
  | .shlk _ k _ t
  | .shrk _ k _ t
  | .sark _ k _ t => t != 8 && k.toNat < 64
  | .sext _ k _ t
  | .zext _ k _ t => t != 8 && 1 ≤ k.toNat && k.toNat ≤ 63
  | .sel _ _ _ e t => t != 8 && e.toNat ≤ 7
  | .cmpEq _ _ d e t
  | .cmpNe _ _ d e t
  | .cmpLt _ _ d e t
  | .cmpLtu _ _ d e t
  | .cmpLe _ _ d e t
  | .cmpLeu _ _ d e t => t != 8 && predW d && e.toNat ≤ 7 && (e == 0 || e != d)
  | .cmpkEq _ _ d t
  | .cmpkLt _ _ d t
  | .pset _ d t
  | .pushCore _ _ d t
  | .pushHive _ _ d t
  | .pushDie _ _ d t
  | .pushDev _ _ d t
  | .pushSys _ _ d t
  | .popCore _ d _ t
  | .popHive _ d _ t
  | .popDie _ d _ t
  | .popDev _ d _ t
  | .popSys _ d _ t
  | .cset _ d t
  | .haul _ d t
  | .haulX _ d t
  | .gload _ d t
  | .wopen _ d t
  | .rget _ d t
  | .rput _ d t
  | .ratom _ d t
  | .cjoin _ d t => t != 8 && predW d
  | .pand a b d i t
  | .por a b d i t
  | .pxor a b d i t => t != 8 && predR a && predR b && predW d && i.toNat ≤ 3
  | .pget a _ t => t != 8 && predR a
  | .ldx _ _ _ e t
  | .stx _ _ _ e t => t != 8 && e.toNat ≤ 3
  | .ldV _ d e t => t != 8 && 1 ≤ e.toNat && e.toNat ≤ 4 && d.toNat + e.toNat ≤ 10
  | .stV _ s e t => t != 8 && 1 ≤ e.toNat && e.toNat ≤ 4 && s.toNat + e.toNat ≤ 10
  | .send _ _ d e t => t != 8 && e.toNat ≤ 6 && (if e == 0 then d == 0 else d.toNat + e.toNat ≤ 10)
  | .park k t => t != 8 && 1 ≤ k.toNat
  | .getm d e t => t != 8 && d.toNat ≤ 8 && predW e
  | .spawn _ b d e t => t != 8 && predW d && e.toNat ≤ 6 && (if e == 0 then b == 0 else b.toNat + e.toNat ≤ 10)
  | .count _ k t => t != 8 && k.toNat < 128
  | .jzero e t
  | .jdrain _ e t
  | .jstat _ e t => t != 8 && e.toNat ≤ 1
  | .jdrainO g k b t => t != 8 && g.toNat ≤ 3 && b.toNat ≤ 1 && 1 ≤ k.toNat && k.toNat ≤ 16
  | .pick _ _ d e t => tagK d t && e.toNat ≤ 3
  | .steer _ _ d e => steerDst d && steerDst e && (d != e || d == 9)
  | .merge a k d t => tagK d t && a.toNat ≤ 7 && k.toNat < 64 && mergeDistinct a k
  | .mergeu a b d t => tagW d 0 t && a.toNat ≤ 7 && b.toNat ≤ 7 && a != b
  | .guard _ _ _
  | .xsend _ _ => true
  | .drop _ t => [3, 8, 9, 10, 11].contains t.toNat
  | .vcvt _ k d t => tagK d t && cvtOk k
  | .mld _ d e t => [0, 1].contains t.toNat && tagW d e t
  | .mst _ _ d e t => [0, 1, 3].contains t.toNat && tagW d e t
  | .matom _ k d t => [0, 3].contains t.toNat && tagK d t && k.toNat ≤ 8
  | .sld s d e t => tagW d e t && s.toNat ≤ 7
  | .sst _ g t => [3, 8, 9, 10, 11].contains t.toNat && g.toNat ≤ 3
  | .bmexp a b d e t => [0, 1].contains t.toNat && tagW d e t && a.toNat ≤ 7 && b.toNat ≤ 7 && a != b
  | .isect a b d e t => [0, 1, 2, 3].contains t.toNat && tagW d e t && a.toNat ≤ 7 && b.toNat ≤ 7 && a != b
  | .xrecv a d e t => [0, 1].contains t.toNat && tagW d e t && a.toNat ≤ 7
  | .illegalOp
  | .fetchBounds
  | .launch
  | .spanJoin
  | .spanAnswer
  | .spanJoinTimeout
  | .spanLeadTimeout
  | .jobEnd
  | .jobEndTeardown
  | .completionDetect
  | .deadlockDetect
  | .quietReport
  | .activeReport
  | .freshReportRequest
  | .leadUnreachable
  | .spanKill
  | .bargeArrival
  | .busyReply
  | .bargeResend
  | .remoteReject
  | .promotion
  | .faultRedelivery
  | .dispatch
  | .deposit
  | .heldDepositApply
  | .loadReply
  | .completionArrival
  | .stealRequest
  | .stealVictim
  | .stealAnswer
  | .joinPerform
  | .counterArrival
  | .counterCarryFire
  | .commit
  | .effectRelease
  | .probeAnswer
  | .preemption
  | .preemptionEnd
  | .rank7Fault
  | .faultResume
  | .loadPerform
  | .storePerform
  | .storeAck
  | .atomicPerform
  | .queueReserve
  | .queueSettle
  | .snoopRecall
  | .companionRequest
  | .pushSend
  | .migrShip
  | .fenceDone
  | .drainDone
  | .translation
  | .pageWalk
  | .missRetry
  | .shootdown
  | .shot
  | .tokenArrival
  | .arcAck
  | .planeSwitch
  | .memNodeCompletion
  | .writePortToken
  | .bufferReopen
  | .passStart
  | .towpathStart
  | .towpathStop
  | .freedSlotNotice
  | .jointBarrier
  | .opHeadCheck
  | .opStart
  | .blockStart
  | .opComplete
  | .sliceStart
  | .jdrainComplete
  | .partialCombine
  | .haulStart
  | .haulAccessAnswer
  | .haulComplete
  | .haulCancel
  | .hslotPerform
  | .graphReserve
  | .gloadPerform
  | .gloadDone
  | .gswapPerform
  | .reconfPass
  | .swapEnd
  | .gmarkPerform
  | .nodeRecord
  | .cutComplete
  | .gsavePerform
  | .gsaveDone
  | .grestPerform
  | .grestDone
  | .gctxPerform
  | .replayRequest
  | .laneSpare
  | .laneSpareDone
  | .linkDown
  | .linkTrain
  | .routerAccept
  | .routerAck
  | .routerResend
  | .windowReserve
  | .windowPieceCheck
  | .wclosePerform
  | .windowFreed
  | .ratomPerform
  | .remoteAnswer
  | .remoteAttemptTimeout
  | .requestIdRelease
  | .requestIdExpiry
  | .cjoinReserve
  | .cjoinCheck
  | .pathCheck
  | .pathCheckAnswer
  | .pathCheckReask
  | .keyInstallAck
  | .contributionArrival
  | .resultArrival
  | .spdmResponse
  | .spdmTimeout
  | .spdmRequest
  | .policy
  | .elementError
  | .spareMove
  | .twin
  | .kill
  | .unpinnedError
  | .dieKill
  | .killDrainDone
  | .scrubDone
  | .lockkeeperMemoryError
  | .lockkeeperRestartDone
  | .powerGood
  | .calibrate
  | .memoryZeroInit
  | .elementSelfTest
  | .ready
  | .bargePortWrite
  | .unknownService
  | .claimWrite
  | .relinquish
  | .handover
  | .handoverTimeout
  | .ownerPathLost
  | .hiveFence
  | .hiveMoveDone
  | .hiveTest
  | .hiveTestDone
  | .hiveRepair
  | .hiveOnline
  | .linkOff
  | .rasClear
  | .hostBasinBase
  | .hostBasinHead
  | .powerCap
  | .powerEventClear
  | .thermalLimit
  | .dcrWrite
  | .thermalCrossing
  | .thermalTrip
  | .fwStage
  | .fwActivate
  | .capReached
  | .pathCheckTimeout
  | .linkFlitAck
  | .blockEnd
  | .leadSessionResponse
  | .switchErrorAnswer => true

/-- A well-formed instruction. -/
def ok (i : Instr) : Bool := portsOk i && rangesOk i

end Sys2Proof.WellFormed
end

