-- ==== Sys2Proof/Decode.lean ====
section
/-! DEFINITION. Reading and writing instruction words (R30 to R53): the decoder of a thread's word with the order of
checks of R44, the decoder of a rule's word, and the encoder. -/

namespace Sys2Proof

/-- Why a word is refused (R44): its opcode is reserved or belongs to the other context, a port field names no port,
or TAG, an unused field or a value outside its range. -/
inductive DecodeError where
  | illegalOp | illegalPort | illegalForm
  deriving DecidableEq, Repr

/-- A thread's word by its opcode (R50, R51), whatever its fields hold. -/
def readThread (w : BitVec 32) : Option Instr :=
  match (w.extractLsb' 24 8).toNat with
  | 0x01 => some (.nop (w.extractLsb' 0 4))
  | 0x02 => some (.done (w.extractLsb' 0 4))
  | 0x03 => some (.trap (w.extractLsb' 14 5 ++ w.extractLsb' 4 5) (w.extractLsb' 0 4))
  | 0x04 => some (.csrr (w.extractLsb' 14 5 ++ w.extractLsb' 4 5) (w.extractLsb' 9 5) (w.extractLsb' 0 4))
  | 0x05 => some (.csrw (w.extractLsb' 19 5) (w.extractLsb' 14 5 ++ w.extractLsb' 4 5) (w.extractLsb' 0 4))
  | 0x06 => some (.yield (w.extractLsb' 0 4))
  | 0x07 => some (.brk (w.extractLsb' 14 5 ++ w.extractLsb' 4 5) (w.extractLsb' 0 4))
  | 0x08 => some (.stat (w.extractLsb' 14 5 ++ w.extractLsb' 4 5) (w.extractLsb' 9 5) (w.extractLsb' 0 4))
  | 0x09 => some (.clk (w.extractLsb' 9 5) (w.extractLsb' 0 4))
  | 0x0A => some (.id (w.extractLsb' 9 5) (w.extractLsb' 4 5) (w.extractLsb' 0 4))
  | 0x10 => some (.add (w.extractLsb' 19 5) (w.extractLsb' 14 5) (w.extractLsb' 9 5) (w.extractLsb' 0 4))
  | 0x11 => some (.sub (w.extractLsb' 19 5) (w.extractLsb' 14 5) (w.extractLsb' 9 5) (w.extractLsb' 0 4))
  | 0x12 => some (.mul (w.extractLsb' 19 5) (w.extractLsb' 14 5) (w.extractLsb' 9 5) (w.extractLsb' 0 4))
  | 0x13 => some (.mulh (w.extractLsb' 19 5) (w.extractLsb' 14 5) (w.extractLsb' 9 5) (w.extractLsb' 0 4))
  | 0x14 => some (.mulhu (w.extractLsb' 19 5) (w.extractLsb' 14 5) (w.extractLsb' 9 5) (w.extractLsb' 0 4))
  | 0x15 => some (.div (w.extractLsb' 19 5) (w.extractLsb' 14 5) (w.extractLsb' 9 5) (w.extractLsb' 0 4))
  | 0x16 => some (.divu (w.extractLsb' 19 5) (w.extractLsb' 14 5) (w.extractLsb' 9 5) (w.extractLsb' 0 4))
  | 0x17 => some (.rem (w.extractLsb' 19 5) (w.extractLsb' 14 5) (w.extractLsb' 9 5) (w.extractLsb' 0 4))
  | 0x18 => some (.remu (w.extractLsb' 19 5) (w.extractLsb' 14 5) (w.extractLsb' 9 5) (w.extractLsb' 0 4))
  | 0x19 => some (.and (w.extractLsb' 19 5) (w.extractLsb' 14 5) (w.extractLsb' 9 5) (w.extractLsb' 0 4))
  | 0x1A => some (.or (w.extractLsb' 19 5) (w.extractLsb' 14 5) (w.extractLsb' 9 5) (w.extractLsb' 0 4))
  | 0x1B => some (.xor (w.extractLsb' 19 5) (w.extractLsb' 14 5) (w.extractLsb' 9 5) (w.extractLsb' 0 4))
  | 0x1C => some (.shl (w.extractLsb' 19 5) (w.extractLsb' 14 5) (w.extractLsb' 9 5) (w.extractLsb' 0 4))
  | 0x1D => some (.shr (w.extractLsb' 19 5) (w.extractLsb' 14 5) (w.extractLsb' 9 5) (w.extractLsb' 0 4))
  | 0x1E => some (.sar (w.extractLsb' 19 5) (w.extractLsb' 14 5) (w.extractLsb' 9 5) (w.extractLsb' 0 4))
  | 0x1F => some (.andn (w.extractLsb' 19 5) (w.extractLsb' 14 5) (w.extractLsb' 9 5) (w.extractLsb' 0 4))
  | 0x20 => some (.addk (w.extractLsb' 19 5) (w.extractLsb' 14 5 ++ w.extractLsb' 4 5) (w.extractLsb' 9 5) (w.extractLsb' 0 4))
  | 0x21 => some (.andk (w.extractLsb' 19 5) (w.extractLsb' 14 5 ++ w.extractLsb' 4 5) (w.extractLsb' 9 5) (w.extractLsb' 0 4))
  | 0x22 => some (.ork (w.extractLsb' 19 5) (w.extractLsb' 14 5 ++ w.extractLsb' 4 5) (w.extractLsb' 9 5) (w.extractLsb' 0 4))
  | 0x23 => some (.xork (w.extractLsb' 19 5) (w.extractLsb' 14 5 ++ w.extractLsb' 4 5) (w.extractLsb' 9 5) (w.extractLsb' 0 4))
  | 0x24 => some (.shlk (w.extractLsb' 19 5) (w.extractLsb' 14 5 ++ w.extractLsb' 4 5) (w.extractLsb' 9 5) (w.extractLsb' 0 4))
  | 0x25 => some (.shrk (w.extractLsb' 19 5) (w.extractLsb' 14 5 ++ w.extractLsb' 4 5) (w.extractLsb' 9 5) (w.extractLsb' 0 4))
  | 0x26 => some (.sark (w.extractLsb' 19 5) (w.extractLsb' 14 5 ++ w.extractLsb' 4 5) (w.extractLsb' 9 5) (w.extractLsb' 0 4))
  | 0x27 => some (.ldk (w.extractLsb' 14 5 ++ w.extractLsb' 4 5) (w.extractLsb' 9 5) (w.extractLsb' 0 4))
  | 0x28 => some (.ldkh (w.extractLsb' 19 5) (w.extractLsb' 14 5 ++ w.extractLsb' 4 5) (w.extractLsb' 9 5) (w.extractLsb' 0 4))
  | 0x29 => some (.ldl (w.extractLsb' 14 5 ++ w.extractLsb' 4 5) (w.extractLsb' 9 5) (w.extractLsb' 0 4))
  | 0x2A => some (.min (w.extractLsb' 19 5) (w.extractLsb' 14 5) (w.extractLsb' 9 5) (w.extractLsb' 0 4))
  | 0x2B => some (.max (w.extractLsb' 19 5) (w.extractLsb' 14 5) (w.extractLsb' 9 5) (w.extractLsb' 0 4))
  | 0x2C => some (.minu (w.extractLsb' 19 5) (w.extractLsb' 14 5) (w.extractLsb' 9 5) (w.extractLsb' 0 4))
  | 0x2D => some (.maxu (w.extractLsb' 19 5) (w.extractLsb' 14 5) (w.extractLsb' 9 5) (w.extractLsb' 0 4))
  | 0x2E => some (.clz (w.extractLsb' 19 5) (w.extractLsb' 9 5) (w.extractLsb' 0 4))
  | 0x2F => some (.popc (w.extractLsb' 19 5) (w.extractLsb' 9 5) (w.extractLsb' 0 4))
  | 0x30 => some (.sext (w.extractLsb' 19 5) (w.extractLsb' 14 5 ++ w.extractLsb' 4 5) (w.extractLsb' 9 5) (w.extractLsb' 0 4))
  | 0x31 => some (.zext (w.extractLsb' 19 5) (w.extractLsb' 14 5 ++ w.extractLsb' 4 5) (w.extractLsb' 9 5) (w.extractLsb' 0 4))
  | 0x32 => some (.sel (w.extractLsb' 19 5) (w.extractLsb' 14 5) (w.extractLsb' 9 5) (w.extractLsb' 4 5) (w.extractLsb' 0 4))
  | 0x33 => some (.mac (w.extractLsb' 19 5) (w.extractLsb' 14 5) (w.extractLsb' 9 5) (w.extractLsb' 0 4))
  | 0x34 => some (.adds (w.extractLsb' 19 5) (w.extractLsb' 14 5) (w.extractLsb' 9 5) (w.extractLsb' 0 4))
  | 0x35 => some (.subs (w.extractLsb' 19 5) (w.extractLsb' 14 5) (w.extractLsb' 9 5) (w.extractLsb' 0 4))
  | 0x38 => some (.cmpEq (w.extractLsb' 19 5) (w.extractLsb' 14 5) (w.extractLsb' 9 5) (w.extractLsb' 4 5) (w.extractLsb' 0 4))
  | 0x39 => some (.cmpNe (w.extractLsb' 19 5) (w.extractLsb' 14 5) (w.extractLsb' 9 5) (w.extractLsb' 4 5) (w.extractLsb' 0 4))
  | 0x3A => some (.cmpLt (w.extractLsb' 19 5) (w.extractLsb' 14 5) (w.extractLsb' 9 5) (w.extractLsb' 4 5) (w.extractLsb' 0 4))
  | 0x3B => some (.cmpLtu (w.extractLsb' 19 5) (w.extractLsb' 14 5) (w.extractLsb' 9 5) (w.extractLsb' 4 5) (w.extractLsb' 0 4))
  | 0x3C => some (.cmpLe (w.extractLsb' 19 5) (w.extractLsb' 14 5) (w.extractLsb' 9 5) (w.extractLsb' 4 5) (w.extractLsb' 0 4))
  | 0x3D => some (.cmpLeu (w.extractLsb' 19 5) (w.extractLsb' 14 5) (w.extractLsb' 9 5) (w.extractLsb' 4 5) (w.extractLsb' 0 4))
  | 0x3E => some (.cmpkEq (w.extractLsb' 19 5) (w.extractLsb' 14 5 ++ w.extractLsb' 4 5) (w.extractLsb' 9 5) (w.extractLsb' 0 4))
  | 0x3F => some (.cmpkLt (w.extractLsb' 19 5) (w.extractLsb' 14 5 ++ w.extractLsb' 4 5) (w.extractLsb' 9 5) (w.extractLsb' 0 4))
  | 0x40 => some (.pand (w.extractLsb' 19 5) (w.extractLsb' 14 5) (w.extractLsb' 9 5) (w.extractLsb' 4 5) (w.extractLsb' 0 4))
  | 0x41 => some (.por (w.extractLsb' 19 5) (w.extractLsb' 14 5) (w.extractLsb' 9 5) (w.extractLsb' 4 5) (w.extractLsb' 0 4))
  | 0x42 => some (.pxor (w.extractLsb' 19 5) (w.extractLsb' 14 5) (w.extractLsb' 9 5) (w.extractLsb' 4 5) (w.extractLsb' 0 4))
  | 0x43 => some (.pget (w.extractLsb' 19 5) (w.extractLsb' 9 5) (w.extractLsb' 0 4))
  | 0x44 => some (.pset (w.extractLsb' 19 5) (w.extractLsb' 9 5) (w.extractLsb' 0 4))
  | 0x48 => some (.br (w.extractLsb' 4 15) (w.extractLsb' 0 4))
  | 0x49 => some (.brz (w.extractLsb' 19 5) (w.extractLsb' 4 15) (w.extractLsb' 0 4))
  | 0x4A => some (.brnz (w.extractLsb' 19 5) (w.extractLsb' 4 15) (w.extractLsb' 0 4))
  | 0x4B => some (.jl (w.extractLsb' 4 15) (w.extractLsb' 0 4))
  | 0x4C => some (.jr (w.extractLsb' 19 5) (w.extractLsb' 0 4))
  | 0x4D => some (.loop (w.extractLsb' 19 5) (w.extractLsb' 4 15) (w.extractLsb' 0 4))
  | 0x50 => some (.reach (w.extractLsb' 14 5 ++ w.extractLsb' 4 5) (w.extractLsb' 0 4))
  | 0x51 => some (.fence (w.extractLsb' 4 5) (w.extractLsb' 0 4))
  | 0x52 => some (.drain (w.extractLsb' 0 4))
  | 0x53 => some (.retry (w.extractLsb' 0 4))
  | 0x58 => some (.ldB (w.extractLsb' 19 5) (w.extractLsb' 14 5 ++ w.extractLsb' 4 5) (w.extractLsb' 9 5) (w.extractLsb' 0 4))
  | 0x59 => some (.ldH (w.extractLsb' 19 5) (w.extractLsb' 14 5 ++ w.extractLsb' 4 5) (w.extractLsb' 9 5) (w.extractLsb' 0 4))
  | 0x5A => some (.ldW (w.extractLsb' 19 5) (w.extractLsb' 14 5 ++ w.extractLsb' 4 5) (w.extractLsb' 9 5) (w.extractLsb' 0 4))
  | 0x5B => some (.ldD (w.extractLsb' 19 5) (w.extractLsb' 14 5 ++ w.extractLsb' 4 5) (w.extractLsb' 9 5) (w.extractLsb' 0 4))
  | 0x5C => some (.stB (w.extractLsb' 19 5) (w.extractLsb' 14 5 ++ w.extractLsb' 4 5) (w.extractLsb' 9 5) (w.extractLsb' 0 4))
  | 0x5D => some (.stH (w.extractLsb' 19 5) (w.extractLsb' 14 5 ++ w.extractLsb' 4 5) (w.extractLsb' 9 5) (w.extractLsb' 0 4))
  | 0x5E => some (.stW (w.extractLsb' 19 5) (w.extractLsb' 14 5 ++ w.extractLsb' 4 5) (w.extractLsb' 9 5) (w.extractLsb' 0 4))
  | 0x5F => some (.stD (w.extractLsb' 19 5) (w.extractLsb' 14 5 ++ w.extractLsb' 4 5) (w.extractLsb' 9 5) (w.extractLsb' 0 4))
  | 0x60 => some (.ldx (w.extractLsb' 19 5) (w.extractLsb' 14 5) (w.extractLsb' 9 5) (w.extractLsb' 4 5) (w.extractLsb' 0 4))
  | 0x61 => some (.stx (w.extractLsb' 19 5) (w.extractLsb' 14 5) (w.extractLsb' 9 5) (w.extractLsb' 4 5) (w.extractLsb' 0 4))
  | 0x62 => some (.ldV (w.extractLsb' 19 5) (w.extractLsb' 9 5) (w.extractLsb' 4 5) (w.extractLsb' 0 4))
  | 0x63 => some (.stV (w.extractLsb' 19 5) (w.extractLsb' 9 5) (w.extractLsb' 4 5) (w.extractLsb' 0 4))
  | 0x68 => some (.atomAdd (w.extractLsb' 19 5) (w.extractLsb' 14 5) (w.extractLsb' 9 5) (w.extractLsb' 0 4))
  | 0x69 => some (.atomAnd (w.extractLsb' 19 5) (w.extractLsb' 14 5) (w.extractLsb' 9 5) (w.extractLsb' 0 4))
  | 0x6A => some (.atomOr (w.extractLsb' 19 5) (w.extractLsb' 14 5) (w.extractLsb' 9 5) (w.extractLsb' 0 4))
  | 0x6B => some (.atomXor (w.extractLsb' 19 5) (w.extractLsb' 14 5) (w.extractLsb' 9 5) (w.extractLsb' 0 4))
  | 0x6C => some (.atomMax (w.extractLsb' 19 5) (w.extractLsb' 14 5) (w.extractLsb' 9 5) (w.extractLsb' 0 4))
  | 0x6D => some (.atomMin (w.extractLsb' 19 5) (w.extractLsb' 14 5) (w.extractLsb' 9 5) (w.extractLsb' 0 4))
  | 0x6E => some (.atomXchg (w.extractLsb' 19 5) (w.extractLsb' 14 5) (w.extractLsb' 9 5) (w.extractLsb' 0 4))
  | 0x6F => some (.atomCas (w.extractLsb' 19 5) (w.extractLsb' 14 5) (w.extractLsb' 9 5) (w.extractLsb' 4 5) (w.extractLsb' 0 4))
  | 0x70 => some (.atomFadd (w.extractLsb' 19 5) (w.extractLsb' 14 5) (w.extractLsb' 9 5) (w.extractLsb' 0 4))
  | 0x71 => some (.atomBadd (w.extractLsb' 19 5) (w.extractLsb' 14 5) (w.extractLsb' 9 5) (w.extractLsb' 0 4))
  | 0x78 => some (.pushCore (w.extractLsb' 19 5) (w.extractLsb' 14 5) (w.extractLsb' 9 5) (w.extractLsb' 0 4))
  | 0x79 => some (.pushHive (w.extractLsb' 19 5) (w.extractLsb' 14 5) (w.extractLsb' 9 5) (w.extractLsb' 0 4))
  | 0x7A => some (.pushDie (w.extractLsb' 19 5) (w.extractLsb' 14 5) (w.extractLsb' 9 5) (w.extractLsb' 0 4))
  | 0x7B => some (.pushDev (w.extractLsb' 19 5) (w.extractLsb' 14 5) (w.extractLsb' 9 5) (w.extractLsb' 0 4))
  | 0x7C => some (.pushSys (w.extractLsb' 19 5) (w.extractLsb' 14 5) (w.extractLsb' 9 5) (w.extractLsb' 0 4))
  | 0x7D => some (.popCore (w.extractLsb' 19 5) (w.extractLsb' 9 5) (w.extractLsb' 4 5) (w.extractLsb' 0 4))
  | 0x7E => some (.popHive (w.extractLsb' 19 5) (w.extractLsb' 9 5) (w.extractLsb' 4 5) (w.extractLsb' 0 4))
  | 0x7F => some (.popDie (w.extractLsb' 19 5) (w.extractLsb' 9 5) (w.extractLsb' 4 5) (w.extractLsb' 0 4))
  | 0x80 => some (.popDev (w.extractLsb' 19 5) (w.extractLsb' 9 5) (w.extractLsb' 4 5) (w.extractLsb' 0 4))
  | 0x81 => some (.popSys (w.extractLsb' 19 5) (w.extractLsb' 9 5) (w.extractLsb' 4 5) (w.extractLsb' 0 4))
  | 0x88 => some (.send (w.extractLsb' 19 5) (w.extractLsb' 14 5) (w.extractLsb' 9 5) (w.extractLsb' 4 5) (w.extractLsb' 0 4))
  | 0x89 => some (.park (w.extractLsb' 14 5 ++ w.extractLsb' 4 5) (w.extractLsb' 0 4))
  | 0x8A => some (.waitm (w.extractLsb' 0 4))
  | 0x8B => some (.getm (w.extractLsb' 9 5) (w.extractLsb' 4 5) (w.extractLsb' 0 4))
  | 0x8C => some (.spawn (w.extractLsb' 19 5) (w.extractLsb' 14 5) (w.extractLsb' 9 5) (w.extractLsb' 4 5) (w.extractLsb' 0 4))
  | 0x8D => some (.join (w.extractLsb' 19 5) (w.extractLsb' 9 5) (w.extractLsb' 0 4))
  | 0x8E => some (.migr (w.extractLsb' 19 5) (w.extractLsb' 0 4))
  | 0x8F => some (.count (w.extractLsb' 19 5) (w.extractLsb' 14 5 ++ w.extractLsb' 4 5) (w.extractLsb' 0 4))
  | 0x90 => some (.cset (w.extractLsb' 19 5) (w.extractLsb' 9 5) (w.extractLsb' 0 4))
  | 0x98 => some (.haul (w.extractLsb' 19 5) (w.extractLsb' 9 5) (w.extractLsb' 0 4))
  | 0x99 => some (.haulX (w.extractLsb' 19 5) (w.extractLsb' 9 5) (w.extractLsb' 0 4))
  | 0x9A => some (.hcancel (w.extractLsb' 19 5) (w.extractLsb' 0 4))
  | 0x9B => some (.hslot (w.extractLsb' 19 5) (w.extractLsb' 0 4))
  | 0x9C => some (.hstat (w.extractLsb' 19 5) (w.extractLsb' 9 5) (w.extractLsb' 0 4))
  | 0xA0 => some (.gang (w.extractLsb' 19 5) (w.extractLsb' 0 4))
  | 0xA1 => some (.jzero (w.extractLsb' 4 5) (w.extractLsb' 0 4))
  | 0xA2 => some (.jdrain (w.extractLsb' 19 5) (w.extractLsb' 4 5) (w.extractLsb' 0 4))
  | 0xA3 => some (.jdrainO (w.extractLsb' 19 5) (w.extractLsb' 14 5 ++ w.extractLsb' 4 5) (w.extractLsb' 9 5) (w.extractLsb' 0 4))
  | 0xA4 => some (.jstat (w.extractLsb' 9 5) (w.extractLsb' 4 5) (w.extractLsb' 0 4))
  | 0xA5 => some (.jred (w.extractLsb' 9 5) (w.extractLsb' 0 4))
  | 0xA8 => some (.gload (w.extractLsb' 19 5) (w.extractLsb' 9 5) (w.extractLsb' 0 4))
  | 0xA9 => some (.gswap (w.extractLsb' 19 5) (w.extractLsb' 14 5) (w.extractLsb' 0 4))
  | 0xAA => some (.gmark (w.extractLsb' 19 5) (w.extractLsb' 14 5) (w.extractLsb' 0 4))
  | 0xAB => some (.gquiet (w.extractLsb' 19 5) (w.extractLsb' 9 5) (w.extractLsb' 0 4))
  | 0xAC => some (.gctx (w.extractLsb' 19 5) (w.extractLsb' 14 5) (w.extractLsb' 0 4))
  | 0xAD => some (.gsave (w.extractLsb' 19 5) (w.extractLsb' 14 5) (w.extractLsb' 0 4))
  | 0xAE => some (.grest (w.extractLsb' 19 5) (w.extractLsb' 14 5) (w.extractLsb' 0 4))
  | 0xB0 => some (.wopen (w.extractLsb' 19 5) (w.extractLsb' 9 5) (w.extractLsb' 0 4))
  | 0xB1 => some (.wclose (w.extractLsb' 19 5) (w.extractLsb' 0 4))
  | 0xB2 => some (.rget (w.extractLsb' 19 5) (w.extractLsb' 9 5) (w.extractLsb' 0 4))
  | 0xB3 => some (.rput (w.extractLsb' 19 5) (w.extractLsb' 9 5) (w.extractLsb' 0 4))
  | 0xB4 => some (.ratom (w.extractLsb' 19 5) (w.extractLsb' 9 5) (w.extractLsb' 0 4))
  | 0xB5 => some (.nstat (w.extractLsb' 19 5) (w.extractLsb' 9 5) (w.extractLsb' 0 4))
  | 0xB8 => some (.cjoin (w.extractLsb' 19 5) (w.extractLsb' 9 5) (w.extractLsb' 0 4))
  | 0xB9 => some (.cstat (w.extractLsb' 19 5) (w.extractLsb' 9 5) (w.extractLsb' 0 4))
  | _ => none

/-- A rule's word by its opcode (R50, R51), whatever its fields hold. -/
def readElement (w : BitVec 32) : Option Instr :=
  match (w.extractLsb' 24 8).toNat with
  | 0x01 => some (.nopElement (w.extractLsb' 9 5) (w.extractLsb' 4 5) (w.extractLsb' 0 4))
  | 0x08 => some (.statElement (w.extractLsb' 14 5 ++ w.extractLsb' 4 5) (w.extractLsb' 9 5) (w.extractLsb' 0 4))
  | 0xC0 => some (.mov (w.extractLsb' 19 5) (w.extractLsb' 9 5) (w.extractLsb' 4 5) (w.extractLsb' 0 4))
  | 0xC1 => some (.pick (w.extractLsb' 19 5) (w.extractLsb' 14 5) (w.extractLsb' 9 5) (w.extractLsb' 4 5) (w.extractLsb' 0 4))
  | 0xC2 => some (.steer (w.extractLsb' 19 5) (w.extractLsb' 14 5) (w.extractLsb' 9 5) (w.extractLsb' 4 5))
  | 0xC3 => some (.merge (w.extractLsb' 19 5) (w.extractLsb' 14 5 ++ w.extractLsb' 4 5) (w.extractLsb' 9 5) (w.extractLsb' 0 4))
  | 0xC4 => some (.mergeu (w.extractLsb' 19 5) (w.extractLsb' 14 5) (w.extractLsb' 9 5) (w.extractLsb' 0 4))
  | 0xC5 => some (.guard (w.extractLsb' 19 5) (w.extractLsb' 14 5) (w.extractLsb' 9 5))
  | 0xC6 => some (.gen (w.extractLsb' 19 5) (w.extractLsb' 9 5) (w.extractLsb' 4 5) (w.extractLsb' 0 4))
  | 0xC7 => some (.rep (w.extractLsb' 19 5) (w.extractLsb' 14 5) (w.extractLsb' 9 5) (w.extractLsb' 4 5) (w.extractLsb' 0 4))
  | 0xC8 => some (.drop (w.extractLsb' 19 5) (w.extractLsb' 0 4))
  | 0xC9 => some (.eos (w.extractLsb' 19 5) (w.extractLsb' 9 5) (w.extractLsb' 4 5) (w.extractLsb' 0 4))
  | 0xCA => some (.ctl (w.extractLsb' 19 5) (w.extractLsb' 9 5) (w.extractLsb' 4 5) (w.extractLsb' 0 4))
  | 0xCB => some (.sync (w.extractLsb' 19 5) (w.extractLsb' 9 5) (w.extractLsb' 4 5) (w.extractLsb' 0 4))
  | 0xD0 => some (.vadd (w.extractLsb' 19 5) (w.extractLsb' 14 5) (w.extractLsb' 9 5) (w.extractLsb' 4 5) (w.extractLsb' 0 4))
  | 0xD1 => some (.vsub (w.extractLsb' 19 5) (w.extractLsb' 14 5) (w.extractLsb' 9 5) (w.extractLsb' 4 5) (w.extractLsb' 0 4))
  | 0xD2 => some (.vmul (w.extractLsb' 19 5) (w.extractLsb' 14 5) (w.extractLsb' 9 5) (w.extractLsb' 4 5) (w.extractLsb' 0 4))
  | 0xD3 => some (.vfma (w.extractLsb' 19 5) (w.extractLsb' 14 5) (w.extractLsb' 9 5) (w.extractLsb' 4 5) (w.extractLsb' 0 4))
  | 0xD4 => some (.vmax (w.extractLsb' 19 5) (w.extractLsb' 14 5) (w.extractLsb' 9 5) (w.extractLsb' 4 5) (w.extractLsb' 0 4))
  | 0xD5 => some (.vmin (w.extractLsb' 19 5) (w.extractLsb' 14 5) (w.extractLsb' 9 5) (w.extractLsb' 4 5) (w.extractLsb' 0 4))
  | 0xD6 => some (.vand (w.extractLsb' 19 5) (w.extractLsb' 14 5) (w.extractLsb' 9 5) (w.extractLsb' 4 5) (w.extractLsb' 0 4))
  | 0xD7 => some (.vor (w.extractLsb' 19 5) (w.extractLsb' 14 5) (w.extractLsb' 9 5) (w.extractLsb' 4 5) (w.extractLsb' 0 4))
  | 0xD8 => some (.vxor (w.extractLsb' 19 5) (w.extractLsb' 14 5) (w.extractLsb' 9 5) (w.extractLsb' 4 5) (w.extractLsb' 0 4))
  | 0xD9 => some (.vshl (w.extractLsb' 19 5) (w.extractLsb' 14 5) (w.extractLsb' 9 5) (w.extractLsb' 4 5) (w.extractLsb' 0 4))
  | 0xDA => some (.vshr (w.extractLsb' 19 5) (w.extractLsb' 14 5) (w.extractLsb' 9 5) (w.extractLsb' 4 5) (w.extractLsb' 0 4))
  | 0xDB => some (.vcmpEq (w.extractLsb' 19 5) (w.extractLsb' 14 5) (w.extractLsb' 9 5) (w.extractLsb' 4 5) (w.extractLsb' 0 4))
  | 0xDC => some (.vcmpLt (w.extractLsb' 19 5) (w.extractLsb' 14 5) (w.extractLsb' 9 5) (w.extractLsb' 4 5) (w.extractLsb' 0 4))
  | 0xDD => some (.vabs (w.extractLsb' 19 5) (w.extractLsb' 9 5) (w.extractLsb' 4 5) (w.extractLsb' 0 4))
  | 0xDE => some (.vred (w.extractLsb' 19 5) (w.extractLsb' 9 5) (w.extractLsb' 4 5) (w.extractLsb' 0 4))
  | 0xDF => some (.vdot (w.extractLsb' 19 5) (w.extractLsb' 14 5) (w.extractLsb' 9 5) (w.extractLsb' 4 5) (w.extractLsb' 0 4))
  | 0xE0 => some (.vcvt (w.extractLsb' 19 5) (w.extractLsb' 14 5 ++ w.extractLsb' 4 5) (w.extractLsb' 9 5) (w.extractLsb' 0 4))
  | 0xE1 => some (.vrcp (w.extractLsb' 19 5) (w.extractLsb' 9 5) (w.extractLsb' 4 5) (w.extractLsb' 0 4))
  | 0xE2 => some (.vrsq (w.extractLsb' 19 5) (w.extractLsb' 9 5) (w.extractLsb' 4 5) (w.extractLsb' 0 4))
  | 0xE3 => some (.vexp2 (w.extractLsb' 19 5) (w.extractLsb' 9 5) (w.extractLsb' 4 5) (w.extractLsb' 0 4))
  | 0xE4 => some (.vlog2 (w.extractLsb' 19 5) (w.extractLsb' 9 5) (w.extractLsb' 4 5) (w.extractLsb' 0 4))
  | 0xE5 => some (.vperm (w.extractLsb' 19 5) (w.extractLsb' 14 5) (w.extractLsb' 9 5) (w.extractLsb' 4 5) (w.extractLsb' 0 4))
  | 0xE6 => some (.vbcast (w.extractLsb' 19 5) (w.extractLsb' 14 5) (w.extractLsb' 9 5) (w.extractLsb' 4 5) (w.extractLsb' 0 4))
  | 0xE7 => some (.vscan (w.extractLsb' 19 5) (w.extractLsb' 9 5) (w.extractLsb' 4 5) (w.extractLsb' 0 4))
  | 0xE8 => some (.mld (w.extractLsb' 19 5) (w.extractLsb' 9 5) (w.extractLsb' 4 5) (w.extractLsb' 0 4))
  | 0xE9 => some (.mst (w.extractLsb' 19 5) (w.extractLsb' 14 5) (w.extractLsb' 9 5) (w.extractLsb' 4 5) (w.extractLsb' 0 4))
  | 0xEA => some (.matom (w.extractLsb' 19 5) (w.extractLsb' 14 5 ++ w.extractLsb' 4 5) (w.extractLsb' 9 5) (w.extractLsb' 0 4))
  | 0xEB => some (.sld (w.extractLsb' 14 5) (w.extractLsb' 9 5) (w.extractLsb' 4 5) (w.extractLsb' 0 4))
  | 0xEC => some (.sst (w.extractLsb' 19 5) (w.extractLsb' 14 5) (w.extractLsb' 0 4))
  | 0xED => some (.bmexp (w.extractLsb' 19 5) (w.extractLsb' 14 5) (w.extractLsb' 9 5) (w.extractLsb' 4 5) (w.extractLsb' 0 4))
  | 0xEE => some (.isect (w.extractLsb' 19 5) (w.extractLsb' 14 5) (w.extractLsb' 9 5) (w.extractLsb' 4 5) (w.extractLsb' 0 4))
  | 0xEF => some (.xsend (w.extractLsb' 19 5) (w.extractLsb' 9 5))
  | 0xF0 => some (.xrecv (w.extractLsb' 19 5) (w.extractLsb' 9 5) (w.extractLsb' 4 5) (w.extractLsb' 0 4))
  | _ => none

/-- The word of an instruction (R31, R32); a step without a word has none and gives zero. -/
def encode : Instr → BitVec 32
  | .nop t => 0x100000#28 ++ t
  | .nopElement d e t => 0x400#18 ++ d ++ e ++ t
  | .done t => 0x200000#28 ++ t
  | .trap k t => 0x60#13 ++ k.extractLsb' 5 5 ++ 0x0#5 ++ k.extractLsb' 0 5 ++ t
  | .csrr k d t => 0x80#13 ++ k.extractLsb' 5 5 ++ d ++ k.extractLsb' 0 5 ++ t
  | .csrw a k t => 0x5#8 ++ a ++ k.extractLsb' 5 5 ++ 0x0#5 ++ k.extractLsb' 0 5 ++ t
  | .yield t => 0x600000#28 ++ t
  | .brk k t => 0xE0#13 ++ k.extractLsb' 5 5 ++ 0x0#5 ++ k.extractLsb' 0 5 ++ t
  | .stat k d t => 0x100#13 ++ k.extractLsb' 5 5 ++ d ++ k.extractLsb' 0 5 ++ t
  | .statElement k d t => 0x100#13 ++ k.extractLsb' 5 5 ++ d ++ k.extractLsb' 0 5 ++ t
  | .clk d t => 0x2400#18 ++ d ++ 0x0#5 ++ t
  | .id d k t => 0x2800#18 ++ d ++ k ++ t
  | .add a b d t => 0x10#8 ++ a ++ b ++ d ++ 0x0#5 ++ t
  | .sub a b d t => 0x11#8 ++ a ++ b ++ d ++ 0x0#5 ++ t
  | .mul a b d t => 0x12#8 ++ a ++ b ++ d ++ 0x0#5 ++ t
  | .mulh a b d t => 0x13#8 ++ a ++ b ++ d ++ 0x0#5 ++ t
  | .mulhu a b d t => 0x14#8 ++ a ++ b ++ d ++ 0x0#5 ++ t
  | .div a b d t => 0x15#8 ++ a ++ b ++ d ++ 0x0#5 ++ t
  | .divu a b d t => 0x16#8 ++ a ++ b ++ d ++ 0x0#5 ++ t
  | .rem a b d t => 0x17#8 ++ a ++ b ++ d ++ 0x0#5 ++ t
  | .remu a b d t => 0x18#8 ++ a ++ b ++ d ++ 0x0#5 ++ t
  | .and a b d t => 0x19#8 ++ a ++ b ++ d ++ 0x0#5 ++ t
  | .or a b d t => 0x1A#8 ++ a ++ b ++ d ++ 0x0#5 ++ t
  | .xor a b d t => 0x1B#8 ++ a ++ b ++ d ++ 0x0#5 ++ t
  | .shl a b d t => 0x1C#8 ++ a ++ b ++ d ++ 0x0#5 ++ t
  | .shr a b d t => 0x1D#8 ++ a ++ b ++ d ++ 0x0#5 ++ t
  | .sar a b d t => 0x1E#8 ++ a ++ b ++ d ++ 0x0#5 ++ t
  | .andn a b d t => 0x1F#8 ++ a ++ b ++ d ++ 0x0#5 ++ t
  | .addk a k d t => 0x20#8 ++ a ++ k.extractLsb' 5 5 ++ d ++ k.extractLsb' 0 5 ++ t
  | .andk a k d t => 0x21#8 ++ a ++ k.extractLsb' 5 5 ++ d ++ k.extractLsb' 0 5 ++ t
  | .ork a k d t => 0x22#8 ++ a ++ k.extractLsb' 5 5 ++ d ++ k.extractLsb' 0 5 ++ t
  | .xork a k d t => 0x23#8 ++ a ++ k.extractLsb' 5 5 ++ d ++ k.extractLsb' 0 5 ++ t
  | .shlk a k d t => 0x24#8 ++ a ++ k.extractLsb' 5 5 ++ d ++ k.extractLsb' 0 5 ++ t
  | .shrk a k d t => 0x25#8 ++ a ++ k.extractLsb' 5 5 ++ d ++ k.extractLsb' 0 5 ++ t
  | .sark a k d t => 0x26#8 ++ a ++ k.extractLsb' 5 5 ++ d ++ k.extractLsb' 0 5 ++ t
  | .ldk k d t => 0x4E0#13 ++ k.extractLsb' 5 5 ++ d ++ k.extractLsb' 0 5 ++ t
  | .ldkh a k d t => 0x28#8 ++ a ++ k.extractLsb' 5 5 ++ d ++ k.extractLsb' 0 5 ++ t
  | .ldl k d t => 0x520#13 ++ k.extractLsb' 5 5 ++ d ++ k.extractLsb' 0 5 ++ t
  | .min a b d t => 0x2A#8 ++ a ++ b ++ d ++ 0x0#5 ++ t
  | .max a b d t => 0x2B#8 ++ a ++ b ++ d ++ 0x0#5 ++ t
  | .minu a b d t => 0x2C#8 ++ a ++ b ++ d ++ 0x0#5 ++ t
  | .maxu a b d t => 0x2D#8 ++ a ++ b ++ d ++ 0x0#5 ++ t
  | .clz a d t => 0x2E#8 ++ a ++ 0x0#5 ++ d ++ 0x0#5 ++ t
  | .popc a d t => 0x2F#8 ++ a ++ 0x0#5 ++ d ++ 0x0#5 ++ t
  | .sext a k d t => 0x30#8 ++ a ++ k.extractLsb' 5 5 ++ d ++ k.extractLsb' 0 5 ++ t
  | .zext a k d t => 0x31#8 ++ a ++ k.extractLsb' 5 5 ++ d ++ k.extractLsb' 0 5 ++ t
  | .sel a b d e t => 0x32#8 ++ a ++ b ++ d ++ e ++ t
  | .mac a b d t => 0x33#8 ++ a ++ b ++ d ++ 0x0#5 ++ t
  | .adds a b d t => 0x34#8 ++ a ++ b ++ d ++ 0x0#5 ++ t
  | .subs a b d t => 0x35#8 ++ a ++ b ++ d ++ 0x0#5 ++ t
  | .cmpEq a b d e t => 0x38#8 ++ a ++ b ++ d ++ e ++ t
  | .cmpNe a b d e t => 0x39#8 ++ a ++ b ++ d ++ e ++ t
  | .cmpLt a b d e t => 0x3A#8 ++ a ++ b ++ d ++ e ++ t
  | .cmpLtu a b d e t => 0x3B#8 ++ a ++ b ++ d ++ e ++ t
  | .cmpLe a b d e t => 0x3C#8 ++ a ++ b ++ d ++ e ++ t
  | .cmpLeu a b d e t => 0x3D#8 ++ a ++ b ++ d ++ e ++ t
  | .cmpkEq a k d t => 0x3E#8 ++ a ++ k.extractLsb' 5 5 ++ d ++ k.extractLsb' 0 5 ++ t
  | .cmpkLt a k d t => 0x3F#8 ++ a ++ k.extractLsb' 5 5 ++ d ++ k.extractLsb' 0 5 ++ t
  | .pand a b d i t => 0x40#8 ++ a ++ b ++ d ++ i ++ t
  | .por a b d i t => 0x41#8 ++ a ++ b ++ d ++ i ++ t
  | .pxor a b d i t => 0x42#8 ++ a ++ b ++ d ++ i ++ t
  | .pget a d t => 0x43#8 ++ a ++ 0x0#5 ++ d ++ 0x0#5 ++ t
  | .pset a d t => 0x44#8 ++ a ++ 0x0#5 ++ d ++ 0x0#5 ++ t
  | .br o t => 0x900#13 ++ o ++ t
  | .brz a o t => 0x49#8 ++ a ++ o ++ t
  | .brnz a o t => 0x4A#8 ++ a ++ o ++ t
  | .jl o t => 0x960#13 ++ o ++ t
  | .jr a t => 0x4C#8 ++ a ++ 0x0#15 ++ t
  | .loop a o t => 0x4D#8 ++ a ++ o ++ t
  | .reach k t => 0xA00#13 ++ k.extractLsb' 5 5 ++ 0x0#5 ++ k.extractLsb' 0 5 ++ t
  | .fence k t => 0x288000#23 ++ k ++ t
  | .drain t => 0x5200000#28 ++ t
  | .retry t => 0x5300000#28 ++ t
  | .ldB a k d t => 0x58#8 ++ a ++ k.extractLsb' 5 5 ++ d ++ k.extractLsb' 0 5 ++ t
  | .ldH a k d t => 0x59#8 ++ a ++ k.extractLsb' 5 5 ++ d ++ k.extractLsb' 0 5 ++ t
  | .ldW a k d t => 0x5A#8 ++ a ++ k.extractLsb' 5 5 ++ d ++ k.extractLsb' 0 5 ++ t
  | .ldD a k d t => 0x5B#8 ++ a ++ k.extractLsb' 5 5 ++ d ++ k.extractLsb' 0 5 ++ t
  | .stB a k s t => 0x5C#8 ++ a ++ k.extractLsb' 5 5 ++ s ++ k.extractLsb' 0 5 ++ t
  | .stH a k s t => 0x5D#8 ++ a ++ k.extractLsb' 5 5 ++ s ++ k.extractLsb' 0 5 ++ t
  | .stW a k s t => 0x5E#8 ++ a ++ k.extractLsb' 5 5 ++ s ++ k.extractLsb' 0 5 ++ t
  | .stD a k s t => 0x5F#8 ++ a ++ k.extractLsb' 5 5 ++ s ++ k.extractLsb' 0 5 ++ t
  | .ldx a b d e t => 0x60#8 ++ a ++ b ++ d ++ e ++ t
  | .stx a b s e t => 0x61#8 ++ a ++ b ++ s ++ e ++ t
  | .ldV a d e t => 0x62#8 ++ a ++ 0x0#5 ++ d ++ e ++ t
  | .stV a s e t => 0x63#8 ++ a ++ 0x0#5 ++ s ++ e ++ t
  | .atomAdd a b d t => 0x68#8 ++ a ++ b ++ d ++ 0x0#5 ++ t
  | .atomAnd a b d t => 0x69#8 ++ a ++ b ++ d ++ 0x0#5 ++ t
  | .atomOr a b d t => 0x6A#8 ++ a ++ b ++ d ++ 0x0#5 ++ t
  | .atomXor a b d t => 0x6B#8 ++ a ++ b ++ d ++ 0x0#5 ++ t
  | .atomMax a b d t => 0x6C#8 ++ a ++ b ++ d ++ 0x0#5 ++ t
  | .atomMin a b d t => 0x6D#8 ++ a ++ b ++ d ++ 0x0#5 ++ t
  | .atomXchg a b d t => 0x6E#8 ++ a ++ b ++ d ++ 0x0#5 ++ t
  | .atomCas a b d c t => 0x6F#8 ++ a ++ b ++ d ++ c ++ t
  | .atomFadd a b d t => 0x70#8 ++ a ++ b ++ d ++ 0x0#5 ++ t
  | .atomBadd a b d t => 0x71#8 ++ a ++ b ++ d ++ 0x0#5 ++ t
  | .pushCore a b d t => 0x78#8 ++ a ++ b ++ d ++ 0x0#5 ++ t
  | .pushHive a b d t => 0x79#8 ++ a ++ b ++ d ++ 0x0#5 ++ t
  | .pushDie a b d t => 0x7A#8 ++ a ++ b ++ d ++ 0x0#5 ++ t
  | .pushDev a b d t => 0x7B#8 ++ a ++ b ++ d ++ 0x0#5 ++ t
  | .pushSys a b d t => 0x7C#8 ++ a ++ b ++ d ++ 0x0#5 ++ t
  | .popCore a d e t => 0x7D#8 ++ a ++ 0x0#5 ++ d ++ e ++ t
  | .popHive a d e t => 0x7E#8 ++ a ++ 0x0#5 ++ d ++ e ++ t
  | .popDie a d e t => 0x7F#8 ++ a ++ 0x0#5 ++ d ++ e ++ t
  | .popDev a d e t => 0x80#8 ++ a ++ 0x0#5 ++ d ++ e ++ t
  | .popSys a d e t => 0x81#8 ++ a ++ 0x0#5 ++ d ++ e ++ t
  | .send a b d e t => 0x88#8 ++ a ++ b ++ d ++ e ++ t
  | .park k t => 0x1120#13 ++ k.extractLsb' 5 5 ++ 0x0#5 ++ k.extractLsb' 0 5 ++ t
  | .waitm t => 0x8A00000#28 ++ t
  | .getm d e t => 0x22C00#18 ++ d ++ e ++ t
  | .spawn a b d e t => 0x8C#8 ++ a ++ b ++ d ++ e ++ t
  | .join a d t => 0x8D#8 ++ a ++ 0x0#5 ++ d ++ 0x0#5 ++ t
  | .migr a t => 0x8E#8 ++ a ++ 0x0#15 ++ t
  | .count a k t => 0x8F#8 ++ a ++ k.extractLsb' 5 5 ++ 0x0#5 ++ k.extractLsb' 0 5 ++ t
  | .cset a d t => 0x90#8 ++ a ++ 0x0#5 ++ d ++ 0x0#5 ++ t
  | .haul a d t => 0x98#8 ++ a ++ 0x0#5 ++ d ++ 0x0#5 ++ t
  | .haulX a d t => 0x99#8 ++ a ++ 0x0#5 ++ d ++ 0x0#5 ++ t
  | .hcancel a t => 0x9A#8 ++ a ++ 0x0#15 ++ t
  | .hslot a t => 0x9B#8 ++ a ++ 0x0#15 ++ t
  | .hstat a d t => 0x9C#8 ++ a ++ 0x0#5 ++ d ++ 0x0#5 ++ t
  | .gang a t => 0xA0#8 ++ a ++ 0x0#15 ++ t
  | .jzero e t => 0x508000#23 ++ e ++ t
  | .jdrain a e t => 0xA2#8 ++ a ++ 0x0#10 ++ e ++ t
  | .jdrainO g k b t => 0xA3#8 ++ g ++ k.extractLsb' 5 5 ++ b ++ k.extractLsb' 0 5 ++ t
  | .jstat d e t => 0x29000#18 ++ d ++ e ++ t
  | .jred d t => 0x29400#18 ++ d ++ 0x0#5 ++ t
  | .gload a d t => 0xA8#8 ++ a ++ 0x0#5 ++ d ++ 0x0#5 ++ t
  | .gswap a b t => 0xA9#8 ++ a ++ b ++ 0x0#10 ++ t
  | .gmark a b t => 0xAA#8 ++ a ++ b ++ 0x0#10 ++ t
  | .gquiet a d t => 0xAB#8 ++ a ++ 0x0#5 ++ d ++ 0x0#5 ++ t
  | .gctx a b t => 0xAC#8 ++ a ++ b ++ 0x0#10 ++ t
  | .gsave a b t => 0xAD#8 ++ a ++ b ++ 0x0#10 ++ t
  | .grest a b t => 0xAE#8 ++ a ++ b ++ 0x0#10 ++ t
  | .wopen a d t => 0xB0#8 ++ a ++ 0x0#5 ++ d ++ 0x0#5 ++ t
  | .wclose a t => 0xB1#8 ++ a ++ 0x0#15 ++ t
  | .rget a d t => 0xB2#8 ++ a ++ 0x0#5 ++ d ++ 0x0#5 ++ t
  | .rput a d t => 0xB3#8 ++ a ++ 0x0#5 ++ d ++ 0x0#5 ++ t
  | .ratom a d t => 0xB4#8 ++ a ++ 0x0#5 ++ d ++ 0x0#5 ++ t
  | .nstat a d t => 0xB5#8 ++ a ++ 0x0#5 ++ d ++ 0x0#5 ++ t
  | .cjoin a d t => 0xB8#8 ++ a ++ 0x0#5 ++ d ++ 0x0#5 ++ t
  | .cstat a d t => 0xB9#8 ++ a ++ 0x0#5 ++ d ++ 0x0#5 ++ t
  | .mov a d e t => 0xC0#8 ++ a ++ 0x0#5 ++ d ++ e ++ t
  | .pick a b d e t => 0xC1#8 ++ a ++ b ++ d ++ e ++ t
  | .steer a b d e => 0xC2#8 ++ a ++ b ++ d ++ e ++ 0x1#4
  | .merge a k d t => 0xC3#8 ++ a ++ k.extractLsb' 5 5 ++ d ++ k.extractLsb' 0 5 ++ t
  | .mergeu a b d t => 0xC4#8 ++ a ++ b ++ d ++ 0x0#5 ++ t
  | .guard a b d => 0xC5#8 ++ a ++ b ++ d ++ 0x0#9
  | .gen a d e t => 0xC6#8 ++ a ++ 0x0#5 ++ d ++ e ++ t
  | .rep a b d e t => 0xC7#8 ++ a ++ b ++ d ++ e ++ t
  | .drop a t => 0xC8#8 ++ a ++ 0x0#15 ++ t
  | .eos a d e t => 0xC9#8 ++ a ++ 0x0#5 ++ d ++ e ++ t
  | .ctl a d e t => 0xCA#8 ++ a ++ 0x0#5 ++ d ++ e ++ t
  | .sync a d e t => 0xCB#8 ++ a ++ 0x0#5 ++ d ++ e ++ t
  | .vadd a b d e t => 0xD0#8 ++ a ++ b ++ d ++ e ++ t
  | .vsub a b d e t => 0xD1#8 ++ a ++ b ++ d ++ e ++ t
  | .vmul a b d e t => 0xD2#8 ++ a ++ b ++ d ++ e ++ t
  | .vfma a b d e t => 0xD3#8 ++ a ++ b ++ d ++ e ++ t
  | .vmax a b d e t => 0xD4#8 ++ a ++ b ++ d ++ e ++ t
  | .vmin a b d e t => 0xD5#8 ++ a ++ b ++ d ++ e ++ t
  | .vand a b d e t => 0xD6#8 ++ a ++ b ++ d ++ e ++ t
  | .vor a b d e t => 0xD7#8 ++ a ++ b ++ d ++ e ++ t
  | .vxor a b d e t => 0xD8#8 ++ a ++ b ++ d ++ e ++ t
  | .vshl a b d e t => 0xD9#8 ++ a ++ b ++ d ++ e ++ t
  | .vshr a b d e t => 0xDA#8 ++ a ++ b ++ d ++ e ++ t
  | .vcmpEq a b d e t => 0xDB#8 ++ a ++ b ++ d ++ e ++ t
  | .vcmpLt a b d e t => 0xDC#8 ++ a ++ b ++ d ++ e ++ t
  | .vabs a d e t => 0xDD#8 ++ a ++ 0x0#5 ++ d ++ e ++ t
  | .vred a d e t => 0xDE#8 ++ a ++ 0x0#5 ++ d ++ e ++ t
  | .vdot a b d e t => 0xDF#8 ++ a ++ b ++ d ++ e ++ t
  | .vcvt a k d t => 0xE0#8 ++ a ++ k.extractLsb' 5 5 ++ d ++ k.extractLsb' 0 5 ++ t
  | .vrcp a d e t => 0xE1#8 ++ a ++ 0x0#5 ++ d ++ e ++ t
  | .vrsq a d e t => 0xE2#8 ++ a ++ 0x0#5 ++ d ++ e ++ t
  | .vexp2 a d e t => 0xE3#8 ++ a ++ 0x0#5 ++ d ++ e ++ t
  | .vlog2 a d e t => 0xE4#8 ++ a ++ 0x0#5 ++ d ++ e ++ t
  | .vperm a b d e t => 0xE5#8 ++ a ++ b ++ d ++ e ++ t
  | .vbcast a b d e t => 0xE6#8 ++ a ++ b ++ d ++ e ++ t
  | .vscan a d e t => 0xE7#8 ++ a ++ 0x0#5 ++ d ++ e ++ t
  | .mld a d e t => 0xE8#8 ++ a ++ 0x0#5 ++ d ++ e ++ t
  | .mst a b d e t => 0xE9#8 ++ a ++ b ++ d ++ e ++ t
  | .matom a k d t => 0xEA#8 ++ a ++ k.extractLsb' 5 5 ++ d ++ k.extractLsb' 0 5 ++ t
  | .sld s d e t => 0x1D60#13 ++ s ++ d ++ e ++ t
  | .sst a g t => 0xEC#8 ++ a ++ g ++ 0x0#10 ++ t
  | .bmexp a b d e t => 0xED#8 ++ a ++ b ++ d ++ e ++ t
  | .isect a b d e t => 0xEE#8 ++ a ++ b ++ d ++ e ++ t
  | .xsend a d => 0xEF#8 ++ a ++ 0x0#5 ++ d ++ 0x0#9
  | .xrecv a d e t => 0xF0#8 ++ a ++ 0x0#5 ++ d ++ e ++ t
  | .illegalOp
  | .fetchBounds
  | .launch
  | .spanJoin
  | .spanAnswer
  | .spanJoinTimeout
  | .spanLeadTimeout
  | .jobEnd
  | .jobEndTeardown
  | .completionDetect
  | .deadlockDetect
  | .quietReport
  | .activeReport
  | .freshReportRequest
  | .leadUnreachable
  | .spanKill
  | .bargeArrival
  | .busyReply
  | .bargeResend
  | .remoteReject
  | .promotion
  | .faultRedelivery
  | .dispatch
  | .deposit
  | .heldDepositApply
  | .loadReply
  | .completionArrival
  | .stealRequest
  | .stealVictim
  | .stealAnswer
  | .joinPerform
  | .counterArrival
  | .counterCarryFire
  | .commit
  | .effectRelease
  | .probeAnswer
  | .preemption
  | .preemptionEnd
  | .rank7Fault
  | .faultResume
  | .loadPerform
  | .storePerform
  | .storeAck
  | .atomicPerform
  | .queueReserve
  | .queueSettle
  | .snoopRecall
  | .companionRequest
  | .pushSend
  | .migrShip
  | .fenceDone
  | .drainDone
  | .translation
  | .pageWalk
  | .missRetry
  | .shootdown
  | .shot
  | .tokenArrival
  | .arcAck
  | .planeSwitch
  | .memNodeCompletion
  | .writePortToken
  | .bufferReopen
  | .passStart
  | .towpathStart
  | .towpathStop
  | .freedSlotNotice
  | .jointBarrier
  | .opHeadCheck
  | .opStart
  | .blockStart
  | .opComplete
  | .sliceStart
  | .jdrainComplete
  | .partialCombine
  | .haulStart
  | .haulAccessAnswer
  | .haulComplete
  | .haulCancel
  | .hslotPerform
  | .graphReserve
  | .gloadPerform
  | .gloadDone
  | .gswapPerform
  | .reconfPass
  | .swapEnd
  | .gmarkPerform
  | .nodeRecord
  | .cutComplete
  | .gsavePerform
  | .gsaveDone
  | .grestPerform
  | .grestDone
  | .gctxPerform
  | .replayRequest
  | .laneSpare
  | .laneSpareDone
  | .linkDown
  | .linkTrain
  | .routerAccept
  | .routerAck
  | .routerResend
  | .windowReserve
  | .windowPieceCheck
  | .wclosePerform
  | .windowFreed
  | .ratomPerform
  | .remoteAnswer
  | .remoteAttemptTimeout
  | .requestIdRelease
  | .requestIdExpiry
  | .cjoinReserve
  | .cjoinCheck
  | .pathCheck
  | .pathCheckAnswer
  | .pathCheckReask
  | .keyInstallAck
  | .contributionArrival
  | .resultArrival
  | .spdmResponse
  | .spdmTimeout
  | .spdmRequest
  | .policy
  | .elementError
  | .spareMove
  | .twin
  | .kill
  | .unpinnedError
  | .dieKill
  | .killDrainDone
  | .scrubDone
  | .lockkeeperMemoryError
  | .lockkeeperRestartDone
  | .powerGood
  | .calibrate
  | .memoryZeroInit
  | .elementSelfTest
  | .ready
  | .bargePortWrite
  | .unknownService
  | .claimWrite
  | .relinquish
  | .handover
  | .handoverTimeout
  | .ownerPathLost
  | .hiveFence
  | .hiveMoveDone
  | .hiveTest
  | .hiveTestDone
  | .hiveRepair
  | .hiveOnline
  | .linkOff
  | .rasClear
  | .hostBasinBase
  | .hostBasinHead
  | .powerCap
  | .powerEventClear
  | .thermalLimit
  | .dcrWrite
  | .thermalCrossing
  | .thermalTrip
  | .fwStage
  | .fwActivate
  | .capReached
  | .pathCheckTimeout
  | .linkFlitAck
  | .blockEnd
  | .leadSessionResponse
  | .switchErrorAnswer => 0

/-- The checks after the opcode, in the order of R44: ports, then TAG, unused fields (those the encoding writes as
zero, R34) and ranges. -/
def checkWord (w : BitVec 32) (i : Instr) : Except DecodeError Instr :=
  if !WellFormed.portsOk i then .error .illegalPort
  else if encode i != w || !WellFormed.rangesOk i then .error .illegalForm
  else .ok i

/-- Checks 1 to 3 of R44 for a thread's word. -/
def decodeThread (w : BitVec 32) : Except DecodeError Instr :=
  match readThread w with
  | none => .error .illegalOp
  | some i => checkWord w i

/-- The same checks for a rule's word, as the loader makes them (R34, R40, R45, R51). -/
def decodeElement (w : BitVec 32) : Except DecodeError Instr :=
  match readElement w with
  | none => .error .illegalOp
  | some i => checkWord w i

/-- A word stored little-endian (R30), lowest address first. -/
def wordBytes (w : BitVec 32) : List Byte :=
  [w.extractLsb' 0 8, w.extractLsb' 8 8, w.extractLsb' 16 8, w.extractLsb' 24 8]

/-- The word four bytes hold (R30). -/
def bytesWord (b0 b1 b2 b3 : Byte) : BitVec 32 := b3 ++ b2 ++ b1 ++ b0

/-- The instruction bytes hold in a thread's context, or the name of the check that refuses them; fewer than four
bytes are no word. Answers the rest of the bytes too. -/
def decodeBytes : List Byte → Except DecodeError (Instr × List Byte)
  | b0 :: b1 :: b2 :: b3 :: rest =>
    match decodeThread (bytesWord b0 b1 b2 b3) with
    | .ok i => .ok (i, rest)
    | .error e => .error e
  | _ => .error .illegalForm

/-- The instruction whose bits are `w`: a thread's word if that context gives every bit a use, else a rule's word
(opcodes 0x01 and 0x08 have a row in each context, R51). Ranges and ports are for the machine to check. -/
def decodeTableWord (nbits w : Nat) : Option Instr :=
  if nbits ≠ 32 then none
  else
    let x := BitVec.ofNat 32 w
    match readThread x with
    | some i => if encode i == x && !(x.extractLsb' 24 8 == 8#8 && x.extractLsb' 14 5 == 0#5 && x.extractLsb' 4 5 == 2#5) then some i
                else (readElement x).filter (fun j => encode j == x)
    | none => (readElement x).filter (fun j => encode j == x)

end Sys2Proof
end

