-- ==== Sys2Proof/Config.lean ====
section
/-! DEFINITION. What an implementation fixes and the free values: constants without a body, so that nothing can be
proved of their values. -/

namespace Sys2Proof.Config

/-- Values the manual leaves open, numbered by the counter `State.free` (log 10). -/
opaque freeWord : Nat → BitVec 64

/-- The same, as a choice among numbers. -/
opaque freeNat : Nat → Nat

/-- SHA-384 of FIPS 180-4 over bytes (R27, R450, R487): a standard outside the manual (log 12). -/
opaque sha384 : List (BitVec 8) → BitVec 384

/-- The session key a lead or a single device draws (R460): random, so one of the free values. -/
opaque sessionKey : Nat → BitVec 256

/-- Whether another node is an HZ480, which halves the planes between it and this one (R414): the board's wiring. -/
opaque isHz480 : Nat → Bool

/-- Whether a rail link of another position of the rack is UP at a cycle (R422): the router learns it from that node. -/
opaque peerRail : Nat → Nat → Nat → Bool

/-- The digest over which a firmware image's ECDSA P-384 and its LMS signature verify against Kelmel's key, none where they do not (R486);
the security version and the version it carries (log 12). -/
opaque fwEcdsa : List (BitVec 8) → Option (BitVec 384)
opaque fwLms : List (BitVec 8) → Option (BitVec 384)
opaque fwSecver : List (BitVec 8) → Nat
opaque fwVersion : List (BitVec 8) → Nat

/-- The minimum security version fused at manufacture (R486). -/
opaque fwMinSec : Nat

/-- The length of a management message by its kind, and its session slot on a link (R459): fixed by the standards R455 names and by the
lockkeepers. -/
opaque mgmtLen : Nat → Nat
opaque mgmtSlot : Nat → Nat

/-- Whether another device's link to a plane is UP at a cycle, and whether it has measured that plane's switch for a SID (R450):
what its lockkeeper says (log 13). -/
opaque peerPlane : Nat → Nat → Nat → Bool
opaque peerTrust : Nat → Nat → Nat → Nat → Bool

end Sys2Proof.Config
end

