-- ==== Sys2Proof/Machine/Messages.lean ====
section
/-! DEFINITION. The names of the machine's units and the messages they exchange: what the operands of the
machine's own steps carry, and what State holds in flight. -/

namespace Sys2Proof.Machine

open Sys2Proof

/-- A handler core (die, hive, gang member; R7, R8) or an edge core (die, index; R10). -/
inductive CoreId where
  | hc (die hive member : Nat)
  | ec (die idx : Nat)
  deriving DecidableEq, Repr

/-- One of a core's 16 thread contexts (R119). -/
structure ThreadId where
  core : CoreId
  slot : Nat
  deriving DecidableEq, Repr

/-- A tile of a hive (R5, R6). -/
structure TileId where
  die : Nat
  hive : Nat
  tile : Nat
  deriving DecidableEq, Repr

/-- An element of a compute tile (R8). -/
structure ElemId where
  tile : TileId
  elem : Nat
  deriving DecidableEq, Repr

/-- A plane of an element (R281, R283). -/
structure PlaneId where
  elem : ElemId
  plane : Nat
  deriving DecidableEq, Repr

/-- A rule slot of a plane (R282). -/
structure RuleId where
  plane : PlaneId
  slot : Nat
  deriving DecidableEq, Repr

/-- An address generator of a store tile (R9, R315). -/
structure GenId where
  tile : TileId
  gen : Nat
  deriving DecidableEq, Repr

/-- A hive (R5). -/
structure HiveId where
  die : Nat
  hive : Nat
  deriving DecidableEq, Repr

/-- An instance, named by die, origin hive and plane (R389). -/
structure InstId where
  die : Nat
  hive : Nat
  plane : Nat
  deriving DecidableEq, Repr

/-- A node of an instance for R387, R399 and R402: an element plane, a generator or a collective node. -/
inductive NodeId where
  | plane (p : PlaneId)
  | gen (g : GenId)
  | coll (i : InstId) (n : Nat)
  deriving DecidableEq, Repr

/-- Where a byte lies: HBM at a physical address (R215), companion memory, a tile's memory (compute tile: its
core-local memory; store tile: its SRAM), or an edge core's memory (R211, R214). -/
inductive Loc where
  | hbm (p : Nat)
  | comp (a : Nat)
  | tile (t : TileId) (off : Nat)
  | edge (die idx off : Nat)
  deriving DecidableEq, Repr

/-- Where a released effect is performed, as scopes measure it (R214, R239): a core of this device, the Turso link
agent, a lockkeeper, or another node (`away`: a window or a core elsewhere). -/
inductive Home where
  | core (c : CoreId)
  | turso
  | lock (die : Nat)
  | away
  deriving DecidableEq, Repr

/-- Where a checked route goes (R102, R103): a core of this device, a core of another node, a lockkeeper, a core the
machine chooses, or the home of a global address, which must be translated first. -/
inductive Dest where
  | core (c : CoreId)
  | node (n : Nat) (c : CoreId)
  | lock (node die : Nat)
  | any
  | global (va : Nat)
  deriving DecidableEq, Repr

/-- Who sent a barge, and so who takes a BUSY (R106, R109): a core's send unit, a lockkeeper, another device. -/
inductive Sender where
  | core (c : CoreId)
  | lock (die : Nat)
  | node (n : Nat)
  deriving DecidableEq, Repr

/-- The part (R1, R2). -/
inductive Part where
  | hz960 | hz940 | hz480
  deriving DecidableEq, Repr

/-- An arc, named by its consumer: the plane and its input channel (R285). -/
structure ArcId where
  dst : PlaneId
  ch : Nat
  deriving DecidableEq, Repr

/-- The cause codes of R206. -/
inductive Cause where
  | illegalOp | illegalForm | illegalPort | unavailable | addrForm | align | bounds | pageFault | access
  | remoteViolation | reachLong | reachEffects | reachIllegal | reentryExhausted | basinFull | badDeposit
  | barrierOverrun | gangMismatch | jaMismatch | bitmapLen | strayToken | liveness | rankCycle | deadlock
  | copyAddrOvf | linkTimeout | part | twinMismatch | poison | elementFail | killed | trapSw | full | busy
  deriving DecidableEq, Repr

/-- Token kinds (R67, R284). -/
inductive Kind where
  | data | eof | eos | mark | reconf | ctrl
  deriving DecidableEq, Repr

/-- 128 data bits, a kind and the poison bit (R284, R464). -/
structure Token where
  kind : Kind := .data
  data : BitVec 128 := 0
  poison : Bool := false
  deriving DecidableEq, Repr

/-- Where a reported fault goes and what it names (R205): the core it arises on, the SID, the fault edge
(a handler index, or 0xFFFF for the lockkeeper), the image's rank, the faulting handler or graph number, the
slot or plane, the user tag of the entry control word and the identity word of h3. -/
structure Origin where
  core : CoreId
  sid : Nat
  edge : Nat
  rank : Nat
  image : Nat
  slot : Nat
  tag : Nat
  ident : Word
  serial : Nat := 0
  deriving DecidableEq, Repr

/-- What waits for a page fault to be resolved (R276, R277, R376, R430). -/
inductive Suspended where
  | thread (t : ThreadId) (serial : Nat)
  | rule (r : RuleId) (seq : Nat)
  | haul (c : CoreId) (tag idx : Nat)
  | piece (c : CoreId) (slot idx : Nat)
  | save (i : InstId) (off : Nat)
  deriving DecidableEq, Repr

/-- A barge (R101) with what its send unit and basin keep beside it: the source word of h7 (R106), the SID, the
origin its failures are reported to (R108, R109), the duty a PAGE_FAULT barge gives (R276), and whether it is a fault barge
(R110). -/
structure Barge where
  route : Word
  ctl : Word
  payload : List Word
  src : Word
  sid : Nat
  origin : Option Origin
  unit : Nat := 6
  duty : Option Suspended := none
  fault : Bool := false
  deriving DecidableEq, Repr

/-- A thread packet (R136), with the resolution duties that travel with it (R276). -/
structure Packet where
  h : List Word
  pw : BitVec 8
  fstat : BitVec 7
  pc : Word
  sid : Nat
  litBase : Nat
  reachlim : Nat
  prio : Nat
  ctl : Word
  src : Word
  duties : List Suspended
  origin : Origin
  deriving DecidableEq, Repr

/-- What a basin slot holds (R110). -/
inductive Load where
  | barge (b : Barge)
  | packet (p : Packet)
  deriving DecidableEq, Repr

/-- A barge or thread packet on its way: the number its send unit keeps it under, the released effect whose placement
it acknowledges (R247; none for barges no thread released), its priority, and the lane it keeps its order in: its priority
(R109), or one lane for all initial barges of a job, which enter a basin in manifest order (R23). -/
structure Item where
  load : Load
  id : Nat
  rel : Option Nat
  prio : Nat
  lane : Nat := prio
  deriving DecidableEq, Repr

/-- An arrival at a counter (R146): index, parity, and the released effect it performs, of a core of this device or of
another node. -/
structure Arrival where
  idx : Nat
  par : Nat
  src : Option CoreId
  rel : Nat
  node : Option Nat := none
  origin : Option Origin := none
  deriving DecidableEq, Repr

/-- A SPAN_JOIN message (R27). -/
structure SpanMsg where
  sid : Nat
  devices : Nat
  node : Nat
  digest : BitVec 384
  deriving DecidableEq, Repr

/-- A deposit (R125): registers first … of a slot, its generation, and the control word of a continuation barge
(R129; none for the result of a closing effect, which names its thread by `serial`, R192). One without values says that a
closing effect ends without a result (R142, R228). -/
structure Deposit where
  slot : Nat
  first : Nat
  vals : List Word
  gen : BitVec 4
  ctl : Option Word
  sid : Nat
  serial : Option Nat := none
  deriving DecidableEq, Repr

/-- A 16-byte completion (R132, R378, R392, R435) with the haul tag it frees (R365). -/
structure Completion where
  w0 : Word
  w1 : Word
  tag : Option Nat
  sid : Nat
  poison : Bool := false
  deriving DecidableEq, Repr

/-- The load wait a reply is for (R125, R126): the attempt of the thread that began it, and REACHGEN then (R187). -/
structure Await where
  epoch : Nat
  gen : BitVec 4
  deriving DecidableEq, Repr

/-- Who asked for an access, a translation or a reservation, and so who takes the answer. -/
inductive Asker where
  | load (t : ThreadId) (w : Await) (piece : Nat)
  | probe (t : ThreadId) (serial eff page : Nat)
  | route (t : ThreadId) (epoch : Nat)
  | reserve (t : ThreadId) (w : Await)
  | effect (c : CoreId) (rel : Nat)
  | rule (r : RuleId) (seq : Nat)
  | haul (c : CoreId) (tag idx : Nat)
  | piece (c : CoreId) (slot idx : Nat)
  | window (req : Nat)
  | counter (c : CoreId) (fire : Nat)
  | save (i : InstId) (off : Nat)
  | joint (c : CoreId) (off : Nat)
  | none
  deriving DecidableEq, Repr

/-- The kinds of translated access that R274 tells apart. -/
inductive Acc where
  | read | write | queue | route
  deriving DecidableEq, Repr

/-- A translation request of one page (R271). -/
structure XReq where
  asker : Asker
  sid : Nat
  va : Nat
  acc : Acc
  deriving DecidableEq, Repr

/-- The answer of a translation (R274). -/
inductive XAns where
  | ok (l : Loc)
  | nack
  | access
  deriving DecidableEq, Repr

/-- The atomics of R227, R336 and R432. -/
inductive AtomOp where
  | add | and | or | xor | max | min | xchg | cas | fadd | badd | claim
  deriving DecidableEq, Repr

/-- The operations a home performs (R219, R228, R231, R142). -/
inductive MemOp where
  | load (n : Nat)
  | store (bytes : List (Option Byte)) (poison : Bool)   -- `none`: a byte the store does not name (R220)
  | atomic (op : AtomOp) (b c : Word)
  | join
  | pushReserve | popReserve
  | pushSettle (v : Word) | popSettle | pushRelease | popRelease
  deriving DecidableEq, Repr

/-- A request at a home. `addr` is the address as issued (h2 of a fault), `dep` the slot, register and generation
a result is deposited into (R228), `origin` where a failure at the home is reported. -/
structure MemReq where
  asker : Asker
  sid : Nat
  loc : Loc
  addr : Word
  op : MemOp
  dep : Option (ThreadId × Nat × BitVec 4) := none
  origin : Option Origin := none
  deriving DecidableEq, Repr

/-- The answer of an access. -/
inductive Ans where
  | data (bytes : List Byte) (poison : Bool)
  | reserved (l : Loc) (v : Word)
  | refused
  | nack
  | fault (c : Cause)
  deriving DecidableEq, Repr

/-- A freed-slot notice (R329). -/
structure Notice where
  gen : GenId
  slot : Nat
  seq : Nat
  deriving DecidableEq, Repr

/-- A window operation at the entry's home (R423 to R425): its operands, who issued it, the completion's word. -/
structure WinOp where
  id : Nat
  release : Bool
  args : List Word
  thread : ThreadId
  serial : Nat
  sid : Nat
  origin : Origin
  rel : Nat := 0
  ask : Await := ⟨0, 0⟩
  deriving DecidableEq, Repr

/-- A `cjoin` on its way to the lockkeeper (R449). -/
structure CollOp where
  die : Nat
  release : Bool
  args : List Word
  thread : ThreadId
  serial : Nat
  sid : Nat
  origin : Origin
  rel : Nat := 0
  ask : Await := ⟨0, 0⟩
  deriving DecidableEq, Repr

/-- A graph operation on its way to the lockkeeper (R391): the opcode, the place words or operands, who issued it, and
the released effect it is; `late` marks one that has waited and arrives again. -/
structure GraphOp where
  op : Nat
  place : Word
  other : Option Word
  arg : Word
  thread : ThreadId
  serial : Nat
  origin : Origin
  rel : Nat := 0
  ask : Await := ⟨0, 0⟩
  word : BitVec 32 := 0
  late : Bool := false
  deriving DecidableEq, Repr

/-- A request of a requester to a window (R426, R434): its request id (`node` the requester's, core, slot, sequence number), the
attempt, who asks, the window address and the offset in the window (R426: that of a piece may lie past what an address holds);
`copy` counts the times a load was sent again behind a store that was refused (R434). -/
structure WinReq where
  node : Nat
  core : CoreId
  slot : Nat
  seq : Nat
  attempt : Nat
  asker : Asker
  sid : Nat
  addr : Word
  key : Nat
  op : MemOp
  ident : Word
  off : Nat := 0
  copy : Nat := 0
  deriving DecidableEq, Repr

/-- The group check of R450: the asker's node and die, the group, the SID, and what the digest covers. -/
structure PathMsg where
  node : Nat
  sid : Nat
  group : Nat
  rank : Nat
  peer : Nat
  digest : BitVec 384
  deriving DecidableEq, Repr

/-- The answers of R450. -/
inductive PathAns where
  | bound | notYet | differs | otherSid | noDevice
  deriving DecidableEq, Repr

/-- A contribution or a result of a collective node (R440, R452): the group, the sender's rank, the rank it is
for, the epoch, the token index, and the token (EOS ends an epoch). -/
structure CollMsg where
  sid : Nat
  group : Nat
  src : Nat
  dst : Nat
  epoch : Nat
  index : Nat
  tok : Token
  deriving DecidableEq, Repr

/-- A member's report to the lead (R28). -/
structure SpanReport where
  sid : Nat
  node : Nat
  quiet : Bool
  idle : Bool
  sent : Nat
  received : Nat
  round : Option Nat
  deriving DecidableEq, Repr

/-- What a packet to another node carries (R415). -/
inductive NetBody where
  | item (dst : CoreId) (it : Item)
  | jobBarge (die : Nat) (b : Barge)
  | placed (src : Sender) (id : Nat)
  | busy (src : Sender) (id : Nat)
  | reject (src : Sender) (id : Nat) (count : Option (Origin × Word × Nat))
  | arrival (c : CoreId) (idx par : Nat) (origin : Origin) (rel : Nat)
  | ack (c : CoreId) (rel : Nat)
  | window (r : WinReq)
  | answer (r : WinReq) (a : Ans)
  | release (node : Nat) (c : CoreId) (slot seq : Nat)
  | spanKill (sid : Nat) (cause : Cause)
  | spanEnd (sid way : Nat)
  | spanJoin (sid devices node : Nat) (digest : BitVec 384)
  | spanAnswer (sid : Nat) (members : List Nat) (key : BitVec 256) (ok : Bool)
  | report (r : SpanReport)
  | reportAsk (sid round : Nat)
  | path (m : PathMsg)
  | pathAns (m : PathMsg) (a : PathAns)
  | coll (m : CollMsg)
  | result (m : CollMsg)
  deriving DecidableEq, Repr

/-- Where a packet stands on a rail ring (R414, R415): the dimension, the direction it goes round it, the dateline channel. -/
structure RingPos where
  dim : Nat
  plus : Bool
  chan : Nat
  deriving DecidableEq, Repr

/-- What a link's receiver finds of a message's flits (R418, R419): the link, the sequence number of the first, where one fails its
CRC how many good ones precede it and the lane that is blamed; how many flits a management message has and its type (R459); whether
the tags of its frames verify (R461). -/
structure Rx where
  link : Nat
  seq : BitVec 12
  bad : Option (Nat × Nat) := none
  flits : Nat := 1
  kind : Nat := 0
  intact : Bool := true
  deriving DecidableEq, Repr

/-- A packet between nodes (R415, R417): its class, source and destination node, network (0 REQ, 1 RSP), priority, the
ordered class's sequence number, the SID whose key seals it and whether it is sealed (R461), its place on a rail ring. -/
structure NetPkt where
  ordered : Bool := true
  src : Nat
  dst : Nat
  vnet : Nat
  prio : Nat
  seq : Nat
  sid : Option Nat
  body : NetBody
  framed : Bool := false
  ring : Option RingPos := none
  deriving DecidableEq, Repr

/-- A DCR access of a master: 1 companion, 2 board controller, 3 fabric manager of a plane (R481): its offset, its bytes, and whether it reads. -/
structure DcrReq where
  master : Nat
  plane : Nat
  off : Nat
  val : Word
  size : Nat := 8
  read : Bool := false
  deriving DecidableEq, Repr

/-- Where an error that is not pinned to a unit is met (R463, R472): in something that carries its SID; in a Turso-link agent or an edge core's
structure, of which the SID cannot be read. -/
inductive Hit where
  | carries (sid : Nat)
  | turso
  | edge (e : Nat)
  deriving DecidableEq, Repr

/-- What a signature check of a firmware image finds (R486): the image's SHA-384 digest, and the digests its signatures verify over. -/
structure FwSig where
  digest : BitVec 384 := 0
  ecdsa : Option (BitVec 384) := some 0
  lms : Option (BitVec 384) := some 0
  deriving DecidableEq, Repr

/-- A request another node has made of a home here: the home, the cycle, the node, and the port it came by (R416). -/
structure NetTie where
  home : Home
  at_ : Nat
  src : Nat
  link : Nat
  deriving DecidableEq, Repr

/-- A companion access to an HBM line (R220). -/
structure CompReq where
  p : Nat
  write : Option (List Byte)
  deriving DecidableEq, Repr

/-- The capabilities and algorithms R455 requires of a peer. -/
inductive SpdmCap where
  | cert | chal | measSig | keyEx | encrypt | mac
  deriving DecidableEq, Repr
inductive SpdmAlg where
  | ecdsaP384 | sha384 | ecdheP384 | aes256gcm | dmtfMeas
  deriving DecidableEq, Repr

/-- An SPDM message of a switch, the companion or another lockkeeper, as the device's verification units find it (R455 to R457): the
plane it came over, the message it answers or is (1 version, 2 capabilities, 3 algorithms, 4 digests, 5 certificate, 6 challenge, 7 LMS over that
transcript, 8 measurements, 9 LMS over those, 10 key exchange, 11 finish, 12 end of the session), and what it carries: the versions,
capabilities and algorithms offered; whether its chain verifies and the digest of the certificate that chain ends at; the digest of the
transcript up to it; the digest its ECDSA and its LMS signature verify over, none where it does not verify; the measurements. -/
structure SpdmMsg where
  plane : Nat
  step : Nat
  versions : List Nat := []
  caps : List SpdmCap := []
  algs : List SpdmAlg := []
  chain : Bool := false
  anchor : BitVec 384 := 0
  transcript : BitVec 384 := 0
  ecdsa : Option (BitVec 384) := none
  lms : Option (BitVec 384) := none
  measured : List (Nat × BitVec 384) := []
  deriving DecidableEq, Repr

/-- What a management message says (R455 to R460): an SPDM message of a step, an SPDM error, the LMS exchange over transcript 0 CHALLENGE_AUTH or 1
MEASUREMENTS with its digest (vendor command 0x01), and the vendor commands of a switch: install a key (0x02), remove it (0x03), register a group. -/
inductive MgmtBody where
  | spdm (step : Nat)
  | refuse (step : Nat)
  | lms (which : Nat) (digest : BitVec 384)
  | install (sid : Nat) (key : BitVec 256)
  | remove (sid : Nat)
  | register (sid group : Nat)
  deriving DecidableEq, Repr

/-- The head of a management message's first flit (R459): its length in bytes, its type and its session slot. -/
structure MgmtHead where
  len : Nat
  kind : Nat
  slot : Nat
  deriving DecidableEq, Repr

/-- The head of a frame (R461). -/
structure Frame where
  sid : Nat
  node : Nat
  die : Nat
  link : Nat
  valid : Nat
  ctr : Nat
  deriving DecidableEq, Repr

end Sys2Proof.Machine
end

