-- ==== Sys2Proof/Machine/Steps.lean ====
section
/-! DEFINITION. The steps without a word with what each is about: the messages in flight, and the operands of `exec`
for those rows. -/

namespace Sys2Proof.Machine

open Sys2Proof

/-- A step of the machine or of its surroundings with its operands: one constructor for each row of the opcode table
that has no word. -/
inductive Ev where
  | illegalOp (w : BitVec 32)
  | fetchBounds
  | launch (route ctl p0 p1 p2 : Word)
  | spanJoin (m : SpanMsg)
  | spanAnswer (sid : Nat) (members : List Nat) (key : BitVec 256) (ok : Bool)
  | spanJoinTimeout (sid : Nat)
  | spanLeadTimeout (sid : Nat)
  | jobEnd (die sid : Nat) (way : Option Nat)
  | jobEndTeardown (die sid : Nat)
  | completionDetect (sid : Nat)
  | deadlockDetect (sid : Nat)
  | quietReport (r : SpanReport)
  | activeReport (r : SpanReport)
  | freshReportRequest (sid round : Nat)
  | leadUnreachable (sid : Nat)
  | spanKill (sid : Nat) (cause : Cause)
  | bargeArrival (dst : CoreId) (src : Sender) (it : Item)
  | busyReply (src : Sender) (id : Nat)
  | bargeResend (src : Sender) (id : Nat)
  | remoteReject (src : Sender) (id : Nat) (count : Option (Origin × Word × Nat))
  | promotion (core : CoreId) (prio : Nat)
  | faultRedelivery (core : CoreId)
  | dispatch (core : CoreId)
  | deposit (core : CoreId) (dep : Deposit)
  | heldDepositApply (t : ThreadId)
  | loadReply (t : ThreadId) (w : Await) (piece : Nat) (a : Ans)
  | completionArrival (core : CoreId) (c : Completion)
  | stealRequest (thief : CoreId) (victim : CoreId)
  | stealVictim (victim thief : CoreId)
  | stealAnswer (thief : CoreId) (b : Option Barge)
  | joinPerform (r : MemReq)
  | counterArrival (core : CoreId) (a : Arrival)
  | counterCarryFire (core : CoreId) (idx : Nat)
  | commit (t : ThreadId)
  | effectRelease (core : CoreId)
  | probeAnswer (t : ThreadId) (serial eff page : Nat) (a : XAns)
  | preemption (t : ThreadId)
  | preemptionEnd (t : ThreadId)
  | rank7Fault (die : Nat) (b : Barge)
  | faultResume (d : Suspended)
  | loadPerform (r : MemReq)
  | storePerform (r : MemReq)
  | storeAck (core : CoreId) (rel : Nat)
  | atomicPerform (r : MemReq)
  | queueReserve (r : MemReq)
  | queueSettle (r : MemReq)
  | snoopRecall (die edge line : Nat) (all : Bool)
  | companionRequest (r : CompReq)
  | pushSend (core : CoreId)
  | migrShip (t : ThreadId)
  | fenceDone (t : ThreadId)
  | drainDone (t : ThreadId)
  | translation (station : Nat) (r : XReq)
  | pageWalk (station id : Nat)
  | missRetry (station : Nat) (r : XReq)
  | shootdown (ctl p0 p1 : Word)
  | shot (id : Nat)
  | tokenArrival (a : ArcId) (tok : Token)
  | arcAck (a : ArcId)
  | planeSwitch (tile : TileId)
  | memNodeCompletion (r : RuleId) (seq : Nat) (a : Ans)
  | writePortToken (gen : GenId)
  | bufferReopen (gen : GenId)
  | passStart (gen : GenId)
  | towpathStart (gen : GenId)
  | towpathStop (gen : GenId)
  | freedSlotNotice (n : Notice)
  | jointBarrier (hive : HiveId)
  | opHeadCheck (hive : HiveId)
  | opStart (hive : HiveId)
  | blockStart (hive : HiveId)
  | opComplete (hive : HiveId)
  | sliceStart (hive : HiveId) (member : Nat)
  | jdrainComplete (hive : HiveId) (member : Nat)
  | partialCombine (hive : HiveId) (member : Nat)
  | haulStart (core : CoreId)
  | haulAccessAnswer (core : CoreId) (tag idx : Nat) (a : Ans)
  | haulComplete (core : CoreId) (tag : Nat)
  | haulCancel (core : CoreId) (tag rel : Nat)
  | hslotPerform (core : CoreId) (w : Word) (o : Origin) (rel : Nat)
  | graphReserve (g : GraphOp)
  | gloadPerform (g : GraphOp)
  | gloadDone (i : InstId)
  | gswapPerform (g : GraphOp)
  | reconfPass (i : InstId) (n : NodeId)
  | swapEnd (i : InstId)
  | gmarkPerform (g : GraphOp)
  | nodeRecord (i : InstId) (n : NodeId)
  | cutComplete (i : InstId)
  | gsavePerform (g : GraphOp)
  | gsaveDone (i : InstId)
  | grestPerform (g : GraphOp)
  | grestDone (i : InstId)
  | gctxPerform (tile : TileId) (w : Word) (core : CoreId) (rel : Nat)
  | replayRequest (link seq : Nat)
  | laneSpare (link lane : Nat)
  | laneSpareDone (link : Nat)
  | linkDown (link : Nat)
  | linkTrain (link : Nat) (ok : Bool) (peer : Nat)
  | routerAccept (rx : Rx) (p : NetPkt) (sealOk : Bool)
  | routerAck (rx : Rx) (src dst vnet prio seq : Nat) (ring : Option RingPos)
  | routerResend (dst vnet prio : Nat)
  | windowReserve (g : WinOp)
  | windowPieceCheck (r : WinReq)
  | wclosePerform (g : WinOp)
  | windowFreed (sid id : Nat)
  | ratomPerform (n : Nat)
  | remoteAnswer (r : WinReq) (a : Ans)
  | remoteAttemptTimeout (core : CoreId) (slot seq idx attempt : Nat)
  | requestIdRelease (node : Nat) (core : CoreId) (slot seq : Nat)
  | requestIdExpiry (node : Nat) (core : CoreId) (slot seq : Nat)
  | cjoinReserve (g : CollOp)
  | cjoinCheck (g : CollOp)
  | pathCheck (m : PathMsg)
  | pathCheckAnswer (m : PathMsg) (a : PathAns)
  | pathCheckReask (sid group rank : Nat)
  | keyInstallAck (plane sid group : Nat) (rx : Rx)
  | contributionArrival (m : CollMsg) (rx : Option Rx)
  | resultArrival (m : CollMsg) (rx : Option Rx)
  | spdmResponse (m : SpdmMsg) (rx : Rx)
  | spdmTimeout (plane : Nat)
  | spdmRequest (node : Nat) (m : SpdmMsg) (rx : Rx)
  | policy (ctl p0 p1 : Word)
  | elementError (e : ElemId)
  | spareMove (e : ElemId)
  | twin (ctl p0 p1 : Word)
  | kill (ctl p0 : Word)
  | unpinnedError (die : Nat) (hit : Hit) (frame : Option Nat)
  | dieKill (die sid : Nat) (cause : Cause)
  | killDrainDone (die sid : Nat)
  | scrubDone (sid va : Nat)
  | lockkeeperMemoryError (die : Nat)
  | lockkeeperRestartDone (die : Nat)
  | powerGood
  | calibrate (node fail : Nat)
  | memoryZeroInit (ok : Bool)
  | elementSelfTest (failed : List ElemId)
  | ready
  | bargePortWrite (words : List Word)
  | unknownService (words : List Word) (host : Bool)
  | claimWrite (master plane : Nat) (val : Word)
  | relinquish (master plane : Nat)
  | handover (master plane : Nat) (val : Word)
  | handoverTimeout
  | ownerPathLost
  | hiveFence (master plane n : Nat)
  | hiveMoveDone (h : HiveId)
  | hiveTest (master plane n : Nat)
  | hiveTestDone (n status : Nat)
  | hiveRepair (master plane n : Nat)
  | hiveOnline (master plane n : Nat)
  | linkOff (master plane n : Nat) (off : Bool)
  | rasClear (master plane : Nat) (val : Word)
  | hostBasinBase (master plane n : Nat) (val : Word)
  | hostBasinHead (master plane n : Nat) (val : Word)
  | powerCap (master plane : Nat) (val : Word)
  | powerEventClear (master plane : Nat) (val : Word)
  | thermalLimit (master plane : Nat) (val : Word)
  | dcrWrite (r : DcrReq)
  | thermalCrossing (die temp : Nat)
  | thermalTrip (die temp : Nat)
  | fwStage (ctl p0 p1 : Word)
  | fwActivate (ctl : Word)
  | capReached (now : Nat)
  | pathCheckTimeout (sid group rank : Nat)
  | linkFlitAck (link n : Nat)
  | blockEnd (hive : HiveId)
  | leadSessionResponse (sid : Nat) (m : SpdmMsg)
  | switchErrorAnswer (plane sid group : Nat) (rx : Rx)
  deriving DecidableEq, Repr

end Sys2Proof.Machine
end

