-- ==== Sys2Proof/Machine/State.lean ====
section
/-! DEFINITION. The machine's state: everything the manual gives the device, as plain data, and the state after
reset. Tables list only what differs from a default (an unlisted thread context is FREE, an unlisted core idle). -/

namespace Sys2Proof.Machine

open Sys2Proof

/-! ## Why a step stops -/

/-- Why the machine stops. -/
inductive Fault where
  /-- Raised by `step` alone, when the device has stopped: a die reached its trip point
  (R494), and nothing acts before the next power-good but the registers. Safe: the manual says nothing runs then. -/
  | deviceStopped
  deriving DecidableEq, Repr

/-- Why a step has no meaning. -/
inductive Refusal where
  /-- Raised by an arm of `exec` whose instruction has no meaning yet. Safe: a run stops there. -/
  | notModelled (mnemonic : String)
  deriving DecidableEq, Repr

/-! ## Thread contexts (R119, R148) -/

/-- h0 to h9 (R148). -/
structure Regs where
  h0 : Word := 0
  h1 : Word := 0
  h2 : Word := 0
  h3 : Word := 0
  h4 : Word := 0
  h5 : Word := 0
  h6 : Word := 0
  h7 : Word := 0
  h8 : Word := 0
  h9 : Word := 0
  deriving DecidableEq, Repr

/-- What a discard restores (R185). -/
structure Snapshot where
  regs : Regs := {}
  pw : BitVec 8 := 1
  fstat : BitVec 7 := 0
  flags : BitVec 7 := 0
  reachlim : Nat := 0
  entry : Word := 0
  deriving DecidableEq, Repr

/-- The boundaries that commit (R182). -/
inductive Boundary where
  | reach (id : BitVec 10)
  | done
  | migr
  deriving DecidableEq, Repr

/-- What a RUNNING context waits for: the waits of R183 before its commit, the release of its last effects (R193,
R235), the performs R244 asks for before a thread packet leaves, a fence, a drain, the translation of the route of a `send`
(R103): its barge and its virtual address. -/
inductive Wait where
  | commit (b : Boundary)
  | release (b : Boundary)
  | ship
  | fence (scope : Nat)
  | drain
  | route (b : Barge) (va : Nat)
  deriving DecidableEq, Repr

/-- The states of a context (R119); PARKED tells its two reasons apart (R126). READY and RUNNING without a wait are
one: an instruction that does not wait is one step here. -/
inductive Status where
  | free
  | ready
  | running (w : Wait)
  | loadWait
  | parkWait (need : Nat)
  | mwait
  | suspended
  deriving DecidableEq, Repr

/-- What the replies of a load wait are for (R222, R225, R232, R233). -/
inductive LoadKind where
  | scalar (d : BitVec 5) (n : Nat)
  | vec (d count : Nat)
  | push (d : Nat) (v : Word) (scope : Nat)
  | pop (d : Nat) (b : BitVec 5) (scope : Nat)
  | reserve (d : Nat)
  deriving DecidableEq, Repr

/-- One awaited access of a load wait: its address, its length, and the bytes of its reply. -/
structure Piece where
  addr : Word
  len : Nat
  got : Option (List Byte) := none
  deriving DecidableEq, Repr

/-- A probe's answer (R190, R279): a stale answer asks again. -/
inductive ProbeState where
  | waiting
  | ok (l : Loc)
  | bad (c : Cause)
  deriving DecidableEq, Repr

/-- A translation probe of one page of an effect (R190): the first address in that page. -/
structure Probe where
  va : Nat
  acc : Acc
  ans : ProbeState := .waiting
  deriving DecidableEq, Repr

/-- The effects of R188. -/
inductive Eff where
  | store (addr : Word) (bytes : List Byte)
  | send (b : Barge) (d : Dest)
  | count (d : Dest) (idx par : Nat)
  | spawn (b : Barge)
  | cset (idx : Nat) (op : Word)
  | push (addr v : Word) (scope : Nat) (loc : Loc)
  | pop (addr : Word) (loc : Loc)
  | pushDrop (addr : Word) (loc : Loc)
  | popDrop (addr : Word) (loc : Loc)
  | csrw (idx : Nat) (v : Word)
  | atom (op : AtomOp) (addr b c : Word) (dst : BitVec 5)
  | join (addr : Word) (dst : BitVec 5)
  | migr (addr : Word)
  | haul (x : Bool) (tag : Nat) (desc : List Byte) (word : BitVec 32)
  | hcancel (tag : Nat)
  | hslot (w : Word)
  | gang (rec : List Byte)
  | jzero (bank : Nat)
  | jdrain (bank : Nat) (rec : List Byte)
  | jdrainO (bank ring n : Nat)
  | graph (g : GraphOp)
  | gctx (tile : TileId) (w : Word)
  | wopen (w : WinOp)
  | wclose (w : WinOp)
  | rget (slot : Nat) (desc : List Byte)
  | rput (slot : Nat) (desc : List Byte)
  | ratom (slot : Nat) (desc : List Byte)
  | cjoin (c : CollOp)
  deriving DecidableEq, Repr

/-- A load wait (R126); for a reservation asked of a lockkeeper or a window's home, the effect it becomes (R393, R424,
R449). -/
structure LoadWait where
  kind : LoadKind
  addr : Word
  pieces : List Piece
  eff : Option Eff := none
  probes : List Probe := []
  deriving DecidableEq, Repr

/-- An effect in a reach's buffer with the answers of its probes (R189, R190). -/
structure Buffered where
  eff : Eff
  probes : List Probe := []
  deriving DecidableEq, Repr

/-- A thread context (R119, R148). `serial` numbers the threads that have held it, for the messages that must not
reach a later one; `epoch` numbers its attempts, for the answers of probes and loads. `yields` says that a `yield` retires when
the next instruction could issue, `heldAt` from which cycle the next held deposit may apply (R127). -/
structure Ctx where
  status : Status := .free
  serial : Nat := 0
  epoch : Nat := 0
  regs : Regs := {}
  pw : BitVec 8 := 1
  pc : Word := 0
  lit : Nat := 0
  sid : Nat := 0
  fstat : BitVec 7 := 0
  flags : BitVec 7 := 0
  reachlim : Nat := 0
  reachcnt : Nat := 0
  shield : Bool := false
  poisoned : Bool := false
  gen : BitVec 4 := 0
  rid : BitVec 10 := 0
  execs : Nat := 0
  snap : Snapshot := {}
  buf : List Buffered := []
  loadWait : Option LoadWait := none
  shipTo : Option CoreId := none
  outst : Nat := 0
  hold : List Deposit := []
  prio : Nat := 0
  ctl : Word := 0
  src : Word := 0
  preemptPending : Bool := false
  preempted : Bool := false
  faulted : Bool := false
  duties : List Suspended := []
  nextIssue : Nat := 0
  yields : Bool := false
  yieldFor : List Nat := []
  heldAt : Nat := 0
  freeAt : Nat := 0
  deriving DecidableEq, Repr

/-! ## Cores -/

/-- An item in a basin slot or overflow entry: the cycle it arrived (R112) and the priority it waits at. -/
structure Slot where
  load : Load
  prio : Nat
  at_ : Nat
  deriving DecidableEq, Repr

/-- A completion in the queue, and the slot whose reach reserves it (R134). -/
structure CompEntry where
  comp : Completion
  by_ : Option Nat := none
  deriving DecidableEq, Repr

/-- A deque entry; `by_` is the slot whose reach still reserves it (R138). -/
structure DqEntry where
  barge : Barge
  by_ : Option Nat := none
  deriving DecidableEq, Repr

/-- An arrival counter (R143); `by_` is the slot whose reach reserves it (R145). -/
structure Counter where
  target : Nat := 0
  barrier : Bool := false
  action : Nat := 0
  arg : BitVec 32 := 0
  origin : Option Origin := none
  phase : Nat := 0
  count : Nat := 0
  next : Nat := 0
  by_ : Option Nat := none
  deriving DecidableEq, Repr

/-- What a send unit keeps of a barge or packet until it is placed (R109); one to another node is `sent` once those before it in
its lane are placed. -/
structure SendRec where
  item : Item
  dst : CoreId
  tries : Nat := 0
  due : Nat := 0
  sent : Bool := false
  deriving DecidableEq, Repr

/-- A committed effect that has not left its core (R193); `eff` numbers the core's committed effects. -/
structure Released where
  eff : Nat
  slot : Nat
  serial : Nat
  gen : BitVec 4
  sid : Nat
  origin : Origin
  buf : Buffered
  deriving DecidableEq, Repr

/-- The classes of R247. -/
inductive Cls where
  | memory | message | engine
  deriving DecidableEq, Repr

/-- A released effect, or one block of a store, that is not yet performed (R235, R247): the number its acknowledgement carries, the
effect's number, its thread, where it goes, and how many accesses it still awaits; `pages` the pages it was translated with
(R279), `data` whether it is a store or an atomic, which a later push waits for (R234). -/
structure Out where
  rel : Nat
  eff : Nat
  serial : Nat
  cls : Cls
  home : Home
  need : Nat
  sid : Nat
  pages : List Nat := []
  data : Bool := false
  deriving DecidableEq, Repr

/-- A barge a counter sends whose route is being translated (R145): the number of its firing, and h2 of a fault. -/
structure Firing where
  num : Nat
  barge : Barge
  off : Word
  deriving DecidableEq, Repr

/-- Haul tag states (R365). -/
inductive TagState where
  | free | reserved | queued | running | stopped | complete
  deriving DecidableEq, Repr

/-- A handler core or edge core (R110 to R116, R137, R143, R152). `relq` holds committed effects that have not left,
`outs` those that have left and are not performed; `resumes` the duties of threads that have ended while effects of theirs are not yet performed (R276), `steal` the
context held for an answer (R139), `stolen` the entry that has come and waits for a context (R207), `fired` stored barges of
counters whose global route is being translated (R145), `nextEff` and `nextRel` number committed effects and acknowledgements. -/
structure Core where
  basin : List Slot := []
  spill : List Slot := []
  faults : List Slot := []
  lane : List Deposit := []
  comps : List CompEntry := []
  stale : BitVec 32 := 0
  busy : BitVec 32 := 0
  spills : BitVec 32 := 0
  owed : Nat := 0
  deque : List DqEntry := []
  steal : Option Nat := none
  stolen : Option Barge := none
  counters : Tbl Nat Counter := []
  sends : Tbl Nat SendRec := []
  nextId : Nat := 0
  relq : List Released := []
  lastRel : Option Nat := none
  outs : List Out := []
  nextRel : Nat := 0
  nextEff : Nat := 0
  resumes : List (Nat × List Suspended) := []
  last : Nat := 15
  lastIssue : Option Nat := none
  lastDispatch : Option Nat := none
  fired : List Firing := []
  nretry : Tbl Nat Nat := []
  rtimeout : Tbl Nat Nat := []
  deriving DecidableEq, Repr

/-! ## Jobs (R22, R64) -/

/-- A handler as loaded (R64). -/
structure Handler where
  rank : Nat
  units : Nat
  edge : Nat
  entry : Nat
  code : List (BitVec 32)
  lits : List Word
  deriving DecidableEq, Repr

/-- How far a job is: launching (step 8 of R23 under way), running, ended by JOB_END or completion (R25), killed. -/
inductive JobState where
  | launching | running | ending (way : Nat) | killed (c : Cause)
  deriving DecidableEq, Repr

/-- What a spanning job's lead and members keep (R27, R28): `session` is the step of its session with the lead
that a member has under way (R455), `asking` says that it has sent SPAN_JOIN, `reports` are the latest
reports, `answers` those to the round under way. -/
structure Span where
  devices : Nat := 0
  lead : Nat := 0
  digest : BitVec 384 := 0
  joined : List Nat := []
  deadline : Option Nat := none
  session : Nat := 0
  asking : Bool := false
  reports : Tbl Nat SpanReport := []
  answers : Tbl Nat SpanReport := []
  round : Nat := 0
  asked : Bool := false
  lastSum : Option (Nat × Nat) := none
  lastQuiet : Bool := false
  sent : Nat := 0
  received : Nat := 0
  quiet : Bool := false
  idle : Bool := false
  routeLostAt : Option Nat := none
  deriving DecidableEq, Repr

/-- A policy (R458): trust anchors and accepted measurements. -/
structure Policy where
  anchors : List (BitVec 384) := []
  entries : List (Nat × BitVec 384) := []
  deriving DecidableEq, Repr

/-- What the lockkeepers hold of a job: its handler table, graph images, hives in allotment order, page-table root,
user tag, host basin, steal domain, initial REACHLIM, span, session key, the hives that moved (R23, R491), the
cycle since when it has been idle or complete (R410), the policy it started with (R458), what caused its kill and what each die
ended (R473). -/
structure Job where
  handlers : Tbl Nat Handler := []
  graphs : List (List Byte) := []
  hives : List HiveId := []
  root : Nat := 0
  tag : BitVec 40 := 0
  basin : Nat := 0
  dom : Nat := 0
  reachlim : Nat := 16
  members : List Nat := []
  span : Span := {}
  key : BitVec 256 := 0
  state : JobState := .launching
  start : List Barge := []
  moved : Tbl HiveId HiveId := []
  killDies : List Nat := []
  quietSince : Option Nat := none
  idleSince : Option Nat := none
  policy : Policy := {}
  frame : Option Nat := none
  counts : Tbl Nat (Nat × Nat × Nat) := []
  deriving DecidableEq, Repr

/-! ## Translation (R271, R278, R279) -/

/-- A cached leaf: SID, page base, page size code 0 to 2, entry word. -/
structure XEntry where
  sid : Nat
  base : Nat
  size : Nat
  entry : Word
  deriving DecidableEq, Repr

/-- A walk: the level it reads next, that level's table base, and the requests that share it. -/
structure Walk where
  id : Nat
  sid : Nat
  va : Nat
  level : Nat
  table : Nat
  waiters : List XReq
  deriving DecidableEq, Repr

/-- A translation station (R271 to R273). -/
structure Station where
  cache : List XEntry := []
  walks : List Walk := []
  waitq : List XReq := []
  nextId : Nat := 0
  misses : BitVec 32 := 0
  retries : BitVec 16 := 0
  deriving DecidableEq, Repr

/-- A shootdown in progress (R279): what it waits for is the committed effects of these cores with these numbers; `host` says
whether it is the service of a host barge. -/
structure Shoot where
  sid : Nat
  va : Word
  all : Bool
  size : Nat
  waits : List (CoreId × Nat)
  host : Bool
  born : Nat
  deriving DecidableEq, Repr

/-! ## Remote accesses (R433, R434) -/

/-- An operation at a window that waits for its answer: its number in the order of first sending, the request as last sent, the
limits in force when it was first sent (R436), when its attempt runs out, where a failure is reported, and the number of the thread
that made it. -/
structure WinAttempt where
  num : Nat
  req : WinReq
  nretry : Nat
  rtimeout : Nat
  due : Nat
  origin : Origin
  serial : Nat := 0
  deriving DecidableEq, Repr
/-! ## Elements (R281 to R292, R467 to R469) -/

/-- A token in a latch and the cycle from which it is a head (R286, R293). -/
structure Latch where
  tok : Token
  since : Nat
  deriving DecidableEq, Repr

/-- The state of `bmexp` (R338, R406): phase 0 header, 1 bitmap, 2 emit, 3 eof, 4 stopped by BITMAP_LEN; `bad` whether the header or the bitmap
came poisoned (R464). -/
structure BmState where
  phase : Nat := 0
  n : Nat := 0
  base : Nat := 0
  bitmap : BitVec 128 := 0
  bit : Nat := 0
  lane : Nat := 0
  out : Nat := 0
  bad : Bool := false
  deriving DecidableEq, Repr

/-! ## Store tiles (R315 to R331) -/

/-- A store record's settings (R68, R317): mode 0 TILE, 1 FIFO, 2 LINE. -/
structure StoreRec where
  mode : Nat
  base : Nat
  size : Nat
  count : Nat
  deriving DecidableEq, Repr

/-- An engine a generator's side is bound to (R319): a haul, or the joint array of a hive. -/
inductive Engine where
  | haul (c : CoreId) (tag : Nat)
  | array (h : HiveId)
  deriving DecidableEq, Repr

/-- A record taken by a generator: whose, and whether its image holds a reading `sld` and an `sst` for it. -/
structure GenCfg where
  inst : InstId
  recd : StoreRec
  reader : Bool
  writer : Bool
  deriving DecidableEq, Repr

/-- A generator (R315 to R331): the record it holds and the one pending (R318), program, run state, indices, words
written into the slot being filled, counters of a pass (R325), FIFO kinds, ports and
the markers in them, bound engines, notices sent since binding. -/
structure Gen where
  cfg : Option GenCfg := none
  pend : Option GenCfg := none
  prog : Option (BitVec 128) := none
  run : Bool := true
  closed : Bool := false
  full : List Nat := []
  fill : Nat := 0
  drain : Nat := 0
  part : Nat := 0
  pass : Option (Nat × Nat × Nat) := none
  kinds : List Kind := []
  head : Nat := 0
  wport : Option Token := none
  wmark : Option Token := none
  rport : Option Latch := none
  rmark : Option Token := none
  prod : Option Engine := none
  cons : Option Engine := none
  nseq : Nat := 0
  recorded : Bool := false
  deriving DecidableEq, Repr

/-! ## Planes (R282, R333) -/

/-- How far an access of a memory node is (R277, R333): its translation is asked; translated, and waiting for its
node's turn; at a window; sent; refused by a NACK; performed, with its completion token. -/
inductive NodeSt where
  | asked | ready (l : Loc) | away (w : Word) | sent | nacked | done (t : Token)
  deriving DecidableEq, Repr

/-- An access of a memory node whose completion token is not yet pushed (R333); `late` marks one issued after an access of its rule
that failed: it is performed, but no token is pushed; `holds` marks one whose operands stand at their latches until its address is
translated, so that a refused one pops nothing (R277). -/
structure NodeAcc where
  slot : Nat
  seq : Nat
  addr : Word
  op : MemOp
  tok : Token
  need : Nat := 1
  st : NodeSt := .asked
  late : Bool := false
  holds : Bool := false
  deriving DecidableEq, Repr

/-- What an output channel feeds or an input channel is fed by: an arc or a collective node (R285, R442). -/
inductive Wire where
  | arc (p : PlaneId) (ch : Nat)
  | coll (i : InstId) (n : Nat)
  deriving DecidableEq, Repr

/-- What a replay window keeps of a plane (R468): its state of R282 without rule slots and literals; an output slot is never restored,
since its token has been sent. -/
structure PlaneCopy where
  acc : BitVec 128 := 0
  q : BitVec 4 := 0
  sp : Nat := 0
  scr : Tbl Nat (BitVec 128) := []
  flags : BitVec 7 := 0
  g : BitVec 32 := 0
  ucount : Nat := 0
  rc : Nat := 0
  bm : BmState := {}
  latch : Tbl Nat Latch := []
  rank : Tbl Nat Nat := []
  deriving DecidableEq, Repr

/-- A firing in a replay window (R468): its rule slot, the plane as it stood before it with the tokens it popped at their latches, whether it
was urgent and chosen over a ready rule that was not (R290), and of an `sld` the generator it read. -/
structure WinFire where
  slot : Nat
  before : PlaneCopy
  skipped : Bool := false
  gen : Gen := {}
  deriving DecidableEq, Repr

/-- A plane (R282). `outs` the occupied output slots, `freed` the cycle an in-tile acknowledgement freed a slot (R529),
`held` the tokens of its intersection units (R339), `accs` its memory accesses, `stuck` the rules a fault stalled,
`mark` the markers standing in its latches (R397), `window` the firings of its replay window, oldest first (R468), `rank` the source ranks of heads from collective nodes
(R445). -/
structure Plane where
  inst : Option InstId := none
  rules : List (BitVec 32 × BitVec 32) := []
  lits : List (BitVec 32) := []
  acc : BitVec 128 := 0
  q : BitVec 4 := 0
  sp : Nat := 0
  scr : Tbl Nat (BitVec 128) := []
  latch : Tbl Nat Latch := []
  mark : Tbl Nat Token := []
  outs : Tbl Nat Token := []
  freed : Tbl Nat Nat := []
  src : Tbl Nat Wire := []
  dst : Tbl Nat Wire := []
  flags : BitVec 7 := 0
  g : BitVec 32 := 0
  ucount : Nat := 0
  rc : Nat := 0
  bm : BmState := {}
  isects : List (Nat × Nat) := []
  held : Tbl Nat Latch := []
  accs : List NodeAcc := []
  nseq : Nat := 0
  stuck : List Nat := []
  recorded : Bool := false
  window : List WinFire := []
  rank : Tbl Nat Nat := []
  deriving DecidableEq, Repr

/-- An element's containment (R467 to R469): the cycle its hold ends, whether it is held for good, its last error, whether a replay ends the
hold, and the firing that met the error. -/
structure Elem where
  heldTo : Nat := 0
  dead : Bool := false
  lastErr : Option Nat := none
  replay : Bool := false
  retry : Option RuleId := none
  deriving DecidableEq, Repr

/-- A compute tile's sequencer (R395), the firings chosen for its cycle that have not run (R529), the urgent ones among them that
were chosen over a ready rule that is not urgent (R290), and the element its spare stands in for (R469). -/
structure Tile where
  cur : Nat := 0
  left : Nat := 0
  w : List Nat := [16, 16, 16, 16]
  boost : Bool := false
  skips : List (BitVec 32) := [0, 0, 0, 0]
  idle : Bool := true
  chosen : List RuleId := []
  skipped : List RuleId := []
  last : Option Nat := none
  spare : Option Nat := none
  deriving DecidableEq, Repr

/-! ## The joint array (R341 to R363) -/

/-- A member's slice of a bank (R342): 8,192 values row by row (none listed: all zero), those that are poisoned (R464),
kind 0 none, 1 FP32, 2 INT32. -/
structure Slice where
  vals : List (BitVec 32) := []
  bad : List Nat := []
  kind : Nat := 0
  red : Bool := false
  flags : BitVec 7 := 0
  seq : Nat := 0
  deriving DecidableEq, Repr

/-- An entry of a member's joint queue (R348), with the origin its faults are reported to. -/
structure JEntry where
  eff : Eff
  origin : Origin
  deriving DecidableEq, Repr

/-- An op (R349, R350): the eight members' records and origins, how far it is, its next K block, whether one is being
added, and the writes of its partial slots not yet performed. -/
structure Op where
  recs : List (List Byte)
  origins : List Origin
  checked : Bool := false
  started : Bool := false
  blk : Nat := 0
  busy : Bool := false
  need : Nat := 0
  wrote : Bool := false
  deriving DecidableEq, Repr

/-- A running slice instruction (R355): the writes of a drain that are not yet performed; `wrote` once they are sent. -/
structure JRun where
  entry : JEntry
  need : Nat := 0
  wrote : Bool := false
  slot : Nat := 0
  deriving DecidableEq, Repr

/-- A hive's array (R343): members' queues and running instructions, the hive op queue, shard flags, comparator status
(R361), the notices it holds, the kinds of the partial slots written, the generators bound as partial rings (R359). -/
structure Joint where
  queues : Tbl Nat (List JEntry) := []
  runs : Tbl Nat JRun := []
  ops : List Op := []
  shard : BitVec 16 := 0
  cmpSeq : Nat := 0
  cmpGroup : Nat := 0
  cmpBank : Nat := 0
  cmpValid : Bool := false
  cmpCount : BitVec 32 := 0
  notes : List (GenId × Nat) := []
  part : Tbl (GenId × Nat) Nat := []
  partials : List GenId := []
  deriving DecidableEq, Repr

/-! ## Hauls (R364 to R384) -/

/-- An end of a copy. -/
inductive HEnd where
  | mem (a : Word)
  | ring (g : GenId)
  deriving DecidableEq, Repr

/-- How far an element of a haul is: its read is under way, refused by a NACK, or its write is. -/
inductive HStage where
  | reading | readNack | writing (v : List Byte) (bad : Bool) | writeNack (v : List Byte) (bad : Bool)
  deriving DecidableEq, Repr

/-- A copy of a haul (`haul.x` makes two, R377): its ends, element size, the next element in stream order, the elements
under way, the notices held; of its destination ring the slots it has opened and not yet filled, oldest first, how many it has
filled, the places its stops have padded, and whether a stop under way has filled them up; of its source ring how many slots it has emptied. -/
structure Leg where
  src : HEnd
  dst : HEnd
  esz : Nat
  bsrc : Bool
  bdst : Bool
  idx : Nat := 0
  fly : List (Nat × HStage) := []
  notes : List Nat := []
  slots : List Nat := []
  shut : Nat := 0
  pad : Nat := 0
  padded : Bool := false
  took : Nat := 0
  deriving DecidableEq, Repr

/-- A haul (R365, R378, R381, R384). -/
structure Haul where
  x : Bool
  desc : List Byte
  sid : Nat
  origin : Origin
  serial : Nat
  word : BitVec 32 := 0
  order : Nat
  legs : List Leg := []
  moved : Nat := 0
  outside : Nat := 0
  status : Nat := 0
  poison : Bool := false
  cancelled : Bool := false
  ending : Bool := false
  stopping : Bool := false
  resumed : Bool := false
  deriving DecidableEq, Repr

/-- A haul that was cancelled while STOPPED (R380): of its record in a cut nothing is restored. -/
structure Dropped where
  core : CoreId
  tag : Nat
  sid : Nat
  desc : List Byte
  deriving DecidableEq, Repr

/-! ## Graph instances (R389 to R409) -/

/-- The states of R390; an instance that is not listed is FREE. -/
inductive InstState where
  | reserved | loading | shadow | active | swapping | marking | cut
  deriving DecidableEq, Repr

/-- A place that held a token when a node passed RECONF (R399, R400). -/
structure Stray where
  tile : TileId
  elem : Nat
  ch : Nat
  tok : Token
  deriving DecidableEq, Repr

/-- What a cut saves of a generator (R337, R403): its state as it stood when it recorded, and the bytes of its tile's saved ranges
then, in their order, each with whether it was poisoned. -/
structure GenSnap where
  gen : GenId
  x : Gen
  bytes : List (Byte × Bool)
  deriving DecidableEq, Repr

/-- A swap or a cut under way (R399, R402): its operation, the new instance of a swap, the checkpoint id of a cut, whether
its sources record at once; the nodes that have passed or recorded, those whose markers are sent, the strays, and
immediate `gmark`s that joined; what the generators were when they recorded. -/
structure Wave where
  op : GraphOp
  new : Option InstId := none
  id : Nat := 0
  now : Bool := false
  passed : List NodeId := []
  sent : List NodeId := []
  strays : List Stray := []
  joined : List GraphOp := []
  snaps : List GenSnap := []
  deriving DecidableEq, Repr

/-- A save or restore under way (R407, R408): the bytes of the area and which of its 32-byte pieces are poisoned, how many
bytes have been issued, the pieces not performed, the bytes performed, operations that wait for it (R391). -/
structure Save where
  op : GraphOp
  va : Word
  bytes : List Byte
  bad : List Nat := []
  want : Nat := 0
  next : Nat := 0
  fly : List Nat := []
  failed : Nat := 0
  done : Nat := 0
  waitq : List GraphOp := []
  deriving DecidableEq, Repr

/-- An instance (R389, R390), with the place of its region; `waitq` operations that wait for it to settle (R391), `area`
the cut area of R405 and its poisoned pieces. -/
structure Inst where
  st : InstState
  image : Nat
  sid : Nat
  origin : HiveId
  width : Nat
  height : Nat
  waitq : List GraphOp := []
  wave : Option Wave := none
  area : List Byte := []
  areaBad : List Nat := []
  deriving DecidableEq, Repr

/-- Firings of an exit of the copy that leads, not yet matched (R471): whether A leads, the index of the first, the tokens
each sent. -/
structure ExitLog where
  aLeads : Bool
  k : Nat
  sent : List (List (BitVec 128 × Kind))
  deriving DecidableEq, Repr

/-- An armed twin pair (R470, R471), with a log for each exit (region x, y and rule slot). -/
structure Twin where
  a : InstId
  b : InstId
  ahead : Tbl (Nat × Nat × Nat) ExitLog := []
  raised : Bool := false
  deriving DecidableEq, Repr

/-! ## Collectives (R440 to R454) -/

/-- A collective node (R440 to R447): its record, its gateway (R442), the rank it is bound as; the token at its in channel
that it has not taken, the epoch and index it sends next, contributions whose results have not arrived (R452), the last ones whose
result has arrived here but maybe not everywhere, contributions it combines, its last sums by epoch and index, results and other ranks' tokens by epoch, source and index, epoch lengths; the tokens to
deliver with their source ranks, whether one is under way, the epoch and position it delivers next, the cycle it last changed; markers (R447). -/
structure CollNode where
  op : Nat
  fmt : Nat
  group : Nat
  inp : PlaneId
  inCh : Nat
  out : PlaneId
  outCh : Nat
  p : Nat
  q : Nat
  gw : Nat
  rank : Option Nat := none
  wait : Option Token := none
  epoch : Nat := 0
  idx : Nat := 0
  kept : List CollMsg := []
  past : List CollMsg := []
  parts : Tbl (Nat × Nat × Nat) Token := []
  sums : Tbl (Nat × Nat) Token := []
  res : Tbl (Nat × Nat × Nat) Token := []
  lens : Tbl (Nat × Nat) Nat := []
  outq : List (Token × Nat) := []
  fly : Bool := false
  depoch : Nat := 0
  done : Nat := 0
  last : Nat := 0
  mark : Option Token := none
  recorded : Bool := false
  deriving DecidableEq, Repr

/-- A peer of a group under check (R450): asked, with the attempt and when it runs out, or not yet joined and asked
again then, or counted. -/
inductive Peer where
  | asked (attempt due : Nat)
  | notYet (due : Nat)
  | counted
  deriving DecidableEq, Repr

/-- A group rank on this device (R448 to R452): 1 reserved, 2 joining, 3 bound; the instance and record it binds, the rank
table and its digest, the plan's usable planes and those whose switch combines, epochs completed, peers, key
installations awaited, planes whose switch has refused it, and what its completion needs. -/
structure Group where
  st : Nat := 1
  die : Nat := 0
  by_ : ThreadId
  n : Nat := 0
  inst : InstId := ⟨0, 0, 0⟩
  node : Nat := 0
  table : List (Nat × Nat) := []
  digest : BitVec 384 := 0
  usable : List Nat := []
  switches : List Nat := []
  epochs : Nat := 0
  tag : Nat := 0
  peers : Tbl Nat Peer := []
  keys : List Nat := []
  refused : List Nat := []
  nretry : Nat := 6
  rtimeout : Nat := 10000
  deriving DecidableEq, Repr
/-! ## Gateways (R443) -/

/-- A copy of a collective token that is still to leave: the in-rack plane it leaves on, or none where its group spans racks and it
goes by R414 (R450), and the node it is for. -/
structure EgressCopy where
  plane : Option Nat
  dst : Nat
  body : NetBody
  deriving DecidableEq, Repr

/-- A gateway's egress queue for a plane (R443), oldest first, one flit for each token, and the tokens that wait at their nodes for
room in it. -/
structure Egress where
  queue : List (List EgressCopy) := []
  waits : List (List EgressCopy) := []
  deriving DecidableEq, Repr

/-- An egress queue without some copies. -/
def Egress.without (e : Egress) (p : EgressCopy → Bool) : Egress :=
  let drop (l : List (List EgressCopy)) : List (List EgressCopy) := (l.map (List.filter (fun x => !p x))).filter (· ≠ [])
  ⟨drop e.queue, drop e.waits⟩

/-! ## Links and routers (R417 to R421) -/

/-- A packet a router keeps until it is acknowledged (R417): its die, its flits, whether it has been sent on its present
route, and when. -/
structure KeptPkt where
  pkt : NetPkt
  die : Nat
  flits : Nat
  sent : Bool
  at_ : Nat
  deriving DecidableEq, Repr

/-- An ordered flow to a node (R417). -/
structure Flow where
  next : Nat := 0
  kept : List KeptPkt := []
  deriving DecidableEq, Repr

/-- A packet that waits on the mesh, with the link it came in by (none: it starts here). -/
structure NetWait where
  pkt : NetPkt
  via : Option Nat
  deriving DecidableEq, Repr

/-- What leaves the device on a link: a packet, under the frames it is sealed in (R461), or a router's acknowledgement, a collective token on a
plane, or a management message of R455 to R460; and what a link's receiver answers, the sequence number it expects next: every flit before
it has come, or it is asked for again (R418). -/
inductive LinkMsg where
  | pkt (p : NetPkt) (frames : List Frame)
  | ack (src dst vnet prio seq : Nat) (ring : Option RingPos)
  | coll (b : NetBody) (frames : List Frame)
  | mgmt (h : MgmtHead) (b : MgmtBody)
  | flitAck (seq : BitVec 12)
  | replay (seq : BitVec 12)
  deriving DecidableEq, Repr

/-- Flits on a link: the sequence number of the first, how many, the message they carry, whether they are sent again (R418), whether they go
on a message whose first flits have left. What a receiver answers is no flit. -/
structure LinkOut where
  link : Nat
  first : BitVec 12
  flits : Nat
  msg : LinkMsg
  again : Bool := false
  cont : Bool := false
  deriving DecidableEq, Repr

/-- A link (R421): state 0 DOWN, 1 TRAINING, 2 UP. `seq` numbers the next flit, `buf` holds the unacknowledged ones (R418), `tries`
the replays of flit `tryOf`, `change` the cycle a lane change ends, `again` the flit asked for during it and `held` the flits at the end of `buf` that wait for it (R419),
`queue` what the link has taken and has no room for in `buf`, `mq` the same of the management class (R459), `train` the cycle of its next
attempt to train (R420). Of its receiver: the flit it expects, the flits it has of a message under way, how many it has received, and at which of them it blamed a lane
(R419). -/
structure Link where
  st : Nat := 0
  peer : Nat := 0
  replays : BitVec 16 := 0
  downs : BitVec 8 := 0
  lane : Nat := 0
  spared : Bool := false
  off : Bool := false
  seq : BitVec 12 := 0
  buf : List LinkOut := []
  tries : Nat := 0
  tryOf : BitVec 12 := 0
  change : Option Nat := none
  again : Option (BitVec 12) := none
  held : Nat := 0
  queue : List LinkOut := []
  mq : List LinkOut := []
  train : Nat := 0
  rseq : BitVec 12 := 0
  rpart : Nat := 0
  rflits : Nat := 0
  blame : List (Nat × Nat) := []
  deriving DecidableEq, Repr

/-! ## Windows and remote operations (R423 to R435) -/

/-- A window's entry (R423): 0 FREE, 1 RESERVED, 2 OPEN, 3 CLOSING; the pieces checked and not yet performed, violations
(R439), and the `wclose` that waits (R425). -/
structure Win where
  st : Nat := 0
  base : Nat := 0
  len : Nat := 0
  rights : Nat := 0
  key : Nat := 0
  origin : Option Origin := none
  fly : Nat := 0
  viol : BitVec 32 := 0
  closing : Option WinOp := none
  deriving DecidableEq, Repr

/-- A piece that passed its check and is not performed (R426): where it lies once translated, and whether it has been sent there. -/
structure WinUnder where
  req : WinReq
  loc : Option Loc := none
  sent : Bool := false
  deriving DecidableEq, Repr

/-- An entry of the exactly-once table (R434): the request, its result once recorded, and the attempts that wait for it. -/
structure Once where
  req : WinReq
  res : Option Ans := none
  waits : List WinReq := []
  born : Nat := 0
  deriving DecidableEq, Repr

/-- How far a piece of a remote operation is (R430, R431). -/
inductive RStage where
  | index | away | read | write | mark
  deriving DecidableEq, Repr

/-- A piece or element under way: the window address, the bytes read so far, the local blocks still awaited, the places of those
translated (none is accessed before all are, for a piece is all or nothing, R426), those that wait for a page fault to be resolved (R430), and
the cause one of them failed with. -/
structure RPiece where
  idx : Nat
  stage : RStage
  addr : Word := 0
  buf : List (Nat × List Byte) := []
  need : List Nat := []
  locs : List (Nat × Loc) := []
  stalled : List Nat := []
  bad : Bool := false
  failed : Option Cause := none
  deriving DecidableEq, Repr

/-- A remote operation (R428 to R432): opcode, descriptor, the next piece, those under way, the blocks of a gather's bitmap that are not cleared and those of them that wait for a page fault to be resolved,
the arrived elements, bytes or elements performed, the first failure, poison, resends made, `ratom`'s old value, and the limits
NRETRY and RTIMEOUT in force when it first sent an attempt (R436). -/
structure RemoteOp where
  op : Nat
  desc : List Byte
  sid : Nat
  origin : Origin
  started : Bool := false
  next : Nat := 0
  fly : List RPiece := []
  clear : List Nat := []
  stalled : List Nat := []
  bits : List Nat := []
  count : Nat := 0
  fail : Option (Nat × Nat) := none
  poison : Bool := false
  retries : Nat := 0
  old : Word := 0
  limits : Option (Nat × Nat) := none
  deriving DecidableEq, Repr

/-! ## Trust (R454 to R458) -/

/-- A plane's switch (R456): the step in progress (0 none), resends of it and when it times out; the version chosen (R455) and the digest of the
transcript an LMS exchange is about (R457); whether every step has passed, the reason of a refusal (R454), the measurements; the SIDs whose key it has, and the groups registered. -/
structure Switch where
  step : Nat := 0
  tries : Nat := 0
  due : Nat := 0
  version : Nat := 0
  td : BitVec 384 := 0
  passed : Bool := false
  reason : Nat := 0
  measured : List (Nat × BitVec 384) := []
  keys : List Nat := []
  groups : List (Nat × Nat) := []
  deriving DecidableEq, Repr

/-! ## Service (R466, R476 to R495) -/

/-- A host basin's registers (R480). -/
structure HostBasin where
  base : Nat := 0
  size : Nat := 0
  head : Nat := 0
  tail : Nat := 0
  lost : Nat := 0
  deriving DecidableEq, Repr

/-- A move under way (R491): the hive it goes to, the request's SID, the threads it pre-empted, the instances it cuts. -/
structure Move where
  dest : HiveId
  sid : Nat
  threads : List ThreadId
  insts : List InstId
  deriving DecidableEq, Repr

/-- A scrub under way (R275): the SID, the leaf's address and place, its page size, and what the lockkeeper does next. -/
structure Scrub where
  sid : Nat
  va : Nat
  leaf : Nat
  size : Nat
  deriving DecidableEq, Repr

/-- The lockkeepers' and the device's registers: DCR_STATUS (R485), ownership (R482, R483), power (R493), temperature (R494),
DCR_RAS (R466), host basins and their hold (R480), firmware (R487) and what its signatures verify over (R486), what a restart holds up
(R488), host barges that wait (R478); the averages of the last second with their cycles (R493), the cycle and master of the last DCR access (R481). -/
structure Ctl where
  phase : Nat := 0
  failed : Bool := false
  fail : Nat := 0
  early : Nat := 0
  restarts : BitVec 8 := 0
  slot : Nat := 0
  owner : Nat := 0
  plane : Nat := 0
  pending : Nat := 0
  rack : Nat := 2
  handover : Word := 0
  handDue : Option Nat := none
  lostAt : Option Nat := none
  pwrCap : Nat := 1600
  pwrNow : Word := 0
  pwrLog : List (Nat × Nat) := []
  pwrFloor : Nat := 0
  pwrResp : Nat := 0
  pwrHits : BitVec 4 := 0
  pwrLimiting : Bool := false
  pwrWrites : BitVec 16 := 0
  trip : Bool := false
  throttling : Bool := false
  limit : Nat := 95
  hbmTemp : Nat := 0
  temp1 : Nat := 0
  temp0 : Nat := 0
  spares : BitVec 16 := 0
  fails : BitVec 8 := 0
  kills : BitVec 8 := 0
  uncorr : Nat := 0
  corr : Nat := 0
  basins : Tbl Nat HostBasin := []
  hold : List (Nat × List Word) := []
  fwActive : Nat := 0
  fwStaged : Bool := false
  fwSecver : Nat := 0
  fwOther : Nat := 0
  fwOtherSec : Nat := 0
  fwVersion : Nat := 0
  fwSig : FwSig := {}
  fwOtherSig : FwSig := {}
  down : List Nat := []
  held : List (Nat × Ev) := []
  hostq : List (List Word) := []
  hostBusy : Bool := false
  hostKill : Option Nat := none
  joins : List (SpanMsg × Nat) := []
  fwGo : Bool := false
  dcrAt : Option (Nat × Nat) := none
  deriving DecidableEq, Repr


/-! ## Steps under way -/

/-- The channels on which messages keep their order: an access of one thread or node to one home (R241, R249), a
barge from one sender to one core at one priority (R109), an arc (R314), an ordered flow between two nodes (R417), the window accesses
of a thread or a rule at one home (R241, R249, R434), the loads of a die's lockkeeper (R394). -/
inductive Chan where
  | none
  | access (src : CoreId) (serial : Nat) (home : Home)
  | barge (src : Sender) (dst : CoreId) (prio : Nat)
  | node (r : RuleId) (home : Home)
  | arc (a : ArcId)
  | port (link : Nat) (flow : Option (Nat × Nat × Nat))
  | window (node : Nat) (core : CoreId) (slot : Nat) (rule : Option RuleId) (home : Home)
  | notice (g : GenId)
  | graph (die : Nat)
  | loads (die : Nat)
  | host
  | lock (die : Nat)
  deriving DecidableEq, Repr

/-- A message or own step in flight: it is taken no earlier than cycle `due`, and after every older one of its
channel. -/
structure Pend where
  chan : Chan
  due : Nat
  ev : Ev
  deriving DecidableEq, Repr

/-- An error that comes to light in stored state (R463): one that its code corrects; an uncorrectable one in the granule of a place,
in a value of an accumulator bank (its hive, member, bank and index), or in what a thread holds or fetches. Errors of elements,
links, lockkeepers and those not pinned to a unit have rows of their own. -/
inductive Upset where
  | corrected
  | granule (l : Loc)
  | value (h : HiveId) (m b i : Nat)
  | thread (t : ThreadId)
  deriving DecidableEq, Repr

/-- Who moves next: a core issues, a tile goes on with its cycle, the k-th entry in flight that may be taken is
taken, a step happens (one of the machine's own or one of its surroundings), cycles pass, an error comes to light. -/
inductive Turn where
  | issue (c : CoreId)
  | fire (t : TileId)
  | deliver (k : Nat)
  | act (e : Ev)
  | tick (n : Nat)
  | upset (u : Upset)
  deriving DecidableEq, Repr

/-! ## The machine -/

/-- Everything the manual gives the device, and what the model adds to run it: `free` counts the free values drawn,
`plan` the turns still to take, `curT` and `curR` the thread and the rule a word acts for, `arg` what a step without a
word is about; `dcrOut` holds the answers of DCR reads (R481), `ties` the requests of other nodes in this cycle (R416), `dropped` hauls cancelled while STOPPED (R380). -/
structure State where
  part : Part
  node : Nat
  cycle : Nat
  readyAt : Option Nat
  mem : List Host.Cell
  poison : List Nat
  free : Nat
  plan : List Turn
  pending : List Pend
  curT : ThreadId
  curR : RuleId
  arg : Ev
  netOut : List LinkOut
  ctxs : Tbl ThreadId Ctx
  cores : Tbl CoreId Core
  jobs : Tbl Nat Job
  stations : Tbl Nat Station
  shoots : Tbl Nat Shoot
  snoop : Tbl (Nat × Nat) (List Nat)
  nextSerial : Nat
  tags : Tbl (CoreId × Nat) TagState
  wreqs : Tbl (CoreId × Nat × Nat) WinAttempt
  wseq : Tbl (CoreId × Nat) Nat
  lockSends : Tbl (Nat × Nat) SendRec
  lockNext : Nat
  stopped : Bool
  planes : Tbl PlaneId Plane
  elems : Tbl ElemId Elem
  tiles : Tbl TileId Tile
  gens : Tbl GenId Gen
  slices : Tbl (HiveId × Nat × Nat) Slice
  joints : Tbl HiveId Joint
  hauls : Tbl (CoreId × Nat) Haul
  horder : Nat
  insts : Tbl InstId Inst
  saves : Tbl InstId Save
  twins : List Twin
  snaps : Tbl Nat (List Word)
  colls : Tbl (InstId × Nat) CollNode
  groups : Tbl (Nat × Nat × Nat) Group
  egress : Tbl (Nat × Nat × Nat) Egress
  links : Tbl Nat Link
  flows : Tbl (Nat × Nat × Nat) Flow
  accepts : Tbl (Nat × Nat × Nat) Nat
  meshq : List NetWait
  frames : Tbl (Nat × Nat) Nat
  wins : Tbl (Nat × Nat) Win
  viols : Tbl Nat (BitVec 32)
  winReqs : Tbl Nat WinUnder
  once : List Once
  rslots : Tbl (CoreId × Nat) RemoteOp
  policy : Policy
  switches : Tbl Nat Switch
  sessions : List Nat
  spdm : Tbl Nat Nat
  hiveSt : Tbl HiveId Nat
  moves : Tbl HiveId Move
  scrubs : List Scrub
  ctl : Ctl
  dcrOut : List (DcrReq × Word)
  ties : List NetTie
  dropped : List Dropped
  deriving DecidableEq, Repr

/-- What an unlisted byte reads as (R485: start-up writes every memory to zero). -/
def Memory.unlisted : Byte := 0

/-- The canonical form of memory: addresses strictly rising, no entry equal to what an unlisted address reads as. -/
abbrev Memory.wf (m : List Host.Cell) : Prop :=
  (m.map Prod.fst).Pairwise (· < ·) ∧ ∀ c ∈ m, c.2 ≠ Memory.unlisted

/-- The machine right after reset: nothing runs until power-good (R485); every table lists nothing. -/
def State.reset : State where
  part := .hz960
  node := 0
  cycle := 0
  readyAt := none
  mem := []
  poison := []
  free := 0
  plan := []
  pending := [⟨.none, 0, .powerGood⟩]
  curT := ⟨.hc 0 0 0, 0⟩
  curR := ⟨⟨⟨⟨0, 0, 0⟩, 0⟩, 0⟩, 0⟩
  arg := .powerGood
  netOut := []
  ctxs := []
  cores := []
  jobs := []
  stations := []
  shoots := []
  snoop := []
  nextSerial := 1
  tags := []
  wreqs := []
  wseq := []
  lockSends := []
  lockNext := 0
  stopped := false
  planes := []
  elems := []
  tiles := []
  gens := []
  slices := []
  joints := []
  hauls := []
  horder := 0
  insts := []
  saves := []
  twins := []
  snaps := []
  colls := []
  groups := []
  egress := []
  links := []
  flows := []
  accepts := []
  meshq := []
  frames := []
  wins := []
  viols := []
  winReqs := []
  once := []
  rslots := []
  policy := {}
  switches := []
  sessions := []
  spdm := []
  hiveSt := []
  moves := []
  scrubs := []
  ctl := {}
  dcrOut := []
  ties := []
  dropped := []

end Sys2Proof.Machine
end

