-- ==== Sys2Proof/Machine/Ops.lean ====
section
/-! DEFINITION. The named operations over the state that every meaning is built from: tables, geometry, memory,
registers, messages in flight, and taking and reporting faults. -/

namespace Sys2Proof.Machine

open Sys2Proof

/-! ## Tables -/

/-- The value under a key, or the default of what is not listed. -/
def tget {κ ν : Type} [DecidableEq κ] (t : Tbl κ ν) (d : ν) (k : κ) : ν :=
  match t with
  | [] => d
  | (k', v) :: r => if k' = k then v else tget r d k

/-- Sets the value under a key. -/
def tput {κ ν : Type} [DecidableEq κ] (t : Tbl κ ν) (k : κ) (v : ν) : Tbl κ ν :=
  match t with
  | [] => [(k, v)]
  | (k', v') :: r => if k' = k then (k, v) :: r else (k', v') :: tput r k v

/-- Takes a key out. -/
def tdel {κ ν : Type} [DecidableEq κ] (t : Tbl κ ν) (k : κ) : Tbl κ ν :=
  t.filter (fun e => e.1 ≠ k)

/-- Whether a key is listed. -/
def thas {κ ν : Type} [DecidableEq κ] (t : Tbl κ ν) (k : κ) : Bool := t.any (fun e => e.1 = k)

/-- The value under a key, if listed. -/
def tfind {κ ν : Type} [DecidableEq κ] (t : Tbl κ ν) (k : κ) : Option ν :=
  (t.find? (fun e => e.1 = k)).map Prod.snd

/-- Drops the first entry that passes. -/
def dropFirst {α : Type} (p : α → Bool) : List α → List α
  | [] => []
  | x :: r => if p x then r else x :: dropFirst p r

/-! ## Geometry (R5 to R9) -/

/-- A compute tile of a hive (R7). -/
def isCompute (tile : Nat) : Bool := (tile % 4 + tile / 4) % 2 = 0

/-- The gang member of a compute tile, or of the compute tile a store tile is paired with (R7). -/
def memberOf (tile : Nat) : Nat := tile / 2

/-- The compute tile of a gang member (R7). -/
def computeTile (member : Nat) : Nat := if isCompute (2 * member) then 2 * member else 2 * member + 1

/-- The store tile paired with a gang member's compute tile (R7). -/
def storeTile (member : Nat) : Nat := if isCompute (2 * member) then 2 * member + 1 else 2 * member

/-- The handler core that a tile belongs to or is paired with. -/
def TileId.core (t : TileId) : CoreId := .hc t.die t.hive (memberOf t.tile)

/-- A core's die. -/
def CoreId.die : CoreId → Nat
  | .hc d _ _ => d
  | .ec d _ => d

/-- A handler core, not an edge core. -/
def CoreId.isHandler : CoreId → Bool
  | .hc _ _ _ => true
  | .ec _ _ => false

/-- The tile of a handler core; an edge core has none. -/
def CoreId.tile? : CoreId → Option TileId
  | .hc d h m => some ⟨d, h, computeTile m⟩
  | .ec _ _ => none

/-- The hive of a handler core. -/
def CoreId.hive? : CoreId → Option HiveId
  | .hc d h _ => some ⟨d, h⟩
  | .ec _ _ => none

/-- Dies of a part (R1). -/
def Part.dies : Part → Nat
  | .hz480 => 1
  | _ => 2

/-- The units byte a part has (R1, R156): bit 0 FP4_PATH, bit 1 RAIL_PORTS, bit 2 SECOND_DIE. -/
def Part.caps : Part → Nat
  | .hz960 => 7
  | .hz940 => 5
  | .hz480 => 0

/-- The translation station of a core (R11, R216), numbered 32·die + station. -/
def stationOf : CoreId → Nat
  | .hc d h _ => 32 * d + h / 2
  | .ec d e => 32 * d + e / 4

/-! ## Words -/

/-- Bits hi..lo of a word as a number (R54). -/
def bitsN {w : Nat} (v : BitVec w) (hi lo : Nat) : Nat := v.toNat / 2 ^ lo % 2 ^ (hi - lo + 1)

/-- A field of a word being put together. -/
def fld (v lo : Nat) : Word := BitVec.ofNat 64 (v * 2 ^ lo)

/-- Bytes of a number, lowest first (R30, R223). -/
def bytesOf (n : Nat) (v : Nat) : List Byte := (List.range n).map (fun i => BitVec.ofNat 8 (v / 2 ^ (8 * i)))

/-- The number that bytes hold, lowest first. -/
def natOf : List Byte → Nat
  | [] => 0
  | b :: r => b.toNat + 256 * natOf r

/-- A little-endian field of a record. -/
def recN (l : List Byte) (off n : Nat) : Nat := natOf ((l.drop off).take n)

/-- The route word of a core, which is its identity word without slot and SID (R39, R102, R154). -/
def coreWord (node : Nat) : CoreId → Word
  | .hc d h m => fld node 41 ||| fld d 40 ||| fld h 34 ||| fld m 31
  | .ec d e => fld node 41 ||| fld d 40 ||| fld e 31 ||| fld 1 30

/-- The identity word of a thread (R39). -/
def identWord (node : Nat) (c : CoreId) (slot sid : Nat) : Word := coreWord node c ||| fld slot 26 ||| fld sid 0

/-- The source word of a lockkeeper (R106). -/
def lockWord (node die : Nat) : Word := fld 2 62 ||| fld node 41 ||| fld die 40

/-- The core a mode-0b00 route word names (R102). -/
def routeCore (r : Word) : CoreId :=
  if bitsN r 30 30 = 0 then .hc (bitsN r 40 40) (bitsN r 39 34) (bitsN r 33 31)
  else .ec (bitsN r 40 40) (bitsN r 37 31)

/-- The node a route word names (R102). -/
def routeNode (r : Word) : Nat := bitsN r 61 41

/-- The codes of R206. -/
def Cause.code : Cause → Nat
  | .illegalOp => 0x01 | .illegalForm => 0x02 | .illegalPort => 0x03 | .unavailable => 0x04
  | .addrForm => 0x05 | .align => 0x06 | .bounds => 0x07 | .pageFault => 0x08 | .access => 0x09
  | .remoteViolation => 0x0A | .reachLong => 0x0B | .reachEffects => 0x0C | .reachIllegal => 0x0D
  | .reentryExhausted => 0x0E | .basinFull => 0x0F | .badDeposit => 0x10 | .barrierOverrun => 0x11
  | .gangMismatch => 0x12 | .jaMismatch => 0x13 | .bitmapLen => 0x14 | .strayToken => 0x15 | .liveness => 0x16
  | .rankCycle => 0x17 | .deadlock => 0x18 | .copyAddrOvf => 0x19 | .linkTimeout => 0x1A | .part => 0x1B
  | .twinMismatch => 0x1C | .poison => 0x1D | .elementFail => 0x1E | .killed => 0x1F | .trapSw => 0x20
  | .full => 0x21 | .busy => 0x22

/-! ## Memory (R219, R464) -/

/-- The key memory keeps a byte under: HBM by its physical address, then companion memory, tiles, edge cores. -/
def Loc.key : Loc → Nat
  | .hbm p => p
  | .comp a => 2 ^ 64 + a
  | .tile t off => 2 ^ 66 + t.die * 2 ^ 40 + t.hive * 2 ^ 34 + t.tile * 2 ^ 30 + off
  | .edge d e off => 2 ^ 67 + d * 2 ^ 40 + e * 2 ^ 20 + off

/-- The place n bytes further. -/
def Loc.plus : Loc → Nat → Loc
  | .hbm p, n => .hbm (p + n)
  | .comp a, n => .comp (a + n)
  | .tile t off, n => .tile t (off + n)
  | .edge d e off, n => .edge d e (off + n)

/-- The home of a place (R214, R215). -/
def Loc.home : Loc → Home
  | .hbm p => .core (.ec (p / 2 ^ 38) (p / 256 % 128))
  | .comp _ => .turso
  | .tile t _ => .core t.core
  | .edge d e _ => .core (.ec d e)

/-- The bytes of an ECC granule (R463): 32 in HBM, 8 in the local memories; companion memory has none here. -/
def Loc.granule : Loc → Nat
  | .hbm _ => 32
  | _ => 8

/-- Reads one byte. -/
def memGet : List Host.Cell → Nat → Byte
  | [], _ => Memory.unlisted
  | (a, b) :: r, k => if a = k then b else if k < a then Memory.unlisted else memGet r k

/-- Writes one byte and keeps the canonical form. -/
def memSet : List Host.Cell → Nat → Byte → List Host.Cell
  | [], k, v => if v = Memory.unlisted then [] else [(k, v)]
  | (a, b) :: r, k, v =>
    if a = k then (if v = Memory.unlisted then r else (k, v) :: r)
    else if k < a then (if v = Memory.unlisted then (a, b) :: r else (k, v) :: (a, b) :: r)
    else (a, b) :: memSet r k v

/-- Writes bytes at rising keys; `none` names no byte (R220). -/
def memWrite (m : List Host.Cell) (k : Nat) : List (Option Byte) → List Host.Cell
  | [] => m
  | none :: r => memWrite m (k + 1) r
  | some v :: r => memWrite (memSet m k v) (k + 1) r

/-- Reads n bytes. -/
def memRead (m : List Host.Cell) (k n : Nat) : List Byte := (List.range n).map (fun i => memGet m (k + i))

/-- Clears the keys of a range (R218, R485 step 3, R490: memories that are zeroed). -/
def memClear (m : List Host.Cell) (lo hi : Nat) : List Host.Cell := m.filter (fun c => c.1 < lo || hi ≤ c.1)

/-- The byte at a place. -/
def State.byte (s : State) (l : Loc) : Byte := memGet s.mem l.key

/-- The bytes from a place on. -/
def State.bytes (s : State) (l : Loc) (n : Nat) : List Byte := memRead s.mem l.key n

/-- The granules n bytes at a place lie in. -/
def granules (l : Loc) (n : Nat) : List Nat :=
  let g := l.granule
  (List.range ((l.key + n - 1) / g + 1 - l.key / g)).map (fun i => (l.key / g + i) * g)

/-- Whether any of n bytes at a place is poisoned (R463). -/
def State.poisoned (s : State) (l : Loc) (n : Nat) : Bool :=
  n ≠ 0 && (granules l n).any (fun g => s.poison.contains g)

/-- Stores bytes at a place (R219, R464): poisoned data poisons every granule it touches, clean data clears the
poison of a granule it covers whole and leaves that of others. -/
def State.storeBytes (s : State) (l : Loc) (bs : List (Option Byte)) (bad : Bool) : State :=
  let k := l.key
  let g := l.granule
  let touched := granules l bs.length
  let whole (q : Nat) : Bool :=
    (List.range g).all (fun i => k ≤ q + i && (match bs[q + i - k]? with | some (some _) => true | _ => false))
  let named (q : Nat) : Bool :=
    (List.range g).any (fun i => k ≤ q + i && (match bs[q + i - k]? with | some (some _) => true | _ => false))
  let p' := if bad then s.poison ++ (touched.filter (fun q => named q && !s.poison.contains q))
            else s.poison.filter (fun q => !(touched.contains q && whole q))
  { s with mem := memWrite s.mem k bs, poison := p' }

/-- Stores named bytes. -/
def State.store (s : State) (l : Loc) (bs : List Byte) (bad : Bool := false) : State :=
  s.storeBytes l (bs.map some) bad

/-! ## Threads, cores, jobs -/

/-- A thread context. -/
def State.ctx (s : State) (t : ThreadId) : Ctx := tget s.ctxs {} t

/-- Sets a thread context. -/
def State.setCtx (s : State) (t : ThreadId) (c : Ctx) : State := { s with ctxs := tput s.ctxs t c }

/-- A core. -/
def State.core (s : State) (c : CoreId) : Core := tget s.cores {} c

/-- Sets a core. -/
def State.setCore (s : State) (c : CoreId) (k : Core) : State := { s with cores := tput s.cores c k }

/-- A job. -/
def State.job (s : State) (sid : Nat) : Job := tget s.jobs {} sid

/-- Sets a job. -/
def State.setJob (s : State) (sid : Nat) (j : Job) : State := { s with jobs := tput s.jobs sid j }

/-- The threads of a core. -/
def CoreId.threads (c : CoreId) : List ThreadId := (List.range 16).map (ThreadId.mk c)

/-- A handler of a job. -/
def State.handler (s : State) (sid idx : Nat) : Option Handler := tfind (s.job sid).handlers idx

/-- A hive the SID holds, one it left by a move included (R108, R213, R491). -/
def State.holds (s : State) (sid : Nat) (h : HiveId) : Bool :=
  (s.job sid).hives.contains h || thas (s.job sid).moved h

/-- Where a hive's accesses go: itself, or the hive a move chose (R491). -/
def State.redirect (s : State) (sid : Nat) (h : HiveId) : HiveId := tget (s.job sid).moved h h

/-- The same for a tile. -/
def State.redirectTile (s : State) (sid : Nat) (t : TileId) : TileId :=
  let h := s.redirect sid ⟨t.die, t.hive⟩
  ⟨h.die, h.hive, t.tile⟩

/-- The same for a core. -/
def State.redirectCore (s : State) (sid : Nat) : CoreId → CoreId
  | .hc d h m => let x := s.redirect sid ⟨d, h⟩; .hc x.die x.hive m
  | .ec d e => .ec d e

/-- Whether a core's hive is being moved (R491). -/
def State.moving (s : State) (c : CoreId) : Bool :=
  match c.hive? with
  | some h => thas s.moves h
  | none => false

/-! ## Registers (R38, R148) -/

/-- Reads h0 to h9. -/
def Regs.get (r : Regs) (n : Nat) : Word :=
  match n with
  | 0 => r.h0 | 1 => r.h1 | 2 => r.h2 | 3 => r.h3 | 4 => r.h4
  | 5 => r.h5 | 6 => r.h6 | 7 => r.h7 | 8 => r.h8 | 9 => r.h9 | _ => 0

/-- Writes h0 to h9; a number past h9 names no register. -/
def Regs.set (r : Regs) (n : Nat) (v : Word) : Regs :=
  match n with
  | 0 => { r with h0 := v } | 1 => { r with h1 := v } | 2 => { r with h2 := v } | 3 => { r with h3 := v }
  | 4 => { r with h4 := v } | 5 => { r with h5 := v } | 6 => { r with h6 := v } | 7 => { r with h7 := v }
  | 8 => { r with h8 := v } | 9 => { r with h9 := v } | _ => r

/-- Writes consecutive registers. -/
def Regs.setMany (r : Regs) (first : Nat) : List Word → Regs
  | [] => r
  | v :: vs => (r.set first v).setMany (first + 1) vs

/-- Registers from a list of words, h0 first. -/
def Regs.ofList (l : List Word) : Regs := Regs.setMany {} 0 (l.take 10)

/-- h0 to h9 in order. -/
def Regs.toList (r : Regs) : List Word := (List.range 10).map r.get

/-- A predicate; p0 reads 1 (R150). -/
def Ctx.pred (c : Ctx) (n : Nat) : Bool := n = 0 || c.pw.getLsbD n

/-- Writes p1 to p7; p0 stays 1 (R150). -/
def Ctx.setPred (c : Ctx) (n : Nat) (v : Bool) : Ctx :=
  let m : BitVec 8 := 1#8 <<< n
  { c with pw := (if v then c.pw ||| m else c.pw &&& ~~~m) ||| 1 }

/-- Writes the pw port (R38). -/
def Ctx.setPw (c : Ctx) (v : Word) : Ctx := { c with pw := v.extractLsb' 0 8 ||| 1 }

/-- Adds sticky flags to those the reach holds (R87). -/
def Ctx.flag (c : Ctx) (f : BitVec 7) : Ctx := { c with flags := c.flags ||| f }

/-! ## Messages in flight -/

/-- Puts a message or own step in flight behind those of its channel. -/
def State.post (s : State) (ch : Chan) (ev : Ev) (wait : Nat := 0) : State :=
  { s with pending := s.pending ++ [⟨ch, s.cycle + wait, ev⟩] }

/-- The same, ahead of those of its channel: a refused barge that is sent again (R109). -/
def State.postFirst (s : State) (ch : Chan) (ev : Ev) (wait : Nat := 0) : State :=
  { s with pending := ⟨ch, s.cycle + wait, ev⟩ :: s.pending }

/-- A fresh number for a free value. -/
def State.draw (s : State) : State := { s with free := s.free + 1 }

/-! ## Links (R18, R20, R413, R418, R422, R461) -/

/-- A link (R421). -/
def State.link (s : State) (n : Nat) : Link := tget s.links {} n

/-- Sets a link. -/
def State.setLink (s : State) (n : Nat) (l : Link) : State := { s with links := tput s.links n l }

/-- The die a link leaves from (R20). -/
def linkDie (n : Nat) : Nat := if (9 ≤ n && n ≤ 17) || (21 ≤ n && n ≤ 23) then 1 else 0

/-- A port the part lacks (R2, R421). -/
def linkAbsent (p : Part) (n : Nat) : Bool := (18 ≤ n && n ≤ 23 && p.caps / 2 % 2 = 0) || p.dies ≤ linkDie n

/-- A node's position in its rack, and its rack's coordinate in a dimension (R413). -/
def nodePos (n : Nat) : Nat := n % 256
def nodeAt (n dim : Nat) : Nat :=
  match dim with
  | 0 => n / 2 ^ 8 % 16
  | 1 => n / 2 ^ 12 % 16
  | _ => n / 2 ^ 16 % 32

/-- The racks around a ring of a dimension. -/
def ringLen (dim : Nat) : Nat := if dim = 2 then 32 else 16

/-- The plane between two positions of a rack (R414). -/
def State.planeTo (s : State) (node q : Nat) : Nat :=
  (nodePos s.node + q) % (if s.part = .hz480 || Config.isHz480 node then 9 else 18)

/-- The rail link of a dimension in the + or − direction (R20). -/
def railLink (dim : Nat) (plus : Bool) : Nat := 18 + 2 * dim + (if plus then 0 else 1)

/-- Whether a link carries flits now (R419, R421). -/
def State.linkUp (s : State) (n : Nat) : Bool := (s.link n).st = 2 && !linkAbsent s.part n

/-- The direction a packet takes round a ring, and the channel it travels on from here (R414, R415): it keeps the direction it has on that
ring, else takes the shorter way; it enters on channel 0 and moves to channel 1 on the wrap link. -/
def State.ringPos (s : State) (ring : Option RingPos) (dst d : Nat) : RingPos :=
  match ring with
  | some r => if r.dim = d then r else ⟨d, decide (2 * ((nodeAt dst d + ringLen d - nodeAt s.node d) % ringLen d) ≤ ringLen d), 0⟩
  | none => ⟨d, decide (2 * ((nodeAt dst d + ringLen d - nodeAt s.node d) % ringLen d) ≤ ringLen d), 0⟩

/-- A place on a ring once its rail link is taken from here. -/
def State.onRail (s : State) (r : RingPos) : RingPos :=
  if nodeAt s.node r.dim = (if r.plus then ringLen r.dim - 1 else 0) then { r with chan := 1 } else r

/-- The link a packet between two nodes leaves this device by and its place on a ring then (R414, R415, R422): rail hops through the
source's position, dimension by dimension, each by a detour through the neighbouring position where its link is DOWN, or else the other
way round, then the switch hop. A packet on a ring keeps its direction (log 30). `via` is the link it came by. None where no route is
open. -/
def State.route (s : State) (via : Option Nat) (ring : Option RingPos) (src dst : Nat) : Option (Nat × Option RingPos) :=
  let here := nodePos s.node
  let base := s.node / 256 * 256
  let sw (q : Nat) : Option Nat :=
    let n := s.planeTo (base + q) q
    if s.linkUp n then some n else none
  if s.node / 256 = dst / 256 then (sw (if here = nodePos src then nodePos dst else nodePos src)).map (fun n => (n, none))
  else
    match [0, 1, 2].find? (fun d => nodeAt s.node d ≠ nodeAt dst d) with
    | none => none
    | some d =>
      let r := s.ringPos ring dst d
      let rail := match via with | some v => 18 ≤ v && v ≤ 23 | none => false
      let own (r : RingPos) : Option (Nat × Option RingPos) :=
        if s.linkUp (railLink d r.plus) then some (railLink d r.plus, some (s.onRail r)) else none
      let detour (r : RingPos) : Option (Nat × Option RingPos) :=
        let q := if here % 2 = 0 then here + 1 else here - 1
        (sw q).bind (fun n => if Config.peerRail (base + q) (railLink d r.plus) s.cycle then some (n, some r) else none)
      let back : RingPos := { r with plus := !r.plus }
      if here ≠ nodePos src then (if rail then (sw (nodePos src)).map (fun n => (n, ring)) else own r)
      else own r <|> detour r <|> own back <|> detour back

/-- The link a packet of this device leaves by. -/
def State.hop (s : State) (dst : Nat) : Option Nat := (s.route none none s.node dst).map Prod.fst

/-- Flits of data with a header of 16 bytes (R18). -/
def dataFlits (n : Nat) : Nat := (n + 47) / 32

/-- The flits of a packet's contents (R18; log 31 for the units its table does not list). -/
def NetBody.flits : NetBody → Nat
  | .item _ it =>
    (match it.load with
     | .barge b => if b.payload.length ≤ 2 then 1 else 2
     | .packet _ => 4)
  | .window r => (match r.op with | .store bs _ => dataFlits bs.length | _ => 1)
  | .answer _ (.data bs _) => max 1 (dataFlits bs.length)
  | .spanJoin _ _ _ _ => 3
  | .spanAnswer _ m _ _ => 2 + m.length / 8
  | .path _ => 3
  | _ => 1

/-- The network a packet travels on (R16, R415). -/
def NetBody.vnet : NetBody → Nat
  | .busy _ _ => 1
  | .reject _ _ _ => 1
  | .ack _ _ => 1
  | .placed _ _ => 1
  | .answer _ _ => 1
  | .pathAns _ _ => 1
  | _ => 0

/-- The priority of a packet's flow: a barge's own, 0 for the rest (R417). -/
def NetBody.prio : NetBody → Nat
  | .item _ it => it.prio
  | _ => 0

/-- A request of `rget` or `rput`, whose data are adaptive (R415). -/
def WinReq.bulk (r : WinReq) : Bool :=
  (match r.asker with | .piece _ _ _ => true | _ => false) && (match r.op with | .atomic _ _ _ => false | _ => true)

/-- The ordered class of R415. -/
def NetBody.ordered : NetBody → Bool
  | .window r => !r.bulk
  | .answer r a => !(r.bulk && (match a with | .data _ _ => true | _ => false))
  | _ => true

/-- Flits on a link: sealed ones travel in frames of 16 with 14 of data (R461). -/
def linkFlits (framed : Bool) (n : Nat) : Nat := if framed then 16 * ((n + 13) / 14) else n

/-- The unacknowledged flits of a link. -/
def Link.unacked (l : Link) : Nat := (l.buf.map LinkOut.flits).foldl (· + ·) 0

/-- What is left of flits in their order when the first k are taken off. -/
def dropFlits : List LinkOut → Nat → List LinkOut
  | [], _ => []
  | x :: rest, k =>
    if k = 0 then x :: rest
    else if x.flits ≤ k then dropFlits rest (k - x.flits)
    else { x with first := x.first + BitVec.ofNat 12 k, flits := x.flits - k } :: rest

/-- A message of the management class (R459). -/
def LinkMsg.isMgmt : LinkMsg → Bool
  | .mgmt _ _ => true
  | _ => false

/-- Puts what has room of a message's flits into a link's replay buffer and sends it; during a change of lanes it waits there (R418, R419). What is
left of it comes back. -/
def State.linkTake (s : State) (n : Nat) (o : LinkOut) : State × List LinkOut :=
  let l := s.link n
  let k := min o.flits (256 - l.unacked)
  if k = 0 then (s, [o])
  else
    let x : LinkOut := { o with first := l.seq, flits := k }
    let rest := if k = o.flits then [] else [{ o with flits := o.flits - k, cont := true }]
    let l := { l with buf := l.buf ++ [x], seq := l.seq + BitVec.ofNat 12 k, held := if l.change.isSome then l.held + k else l.held }
    ({ s.setLink n l with netOut := if l.change.isSome then s.netOut else s.netOut ++ [x] }, rest)

/-- A link sends what it has taken: the management class first, of which one message is in flight (R459), then the rest in its order. -/
def State.linkPump (s : State) (n : Nat) : State :=
  let l := s.link n
  if !s.linkUp n || (l.mq = [] && l.queue = []) then s
  else
    let a : State × List LinkOut :=
      match l.mq with
      | o :: r => if o.cont || !l.buf.any (fun x => x.msg.isMgmt) then let x := s.linkTake n o; (x.1, x.2 ++ r) else (s, o :: r)
      | [] => (s, [])
    let b := l.queue.foldl (fun (b : State × List LinkOut) o =>
      if b.2 ≠ [] then (b.1, b.2 ++ [o]) else b.1.linkTake n o) (a.1, [])
    b.1.setLink n { b.1.link n with mq := a.2, queue := b.2 }

/-- Gives a link a message of n flits; one that is not UP drops it. -/
def State.linkGive (s : State) (n : Nat) (m : LinkMsg) (flits : Nat) : State :=
  let l := s.link n
  let o : LinkOut := { link := n, first := 0, flits := flits, msg := m }
  if !s.linkUp n then s
  else (s.setLink n (if m.isMgmt then { l with mq := l.mq ++ [o] } else { l with queue := l.queue ++ [o] })).linkPump n

/-- The same, where the link is UP and can begin the message now. -/
def State.emit (s : State) (n : Nat) (m : LinkMsg) (flits : Nat) : Option State :=
  let l := s.link n
  if s.linkUp n && l.queue = [] && l.unacked < 256 then some (s.linkGive n m flits) else none

/-- What a link's receiver answers (R418). -/
def State.linkSays (s : State) (n : Nat) (m : LinkMsg) : State :=
  { s with netOut := s.netOut ++ [{ link := n, first := 0, flits := 0, msg := m }] }

/-- A link's receiver takes the flits of a message that are still to come (R418, R419): none cross during a change of lanes, they count only in
sequence, good ones are acknowledged, and one that fails its CRC is asked for again and blamed on its lane. Whether the message is complete. -/
def State.receive (s : State) (rx : Rx) (flits : Nat) : State × Bool :=
  let l := s.link rx.link
  let rest := flits - l.rpart
  let take (k : Nat) : Link := { l with rseq := l.rseq + BitVec.ofNat 12 k, rpart := l.rpart + k, rflits := l.rflits + k }
  if !s.linkUp rx.link || l.change.isSome then (s, false)
  else if rx.seq ≠ l.rseq then (s.linkSays rx.link (.flitAck l.rseq), false)
  else
    match rx.bad with
    | some (k, lane) =>
      let l' := take (min k (rest - 1))
      let near (b : Nat × Nat) : Bool := l'.rflits < b.2 + 2 ^ 24
      let s := s.setLink rx.link { l' with blame := l.blame.filter near ++ [(lane % 8, l'.rflits)] }
      ((if l'.rseq = l.rseq then s else s.linkSays rx.link (.flitAck l'.rseq)).linkSays rx.link (.replay l'.rseq), false)
    | none => ((s.setLink rx.link { take rest with rpart := 0 }).linkSays rx.link (.flitAck (take rest).rseq), true)

/-- What a message over a link does once all its flits have come (R418): it is `n` flits long. One that came by no link acts at once. -/
def State.received (s : State) (rx : Option Rx) (n : Nat) (f : State → State) : State :=
  match rx with
  | none => f s
  | some r => let a := s.receive r n; if a.2 then f a.1 else a.1

/-- Whether a management message has a type and a length of R459: 1 to 4,096 bytes behind 4 bytes of header. -/
def Rx.formed (r : Rx) : Bool := r.kind ≤ 2 && 1 ≤ r.flits && r.flits ≤ 129

/-- What a management message does once all its flits have come; one of another type or length is dropped (R459). -/
def State.managed (s : State) (rx : Rx) (f : State → State) : State :=
  s.received (some rx) rx.flits (fun s => if rx.formed then f s else s)

/-- What a collective token does once its frame of 16 flits has come (R461); one whose tag fails is dropped and counted for its SID
(R417, R439). -/
def State.framed (s : State) (rx : Option Rx) (sid : Nat) (f : State → State) : State :=
  s.received rx 16 (fun s =>
    if rx.all Rx.intact then f s else { s with viols := tput s.viols sid (tget s.viols 0 sid + 1) })

/-- Whether a lane has been blamed for 64 failures within 2^24 flits (R419). -/
def Link.blamed (l : Link) (lane : Nat) : Bool :=
  64 ≤ (l.blame.filter (fun b => b.1 = lane && l.rflits < b.2 + 2 ^ 24)).length

/-- The frames that seal n flits of a SID on a link: 14 flits in each but the last, under its counter (R461). -/
def State.framesOf (s : State) (sid link n : Nat) : List Frame :=
  (List.range ((n + 13) / 14)).map (fun i =>
    { sid := sid, node := s.node, die := linkDie link, link := link, valid := min 14 (n - 14 * i), ctr := tget s.frames 0 (sid, link) + i })

/-- The 96-bit nonce of a frame (R461). -/
def Frame.nonce (f : Frame) : BitVec 96 :=
  BitVec.ofNat 21 f.node ++ BitVec.ofNat 1 f.die ++ BitVec.ofNat 5 f.link ++ (0 : BitVec 5) ++ BitVec.ofNat 64 f.ctr

/-- Flit 0 of a frame (R461). -/
def Frame.head (f : Frame) : BitVec 128 :=
  BitVec.ofNat 128 (f.sid + f.node * 2 ^ 16 + f.die * 2 ^ 37 + f.link * 2 ^ 38 + f.valid * 2 ^ 44 + f.ctr * 2 ^ 64)

/-- Counts frames. -/
def State.countFrames (s : State) (sid link : Nat) (l : List Frame) : State :=
  if l = [] then s else { s with frames := tput s.frames (sid, link) (tget s.frames 0 (sid, link) + l.length) }

/-- The link an adaptive packet leaves by: any plane whose link is UP in the rack, else as R414 (R415). Which one is a free value. -/
def State.anyPlane (s : State) (via : Option Nat) (p : NetPkt) : Option (Nat × Option RingPos) :=
  if s.node / 256 = p.dst / 256 && nodePos s.node = nodePos p.src then
    let up := (List.range 18).filter s.linkUp
    up[Config.freeNat s.free % up.length]?.map (fun n => (n, none))
  else s.route via p.ring p.src p.dst

/-- Sends a packet on its route; its own traffic is sealed, what passes through is forwarded as it is (R417, R461). -/
def State.sendPkt (s : State) (p : NetPkt) (via : Option Nat) : Option State :=
  match (if p.ordered then s.route via p.ring p.src p.dst else s.anyPlane via p) with
  | none => none
  | some (n, ring) =>
    let k := p.sid.getD 0
    let f := if via.isNone && p.sid.any (thas s.jobs) then s.framesOf k n p.body.flits else []
    let p := { p with ring := ring, framed := p.framed || f ≠ [] }
    (s.emit n (.pkt p f) (linkFlits p.framed p.body.flits)).map (fun s =>
      let s := s.countFrames k n f
      if p.ordered then s else s.draw)

/-! ## Routers (R417) -/

/-- Sends what a flow has kept and not sent on its present route, in order. -/
def State.pumpFlow (s : State) (k : Nat × Nat × Nat) : State :=
  let f := tget s.flows {} k
  let r := f.kept.foldl (fun (a : State × List KeptPkt × Bool) x =>
    if x.sent || a.2.2 then (a.1, a.2.1 ++ [x], a.2.2)
    else
      match a.1.sendPkt x.pkt none with
      | some s => (s, a.2.1 ++ [{ x with sent := true, at_ := s.cycle }], false)
      | none => (a.1, a.2.1 ++ [x], true)) (s, [], false)
  { r.1 with flows := tput r.1.flows k { f with kept := r.2.1 } }

/-- Flits a die's router holds for a network. -/
def State.keptFlits (s : State) (die vnet : Nat) : Nat :=
  ((s.flows.filter (fun e => e.1.2.1 = vnet)).flatMap (fun e => e.2.kept.filter (fun x => x.die = die))).foldl
    (fun n x => n + x.flits) 0

/-- The die whose router keeps a packet: that of the first link of its fixed path (R414, log 32). -/
def State.routerDie (s : State) (dst : Nat) : Nat :=
  if s.node / 256 = dst / 256 then linkDie (s.planeTo dst (nodePos dst))
  else
    match [0, 1, 2].find? (fun d => nodeAt s.node d ≠ nodeAt dst d) with
    | none => 0
    | some d => linkDie (railLink d (decide (2 * ((nodeAt dst d + ringLen d - nodeAt s.node d) % ringLen d) ≤ ringLen d)))

/-- A packet goes on, or waits on the mesh: behind earlier ones of its flow, for room in the router's store, or for a link. -/
def State.pumpWait (s : State) (w : NetWait) : State :=
  let p := w.pkt
  let wait : State := { s with meshq := s.meshq ++ [w] }
  let behind := s.meshq.any (fun x =>
    x.pkt.ordered = p.ordered && x.pkt.src = p.src && x.pkt.dst = p.dst && x.pkt.vnet = p.vnet && x.pkt.prio = p.prio)
  if behind then wait
  else if p.ordered && w.via.isNone then
    let d := s.routerDie p.dst
    if 8192 < s.keptFlits d p.vnet + p.body.flits then wait
    else
      let k := (p.dst, p.vnet, p.prio)
      let f := tget s.flows {} k
      let x : KeptPkt := ⟨{ p with seq := f.next }, d, p.body.flits, false, s.cycle⟩
      { s with flows := tput s.flows k ⟨f.next + 1, f.kept ++ [x]⟩ }.pumpFlow k
  else (s.sendPkt p w.via).getD wait

/-- The SID of a collective token. -/
def NetBody.collSid : NetBody → Nat
  | .coll m => m.sid
  | .result m => m.sid
  | _ => 0

/-- Counts ordered-class packets of a SID for the reports of R28. -/
def State.countNet (s : State) (sid : Option Nat) (out : Bool) : State :=
  match sid with
  | some k =>
    (match tfind s.jobs k with
     | some j =>
       let sp := j.span
       s.setJob k { j with span := if out then { sp with sent := sp.sent + 1 } else { sp with received := sp.received + 1 } }
     | none => s)
  | none => s

/-- Gives the router a packet of a SID for another node (R415, R417). -/
def State.toNet (s : State) (dst : Nat) (sid : Option Nat) (b : NetBody) : State :=
  let s := if b.ordered then s.countNet sid true else s
  s.pumpWait ⟨{ ordered := b.ordered, src := s.node, dst := dst, vnet := b.vnet, prio := b.prio, seq := 0, sid := sid, body := b }, none⟩

/-- Whether the router can take a packet of one flit to a node now. -/
def State.routerRoom (s : State) (dst : Nat) : Bool :=
  s.keptFlits (s.routerDie dst) 0 < 8192 && !s.meshq.any (fun x => x.pkt.ordered && x.pkt.src = s.node && x.pkt.dst = dst && x.pkt.vnet = 0)

/-- Sends a copy of a collective token, if its link or the router takes it. -/
def State.sendCopy (s : State) (x : EgressCopy) : Option State :=
  let sid := x.body.collSid
  match x.plane with
  | some p => let f := s.framesOf sid p 1; (s.emit p (.coll x.body f) 16).map (fun s => s.countFrames sid p f)
  | none => if s.routerRoom x.dst then some (s.toNet x.dst (some sid) x.body) else none

/-- Sends the copies of a token in their order, and answers those that wait. -/
def State.sendCopies (s : State) : List EgressCopy → State × List EgressCopy
  | [] => (s, [])
  | x :: r => match s.sendCopy x with | some s => s.sendCopies r | none => (s, x :: r)

/-- Sends what a gateway's egress queue holds, oldest first; what waits for room in its 64 flits moves up (R443). -/
def State.pumpEgress (s : State) (k : Nat × Nat × Nat) : State :=
  let e := tget s.egress {} k
  let r := (e.queue ++ e.waits).foldl (fun (a : State × List (List EgressCopy)) t =>
    if a.2 ≠ [] then (a.1, a.2 ++ [t])
    else
      let x := a.1.sendCopies t
      (x.1, if x.2 = [] then [] else [x.2])) (s, [])
  { r.1 with egress := tput r.1.egress k ⟨r.2.take 64, r.2.drop 64⟩ }

/-- Gives a token's copies to an egress queue. -/
def State.toEgress (s : State) (k : Nat × Nat × Nat) (t : List EgressCopy) : State :=
  let e := tget s.egress {} k
  if t = [] then s else { s with egress := tput s.egress k { e with waits := e.waits ++ [t] } }.pumpEgress k

/-- Sends what can be sent: what links have taken and kept packets first, then the egress queues, then what waits on the mesh. -/
def State.netPump (s : State) : State :=
  let s := s.links.foldl (fun s e => s.linkPump e.1) s
  let s := s.flows.foldl (fun s e => s.pumpFlow e.1) s
  let s := s.egress.foldl (fun s e => s.pumpEgress e.1) s
  s.meshq.foldl State.pumpWait { s with meshq := [] }

/-- Whether a barge from another node may enter a basin here, or an arrival a counter: the die is present, and the SID holds the
hive (R108). -/
def State.remoteOk (s : State) (dst : CoreId) (sid : Nat) : Bool :=
  dst.die < s.part.dies &&
  (match dst.hive? with
   | some h => s.holds sid h
   | none => thas s.jobs sid)

/-- The sender a source word names (R106). -/
def senderOf (w : Word) : Sender := if bitsN w 63 62 = 2 then .lock (bitsN w 40 40) else .core (routeCore w)

/-! ## Barges (R104, R109) -/

/-- The fields of a control word (R104, R105). -/
def ctlHandler (c : Word) : Nat := bitsN c 62 51
def ctlPrio (c : Word) : Nat := bitsN c 50 49
def ctlCount (c : Word) : Nat := bitsN c 48 46
def ctlCont (c : Word) : Bool := bitsN c 63 63 = 1
def ctlSlot (c : Word) : Nat := bitsN c 62 59
def ctlFirst (c : Word) : Nat := bitsN c 58 55
def ctlGen (c : Word) : BitVec 4 := BitVec.ofNat 4 (bitsN c 54 51)

/-- A barge with its count field set (R107). -/
def withCount (c : Word) (n : Nat) : Word :=
  (c &&& ~~~(fld 7 46)) ||| fld n 46

/-- The priority a barge waits and travels at: that of its control word, and 1 for the continuation lane's
channel. -/
def Barge.prio (b : Barge) : Nat := if ctlCont b.ctl then 1 else ctlPrio b.ctl

/-- The deposit a continuation barge makes (R105, R125). -/
def Barge.deposit (b : Barge) : Deposit :=
  { slot := ctlSlot b.ctl, first := ctlFirst b.ctl, vals := b.payload, gen := ctlGen b.ctl, ctl := some b.ctl,
    sid := b.sid }

/-- Whether a barge's destination is another node. -/
def Load.away (l : Load) (node : Nat) : Bool :=
  match l with
  | .barge b => bitsN b.route 63 62 = 0 && routeNode b.route ≠ node
  | .packet _ => false

/-- The node an item goes to. -/
def Load.nodeOf (l : Load) (node : Nat) : Nat :=
  match l with
  | .barge b => if l.away node then routeNode b.route else node
  | .packet _ => node

/-- The SID of an item. -/
def Load.sid : Load → Nat
  | .barge b => b.sid
  | .packet p => p.sid

/-- What a sender keeps, in the order of sending. -/
def State.sendRecs (s : State) (src : Sender) : List SendRec :=
  match src with
  | .core c => (s.core c).sends.map Prod.snd
  | .lock d => (s.lockSends.filter (fun e => e.1.1 = d)).map Prod.snd
  | .node _ => []

/-- What a sender keeps of an item. -/
def State.sendRec (s : State) (src : Sender) (id : Nat) : Option SendRec :=
  match src with
  | .core c => tfind (s.core c).sends id
  | .lock d => tfind s.lockSends (d, id)
  | .node _ => none

/-- Changes or forgets it. -/
def State.setSendRec (s : State) (src : Sender) (id : Nat) (r : Option SendRec) : State :=
  match src with
  | .core c =>
    let k := s.core c
    s.setCore c { k with sends := match r with | some r => tput k.sends id r | none => tdel k.sends id }
  | .lock d => { s with lockSends := match r with | some r => tput s.lockSends (d, id) r | none => tdel s.lockSends (d, id) }
  | .node _ => s

/-- Two items that keep their order: to one core of one node in one lane (R109). -/
def SendRec.sameLane (a b : SendRec) (node : Nat) : Bool :=
  a.dst = b.dst && a.item.lane = b.item.lane && a.item.load.nodeOf node = b.item.load.nodeOf node

/-- Sends the items to other nodes that no earlier one of their lane precedes any more: a refused barge holds up those behind it
(R109, log 118). -/
def State.pumpSends (s : State) (src : Sender) : State :=
  ((s.sendRecs src).foldl (fun (a : State × List SendRec) r =>
    if !r.item.load.away s.node || r.sent || a.2.any (fun x => x.sameLane r s.node) then (a.1, r :: a.2)
    else
      let s1 := a.1.setSendRec src r.item.id (some { r with sent := true })
      (s1.toNet (r.item.load.nodeOf s.node) (some r.item.load.sid) (.item r.dst r.item), r :: a.2)) (s, [])).1

/-- Puts an item on its way to a core of this device, or in its turn on a link to another node (R109, R415). -/
def State.dispatchItem (s : State) (src : Sender) (dst : CoreId) (it : Item) (first : Bool) : State :=
  if it.load.away s.node then
    match s.sendRec src it.id with
    | some r => (s.setSendRec src it.id (some { r with sent := false })).pumpSends src
    | none => s
  else if first then s.postFirst (.barge src dst it.lane) (.bargeArrival dst src it)
  else s.post (.barge src dst it.lane) (.bargeArrival dst src it)

/-- Sends an item from a core's send unit (R109): it keeps a copy until placement. -/
def State.sendFrom (s : State) (src : CoreId) (dst : CoreId) (l : Load) (prio : Nat) (rel : Option Nat) : State :=
  let k := s.core src
  let it : Item := { load := l, id := k.nextId, rel := rel, prio := prio }
  (s.setCore src { k with nextId := k.nextId + 1, sends := tput k.sends k.nextId { item := it, dst := dst } }).dispatchItem
    (.core src) dst it false

/-- The lane of initial barges (R23). -/
def initialLane : Nat := 8

/-- Sends a barge from a lockkeeper (R23, R113, R205), which keeps a copy likewise. -/
def State.sendLock (s : State) (die : Nat) (dst : CoreId) (b : Barge) : State :=
  let it : Item :=
    { load := .barge b, id := s.lockNext, rel := none, prio := ctlPrio b.ctl, lane := if b.fault then 0 else initialLane }
  { s with lockNext := s.lockNext + 1, lockSends := tput s.lockSends (die, s.lockNext) { item := it, dst := dst } }.dispatchItem
    (.lock die) dst it false

/-- A released effect of a core is performed, or one access of it (R236): its entry goes once nothing is awaited. -/
def State.performed (s : State) (c : CoreId) (rel : Nat) : State :=
  let k := s.core c
  let outs := (k.outs.map (fun o => if o.rel = rel then { o with need := o.need - 1 } else o)).filter (fun o => o.need ≠ 0)
  s.setCore c { k with outs := outs }

/-- The placement of an item, or its end, reaches its sender (R109, R247): the copy goes, the effect is performed, and what waited
behind it is sent. -/
def State.settled (s : State) (src : Sender) (id : Nat) : State :=
  match s.sendRec src id with
  | none => s
  | some r =>
    let s := s.setSendRec src id none
    let s := match src, r.item.rel with
      | .core c, some n => s.performed c n
      | _, _ => s
    if r.item.load.away s.node then s.pumpSends src else s

/-- A packet for this node reaches the unit it is for; one that names a hive its SID has left reaches the hive it moved to (R491).
A barge for the lockkeeper of an absent die is refused (R108), and so is one for a service that only the host may ask for (R21). -/
def State.deliver (s : State) (link : Nat) (p : NetPkt) : State :=
  let ch : Chan := .port link (if p.ordered then some (p.src, p.vnet, p.prio) else none)
  let at_ (c : CoreId) : CoreId := match p.sid with | some k => s.redirectCore k c | none => c
  let to_ (x : Sender) : Sender := match x with | .core c => .core (at_ c) | x => x
  match p.body with
  | .item dst it => s.post ch (.bargeArrival (at_ dst) (.node p.src) it)
  | .jobBarge die b =>
    if die < s.part.dies then
      s.post ch (if ctlHandler b.ctl = 1 then .jobEnd die b.sid none else .unknownService ([b.route, b.ctl] ++ b.payload) false)
    else s.toNet p.src (some b.sid) (.reject (senderOf b.src) 0 (b.origin.map (fun o => (o, b.route, b.unit))))
  | .placed src id => s.settled (to_ src) id
  | .spanEnd sid way => s.post ch (.jobEnd 0 sid (some way))
  | .busy src id => s.post ch (.busyReply (to_ src) id)
  | .reject src id c => s.post ch (.remoteReject (to_ src) id c)
  | .arrival c idx par o rel =>
    s.post ch (.counterArrival (at_ c) { idx := idx, par := par, src := some o.core, rel := rel, node := some p.src, origin := some o })
  | .ack c rel => s.post ch (.storeAck (at_ c) rel)
  | .window r => s.post ch (.windowPieceCheck r)
  | .answer r a => s.post ch (.remoteAnswer { r with core := at_ r.core } a)
  | .release n c slot seq => s.post ch (.requestIdRelease n c slot seq)
  | .spanKill sid x => s.post ch (.spanKill sid x)
  | .spanJoin sid n node digest => s.post ch (.spanJoin ⟨sid, n, node, digest⟩)
  | .spanAnswer sid m key ok => s.post ch (.spanAnswer sid m key ok)
  | .report r => s.post ch (if r.quiet then .quietReport r else .activeReport r)
  | .reportAsk sid n => s.post ch (.freshReportRequest sid n)
  | .path m => s.post ch (.pathCheck m)
  | .pathAns m a => s.post ch (.pathCheckAnswer m a)
  | .coll m => s.post ch (.contributionArrival m none)
  | .result m => s.post ch (.resultArrival m none)

/-! ## Faults (R204, R205) -/

/-- Word h0 of a fault barge (R205). -/
def faultWord (c : Cause) (unit slot rid : Nat) (gen : BitVec 4) (cnt rank : Nat) (susp : Bool) : Word :=
  fld c.code 0 ||| fld unit 8 ||| fld slot 12 ||| fld rid 16 ||| fld gen.toNat 26 ||| fld cnt 30 ||| fld rank 39
    ||| fld (if susp then 1 else 0) 42

/-- What R205 records of the thread in a context: its fault edge is that of the handler its literal base names. -/
def State.originOf (s : State) (t : ThreadId) : Origin :=
  let c := s.ctx t
  let h := (s.handler c.sid c.lit).getD ⟨0, 0, 0xFFFF, 0, [], []⟩
  { core := t.core, sid := c.sid, edge := h.edge, rank := h.rank, image := c.lit, slot := t.slot,
    tag := bitsN c.ctl 39 0, ident := identWord s.node t.core t.slot c.sid, serial := c.serial }

/-- Delivers a fault barge (R205): to the fault edge's handler on the core where it arose, at priority 0, or to the
lockkeeper of the die (R209). The tag is a thread's, and so is the slot in the identity word: 0 for other units. -/
def State.deliverFault (s : State) (o : Origin) (h0 h1 h2 h4 : Word) (duty : Option Suspended) : State :=
  let o := if bitsN h0 11 8 = 0 then o else { o with tag := 0, ident := o.ident &&& ~~~(fld 15 26) }
  let c := s.redirectCore o.sid o.core
  let o := if c = o.core then o else { o with core := c, ident := identWord s.node c (bitsN o.ident 29 26) (bitsN o.ident 15 0) }
  let ctl := fld o.edge 51 ||| fld 6 46 ||| fld o.tag 0
  let b : Barge :=
    { route := coreWord s.node o.core, ctl := ctl,
      payload := [h0, h1, h2, o.ident, h4, fld o.image 0],
      src := lockWord s.node o.core.die, sid := o.sid, origin := some o, duty := duty, fault := true }
  if o.edge = 0xFFFF then s.post .none (.rank7Fault o.core.die b)
  else s.sendLock o.core.die o.core b

/-- A reported fault of a thread's released effect or of a unit that acts for it (R204, R205): the reach id,
generation, count and PC are those of the thread named, if it still runs (log 16). -/
def State.report (s : State) (o : Origin) (c : Cause) (unit : Nat) (h2 : Word) : State :=
  let x := s.ctx ⟨o.core, o.slot⟩
  let live := x.status ≠ .free && x.serial = o.serial && unit = 0
  let h0 := if live then faultWord c unit o.slot x.rid.toNat x.gen x.reachcnt o.rank false
            else faultWord c unit (if unit = 0 then o.slot else 0) 0 0 0 o.rank false
  s.deliverFault o h0 (if live then x.pc else 0) h2 0 none

/-- A hive's joint array. -/
def State.joint (s : State) (h : HiveId) : Joint := tget s.joints {} h

/-- Sets a hive's joint array. -/
def State.setJoint (s : State) (h : HiveId) (j : Joint) : State := { s with joints := tput s.joints h j }

/-- A towpath token from a core's hive to the destination a code names (R326): a generator of a store tile, or an
arrival counter of a compute tile's core. -/
def State.emitTowpath (s : State) (c : CoreId) (code : Nat) : State :=
  match c.hive? with
  | none => s
  | some h =>
    let t : TileId := ⟨h.die, h.hive, code / 64 % 16⟩
    let n := code % 64
    if isCompute t.tile then s.post .none (.counterArrival t.core { idx := n, par := 0, src := none, rel := 0 })
    else if n < 4 then s.post .none (.towpathStart ⟨t, n⟩)
    else if n < 8 then s.post .none (.towpathStop ⟨t, n - 4⟩)
    else s

/-- Raises a shard flag of a core's hive (R352). -/
def State.raiseShard (s : State) (c : CoreId) (flag : Nat) : State :=
  match c.hive? with
  | some h => let j := s.joint h; s.setJoint h { j with shard := j.shard ||| (1#16 <<< flag) }
  | none => s

end Sys2Proof.Machine
end

