-- ==== Sys2Proof/Machine/Flags.lean ====
section
/-! DEFINITION. The sticky flags (R86) and the flag computations of integer arithmetic (R89, R90, R91). -/

namespace Sys2Proof.Machine

open Sys2Proof

/-- Invalid (R86). -/
def flagNv : BitVec 7 := 1
/-- Divide by zero. -/
def flagDz : BitVec 7 := 2
/-- Overflow, or an integer clamp. -/
def flagOf : BitVec 7 := 4
/-- Underflow. -/
def flagUf : BitVec 7 := 8
/-- Inexact. -/
def flagNx : BitVec 7 := 16
/-- Sparse skipping dropped a NaN or infinite operand. -/
def flagSkipnf : BitVec 7 := 32
/-- A wrapping accumulation overflowed. -/
def flagIovf : BitVec 7 := 64

/-- The INT64 range. -/
def int64Min : Int := -9223372036854775808
def int64Max : Int := 9223372036854775807

/-- Whether an exact signed value fits INT64. -/
def fitsInt64 (x : Int) : Bool := decide (int64Min ≤ x) && decide (x ≤ int64Max)

/-- Clamps to the INT64 range (R89, satint of R54) and says whether it did. -/
def clamp64 (x : Int) : Word × BitVec 7 :=
  if x < int64Min then (BitVec.ofInt 64 int64Min, flagOf)
  else if int64Max < x then (BitVec.ofInt 64 int64Max, flagOf)
  else (BitVec.ofInt 64 x, 0)

/-- Signed and unsigned division of R91: quotient, remainder, flag. -/
def divS (a b : Word) : Word × BitVec 7 :=
  if b = 0 then (BitVec.allOnes 64, flagDz) else (BitVec.ofInt 64 (a.toInt.tdiv b.toInt), 0)

def remS (a b : Word) : Word × BitVec 7 :=
  if b = 0 then (a, flagDz) else (BitVec.ofInt 64 (a.toInt.tmod b.toInt), 0)

def divU (a b : Word) : Word × BitVec 7 :=
  if b = 0 then (BitVec.allOnes 64, flagDz) else (BitVec.ofNat 64 (a.toNat / b.toNat), 0)

def remU (a b : Word) : Word × BitVec 7 :=
  if b = 0 then (a, flagDz) else (BitVec.ofNat 64 (a.toNat % b.toNat), 0)

/-- The multiply-accumulate of R168 on exact values: the wrapped result, and iovf when it left the INT64 range. -/
def macS (d a b : Word) : Word × BitVec 7 :=
  let x := d.toInt + a.toInt * b.toInt
  (BitVec.ofInt 64 x, if fitsInt64 x then 0 else flagIovf)

end Sys2Proof.Machine
end

