-- ==== Sys2Proof/Machine/Operands.lean ====
section
/-! DEFINITION. The operand forms: reading and writing ports (R38), guards (R43), effective addresses and their checks
(R211 to R213), what a load sees of its own reach (R189), and the checks of a barge (R103, R108). -/

namespace Sys2Proof.Machine

open Sys2Proof

/-- Why an instruction ends without effect (R54, `fault`): the cause, and the address field h2 (R205): the faulting address or the value
the cause's rule names; none where no rule names one, and h2 is a free value (log 25). -/
structure Stop where
  cause : Cause
  addr : Option Word
  deriving DecidableEq, Repr

/-- Reads a source port (R38); a literal past the table raises BOUNDS with its index (R151). -/
def rd (s : State) (t : ThreadId) (p : BitVec 5) : Except Stop Word :=
  let c := s.ctx t
  let n := p.toNat
  if n ≤ 9 then .ok (c.regs.get n)
  else if n = 10 then .ok 0
  else if n = 11 then .ok ((c.pw ||| 1).setWidth 64)
  else if n = 12 then .ok (identWord s.node t.core t.slot c.sid)
  else
    match (s.handler c.sid c.lit).bind (fun h => h.lits[n - 16]?) with
    | some v => .ok v
    | none => .error ⟨.bounds, some (BitVec.ofNat 64 (n - 16))⟩

/-- Writes a destination port (R38, R159). -/
def Ctx.wr (c : Ctx) (p : BitVec 5) (v : Word) : Ctx :=
  if p.toNat ≤ 9 then { c with regs := c.regs.set p.toNat v }
  else if p.toNat = 11 then c.setPw v
  else c

/-- A guard (R43): TAG = N:PPP holds when p[PPP] differs from N. -/
def Ctx.guard (c : Ctx) (t : BitVec 4) : Bool := c.pred (t.toNat % 8) != t.getLsbD 3

/-- K10 sign-extended (R52). -/
def sext10 (k : BitVec 10) : Word := k.signExtend 64

/-- The next instruction's code address (R36). The last word of a full handler has none in the form of R36: bit 28 is
set, and the fetch there raises BOUNDS (R37, log 17). -/
def nextPc (pc : Word) : Word := if bitsN pc 15 0 = 0xFFFC then pc ||| fld 1 28 else pc + 4

/-- A branch target (R33). -/
def branchPc (pc : Word) (o : BitVec 15) : Word := pc + (o.signExtend 64 <<< 2)

/-- The word at a code address (R37): none at or beyond the end of the handler's code, or where no handler is. -/
def State.codeWord (s : State) (sid : Nat) (pc : Word) : Option (BitVec 32) :=
  if bitsN pc 63 28 = 0 && bitsN pc 1 0 = 0 then
    (s.handler sid (bitsN pc 27 16)).bind (fun h => h.code[bitsN pc 15 0 / 4]?)
  else none

/-! ## Addresses -/

/-- What an effective address names after checks 1 to 7 of R213: a place on this device, a virtual address, a window. -/
inductive Target where
  | here (l : Loc)
  | global (va : Nat)
  | window (w : Word)
  deriving DecidableEq, Repr

/-- The size of a tile's memory (R8, R9). -/
def tileSize (tile : Nat) : Nat := if isCompute tile then 262144 else 524288

/-- Whether a node stands in another rack than this one (R413: the rack in bits 20..8). -/
def otherRack (s : State) (n : Nat) : Bool := n / 256 ≠ s.node / 256

/-- An absent unit a node's route crosses: a rail port (R3). -/
def railAbsent (s : State) (n : Nat) : Bool := otherRack s n && s.part.caps / 2 % 2 = 0

/-- Checks 1 to 7 of R213 for an access of `len` bytes with alignment `al` that slot `slot` of a core makes for a SID;
`win` says whether the instruction takes window addresses (R221). Of a window address R413's form is checked before the alignment, and
UNAVAILABLE and REMOTE_VIOLATION of its node after it: the table of R213 gives no place for them (log 155). -/
def checkAddrOf (s : State) (c : CoreId) (slot sid : Nat) (ea : Word) (al len : Nat) (win : Bool) : Except Stop Target :=
  let no (x : Cause) : Except Stop Target := .error ⟨x, some ea⟩
  let off := ea.toNat
  match bitsN ea 63 62 with
  | 0 =>
    let o := bitsN ea 17 0
    if bitsN ea 61 18 ≠ 0 then no .addrForm
    else if off % al ≠ 0 then no .align
    else
      match c with
      | .hc d h m => if 262144 < o + len then no .bounds else .ok (.here (.tile ⟨d, h, computeTile m⟩ o))
      | .ec d e =>
        if 65536 < o + len then no .bounds
        else if o / 4096 ≠ slot || (o + len - 1) / 4096 ≠ slot then no .access
        else .ok (.here (.edge d e o))
  | 1 =>
    let ti : TileId := ⟨bitsN ea 40 40, bitsN ea 39 34, bitsN ea 33 30⟩
    let o := bitsN ea 18 0
    if bitsN ea 61 41 ≠ 0 || bitsN ea 29 19 ≠ 0 then no .addrForm
    else if off % al ≠ 0 then no .align
    else if s.part.dies ≤ ti.die then no .unavailable
    else if tileSize ti.tile < o + len then no .bounds
    else if !s.holds sid ⟨ti.die, ti.hive⟩ then no .remoteViolation
    else .ok (.here (.tile (s.redirectTile sid ti) o))
  | 2 =>
    if bitsN ea 61 57 ≠ 0 then no .addrForm
    else if off % al ≠ 0 then no .align
    else .ok (.global (bitsN ea 56 0))
  | _ =>
    if !win then no .addrForm
    else if 144 ≤ bitsN ea 48 41 then no .illegalForm
    else if off % al ≠ 0 then no .align
    else if railAbsent s (bitsN ea 61 41) then no .unavailable
    else if !(s.job sid).members.contains (bitsN ea 61 41) then no .remoteViolation
    else .ok (.window ea)

/-- The same for a thread. -/
def checkAddr (s : State) (t : ThreadId) (ea : Word) (al len : Nat) (win : Bool) : Except Stop Target :=
  checkAddrOf s t.core t.slot (s.ctx t).sid ea al len win

/-- The key under which a reach's own stores are looked up (R189): the byte's place for local and fabric addresses,
the address itself for global and window ones (log 18). -/
def fwdKey (s : State) (t : ThreadId) (a : Word) : Nat :=
  match bitsN a 63 62 with
  | 0 =>
    match t.core with
    | .hc d h m => (Loc.tile ⟨d, h, computeTile m⟩ (bitsN a 17 0)).key
    | .ec d e => (Loc.edge d e (bitsN a 17 0)).key
  | 1 => (Loc.tile (s.redirectTile (s.ctx t).sid ⟨bitsN a 40 40, bitsN a 39 34, bitsN a 33 30⟩) (bitsN a 18 0)).key
  | _ => 2 ^ 80 + a.toNat

/-- The newest buffered byte that covers a key (R189). -/
def fwdByte (s : State) (t : ThreadId) (k : Nat) : Option Byte :=
  (s.ctx t).buf.foldl (fun acc b =>
    match b.eff with
    | .store a bs => let k0 := fwdKey s t a
                     if k0 ≤ k && k < k0 + bs.length then bs[k - k0]? else acc
    | _ => acc) none

/-- The bytes of a load: each from the newest own buffered store that covers it, else the home's (R189). -/
def forward (s : State) (t : ThreadId) (a : Word) (bs : List Byte) : List Byte :=
  let k := fwdKey s t a
  bs.mapIdx (fun i b => (fwdByte s t (k + i)).getD b)

/-- The doublewords or fewer of a range, split at aligned 32-byte blocks (R225, R226): offset and length of each. -/
def blocks32 (a len : Nat) : List (Nat × Nat) :=
  (List.range ((a + len - 1) / 32 + 1 - a / 32)).map (fun i =>
    let lo := max a ((a / 32 + i) * 32)
    let hi := min (a + len) ((a / 32 + i + 1) * 32)
    (lo - a, hi - lo))

/-- The first addresses of the 64 KiB pages a range touches (R190, R268). -/
def pagesOf (va len : Nat) : List Nat :=
  (List.range ((va + len - 1) / 65536 + 1 - va / 65536)).map (fun i => max va ((va / 65536 + i) * 65536))

/-- The probes an effect needs (R190): one for each page of a global address, none for the other kinds. -/
def probesOf (tg : Target) (len : Nat) (acc : Acc) : List Probe :=
  match tg with
  | .global va => (pagesOf va len).map (fun p => { va := p, acc := acc })
  | _ => []

/-! ## Barges (R103, R108) -/

/-- The zero fields of a route word (R102), and the position of its node (R413). -/
def routeForm (r : Word) : Bool :=
  match bitsN r 63 62 with
  | 0 => bitsN r 29 0 = 0 && (bitsN r 30 30 = 0 || bitsN r 39 38 = 0) && bitsN r 48 41 < 144
  | 1 => bitsN r 59 57 = 0
  | 2 => bitsN r 39 0 = 0 && bitsN r 48 41 < 144
  | _ => bitsN r 61 0 = 0

/-- The address a mode-0b01 route names (R102): its kind in bits 61..60, its address bits 56..0. -/
def routeAddr (r : Word) : Word := (fld (bitsN r 61 60) 62) ||| (r &&& (fld (2 ^ 57 - 1) 0))

/-- The destination of an address of a mode-0b01 route or a `migr` (R103, R135). The address meets checks 1 to 6 of R213 as an
access of one byte does: a local one of an edge core outside the thread's own block gives ACCESS, beyond the memory BOUNDS
(log 120). -/
def addrDest (s : State) (c : CoreId) (slot sid : Nat) (a : Word) : Except Stop Dest :=
  match bitsN a 63 62 with
  | 0 =>
    match checkAddrOf s c slot sid a 1 1 false with
    | .error e => .error e
    | .ok _ => .ok (.core c)
  | 1 =>
    match checkAddrOf s c slot sid a 1 1 false with
    | .ok (.here (.tile ti _)) => .ok (.core ti.core)
    | .ok _ => .error ⟨.addrForm, some a⟩
    | .error e => .error e
  | 2 =>
    match checkAddrOf s c slot sid a 1 1 false with
    | .ok (.global va) => .ok (.global va)
    | .ok _ => .error ⟨.addrForm, some a⟩
    | .error e => .error e
  | _ => .error ⟨.addrForm, some a⟩

/-- A route to another node, or to an absent unit of this one (R3, R27, R108). -/
def nodeAbsent (s : State) (r : Word) : Bool :=
  (routeNode r = s.node && s.part.dies ≤ bitsN r 40 40) || railAbsent s (routeNode r)

/-- The control word's row of R108. -/
def ctlForm (s : State) (sid mode : Nat) (edge : Bool) (c : Word) : Bool :=
  if ctlCont c then
    mode = 0 && !edge && ctlCount c ≠ 0 && ctlCount c ≠ 7 && bitsN c 50 49 = 0 && bitsN c 45 0 = 0
  else
    ctlPrio c ≠ 0 && bitsN c 45 40 = 0 && ctlCount c ≠ 7 &&
      (if mode = 2 then ctlHandler c = 1 else (s.handler sid (ctlHandler c)).isSome)

/-- The checks of R108 for a barge that slot `slot` of a core sends for a SID, in their order; no rule names h2 of a failure,
but for the address of a mode-0b01 route (log 19). A global address is translated first, and its control word checked when the
answer has come. -/
def checkBarge (s : State) (k : CoreId) (slot sid : Nat) (r c : Word) : Except Stop Dest :=
  let mode := bitsN r 63 62
  let no (x : Cause) : Except Stop Dest := .error ⟨x, none⟩
  if !routeForm r || ctlCount c = 7 then no .illegalForm
  else if (mode = 0 || mode = 2) && nodeAbsent s r then no .unavailable
  else if mode = 1 && bitsN (routeAddr r) 63 62 = 1 && s.part.dies ≤ bitsN (routeAddr r) 40 40 then no .unavailable
  else
    let dest : Except Stop Dest :=
      if mode = 1 then addrDest s k slot sid (routeAddr r)
      else if mode = 0 then
        if routeNode r = s.node then
          (match routeCore r with
           | .hc d h m => if s.holds sid ⟨d, h⟩ then .ok (.core (s.redirectCore sid (.hc d h m)))
                          else no .remoteViolation
           | e => .ok (.core e))
        else if (s.job sid).members.contains (routeNode r) then .ok (.node (routeNode r) (routeCore r))
        else no .remoteViolation
      else if mode = 2 then
        if routeNode r = s.node || (s.job sid).members.contains (routeNode r) then
          .ok (.lock (routeNode r) (bitsN r 40 40))
        else no .remoteViolation
      else .ok .any
    match dest with
    | .error e => .error e
    | .ok (.global va) => .ok (.global va)
    | .ok d => if ctlForm s sid mode (bitsN r 30 30 = 1) c then .ok d else no .illegalForm

end Sys2Proof.Machine
end

