-- ==== Sys2Proof/Machine/Thread.lean ====
section
/-! DEFINITION. The life of a thread: how an instruction is run under R44, how a reach is discarded (R195, R196), how a
thread ends, and how a boundary commits (R183, R193). -/

namespace Sys2Proof.Machine

open Sys2Proof

/-! ## Instances as tables (R389, R390) -/

/-- The instance a place word names (R389); a hive the SID left by a move names the hive it went to (R491). -/
def State.placeInst (s : State) (sid : Nat) (w : Word) : InstId :=
  let h := s.redirect sid ⟨bitsN w 22 22, bitsN w 21 16⟩
  ⟨h.die, h.hive, bitsN w 15 14⟩

/-- The step that performs a graph operation. -/
def GraphOp.ev (g : GraphOp) : Ev :=
  match g.op with
  | 0xA8 => .graphReserve g
  | 0xA9 => .gswapPerform g
  | 0xAA => .gmarkPerform g
  | 0x1AA => .gmarkPerform g
  | 0xAD => .gsavePerform g
  | _ => .grestPerform g

/-- An operation arrives at its lockkeeper again, behind those that do already. -/
def State.rearrive (s : State) (g : GraphOp) : State := s.post (.graph (bitsN g.place 22 22)) { g with late := true }.ev

/-- Graph operations that waited go on in the order they arrived in (R391). -/
def State.again (s : State) (l : List GraphOp) : State := l.foldl State.rearrive s

/-- Whether an operation may be looked at now: it does not overtake those that waited and arrive again (R391). -/
def State.inTurn (s : State) (g : GraphOp) : Bool := g.late || !s.pending.any (fun p => p.chan = .graph (bitsN g.place 22 22))

/-- A generator an instance gives up (R318, R400): it takes its pending record, unless that one is only reserved. -/
def Gen.drop (x : Gen) (i : InstId) (reserved : InstId → Bool) : Gen :=
  let mine (c : Option GenCfg) : Bool := match c with | some c => c.inst = i | none => false
  let x := if mine x.pend then { x with pend := none } else x
  if mine x.cfg then
    (match x.pend with
     | some c => if reserved c.inst then { pend := some c } else { cfg := some c }
     | none => {})
  else x

/-- An instance becomes FREE (R390): its planes, generators, collective nodes and groups with it, and the notices of its generators'
slots, on their way or held by a joint array. -/
def State.dropInst (s : State) (i : InstId) : State :=
  let wait := match tfind s.insts i with | some x => x.waitq | none => []
  let res (j : InstId) : Bool := match tfind s.insts j with | some x => x.st = .reserved | none => true
  let mine (p : PlaneId) : Bool := decide ((tget s.planes {} p).inst = some i)
  let gone (g : GenId) : Bool := match (tget s.gens {} g).cfg with | some c => c.inst = i | none => false
  ({ s with planes := s.planes.filter (fun e => e.2.inst ≠ some i),
            gens := s.gens.map (fun e => (e.1, e.2.drop i res)),
            colls := s.colls.filter (fun e => e.1.1 ≠ i),
            groups := s.groups.filter (fun e => !(e.2.st = 3 && e.2.inst = i)),
            twins := s.twins.filter (fun w => w.a ≠ i && w.b ≠ i),
            pending := s.pending.filter (fun p => match p.ev with
              | .tokenArrival a _ => !mine a.dst
              | .arcAck a => !mine a.dst
              | .freedSlotNotice n => !gone n.gen
              | _ => true),
            joints := s.joints.map (fun e => (e.1, { e.2 with notes := e.2.notes.filter (fun n => !gone n.1), partials := e.2.partials.filter (fun g => !gone g) })),
            insts := tdel s.insts i } : State).again wait

/-! ## Leaving a reach -/

/-- Gives back what an effect of a dropped reach had reserved (R196, R231). A queue's reservation is given back by a
message in release order, which a shootdown of its page waits for (R279); the other reservations at once. -/
def State.undo (s : State) (t : ThreadId) (b : Buffered) : State :=
  let k := s.core t.core
  let c := s.ctx t
  let back (e : Eff) : State :=
    s.setCore t.core { k with relq := k.relq ++ [⟨k.nextEff, t.slot, c.serial, c.gen, c.sid, s.originOf t, ⟨e, b.probes⟩⟩],
                              nextEff := k.nextEff + 1 }
  match b.eff with
  | .spawn _ => s.setCore t.core { k with deque := k.deque.filter (fun e => e.by_ ≠ some t.slot) }
  | .cset i _ => s.setCore t.core { k with counters := tput k.counters i { tget k.counters {} i with by_ := none } }
  | .push a _ _ l => back (.pushDrop a l)
  | .pop a l => back (.popDrop a l)
  | .haul _ n _ _ => { s with tags := tput s.tags (t.core, n) .free }
  | .graph g => if g.op = 0xA8 then s.dropInst (s.placeInst c.sid g.place) else s
  | .wopen w => { s with wins := tput s.wins (c.sid, w.id) { tget s.wins {} (c.sid, w.id) with st := 0 } }
  | .rget n _ => { s with rslots := tdel s.rslots (t.core, n) }
  | .rput n _ => { s with rslots := tdel s.rslots (t.core, n) }
  | .ratom n _ => { s with rslots := tdel s.rslots (t.core, n) }
  | .cjoin w => { s with groups := s.groups.filter (fun e => !(e.2.st = 1 && e.1 = (c.sid, bitsN (w.args.headD 0) 11 0, bitsN (w.args.headD 0) 47 32))) }
  | _ => s

/-- Drops the buffered effects of a reach and releases every reservation of it, those of `getm` included (R196). -/
def State.dropReach (s : State) (t : ThreadId) : State :=
  let s := (s.ctx t).buf.foldl (fun s b => s.undo t b) s
  let k := s.core t.core
  let s := s.setCore t.core { k with comps := k.comps.map (fun e => if e.by_ = some t.slot then { e with by_ := none } else e) }
  s.setCtx t { s.ctx t with buf := [] }

/-- The context becomes FREE (R121): lane entries and held deposits that name it are dropped and counted. -/
def State.freeCtx (s : State) (t : ThreadId) : State :=
  let c := s.ctx t
  let k := s.core t.core
  let gone := k.lane.filter (fun d => d.slot = t.slot)
  let k := { k with lane := k.lane.filter (fun d => d.slot ≠ t.slot),
                    stale := k.stale + BitVec.ofNat 32 (gone.length + c.hold.length) }
  (s.setCore t.core k).setCtx t { serial := c.serial, freeAt := s.cycle }

/-- An ending fault (R204): the reach is dropped, the context becomes FREE without a commit, and the fault barge names
the PC, the address field and the word. -/
def State.endThread (s : State) (t : ThreadId) (cause : Cause) (addr : Word) (w : BitVec 32) : State :=
  let c := s.ctx t
  let o := s.originOf t
  let h0 := faultWord cause 0 t.slot c.rid.toNat c.gen c.reachcnt o.rank false
  ((s.dropReach t).freeCtx t).deliverFault o h0 c.pc addr (w.setWidth 64) none

/-- An ending fault whose address field is a free value where no rule names it (R205, log 25). -/
def State.stop (s : State) (t : ThreadId) (e : Stop) (w : BitVec 32) : State :=
  match e.addr with
  | some a => s.endThread t e.cause a w
  | none => s.draw.endThread t e.cause (Config.freeWord s.free) w

/-- Gives the context's attempt a new number, so that answers to probes of the old one find no taker. -/
def State.newEpoch (s : State) (t : ThreadId) : State :=
  { s.setCtx t { s.ctx t with epoch := s.nextSerial } with nextSerial := s.nextSerial + 1 }

/-- The state a discard goes back to (R196): registers, predicates, flags, REACHLIM and PC from the snapshot, the count
of discards one higher, the executed instructions counted from the entry again. -/
def Ctx.restore (c : Ctx) : Ctx :=
  { c with regs := c.snap.regs, pw := c.snap.pw, fstat := c.snap.fstat, flags := c.snap.flags,
           reachlim := c.snap.reachlim, pc := c.snap.entry, reachcnt := c.reachcnt + 1, execs := 0, buf := [],
           loadWait := none, yields := false, yieldFor := [] }

/-- A discard (R196): `after` says how the context goes on, unless its count exceeds REACHLIM (R199). -/
def State.discard (s : State) (t : ThreadId) (w : BitVec 32) (after : State → State) : State :=
  let s := s.dropReach t
  let s := (s.setCtx t (s.ctx t).restore).newEpoch t
  if (s.ctx t).reachlim < (s.ctx t).reachcnt then s.stop t ⟨.reentryExhausted, none⟩ w
  else after s

/-- Changes a context. -/
def State.onCtx (s : State) (t : ThreadId) (f : Ctx → Ctx) : State := s.setCtx t (f (s.ctx t))

/-- Changes a core. -/
def State.onCore (s : State) (c : CoreId) (f : Core → Core) : State := s.setCore c (f (s.core c))

/-- The code address of the instruction before a PC that `nextPc` gave. -/
def prevPc (pc : Word) : Word := if bitsN pc 28 28 = 1 then pc &&& ~~~(fld 1 28) else pc - 4

/-- The PC back at the instruction that was issued last: what a fault it raises late names (R205). -/
def Ctx.back (c : Ctx) : Ctx := { c with pc := prevPc c.pc }

/-- A wait ends (R119, R126, R133, R197): READY, to issue from a cycle on, or SUSPENDED when a pre-emption is pending that no
shield holds off (R198). -/
def Ctx.wake (c : Ctx) (from_ : Nat) : Ctx :=
  if c.preemptPending && !c.shield then { c with status := .suspended, preempted := true, preemptPending := false }
  else { c with status := .ready, nextIssue := max c.nextIssue from_ }

/-- A detected error (R201): the first one of a reach discards it and the thread re-enters at once, or is SUSPENDED where that ends
a load wait under a pending pre-emption (R119); a second one raises POISON. -/
def State.consumePoison (s : State) (t : ThreadId) (addr : Option Word) (w : BitVec 32) : State :=
  if (s.ctx t).poisoned then (s.onCtx t Ctx.back).stop t ⟨.poison, addr⟩ w
  else
    let waited : Bool := (s.ctx t).status = .loadWait
    s.discard t w (fun s => s.onCtx t (fun c =>
      let c := { c with poisoned := true, status := .ready }
      if waited then c.wake s.cycle else c))

/-- SUSPENDED for a page fault; a pre-emption that is pending, and that no shield holds off, holds the thread as well (R197). -/
def Ctx.pageStop (c : Ctx) : Ctx :=
  { c with status := .suspended, faulted := true, preempted := c.preempted || (c.preemptPending && !c.shield),
           preemptPending := c.preemptPending && c.shield }

/-- A page fault of a thread (R195, R276): the reach is discarded, the thread SUSPENDED, and a PAGE_FAULT barge with
disposition 1 asks for the fault to be resolved. Its PC and word are those of the instruction that met the fault, although the
discard has put the PC back (R205, log 119). -/
def State.pageFault (s : State) (t : ThreadId) (addr : Word) (w : BitVec 32) : State :=
  let pc := (s.ctx t).back.pc
  s.discard t w (fun s =>
    let c := s.ctx t
    let o := s.originOf t
    let h0 := faultWord .pageFault 0 t.slot c.rid.toNat c.gen c.reachcnt o.rank true
    (s.onCtx t Ctx.pageStop).deliverFault o h0 pc addr (w.setWidth 64) (some (.thread t c.serial)))

/-! ## The effect buffer (R188 to R191) -/

/-- A closing effect (R188). -/
def Eff.closing : Eff → Bool
  | .atom _ _ _ _ _ => true
  | .join _ _ => true
  | .migr _ => true
  | _ => false

/-- An effect that ends with a completion (R111): hauls, remote operations, `wclose`, `cjoin` and the graph operations
of R392. -/
def Eff.completes : Eff → Bool
  | .haul _ _ _ _ => true
  | .rget _ _ => true
  | .rput _ _ => true
  | .ratom _ _ => true
  | .cjoin _ => true
  | .wclose _ => true
  | .graph _ => true
  | _ => false

/-- An effect of the joint queue (R348). -/
def Eff.joint : Eff → Bool
  | .gang _ => true
  | .jzero _ => true
  | .jdrain _ _ => true
  | .jdrainO _ _ _ => true
  | _ => false

/-- A closing effect with a result (R127, R192). -/
def Eff.result : Eff → Bool
  | .atom _ _ _ _ d => d.toNat ≤ 9
  | .join _ d => d.toNat ≤ 9
  | _ => false

/-- Whether a reach may take another effect (R189, R191). -/
def Ctx.room (c : Ctx) : Except Stop Unit :=
  if c.buf.any (fun b => b.eff.closing) then .error ⟨.reachIllegal, none⟩
  else if 32 ≤ c.buf.length then .error ⟨.reachEffects, none⟩
  else .ok ()

/-- Sends the translation probes of a buffered effect (R190). -/
def State.askProbes (s : State) (t : ThreadId) (n : Nat) : State :=
  let c := s.ctx t
  let ps := match c.buf[n]? with | some b => b.probes | none => []
  (List.range ps.length).foldl (fun s i =>
    match ps[i]? with
    | some p => s.post .none (.translation (stationOf t.core) ⟨.probe t c.epoch n i, c.sid, p.va, p.acc⟩)
    | none => s) s

/-- Adds an effect to the reach (R54, R189), and sends its translation probes (R190). -/
def State.addEff (s : State) (t : ThreadId) (e : Eff) (ps : List Probe := []) : Except Stop State :=
  let c := s.ctx t
  match c.room with
  | .error x => .error x
  | .ok _ => .ok ((s.setCtx t { c with buf := c.buf ++ [⟨e, ps⟩] }).askProbes t c.buf.length)

/-! ## Running one instruction (R44, R184) -/

/-- The state in which an instruction that passed its checks acts: counted (R184), the PC past it, the next issue six
cycles on (R120). -/
def Ctx.begin (c : Ctx) (cycle : Nat) : Ctx :=
  { c with execs := c.execs + 1, pc := nextPc c.pc, nextIssue := cycle + 6, yieldFor := [] }

/-- Runs a thread's instruction for the current thread: checks 2 and 3 of R44, the limit of R184, the guard, and then
what the instruction does; a stop of it is an ending fault that leaves no other effect. -/
def threadInstr (i : Instr) (tag : BitVec 4) (body : State → ThreadId → Except Stop State) (s : State) :
    Host.Outcome State Fault Refusal :=
  let t := s.curT
  let c := s.ctx t
  if c.status ≠ .ready then .next s
  else if !WellFormed.portsOk i then .next (s.stop t ⟨.illegalPort, none⟩ (encode i))
  else if !WellFormed.rangesOk i then .next (s.stop t ⟨.illegalForm, none⟩ (encode i))
  else if 128 ≤ c.execs then .next (s.stop t ⟨.reachLong, none⟩ (encode i))
  else
    let s1 := s.setCtx t (c.begin s.cycle)
    if !c.guard tag then .next s1
    else
      match body s1 t with
      | .ok s2 => .next s2
      | .error x => .next (s.stop t x (encode i))

/-- Runs an instruction that only reads ports and changes its own context (R159). -/
def scalarInstr (i : Instr) (tag : BitVec 4) (f : State → ThreadId → Ctx → Except Stop Ctx) (s : State) :
    Host.Outcome State Fault Refusal :=
  threadInstr i tag (fun s t =>
    match f s t (s.ctx t) with
    | .ok c => .ok (s.setCtx t c)
    | .error e => .error e) s

/-- The word of the instruction before the PC, for faults that arise after it was issued (R205). -/
def State.lastWord (s : State) (t : ThreadId) : BitVec 32 :=
  let c := s.ctx t
  ((s.codeWord c.sid c.back.pc)).getD 0

/-! ## Commit (R183, R193) -/

/-- Whether every probe of the reach has answered (R190). -/
def Ctx.answered (c : Ctx) : Bool := c.buf.all (fun b => b.probes.all (fun p => p.ans ≠ .waiting))

/-- The first probe answer that is a fault, in the order of the buffer: its cause and the address as issued. The fault barge names
the boundary that meets it (R190, R205, log 119). -/
def Ctx.badProbe (c : Ctx) : Option (Cause × Word) :=
  (c.buf.flatMap (fun b => b.probes)).findSome? (fun p =>
    match p.ans with
    | .bad x => some (x, fld 2 62 ||| BitVec.ofNat 64 p.va)
    | _ => none)

/-- Whether the joint queue of R348 has room for n more, the committed entries on their way to it counted; no bound where a core has no
queue. -/
def State.jointRoom (s : State) (c : CoreId) (n : Nat) : Bool :=
  match c with
  | .hc d h m =>
    (tget (s.joint ⟨d, h⟩).queues [] m).length + ((s.core c).relq.filter (fun r => r.buf.eff.joint)).length + n ≤ 16
  | .ec _ _ => true

/-- The waits of R183 for room: a closing effect's result hold (R127), the completion debt (R111), the joint queue (R348). -/
def State.commitRoom (s : State) (t : ThreadId) : Bool :=
  let c := s.ctx t
  let nj := (c.buf.filter (fun b => b.eff.joint)).length
  (!c.buf.any (fun b => b.eff.closing) || c.outst + c.hold.length < 4) &&
  (!c.buf.any (fun b => b.eff.completes) || (s.core t.core).owed < 2592) &&
  (nj = 0 || s.jointRoom t.core nj)

/-- The commit of a core CSR write (R158): NRETRY (R437) or RTIMEOUT (R438), kept by SID on an edge core (R152). -/
def Core.csrw (k : Core) (key idx : Nat) (v : Word) : Core :=
  if idx = 0x050 then { k with nretry := tput k.nretry key v.toNat }
  else { k with rtimeout := tput k.rtimeout key v.toNat }

/-- The key of a core's NRETRY and RTIMEOUT: one pair on a handler core, one a SID on an edge core (R152). -/
def CoreId.csrKey (c : CoreId) (sid : Nat) : Nat := if c.isHandler then 0 else sid

/-- What becomes permanent at the core itself when an effect commits (R193): a deque entry visible (R138), a counter
set (R145), a core CSR written (R158), a window OPEN (R424). -/
def State.commitLocal (s : State) (t : ThreadId) (e : Eff) : State :=
  let k := s.core t.core
  let c := s.ctx t
  match e with
  | .spawn _ => s.setCore t.core { k with deque := k.deque.map (fun e => if e.by_ = some t.slot then { e with by_ := none } else e) }
  | .cset i op =>
    let x := tget k.counters {} i
    let y : Counter :=
      { target := bitsN op 31 12, barrier := bitsN op 8 8 = 1, action := bitsN op 7 6, arg := op.extractLsb' 32 32,
        origin := some (s.originOf t), phase := bitsN op 9 9, count := x.count, next := x.next, by_ := none }
    s.setCore t.core { k with counters := tput k.counters i y }
  | .csrw i v => s.setCore t.core (k.csrw (t.core.csrKey c.sid) i v)
  | .wopen w =>
    let x := tget s.wins {} (c.sid, w.id)
    let n (i : Nat) : Nat := (w.args.getD i 0).toNat
    let y : Win := { x with st := 2, base := n 0, len := n 1, rights := n 2, key := n 3, origin := some w.origin }
    { s with wins := tput s.wins (c.sid, w.id) y }
  | _ => s

/-- Effects that are done at the commit itself and are not released (R247). -/
def Eff.local_ : Eff → Bool
  | .spawn _ => true
  | .cset _ _ => true
  | .csrw _ _ => true
  | .migr _ => true
  | .wopen _ => true
  | _ => false

/-- The end of a boundary once its effects have left the core. `reach` opens the next reach (R183); `done` frees the
context, its duties to be discharged when its effects are performed (R121, R276); `migr` waits to ship (R244). -/
def State.boundaryEnd (s : State) (t : ThreadId) (b : Boundary) : State :=
  let c := s.ctx t
  match b with
  | .reach id =>
    let c := { c with status := .ready, reachcnt := 0, shield := false, poisoned := false, gen := c.gen + 1,
                      rid := id, execs := 1,
                      snap := ⟨c.regs, c.pw, c.fstat, 0, c.reachlim, c.pc⟩ }
    (s.setCtx t c).newEpoch t
  | .done =>
    let k := s.core t.core
    let s := if c.duties = [] then s
             else s.setCore t.core { k with resumes := k.resumes ++ [(c.serial, c.duties)] }
    s.freeCtx t
  | .migr => s.setCtx t { c with status := .running .ship }

/-- Whether a thread has committed effects that have not left its core. -/
def State.releasing (s : State) (t : ThreadId) : Bool :=
  (s.core t.core).relq.any (fun r => r.serial = (s.ctx t).serial)

/-- The core a `migr` ships to (R135): the home of its address, whose probe has answered where it is global. -/
def State.migrDest (s : State) (t : ThreadId) (a : Word) (ps : List Probe) : CoreId :=
  match ps with
  | p :: _ => match p.ans with
    | .ok l => match l.home with
      | .core c => c
      | _ => t.core
    | _ => t.core
  | [] => if bitsN a 63 62 = 1 then
      (s.redirectTile (s.ctx t).sid ⟨bitsN a 40 40, bitsN a 39 34, bitsN a 33 30⟩).core
    else t.core

/-- The commit (R193): flags join FSTAT (R87), reservations become permanent, completions taken leave the queue and the
debt and free their haul tags (R111, R134, R365), and the other effects go to the release queue in program order. -/
def State.commit (s : State) (t : ThreadId) (b : Boundary) : State :=
  let c := s.ctx t
  let o := s.originOf t
  let s := c.buf.foldl (fun s e => s.commitLocal t e.eff) s
  let k := s.core t.core
  let got := k.comps.filter (fun e => e.by_ = some t.slot)
  let taken := got.length
  let s := got.foldl (fun s e => match e.comp.tag with
    | some n => { s with tags := tput s.tags (t.core, n) .free }
    | none => s) s
  let owed := (c.buf.filter (fun e => e.eff.completes)).length
  let g := match b with | .reach _ => c.gen + 1 | _ => c.gen
  let rel := (c.buf.filter (fun e => !e.eff.local_)).zipIdx.map (fun e => Released.mk (k.nextEff + e.2) t.slot c.serial g c.sid o e.1)
  let k := { k with comps := k.comps.filter (fun e => e.by_ ≠ some t.slot), owed := k.owed + owed - taken,
                    relq := k.relq ++ rel, nextEff := k.nextEff + rel.length }
  let results := (c.buf.filter (fun e => e.eff.result)).length
  let ship := c.buf.findSome? (fun e => match e.eff with | .migr a => some (s.migrDest t a e.probes) | _ => none)
  let c := { c with fstat := c.fstat ||| c.flags, flags := 0, buf := [], outst := c.outst + results,
                    shipTo := ship, status := .running (.release b) }
  let s := (s.setCore t.core k).setCtx t c
  if s.releasing t then s else s.boundaryEnd t b

/-- Whether a boundary's commit may go on: every probe has answered, and if none failed there is room (R183). -/
def State.commitReady (s : State) (t : ThreadId) : Bool :=
  match (s.ctx t).status with
  | .running (.commit _) => (s.ctx t).answered && ((s.ctx t).badProbe.isSome || s.commitRoom t)
  | _ => false

/-- A boundary that may go on does: a failed probe discards the reach (R190), otherwise it commits. Where the probe was answered ACCESS the
thread ends, and the REACHCNT of its fault barge is the attempt's own, not one more (log 154). -/
def State.commitStep (s : State) (t : ThreadId) : State :=
  if s.commitReady t then
    match (s.ctx t).status, (s.ctx t).badProbe with
    | .running (.commit _), some (.pageFault, a) => s.pageFault t a (s.lastWord t)
    | .running (.commit _), some (x, a) => (s.onCtx t Ctx.back).endThread t x a (s.lastWord t)
    | .running (.commit b), none => s.commit t b
    | _, _ => s
  else s

/-- A boundary instruction (R182): the context waits in RUNNING, and commits at once where nothing has to be waited
for. -/
def State.boundary (s : State) (t : ThreadId) (b : Boundary) : State :=
  (s.onCtx t (fun c => { c with status := .running (.commit b) })).commitStep t

end Sys2Proof.Machine
end

