-- ==== Sys2Proof/Machine/Scalar.lean ====
section
/-! DEFINITION. The scalar instructions of a handler thread (R159 to R178): integer arithmetic, immediates, extension,
selection, compares, predicates, branches. -/

namespace Sys2Proof.Machine

open Sys2Proof

/-- What a step answers. -/
abbrev Res := Host.Outcome State Fault Refusal

/-! ## Shared shapes -/

/-- Two sources, one destination, and the flags the operation sets (R159, R161). -/
def aluRR (i : Instr) (t : BitVec 4) (a b d : BitVec 5) (f : Word → Word → Word × BitVec 7) (s : State) : Res :=
  scalarInstr i t (fun s th c => do
    let x ← rd s th a
    let y ← rd s th b
    let r := f x y
    .ok ((c.wr d r.1).flag r.2)) s

/-- One source and an immediate (R163). -/
def aluRK (i : Instr) (t : BitVec 4) (a d : BitVec 5) (f : Word → Word) (s : State) : Res :=
  scalarInstr i t (fun s th c => do
    let x ← rd s th a
    .ok (c.wr d (f x))) s

/-- A compare of two sources: one predicate, and optionally its complement (R170). -/
def cmpRR (i : Instr) (t : BitVec 4) (a b d e : BitVec 5) (f : Word → Word → Bool) (s : State) : Res :=
  scalarInstr i t (fun s th c => do
    let x ← rd s th a
    let y ← rd s th b
    let c := c.setPred d.toNat (f x y)
    .ok (if e = 0 then c else c.setPred e.toNat (!f x y))) s

/-- A compare with an immediate (R171). -/
def cmpRK (i : Instr) (t : BitVec 4) (a d : BitVec 5) (f : Word → Bool) (s : State) : Res :=
  scalarInstr i t (fun s th c => do
    let x ← rd s th a
    .ok (c.setPred d.toNat (f x))) s

/-- Two predicates, either inverted (R172). -/
def predRR (i : Instr) (t : BitVec 4) (a b d inv : BitVec 5) (f : Bool → Bool → Bool) (s : State) : Res :=
  scalarInstr i t (fun _ _ c =>
    .ok (c.setPred d.toNat (f (c.pred a.toNat != inv.getLsbD 0) (c.pred b.toNat != inv.getLsbD 1)))) s

/-- A branch: `f` says from the source whether it is taken (R33, R174). The PC already stands past the branch. -/
def branch (i : Instr) (t : BitVec 4) (a : BitVec 5) (o : BitVec 15) (f : Word → Bool) (s : State) : Res :=
  scalarInstr i t (fun s th c => do
    let x ← rd s th a
    .ok (if f x then { c with pc := branchPc c.back.pc o } else c)) s

/-- Keeps the low n bits, sign- or zero-extended (R54, R166). -/
def sextN (x : Word) (n : Nat) : Word := (x <<< (64 - n)).sshiftRight (64 - n)
def zextN (x : Word) (n : Nat) : Word := (x <<< (64 - n)) >>> (64 - n)

/-- Zero bits above the highest 1 bit of the low n bits (R162). -/
def clzN (x : Word) : Nat → Nat
  | 0 => 0
  | n + 1 => if x.getLsbD n then 0 else 1 + clzN x n

/-- 1 bits among the low n (R162). -/
def popN (x : Word) : Nat → Nat
  | 0 => 0
  | n + 1 => (if x.getLsbD n then 1 else 0) + popN x n

/-! ## Integer register forms (R161, R162) -/

/-- R161: (a + b) mod 2^64. -/
def execAdd (a b d : BitVec 5) (t : BitVec 4) (s : State) : Res :=
  aluRR (.add a b d t) t a b d (fun x y => (x + y, 0)) s

/-- R161: (a − b) mod 2^64. -/
def execSub (a b d : BitVec 5) (t : BitVec 4) (s : State) : Res :=
  aluRR (.sub a b d t) t a b d (fun x y => (x - y, 0)) s

/-- R161: bits 63..0 of the product. -/
def execMul (a b d : BitVec 5) (t : BitVec 4) (s : State) : Res :=
  aluRR (.mul a b d t) t a b d (fun x y => (x * y, 0)) s

/-- R161: bits 127..64 of the signed product. -/
def execMulh (a b d : BitVec 5) (t : BitVec 4) (s : State) : Res :=
  aluRR (.mulh a b d t) t a b d (fun x y => (BitVec.ofInt 64 (x.toInt * y.toInt / 2 ^ 64), 0)) s

/-- R161: bits 127..64 of the unsigned product. -/
def execMulhu (a b d : BitVec 5) (t : BitVec 4) (s : State) : Res :=
  aluRR (.mulhu a b d t) t a b d (fun x y => (BitVec.ofNat 64 (x.toNat * y.toNat / 2 ^ 64), 0)) s

/-- R161, R91: the signed quotient. -/
def execDiv (a b d : BitVec 5) (t : BitVec 4) (s : State) : Res :=
  aluRR (.div a b d t) t a b d (fun x y => divS x y) s

/-- R161, R91: the unsigned quotient. -/
def execDivu (a b d : BitVec 5) (t : BitVec 4) (s : State) : Res :=
  aluRR (.divu a b d t) t a b d (fun x y => divU x y) s

/-- R161, R91: the signed remainder. -/
def execRem (a b d : BitVec 5) (t : BitVec 4) (s : State) : Res :=
  aluRR (.rem a b d t) t a b d (fun x y => remS x y) s

/-- R161, R91: the unsigned remainder. -/
def execRemu (a b d : BitVec 5) (t : BitVec 4) (s : State) : Res :=
  aluRR (.remu a b d t) t a b d (fun x y => remU x y) s

/-- R161: a AND b. -/
def execAnd (a b d : BitVec 5) (t : BitVec 4) (s : State) : Res :=
  aluRR (.and a b d t) t a b d (fun x y => (x &&& y, 0)) s

/-- R161: a OR b. -/
def execOr (a b d : BitVec 5) (t : BitVec 4) (s : State) : Res :=
  aluRR (.or a b d t) t a b d (fun x y => (x ||| y, 0)) s

/-- R161: a XOR b. -/
def execXor (a b d : BitVec 5) (t : BitVec 4) (s : State) : Res :=
  aluRR (.xor a b d t) t a b d (fun x y => (x ^^^ y, 0)) s

/-- R161: a shifted left by bits 5..0 of b. -/
def execShl (a b d : BitVec 5) (t : BitVec 4) (s : State) : Res :=
  aluRR (.shl a b d t) t a b d (fun x y => (x <<< (y.toNat % 64), 0)) s

/-- R161: a shifted right by bits 5..0 of b, zeros filled. -/
def execShr (a b d : BitVec 5) (t : BitVec 4) (s : State) : Res :=
  aluRR (.shr a b d t) t a b d (fun x y => (x >>> (y.toNat % 64), 0)) s

/-- R161: a shifted right by bits 5..0 of b, bit 63 filled. -/
def execSar (a b d : BitVec 5) (t : BitVec 4) (s : State) : Res :=
  aluRR (.sar a b d t) t a b d (fun x y => (x.sshiftRight (y.toNat % 64), 0)) s

/-- R161: a AND NOT b. -/
def execAndn (a b d : BitVec 5) (t : BitVec 4) (s : State) : Res :=
  aluRR (.andn a b d t) t a b d (fun x y => (x &&& ~~~y, 0)) s

/-- R162: the smaller as INT64. -/
def execMin (a b d : BitVec 5) (t : BitVec 4) (s : State) : Res :=
  aluRR (.min a b d t) t a b d (fun x y => (if x.slt y then x else y, 0)) s

/-- R162: the larger as INT64. -/
def execMax (a b d : BitVec 5) (t : BitVec 4) (s : State) : Res :=
  aluRR (.max a b d t) t a b d (fun x y => (if x.slt y then y else x, 0)) s

/-- R162: the smaller, unsigned. -/
def execMinu (a b d : BitVec 5) (t : BitVec 4) (s : State) : Res :=
  aluRR (.minu a b d t) t a b d (fun x y => (if x.ult y then x else y, 0)) s

/-- R162: the larger, unsigned. -/
def execMaxu (a b d : BitVec 5) (t : BitVec 4) (s : State) : Res :=
  aluRR (.maxu a b d t) t a b d (fun x y => (if x.ult y then y else x, 0)) s

/-- R169: the sum clamped to the INT64 range; a clamp sets of. -/
def execAdds (a b d : BitVec 5) (t : BitVec 4) (s : State) : Res :=
  aluRR (.adds a b d t) t a b d (fun x y => clamp64 (x.toInt + y.toInt)) s

/-- R169: the difference clamped to the INT64 range; a clamp sets of. -/
def execSubs (a b d : BitVec 5) (t : BitVec 4) (s : State) : Res :=
  aluRR (.subs a b d t) t a b d (fun x y => clamp64 (x.toInt - y.toInt)) s

/-- R162: leading zero bits; 64 for zero. -/
def execClz (a d : BitVec 5) (t : BitVec 4) (s : State) : Res :=
  aluRK (.clz a d t) t a d (fun x => BitVec.ofNat 64 (clzN x 64)) s

/-- R162: one bits. -/
def execPopc (a d : BitVec 5) (t : BitVec 4) (s : State) : Res :=
  aluRK (.popc a d t) t a d (fun x => BitVec.ofNat 64 (popN x 64)) s

/-! ## Immediate forms (R163 to R166) -/

/-- R163: a plus the sign-extended immediate. -/
def execAddk (a : BitVec 5) (k : BitVec 10) (d : BitVec 5) (t : BitVec 4) (s : State) : Res :=
  aluRK (.addk a k d t) t a d (fun x => x + sext10 k) s

/-- R163: a AND the sign-extended immediate. -/
def execAndk (a : BitVec 5) (k : BitVec 10) (d : BitVec 5) (t : BitVec 4) (s : State) : Res :=
  aluRK (.andk a k d t) t a d (fun x => x &&& sext10 k) s

/-- R163: a OR the sign-extended immediate. -/
def execOrk (a : BitVec 5) (k : BitVec 10) (d : BitVec 5) (t : BitVec 4) (s : State) : Res :=
  aluRK (.ork a k d t) t a d (fun x => x ||| sext10 k) s

/-- R163: a XOR the sign-extended immediate. -/
def execXork (a : BitVec 5) (k : BitVec 10) (d : BitVec 5) (t : BitVec 4) (s : State) : Res :=
  aluRK (.xork a k d t) t a d (fun x => x ^^^ sext10 k) s

/-- R163: a shifted left by 0 to 63. -/
def execShlk (a : BitVec 5) (k : BitVec 10) (d : BitVec 5) (t : BitVec 4) (s : State) : Res :=
  aluRK (.shlk a k d t) t a d (fun x => x <<< k.toNat) s

/-- R163: a shifted right, zeros filled. -/
def execShrk (a : BitVec 5) (k : BitVec 10) (d : BitVec 5) (t : BitVec 4) (s : State) : Res :=
  aluRK (.shrk a k d t) t a d (fun x => x >>> k.toNat) s

/-- R163: a shifted right, bit 63 filled. -/
def execSark (a : BitVec 5) (k : BitVec 10) (d : BitVec 5) (t : BitVec 4) (s : State) : Res :=
  aluRK (.sark a k d t) t a d (fun x => x.sshiftRight k.toNat) s

/-- R164: a · 1,024 plus the zero-extended constant. -/
def execLdkh (a : BitVec 5) (k : BitVec 10) (d : BitVec 5) (t : BitVec 4) (s : State) : Res :=
  aluRK (.ldkh a k d t) t a d (fun x => (x <<< 10) ||| k.setWidth 64) s

/-- R166: the low n bits, sign-extended. -/
def execSext (a : BitVec 5) (k : BitVec 10) (d : BitVec 5) (t : BitVec 4) (s : State) : Res :=
  aluRK (.sext a k d t) t a d (fun x => sextN x k.toNat) s

/-- R166: the low n bits, zero-extended. -/
def execZext (a : BitVec 5) (k : BitVec 10) (d : BitVec 5) (t : BitVec 4) (s : State) : Res :=
  aluRK (.zext a k d t) t a d (fun x => zextN x k.toNat) s

/-- R164: a sign-extended constant. -/
def execLdk (k : BitVec 10) (d : BitVec 5) (t : BitVec 4) (s : State) : Res :=
  scalarInstr (.ldk k d t) t (fun _ _ c => .ok (c.wr d (sext10 k))) s

/-- R165, R151: a literal entry; at or above the count BOUNDS with the index. -/
def execLdl (k : BitVec 10) (d : BitVec 5) (t : BitVec 4) (s : State) : Res :=
  scalarInstr (.ldl k d t) t (fun s _ c =>
    match (s.handler c.sid c.lit).bind (fun h => h.lits[k.toNat]?) with
    | some v => .ok (c.wr d v)
    | none => .error ⟨.bounds, some (k.setWidth 64)⟩) s

/-- R167: one of two sources by a predicate. Only the port chosen has an effect, and both are read (R159). -/
def execSel (a b d e : BitVec 5) (t : BitVec 4) (s : State) : Res :=
  scalarInstr (.sel a b d e t) t (fun s th c => do
    let x ← rd s th a
    let y ← rd s th b
    .ok (c.wr d (if c.pred e.toNat then x else y))) s

/-- R168: multiply-accumulate on exact signed values, wrapped; iovf when outside the INT64 range. -/
def execMac (a b d : BitVec 5) (t : BitVec 4) (s : State) : Res :=
  scalarInstr (.mac a b d t) t (fun s th c => do
    let x ← rd s th a
    let y ← rd s th b
    let r := macS (c.regs.get d.toNat) x y
    .ok ((c.wr d r.1).flag r.2)) s

/-! ## Compares (R170, R171) -/

/-- R170: a = b. -/
def execCmpEq (a b d e : BitVec 5) (t : BitVec 4) (s : State) : Res :=
  cmpRR (.cmpEq a b d e t) t a b d e (fun x y => x == y) s

/-- R170: a ≠ b. -/
def execCmpNe (a b d e : BitVec 5) (t : BitVec 4) (s : State) : Res :=
  cmpRR (.cmpNe a b d e t) t a b d e (fun x y => x != y) s

/-- R170: a < b, signed. -/
def execCmpLt (a b d e : BitVec 5) (t : BitVec 4) (s : State) : Res :=
  cmpRR (.cmpLt a b d e t) t a b d e (fun x y => x.slt y) s

/-- R170: a < b, unsigned. -/
def execCmpLtu (a b d e : BitVec 5) (t : BitVec 4) (s : State) : Res :=
  cmpRR (.cmpLtu a b d e t) t a b d e (fun x y => x.ult y) s

/-- R170: a ≤ b, signed. -/
def execCmpLe (a b d e : BitVec 5) (t : BitVec 4) (s : State) : Res :=
  cmpRR (.cmpLe a b d e t) t a b d e (fun x y => x.sle y) s

/-- R170: a ≤ b, unsigned. -/
def execCmpLeu (a b d e : BitVec 5) (t : BitVec 4) (s : State) : Res :=
  cmpRR (.cmpLeu a b d e t) t a b d e (fun x y => x.ule y) s

/-- R171: equality with the sign-extended immediate. -/
def execCmpkEq (a : BitVec 5) (k : BitVec 10) (d : BitVec 5) (t : BitVec 4) (s : State) : Res :=
  cmpRK (.cmpkEq a k d t) t a d (fun x => x == sext10 k) s

/-- R171: signed less-than the sign-extended immediate. -/
def execCmpkLt (a : BitVec 5) (k : BitVec 10) (d : BitVec 5) (t : BitVec 4) (s : State) : Res :=
  cmpRK (.cmpkLt a k d t) t a d (fun x => x.slt (sext10 k)) s

/-! ## Predicates (R172, R173) -/

/-- R172. -/
def execPand (a b d i : BitVec 5) (t : BitVec 4) (s : State) : Res :=
  predRR (.pand a b d i t) t a b d i (fun x y => x && y) s

/-- R172. -/
def execPor (a b d i : BitVec 5) (t : BitVec 4) (s : State) : Res :=
  predRR (.por a b d i t) t a b d i (fun x y => x || y) s

/-- R172. -/
def execPxor (a b d i : BitVec 5) (t : BitVec 4) (s : State) : Res :=
  predRR (.pxor a b d i t) t a b d i (fun x y => x != y) s

/-- R173: a predicate as 0 or 1. -/
def execPget (a d : BitVec 5) (t : BitVec 4) (s : State) : Res :=
  scalarInstr (.pget a d t) t (fun _ _ c => .ok (c.wr d (if c.pred a.toNat then 1 else 0))) s

/-- R173: whether a source is nonzero. -/
def execPset (a d : BitVec 5) (t : BitVec 4) (s : State) : Res :=
  cmpRK (.pset a d t) t a d (fun x => x != 0) s

/-! ## Branches (R174 to R176) -/

/-- R174: always. -/
def execBr (o : BitVec 15) (t : BitVec 4) (s : State) : Res := branch (.br o t) t 10 o (fun _ => true) s

/-- R174: when the source is zero. -/
def execBrz (a : BitVec 5) (o : BitVec 15) (t : BitVec 4) (s : State) : Res :=
  branch (.brz a o t) t a o (fun x => x == 0) s

/-- R174: when the source is nonzero. -/
def execBrnz (a : BitVec 5) (o : BitVec 15) (t : BitVec 4) (s : State) : Res :=
  branch (.brnz a o t) t a o (fun x => x != 0) s

/-- R175: h9 := PC + 4, then a branch. -/
def execJl (o : BitVec 15) (t : BitVec 4) (s : State) : Res :=
  scalarInstr (.jl o t) t (fun _ _ c =>
    .ok { c with regs := c.regs.set 9 c.pc, pc := branchPc c.back.pc o }) s

/-- R175, R37: a jump to a code address. ALIGN for low bits, BOUNDS for high bits or a handler not loaded; the offset
is checked at the fetch. -/
def execJr (a : BitVec 5) (t : BitVec 4) (s : State) : Res :=
  scalarInstr (.jr a t) t (fun s th c => do
    let x ← rd s th a
    if bitsN x 1 0 ≠ 0 then .error ⟨.align, some x⟩
    else if bitsN x 63 28 ≠ 0 || (s.handler c.sid (bitsN x 27 16)).isNone then .error ⟨.bounds, some x⟩
    else .ok { c with pc := x }) s

/-- R176: counts a register down and branches while it is nonzero. -/
def execLoop (a : BitVec 5) (o : BitVec 15) (t : BitVec 4) (s : State) : Res :=
  scalarInstr (.loop a o t) t (fun _ _ c =>
    let v := c.regs.get a.toNat - 1
    let c := c.wr a v
    .ok (if v = 0 then c else { c with pc := branchPc c.back.pc o })) s

/-- R178: nothing but the PC. -/
def execNop (t : BitVec 4) (s : State) : Res := scalarInstr (.nop t) t (fun _ _ c => .ok c) s

end Sys2Proof.Machine
end

