-- ==== Sys2Proof/Machine/System.lean ====
section
/-! DEFINITION. The system instructions of a handler thread: CSRs (R152 to R158), identity and clock (R123, R124),
traps (R179, R180), flags (R181), yield (R122), and the boundaries and waits of a reach (R121, R183, R203, R245, R246). -/

namespace Sys2Proof.Machine

open Sys2Proof

/-! ## CSRs -/

/-- Haul tags of a core in a state (R365, R366). -/
def State.tagCount (s : State) (c : CoreId) (x : TagState) : Nat :=
  let listed := s.tags.filter (fun e => e.1.1 = c)
  let n := (listed.filter (fun e => e.2 = x)).length
  if x = .free then n + (2048 - listed.length) else n

/-- In-core slots in use at a priority. -/
def Core.level (k : Core) (p : Nat) : Nat := (k.basin.filter (fun e => e.prio = p)).length

/-- CSR BASINLVL (R115). On an edge core, where every SID has an overflow basin of its own, `spilled` counts the entries of them all, as many as
the field reads (log 71). -/
def Core.basinLvl (k : Core) : Word :=
  fld (min 8192 (k.spill.length + (k.comps.length - 32))) 48 ||| fld k.lane.length 32 |||
  fld (k.level 3) 24 ||| fld (k.level 2) 16 ||| fld (k.level 1) 8 ||| fld (k.level 0) 0

/-- A core's performed NRETRY and RTIMEOUT (R437, R438). -/
def State.nretry (s : State) (c : CoreId) (sid : Nat) : Nat := tget (s.core c).nretry 6 (c.csrKey sid)
def State.rtimeout (s : State) (c : CoreId) (sid : Nat) : Nat := tget (s.core c).rtimeout 10000 (c.csrKey sid)

/-- The reach's own buffered write of a core CSR, newest first (R157). -/
def Ctx.ownCsr (c : Ctx) (idx : Nat) : Option Word :=
  c.buf.foldl (fun acc b => match b.eff with | .csrw i v => if i = idx then some v else acc | _ => acc) none

/-- The value `csrr` reads (R153 to R157). -/
def csrValue (s : State) (t : ThreadId) (c : Ctx) (idx : Nat) : Word :=
  let k := s.core t.core
  match idx with
  | 0x000 => BitVec.ofNat 64 t.slot
  | 0x001 => coreWord s.node t.core
  | 0x002 => BitVec.ofNat 64 c.sid
  | 0x003 => BitVec.ofNat 64 s.part.caps
  | 0x010 => fld c.reachcnt 0 ||| fld (if c.shield then 1 else 0) 9 ||| fld (if c.poisoned then 1 else 0) 10
  | 0x011 => BitVec.ofNat 64 c.reachlim
  | 0x012 => fld c.gen.toNat 0 ||| fld c.rid.toNat 4 ||| fld c.execs 16 ||| fld c.buf.length 24
  | 0x013 => k.stale.setWidth 64
  | 0x020 => (c.fstat ||| c.flags).setWidth 64
  | 0x030 => k.basinLvl
  | 0x031 => (k.busy ++ k.spills : BitVec 64)
  | 0x040 => if t.core.isHandler then fld (s.tagCount t.core .free) 0 ||| fld (s.tagCount t.core .queued) 16 else 0
  | 0x050 => (c.ownCsr idx).getD (BitVec.ofNat 64 (s.nretry t.core c.sid))
  | 0x051 => (c.ownCsr idx).getD (BitVec.ofNat 64 (s.rtimeout t.core c.sid))
  | 0x060 => if t.core.isHandler then BitVec.ofNat 64 (s.job c.sid).dom else 0
  | _ => 0

/-- The values a CSR takes (R86, R200, R437, R438). -/
def csrRange (idx : Nat) (v : Word) : Bool :=
  match idx with
  | 0x011 => decide (1 ≤ v.toNat) && decide (v.toNat ≤ 255)
  | 0x020 => decide (v.toNat < 128)
  | 0x050 => decide (v.toNat ≤ 15)
  | 0x051 => decide (1250 ≤ v.toNat) && decide (v.toNat ≤ 100000)
  | _ => false

/-- R157: reads a CSR. -/
def execCsrr (k : BitVec 10) (d : BitVec 5) (t : BitVec 4) (s : State) : Res :=
  scalarInstr (.csrr k d t) t (fun s th c => .ok (c.wr d (csrValue s th c k.toNat))) s

/-- R158: writes a CSR: REACHLIM and FSTAT at once, NRETRY and RTIMEOUT as an effect. A write of FSTAT replaces the
committed flags and those the reach holds, so that it reads back as written (log 20). -/
def execCsrw (a : BitVec 5) (k : BitVec 10) (t : BitVec 4) (s : State) : Res :=
  threadInstr (.csrw a k t) t (fun s th => do
    let v ← rd s th a
    let c := s.ctx th
    if !csrRange k.toNat v then .error ⟨.illegalForm, none⟩
    else if k.toNat = 0x011 then .ok (s.setCtx th { c with reachlim := v.toNat })
    else if k.toNat = 0x020 then .ok (s.setCtx th { c with fstat := v.extractLsb' 0 7, flags := 0 })
    else s.addEff th (.csrw k.toNat v)) s

/-! ## Identity, clock, flags, traps -/

/-- R123: core-clock cycles since READY was set. -/
def execClk (d : BitVec 5) (t : BitVec 4) (s : State) : Res :=
  scalarInstr (.clk d t) t (fun s _ c => .ok (c.wr d (BitVec.ofNat 64 (s.cycle - s.readyAt.getD 0)))) s

/-- The identity items of R124. -/
def identItem (s : State) (t : ThreadId) (c : Ctx) (sel : Nat) : Word :=
  match sel with
  | 0 => identWord s.node t.core t.slot c.sid
  | 1 => c.ctl
  | 2 => c.src
  | 3 => fld (bitsN c.pc 27 16) 16 ||| fld c.lit 0
  | _ =>
    let hs := (s.job c.sid).hives
    let pos := match t.core.hive? with
      | some h => hs.findIdx (· = h)
      | none => 0xFFFF
    fld hs.length 16 ||| fld pos 0

/-- R124: reads one identity item. -/
def execId (d k : BitVec 5) (t : BitVec 4) (s : State) : Res :=
  scalarInstr (.id d k t) t (fun s th c => .ok (c.wr d (identItem s th c.back k.toNat))) s

/-- R181 in a thread: reads the flags; selector 1 also clears the committed ones and the reach's own. -/
def execStat (k : BitVec 10) (d : BitVec 5) (t : BitVec 4) (s : State) : Res :=
  scalarInstr (.stat k d t) t (fun _ _ c =>
    let v : Word := (c.fstat ||| c.flags).setWidth 64
    let c := c.wr d v
    .ok (if k = 1 then { c with fstat := 0, flags := 0 } else c)) s

/-- R179: TRAP_SW with the code in the address field. -/
def execTrap (k : BitVec 10) (t : BitVec 4) (s : State) : Res :=
  threadInstr (.trap k t) t (fun _ _ => .error ⟨.trapSw, some (k.setWidth 64)⟩) s

/-- R180: TRAP_SW with 0x400 + code. -/
def execBrk (k : BitVec 10) (t : BitVec 4) (s : State) : Res :=
  threadInstr (.brk k t) t (fun _ _ => .error ⟨.trapSw, some (k.setWidth 64 + 0x400)⟩) s

/-- R122: when the instruction retires, the thread begins to wait for the contexts that are READY then. -/
def execYield (t : BitVec 4) (s : State) : Res :=
  scalarInstr (.yield t) t (fun _ _ c => .ok { c with yields := true }) s

/-! ## Boundaries, discards and waits -/

/-- R183: commits the reach and opens the next one. -/
def execReach (k : BitVec 10) (t : BitVec 4) (s : State) : Res :=
  threadInstr (.reach k t) t (fun s th => .ok (s.boundary th (.reach k))) s

/-- R121: commits the reach and ends the thread. -/
def execDone (t : BitVec 4) (s : State) : Res :=
  threadInstr (.done t) t (fun s th => .ok (s.boundary th .done)) s

/-- R203: discards the reach on purpose. -/
def execRetry (t : BitVec 4) (s : State) : Res :=
  threadInstr (.retry t) t (fun s th =>
    .ok (s.discard th (encode (.retry t)) (fun s => s.onCtx th (fun c => { c with status := .ready })))) s

/-- Whether a home lies inside a scope of a thread on a core (R239, R240). -/
def inScope (c : CoreId) (scope : Nat) (h : Home) : Bool :=
  match h with
  | .core d =>
    match scope with
    | 0 => d = c
    | 1 => match c.hive? with
      | some x => d.hive? = some x
      | none => d = c
    | 2 => d.die = c.die
    | _ => true
  | .turso => decide (3 ≤ scope)
  | .lock _ => decide (3 ≤ scope)
  | .away => decide (4 ≤ scope)

/-- Whether nothing a `fence` of this scope waits for is outstanding (R245, R247). -/
def State.fenceClear (s : State) (t : ThreadId) (scope : Nat) : Bool :=
  let k := s.core t.core
  let n := (s.ctx t).serial
  !k.relq.any (fun r => r.serial = n) &&
  !k.outs.any (fun o => o.serial = n && o.cls ≠ .engine && inScope t.core scope o.home)

/-- Whether nothing a `drain` of the thread with this number waits for is outstanding (R246, R247). -/
def Core.drained (k : Core) (serial : Nat) : Bool :=
  !k.relq.any (fun r => r.serial = serial) && !k.outs.any (fun o => o.serial = serial)

/-- Ends a fence or a drain that waits for nothing more. -/
def State.fenceStep (s : State) (t : ThreadId) : State :=
  match (s.ctx t).status with
  | .running (.fence n) => if s.fenceClear t n then s.onCtx t (fun c => { c with status := .ready }) else s
  | .running .drain =>
    if (s.core t.core).drained (s.ctx t).serial then s.onCtx t (fun c => { c with status := .ready }) else s
  | _ => s

/-- R245: waits until the thread's released effects inside a scope are performed. -/
def execFence (k : BitVec 5) (t : BitVec 4) (s : State) : Res :=
  threadInstr (.fence k t) t (fun s th =>
    .ok ((s.onCtx th (fun c => { c with status := .running (.fence k.toNat) })).fenceStep th)) s

/-- R246: waits until every effect the thread released is performed everywhere. -/
def execDrain (t : BitVec 4) (s : State) : Res :=
  threadInstr (.drain t) t (fun s th =>
    .ok ((s.onCtx th (fun c => { c with status := .running .drain })).fenceStep th)) s

end Sys2Proof.Machine
end

