-- ==== Sys2Proof/Machine/Message.lean ====
section
/-! DEFINITION. The instructions that send, wait and count (R107 to R146): `send`, `park`, `waitm`, `getm`, `spawn`,
`join`, `migr`, `count`, `cset`. -/

namespace Sys2Proof.Machine

open Sys2Proof

/-- The registers first … first + n − 1. -/
def Regs.slice (r : Regs) (first n : Nat) : List Word := (List.range n).map (fun i => r.get (first + i))

/-- The priority-free barge a thread makes (R106, R107). -/
def State.makeBarge (s : State) (t : ThreadId) (route ctl : Word) (payload : List Word) : Barge :=
  let c := s.ctx t
  { route := route, ctl := withCount ctl payload.length, payload := payload,
    src := identWord s.node t.core t.slot c.sid, sid := c.sid, origin := some (s.originOf t) }

/-- R107: checks a barge, and then buffers it. A global route is translated first (R103). -/
def execSend (a b d e : BitVec 5) (t : BitVec 4) (s : State) : Res :=
  threadInstr (.send a b d e t) t (fun s th => do
    let r ← rd s th a
    let v ← rd s th b
    let c := s.ctx th
    let x := s.makeBarge th r v (c.regs.slice d.toNat e.toNat)
    let dest ← checkBarge s th.core th.slot c.sid r x.ctl
    match dest with
    | .global va =>
      .ok ((s.onCtx th (fun c => { c with status := .running (.route x va) })).post .none
        (.translation (stationOf th.core) ⟨.route th c.epoch, c.sid, va, .route⟩))
    | _ => s.addEff th (.send x dest)) s

/-- R131: waits for n deposits; only with an empty buffer. -/
def execPark (k : BitVec 10) (t : BitVec 4) (s : State) : Res :=
  scalarInstr (.park k t) t (fun _ _ c =>
    if c.buf ≠ [] then .error ⟨.reachIllegal, none⟩ else .ok { c with status := .parkWait k.toNat }) s

/-- R133: waits while the completion queue is empty; only with an empty buffer. -/
def execWaitm (t : BitVec 4) (s : State) : Res :=
  scalarInstr (.waitm t) t (fun s th c =>
    if c.buf ≠ [] then .error ⟨.reachIllegal, none⟩
    else if (s.core th.core).comps ≠ [] then .ok c
    else .ok { c with status := .mwait }) s

/-- Reserves the oldest unreserved completion for a slot (R134). -/
def reserveComp (slot : Nat) : List CompEntry → Option (Completion × List CompEntry)
  | [] => none
  | e :: r =>
    if e.by_ = none then some (e.comp, { e with by_ := some slot } :: r)
    else (reserveComp slot r).map (fun x => (x.1, e :: x.2))

/-- R134: takes a completion, or clears the predicate. A poisoned entry is consumed as R465 says. -/
def execGetm (d e : BitVec 5) (t : BitVec 4) (s : State) : Res :=
  threadInstr (.getm d e t) t (fun s th =>
    let k := s.core th.core
    match reserveComp th.slot k.comps with
    | none => .ok (s.onCtx th (fun c => c.setPred e.toNat false))
    | some (x, q) =>
      if x.poison then .ok (s.consumePoison th none (encode (.getm d e t)))
      else
        .ok ((s.setCore th.core { k with comps := q }).onCtx th (fun c =>
          { c with regs := c.regs.setMany d.toNat [x.w0, x.w1] }.setPred e.toNat true))) s

/-- R138: reserves the bottom deque entry for a barge, or clears the predicate where there is no room. -/
def execSpawn (a b d e : BitVec 5) (t : BitVec 4) (s : State) : Res :=
  threadInstr (.spawn a b d e t) t (fun s th => do
    let v ← rd s th a
    let c := s.ctx th
    let x := s.makeBarge th (coreWord s.node th.core) v (c.regs.slice b.toNat e.toNat)
    if ctlCont v || !ctlForm s c.sid 0 false x.ctl then .error ⟨.illegalForm, none⟩
    else
      let k := s.core th.core
      if !th.core.isHandler || 64 ≤ k.deque.length then .ok (s.onCtx th (fun c => c.setPred d.toNat false))
      else
        let s ← s.addEff th (.spawn x)
        .ok ((s.setCore th.core { k with deque := k.deque ++ [⟨x, some th.slot⟩] }).onCtx th
          (fun c => c.setPred d.toNat true))) s

/-- R142: a closing effect on a join record. -/
def execJoin (a d : BitVec 5) (t : BitVec 4) (s : State) : Res :=
  threadInstr (.join a d t) t (fun s th => do
    let ea ← rd s th a
    let tg ← checkAddr s th ea 16 16 false
    s.addEff th (.join ea d) (probesOf tg 16 .write)) s

/-- R135: a closing effect and boundary that ships the thread to the home of an address. -/
def execMigr (a : BitVec 5) (t : BitVec 4) (s : State) : Res :=
  threadInstr (.migr a t) t (fun s th => do
    let ea ← rd s th a
    let dest ← addrDest s th.core th.slot (s.ctx th).sid ea
    let s ← s.addEff th (.migr ea)
      (match dest with | .global va => [{ va := va, acc := .route }] | _ => [])
    .ok (s.boundary th .migr)) s

/-- The counter a `count` names (R146): port z is this core. -/
def countDest (s : State) (t : ThreadId) (a : BitVec 5) (r : Word) : Except Stop Dest :=
  let sid := (s.ctx t).sid
  let no (x : Cause) : Except Stop Dest := .error ⟨x, none⟩
  if a = 10 then (if t.core.isHandler then .ok (.core t.core) else no .illegalForm)
  else if bitsN r 63 62 ≠ 0 || bitsN r 30 30 = 1 || !routeForm r then no .illegalForm
  else if nodeAbsent s r then no .unavailable
  else if routeNode r = s.node then
    (match routeCore r with
     | .hc d h m => if s.holds sid ⟨d, h⟩ then .ok (.core (s.redirectCore sid (.hc d h m))) else no .remoteViolation
     | .ec _ _ => no .illegalForm)
  else if (s.job sid).members.contains (routeNode r) then .ok (.node (routeNode r) (routeCore r))
  else no .remoteViolation

/-- R146: buffers one arrival at a counter. -/
def execCount (a : BitVec 5) (k : BitVec 10) (t : BitVec 4) (s : State) : Res :=
  threadInstr (.count a k t) t (fun s th => do
    let r ← rd s th a
    let dest ← countDest s th a r
    s.addEff th (.count dest (k.toNat % 64) (k.toNat / 64 % 2))) s

/-- The operand of `cset` and of a manifest's counter settings (R144). Bits of the argument that its action does not use, among them
those of an offset that is not 64-byte aligned, give ILLEGAL_FORM like the other zero bits (log 122). -/
def csetForm (op : Word) : Bool :=
  bitsN op 11 10 = 0 && bitsN op 31 12 ≠ 0 &&
  (match bitsN op 7 6 with
   | 0 => bitsN op 63 32 = 0
   | 1 => bitsN op 63 50 = 0 && bitsN op 37 32 = 0
   | 2 => bitsN op 63 42 = 0
   | _ => bitsN op 63 36 = 0)

/-- R145: reserves an idle counter and sets it at commit. -/
def execCset (a d : BitVec 5) (t : BitVec 4) (s : State) : Res :=
  threadInstr (.cset a d t) t (fun s th => do
    let op ← rd s th a
    if !csetForm op then .error ⟨.illegalForm, none⟩
    else
      let k := s.core th.core
      let i := bitsN op 5 0
      let x := tget k.counters {} i
      if th.core.isHandler && x.count = 0 && x.next = 0 && x.by_ = none then
        let s ← s.addEff th (.cset i op)
        .ok ((s.setCore th.core { k with counters := tput k.counters i { x with by_ := some th.slot } }).onCtx th
          (fun c => c.setPred d.toNat true))
      else .ok (s.onCtx th (fun c => c.setPred d.toNat false))) s

end Sys2Proof.Machine
end

