-- ==== Sys2Proof/Machine/MemAccess.lean ====
section
/-! DEFINITION. The instructions that access memory (R221 to R234): loads, stores, atomics, queue operations. -/

namespace Sys2Proof.Machine

open Sys2Proof

/-! ## Sending a request -/

/-- The load wait a thread enters now (R126). -/
def Ctx.awaits (c : Ctx) : Await := ⟨c.epoch, c.gen⟩

/-- The load wait a reply or a reservation is for: that of the attempt that asked (R126, R270). -/
def Ctx.awaiting (c : Ctx) (w : Await) : Option LoadWait :=
  if c.status = .loadWait && c.epoch = w.epoch then c.loadWait else none

/-- Whether a job's barges are dispatched and its threads begin remote accesses: it runs, and no JOB_END has come (R25, R26). -/
def State.dispatches (s : State) (sid : Nat) : Bool := (s.job sid).state = .running

/-- The channel of a thread's accesses to a home (R241). -/
def accessChan (t : ThreadId) (serial : Nat) (h : Home) : Chan := .access t.core serial h

/-- Sends an attempt of an operation at a window (R433); within this device, too, those of a core keep their order but for the
adaptive ones (R415, R417). -/
def State.winAttempt (s : State) (r : WinReq) : State :=
  if bitsN r.addr 61 41 = s.node then s.post (if r.bulk then .none else .access r.core 0 .away) (.windowPieceCheck r)
  else s.toNet (bitsN r.addr 61 41) (some r.sid) (.window r)

/-- Sends one operation to a window (R426, R433) for the thread with this number (0: none), at an offset of it: the first attempt, kept until it is answered, under these
limits NRETRY and RTIMEOUT. -/
def State.windowAsk (s : State) (c : CoreId) (slot sid : Nat) (ask : Asker) (addr : Word) (off key : Nat) (op : MemOp)
    (o : Origin) (lim : Nat × Nat) (serial : Nat := 0) : State :=
  let n := tget s.wseq 0 (c, slot) % 65536
  let r : WinReq := { node := s.node, core := c, slot := slot, seq := n, attempt := 0, asker := ask, sid := sid,
                      addr := addr, key := key, op := op, ident := identWord s.node c 0 sid, off := off }
  let a : WinAttempt := { num := s.nextSerial, req := r, nretry := lim.1, rtimeout := lim.2, due := s.cycle + lim.2, origin := o, serial := serial }
  { s with wseq := tput s.wseq (c, slot) (n + 1), wreqs := tput s.wreqs (c, slot, n) a,
           nextSerial := s.nextSerial + 1 }.winAttempt r

/-- The same for an access of a thread or an element, under the limits of its core. -/
def State.windowSend (s : State) (c : CoreId) (slot sid : Nat) (ask : Asker) (addr : Word) (op : MemOp) (o : Origin) (serial : Nat := 0) :
    State :=
  s.windowAsk c slot sid ask addr (bitsN addr 32 0) 0 op o (s.nretry c sid, s.rtimeout c sid) serial

/-- Sends a load of one piece (R222): to its home, through the station, or to the window, where after a JOB_END no new access begins
(R26). -/
def State.sendLoad (s : State) (t : ThreadId) (i : Nat) (a : Word) (len : Nat) (tg : Target) : State :=
  let c := s.ctx t
  let ask := Asker.load t c.awaits i
  match tg with
  | .here l => s.post (accessChan t c.serial l.home) (.loadPerform { asker := ask, sid := c.sid, loc := l, addr := a, op := .load len })
  | .global va => s.post .none (.translation (stationOf t.core) ⟨ask, c.sid, va, .read⟩)
  | .window w => if s.dispatches c.sid then s.windowSend t.core t.slot c.sid ask w (.load len) (s.originOf t) c.serial else s

/-- The context starts a load wait for these pieces (R126). -/
def Ctx.await (c : Ctx) (k : LoadKind) (a : Word) (ps : List (Word × Nat)) : Ctx :=
  { c with status := .loadWait, loadWait := some { kind := k, addr := a, pieces := ps.map (fun p => ⟨p.1, p.2, none⟩) } }

/-! ## Loads (R223 to R225) -/

/-- The bytes of a scalar load written to its port, zero-extended (R223). -/
def Ctx.loaded (c : Ctx) (d : BitVec 5) (bs : List Byte) : Ctx := c.wr d (BitVec.ofNat 64 (natOf bs))

/-- A load of n bytes at an effective address (R223): a local one completes in the pipeline, another starts a load wait
(R222). A poisoned value discards the reach (R201). -/
def loadAt (w : BitVec 32) (d : BitVec 5) (n : Nat) (ea : Word) (s : State) (t : ThreadId) : Except Stop State := do
  let tg ← checkAddr s t ea n n true
  match tg with
  | .here l =>
    if bitsN ea 63 62 = 0 then
      if s.poisoned l n then .ok (s.consumePoison t (some ea) w)
      else .ok (s.onCtx t (fun c => c.loaded d (forward s t ea (s.bytes l n))))
    else .ok ((s.onCtx t (fun c => c.await (.scalar d n) ea [(ea, n)])).sendLoad t 0 ea n tg)
  | _ => .ok ((s.onCtx t (fun c => c.await (.scalar d n) ea [(ea, n)])).sendLoad t 0 ea n tg)

/-- A K-form load (R223). -/
def loadK (i : Instr) (t : BitVec 4) (a : BitVec 5) (k : BitVec 10) (d : BitVec 5) (n : Nat) (s : State) : Res :=
  threadInstr i t (fun s th => do
    let b ← rd s th a
    loadAt (encode i) d n (b + sext10 k * BitVec.ofNat 64 n) s th) s

/-- R223: a byte. -/
def execLdB (a : BitVec 5) (k : BitVec 10) (d : BitVec 5) (t : BitVec 4) (s : State) : Res :=
  loadK (.ldB a k d t) t a k d 1 s

/-- R223: a halfword. -/
def execLdH (a : BitVec 5) (k : BitVec 10) (d : BitVec 5) (t : BitVec 4) (s : State) : Res :=
  loadK (.ldH a k d t) t a k d 2 s

/-- R223: a word. -/
def execLdW (a : BitVec 5) (k : BitVec 10) (d : BitVec 5) (t : BitVec 4) (s : State) : Res :=
  loadK (.ldW a k d t) t a k d 4 s

/-- R223: a doubleword. -/
def execLdD (a : BitVec 5) (k : BitVec 10) (d : BitVec 5) (t : BitVec 4) (s : State) : Res :=
  loadK (.ldD a k d t) t a k d 8 s

/-- R224: a load at the sum of two registers. -/
def execLdx (a b d e : BitVec 5) (t : BitVec 4) (s : State) : Res :=
  threadInstr (.ldx a b d e t) t (fun s th => do
    let x ← rd s th a
    let y ← rd s th b
    loadAt (encode (.ldx a b d e t)) d (2 ^ e.toNat) (x + y) s th) s

/-- The checks of every doubleword of a range, lowest first (R225). -/
def checkRange (s : State) (t : ThreadId) (ea : Word) (n : Nat) : Except Stop (List Target) :=
  (List.range n).mapM (fun i => checkAddr s t (ea + BitVec.ofNat 64 (8 * i)) 8 8 true)

/-- R225: 1 to 4 doublewords into consecutive registers, written in one step. -/
def execLdV (a d e : BitVec 5) (t : BitVec 4) (s : State) : Res :=
  threadInstr (.ldV a d e t) t (fun s th => do
    let ea ← rd s th a
    let n := e.toNat
    let tgs ← checkRange s th ea n
    if bitsN ea 63 62 = 0 then
      match tgs.head? with
      | some (.here l) =>
        if s.poisoned l (8 * n) then .ok (s.consumePoison th (some ea) (encode (.ldV a d e t)))
        else
          let bs := forward s th ea (s.bytes l (8 * n))
          .ok (s.onCtx th (fun c =>
            { c with regs := c.regs.setMany d.toNat ((List.range n).map (fun i => BitVec.ofNat 64 (recN bs (8 * i) 8))) }))
      | _ => .ok s
    else
      let bl := blocks32 ea.toNat (8 * n)
      let s := s.onCtx th (fun c => c.await (.vec d.toNat n) ea (bl.map (fun b => (ea + BitVec.ofNat 64 b.1, b.2))))
      .ok ((List.range bl.length).foldl (fun s i =>
        match bl[i]? with
        | some b => (match tgs[b.1 / 8]? with
          | some tg => s.sendLoad th i (ea + BitVec.ofNat 64 b.1) b.2 tg
          | none => s)
        | none => s) s)) s

/-! ## Stores (R223, R224, R226) -/

/-- Buffers a store of bytes (R223, R190). -/
def storeAt (ea : Word) (bs : List Byte) (s : State) (t : ThreadId) : Except Stop State := do
  let tg ← checkAddr s t ea bs.length bs.length true
  s.addEff t (.store ea bs) (probesOf tg bs.length .write)

/-- A K-form store (R223). -/
def storeK (i : Instr) (t : BitVec 4) (a : BitVec 5) (k : BitVec 10) (d : BitVec 5) (n : Nat) (s : State) : Res :=
  threadInstr i t (fun s th => do
    let b ← rd s th a
    let v ← rd s th d
    storeAt (b + sext10 k * BitVec.ofNat 64 n) (bytesOf n v.toNat) s th) s

/-- R223: a byte. -/
def execStB (a : BitVec 5) (k : BitVec 10) (x : BitVec 5) (t : BitVec 4) (s : State) : Res :=
  storeK (.stB a k x t) t a k x 1 s

/-- R223: a halfword. -/
def execStH (a : BitVec 5) (k : BitVec 10) (x : BitVec 5) (t : BitVec 4) (s : State) : Res :=
  storeK (.stH a k x t) t a k x 2 s

/-- R223: a word. -/
def execStW (a : BitVec 5) (k : BitVec 10) (x : BitVec 5) (t : BitVec 4) (s : State) : Res :=
  storeK (.stW a k x t) t a k x 4 s

/-- R223: a doubleword. -/
def execStD (a : BitVec 5) (k : BitVec 10) (x : BitVec 5) (t : BitVec 4) (s : State) : Res :=
  storeK (.stD a k x t) t a k x 8 s

/-- R224: a store at the sum of two registers. -/
def execStx (a b x e : BitVec 5) (t : BitVec 4) (s : State) : Res :=
  threadInstr (.stx a b x e t) t (fun s th => do
    let p ← rd s th a
    let q ← rd s th b
    let v ← rd s th x
    storeAt (p + q) (bytesOf (2 ^ e.toNat) v.toNat) s th) s

/-- R226: 1 to 4 consecutive registers as one effect. -/
def execStV (a x e : BitVec 5) (t : BitVec 4) (s : State) : Res :=
  threadInstr (.stV a x e t) t (fun s th => do
    let ea ← rd s th a
    let tgs ← checkRange s th ea e.toNat
    let bs := ((s.ctx th).regs.slice x.toNat e.toNat).flatMap (fun v => bytesOf 8 v.toNat)
    s.addEff th (.store ea bs) (match tgs.head? with | some tg => probesOf tg (8 * e.toNat) .write | none => [])) s

/-! ## Atomics (R227) -/

/-- Buffers an atomic: a closing effect with its operands read now. -/
def atomic (i : Instr) (t : BitVec 4) (op : AtomOp) (n : Nat) (a b c d : BitVec 5) (s : State) : Res :=
  threadInstr i t (fun s th => do
    let ea ← rd s th a
    let x ← rd s th b
    let y ← rd s th c
    let tg ← checkAddr s th ea n n false
    s.addEff th (.atom op ea x y d) (probesOf tg n .write)) s

/-- R227. -/
def execAtomAdd (a b d : BitVec 5) (t : BitVec 4) (s : State) : Res :=
  atomic (.atomAdd a b d t) t .add 8 a b 10 d s

/-- R227. -/
def execAtomAnd (a b d : BitVec 5) (t : BitVec 4) (s : State) : Res :=
  atomic (.atomAnd a b d t) t .and 8 a b 10 d s

/-- R227. -/
def execAtomOr (a b d : BitVec 5) (t : BitVec 4) (s : State) : Res :=
  atomic (.atomOr a b d t) t .or 8 a b 10 d s

/-- R227. -/
def execAtomXor (a b d : BitVec 5) (t : BitVec 4) (s : State) : Res :=
  atomic (.atomXor a b d t) t .xor 8 a b 10 d s

/-- R227. -/
def execAtomMax (a b d : BitVec 5) (t : BitVec 4) (s : State) : Res :=
  atomic (.atomMax a b d t) t .max 8 a b 10 d s

/-- R227. -/
def execAtomMin (a b d : BitVec 5) (t : BitVec 4) (s : State) : Res :=
  atomic (.atomMin a b d t) t .min 8 a b 10 d s

/-- R227. -/
def execAtomXchg (a b d : BitVec 5) (t : BitVec 4) (s : State) : Res :=
  atomic (.atomXchg a b d t) t .xchg 8 a b 10 d s

/-- R227. -/
def execAtomFadd (a b d : BitVec 5) (t : BitVec 4) (s : State) : Res :=
  atomic (.atomFadd a b d t) t .fadd 4 a b 10 d s

/-- R227. -/
def execAtomBadd (a b d : BitVec 5) (t : BitVec 4) (s : State) : Res :=
  atomic (.atomBadd a b d t) t .badd 8 a b 10 d s

/-- R227: compare-and-swap. -/
def execAtomCas (a b d c : BitVec 5) (t : BitVec 4) (s : State) : Res :=
  atomic (.atomCas a b d c t) t .cas 8 a b c d s

/-! ## Queues (R229 to R234) -/

/-- Whether a queue with this many entries meets R229: in the one memory it starts in, or in one 256-byte granule of
HBM; on an edge core the accesses of R217 reach no further than the block it starts in. -/
inductive RingFit where
  | fits | form | bounds | access
  deriving DecidableEq, Repr

/-- How a ring of n entries lies (R229, R230). -/
def ringFit (l : Loc) (n : Nat) : RingFit :=
  let len := 32 + 8 * n
  match l with
  | .hbm p => if p % 256 + len ≤ 256 then .fits else .form
  | .comp _ => .form
  | .tile t off => if off + len ≤ tileSize t.tile then .fits else .bounds
  | .edge _ _ off => if 65536 < off + len then .bounds else if off % 4096 + len ≤ 4096 then .fits else .access

/-- A queue's header (R229). -/
structure QHead where
  cap : Nat
  zero : Nat
  head : Nat
  tail : Nat
  pushres : Nat
  popres : Nat
  deriving DecidableEq, Repr

/-- Reads a header. -/
def State.qhead (s : State) (l : Loc) : QHead :=
  let b := s.bytes l 32
  ⟨recN b 0 4, recN b 4 4, recN b 8 8, recN b 16 8, recN b 24 4, recN b 28 4⟩

/-- Entries between tail and head, modulo 2^64 (R229). -/
def QHead.used (q : QHead) : Nat := (q.tail + 2 ^ 64 - q.head) % 2 ^ 64

/-- The checks of R230: none where the header is consistent. -/
def qcheck (l : Loc) (q : QHead) : Option Cause :=
  if q.cap = 0 || 2 ^ 24 < q.cap || q.zero ≠ 0 || q.cap < q.used + q.pushres || q.used < q.popres || 1 < q.popres then
    some .illegalForm
  else
    match ringFit l q.cap with
    | .fits => none
    | .form => some .illegalForm
    | .bounds => some .bounds
    | .access => some .access

/-- The edge core that holds an HBM byte's line, and the line (R220). -/
def hbmLine (p : Nat) : (Nat × Nat) × Nat := ((p / 2 ^ 38, p / 256 % 128), p / 64)

/-- Recalls the companion's copies of the lines an access touches (R220); a load only downgrades them, which leaves the
companion free to read its copy on. The companion writes a changed line back before it gives it up. -/
def State.recall (s : State) (l : Loc) (n : Nat) (load : Bool) : State :=
  match l with
  | .hbm p =>
    if load then s
    else
      (List.range ((p + n - 1) / 64 + 1 - p / 64)).foldl (fun s i =>
        let x := hbmLine ((p / 64 + i) * 64)
        { s with snoop := tput s.snoop x.1 ((tget s.snoop [] x.1).filter (· ≠ x.2)) }) s
  | _ => s

/-- Writes the fields of a header that operations change, which lie in one line. -/
def State.setQhead (s : State) (l : Loc) (q : QHead) : State :=
  (s.recall l 32 false).store (l.plus 8) (bytesOf 8 q.head ++ bytesOf 8 q.tail ++ bytesOf 4 q.pushres ++ bytesOf 4 q.popres)

/-- The answer of a reservation at a queue's home (R231). -/
inductive QAns where
  | ok (v : Word)
  | no
  | poison
  | bad (c : Cause)
  deriving DecidableEq, Repr

/-- Reserves at the home (R230, R231): a push a slot, a pop the oldest entry, whose value it returns. -/
def State.qreserve (s : State) (l : Loc) (push : Bool) : State × QAns :=
  let q := s.qhead l
  if s.poisoned l 32 then (s, .poison)
  else
    match qcheck l q with
    | some c => (s, .bad c)
    | none =>
      if push then
        if q.used + q.pushres < q.cap then (s.setQhead l { q with pushres := q.pushres + 1 }, .ok 0) else (s, .no)
      else if q.popres = 0 && 0 < q.used then
        let e := l.plus (32 + 8 * (q.head % q.cap))
        if s.poisoned e 8 then (s, .poison)
        else (s.setQhead l { q with popres := 1 }, .ok (BitVec.ofNat 64 (natOf (s.bytes e 8))))
      else (s, .no)

/-- What a reservation that has been given becomes (R232, R233): an effect, with the translation probe of a global address (R190);
its settle goes where the last answer of that probe says (R279, log 121). -/
def LoadKind.queueEff (k : LoadKind) (ea : Word) (l : Loc) : Option (Eff × List Probe) :=
  let ps := if bitsN ea 63 62 = 2 then probesOf (.global (bitsN ea 56 0)) 32 .queue else []
  match k with
  | .push _ v sc => some (.push ea v sc l, ps)
  | .pop _ _ _ => some (.pop ea l, ps)
  | _ => none

/-- What a thread does with the answer of its reservation (R232, R233): the predicate, the value, the effect. A reach that has no
room for the effect faults then, and its reservation is given back (R189, R191, R196). `go` is how the context goes on. -/
def State.qanswer (s : State) (t : ThreadId) (k : LoadKind) (ea : Word) (l : Loc) (w : BitVec 32) (a : QAns)
    (go : Ctx → Ctx) : State :=
  let pred (c : Ctx) (v : Bool) : Ctx := match k with
    | .push d _ _ => c.setPred d v
    | .pop d _ _ => c.setPred d v
    | _ => c
  match a with
  | .bad c => (s.onCtx t Ctx.back).endThread t c ea w
  | .poison => s.consumePoison t (some ea) w
  | .no => s.onCtx t (fun c => go { pred c false with loadWait := none })
  | .ok v =>
    match k.queueEff ea l with
    | none => s
    | some (e, ps) =>
      match s.addEff t e ps with
      | .ok s => s.onCtx t (fun c =>
          let c := pred c true
          go { (match k with | .pop _ b _ => c.wr b v | _ => c) with loadWait := none })
      | .error x => ((s.undo t ⟨e, ps⟩).onCtx t Ctx.back).stop t x w

/-- Asks the home of a queue for a reservation (R232, R233): at once where the address is local, else in a load wait. -/
def queueOp (i : Instr) (t : BitVec 4) (a : BitVec 5) (kind : State → ThreadId → Except Stop LoadKind) (push : Bool)
    (s : State) : Res :=
  threadInstr i t (fun s th => do
    let ea ← rd s th a
    let k ← kind s th
    let tg ← checkAddr s th ea 32 32 false
    match tg with
    | .here l =>
      if bitsN ea 63 62 = 0 then
        let r := s.qreserve l push
        .ok (r.1.qanswer th k ea l (encode i) r.2 id)
      else
        let s := s.onCtx th (fun c => c.await k ea [(ea, 32)])
        let c := s.ctx th
        .ok (s.post (accessChan th c.serial l.home) (.queueReserve
          { asker := .reserve th c.awaits, sid := c.sid, loc := l, addr := ea,
            op := if push then .pushReserve else .popReserve }))
    | .global va =>
      let s := s.onCtx th (fun c => c.await k ea [(ea, 32)])
      let c := s.ctx th
      .ok (s.post .none (.translation (stationOf th.core) ⟨.reserve th c.awaits, c.sid, va, .queue⟩))
    | .window _ => .error ⟨.addrForm, some ea⟩) s

/-- A `push` (R232). -/
def pushOp (i : Instr) (t : BitVec 4) (scope : Nat) (a b d : BitVec 5) (s : State) : Res :=
  queueOp i t a (fun s th => do
    let v ← rd s th b
    .ok (.push d.toNat v scope)) true s

/-- A `pop` (R233). -/
def popOp (i : Instr) (t : BitVec 4) (scope : Nat) (a d e : BitVec 5) (s : State) : Res :=
  queueOp i t a (fun _ _ => .ok (.pop d.toNat e scope)) false s

/-- R232 with CORE scope. -/
def execPushCore (a b d : BitVec 5) (t : BitVec 4) (s : State) : Res :=
  pushOp (.pushCore a b d t) t 0 a b d s

/-- R232 with HIVE scope. -/
def execPushHive (a b d : BitVec 5) (t : BitVec 4) (s : State) : Res :=
  pushOp (.pushHive a b d t) t 1 a b d s

/-- R232 with DIE scope. -/
def execPushDie (a b d : BitVec 5) (t : BitVec 4) (s : State) : Res :=
  pushOp (.pushDie a b d t) t 2 a b d s

/-- R232 with DEV scope. -/
def execPushDev (a b d : BitVec 5) (t : BitVec 4) (s : State) : Res :=
  pushOp (.pushDev a b d t) t 3 a b d s

/-- R232 with SYS scope. -/
def execPushSys (a b d : BitVec 5) (t : BitVec 4) (s : State) : Res :=
  pushOp (.pushSys a b d t) t 4 a b d s

/-- R233 with CORE scope. -/
def execPopCore (a d e : BitVec 5) (t : BitVec 4) (s : State) : Res :=
  popOp (.popCore a d e t) t 0 a d e s

/-- R233 with HIVE scope. -/
def execPopHive (a d e : BitVec 5) (t : BitVec 4) (s : State) : Res :=
  popOp (.popHive a d e t) t 1 a d e s

/-- R233 with DIE scope. -/
def execPopDie (a d e : BitVec 5) (t : BitVec 4) (s : State) : Res :=
  popOp (.popDie a d e t) t 2 a d e s

/-- R233 with DEV scope. -/
def execPopDev (a d e : BitVec 5) (t : BitVec 4) (s : State) : Res :=
  popOp (.popDev a d e t) t 3 a d e s

/-- R233 with SYS scope. -/
def execPopSys (a d e : BitVec 5) (t : BitVec 4) (s : State) : Res :=
  popOp (.popSys a d e t) t 4 a d e s

end Sys2Proof.Machine
end

