-- ==== Sys2Proof/Machine/BargeEv.lean ====
section
/-! DEFINITION. Barges in motion (R109 to R147): arrival, refusal and resend, promotion, dispatch, deposits,
completions, stealing, counters. -/

namespace Sys2Proof.Machine

open Sys2Proof

/-! ## Basins -/

/-- Whether a job's items still move: it is neither killed nor gone (R473). -/
def State.alive (s : State) (sid : Nat) : Bool :=
  thas s.jobs sid && (match (s.job sid).state with | .killed _ => false | _ => true)

/-- Overflow entries of a core that an item of a SID shares (R111): all of them, or its SID's on an edge core (R114). -/
def Core.spilled (k : Core) (c : CoreId) (sid : Nat) : List Slot :=
  if c.isHandler then k.spill else k.spill.filter (fun e => e.load.sid = sid)

/-- Whether a SID may hold one more in-core slot of priority p (R114): all 32 of them, or 16 on an edge core while a barge of another
SID waits there. -/
def Core.mayHold (k : Core) (c : CoreId) (sid p : Nat) : Bool :=
  k.level p < 32 &&
  (c.isHandler || !(k.basin ++ k.spill).any (fun e => e.load.sid ≠ sid) ||
    (k.basin.filter (fun e => e.prio = p && e.load.sid = sid)).length < 16)

/-- Whether an item of priority p must spill (R111, R114). -/
def Core.mustSpill (k : Core) (c : CoreId) (sid p : Nat) : Bool :=
  (k.spilled c sid).any (fun e => e.prio = p) || !k.mayHold c sid p

/-- Refills a priority from the oldest overflow entry whose SID may hold a slot (R111, R114). -/
def Core.refillOne (k : Core) (c : CoreId) (p : Nat) : Core :=
  let ok (e : Slot) : Bool := e.prio = p && k.mayHold c e.load.sid p
  match k.spill.find? ok with
  | some e => { k with spill := dropFirst ok k.spill, basin := k.basin ++ [e] }
  | none => k

/-- Refills every priority whose slots have been freed (R111). -/
def Core.refill (k : Core) (c : CoreId) : Core :=
  [1, 2, 3].foldl (fun k p => (List.range (32 - k.level p)).foldl (fun k _ => k.refillOne c p) k) k

/-- Gives freed priority-0 slots to fault barges that wait for one (R113). -/
def Core.refill0 (k : Core) : Core :=
  if k.level 0 < 32 then
    match k.faults with
    | e :: r => { k with faults := r, basin := k.basin ++ [e] }
    | [] => k
  else k

/-- A fault barge (R110). -/
def Load.isFault : Load → Bool
  | .barge b => b.fault
  | .packet _ => false

/-- Whether a priority-0 item finds a slot (R110): a fault barge any of the 32, another one of the 24 that are not held; a fault barge
is put in a held slot while one is free. -/
def Core.room0 (k : Core) (l : Load) : Bool :=
  k.level 0 < 32 && (l.isFault || (k.basin.filter (fun e => e.prio = 0 && !e.load.isFault)).length < 24)

/-- How a basin takes an item (R110). -/
inductive Taken where
  | placed (k : Core)
  | busy
  | dropped
  deriving DecidableEq, Repr

/-- A basin takes a barge or packet at its priority: a slot, the overflow basin, or BUSY (R110, R111, R113). A fault barge without a
slot waits for one; no other barge waits in priority 0 (log 123). -/
def Core.take (k : Core) (c : CoreId) (l : Load) (p cycle : Nat) : Taken :=
  let e : Slot := ⟨l, p, cycle⟩
  if p = 0 then
    if k.room0 l then .placed { k with basin := k.basin ++ [e] }
    else if l.isFault then .placed { k with faults := k.faults ++ [e] }
    else .busy
  else if k.mustSpill c l.sid p then
    if (k.spilled c l.sid).length < 5632 then .placed { k with spill := k.spill ++ [e], spills := k.spills + 1 } else .busy
  else .placed { k with basin := k.basin ++ [e] }

/-! ## Deposits (R125 to R129) -/

/-- A deposit's registers fit (R129). -/
def Deposit.fits (d : Deposit) : Bool := d.first ≤ 9 && d.first + d.vals.length ≤ 10

/-- Applies a deposit to a context in a park wait (R126, R129, R194): a stale one is dropped and counted, one that does
not fit raises BAD_DEPOSIT, another writes its registers and counts; the last re-anchors the reach, and the thread is READY in the
next cycle. -/
def State.applyDeposit (s : State) (t : ThreadId) (d : Deposit) : State :=
  let c := s.ctx t
  if d.gen ≠ c.gen then s.onCore t.core (fun k => { k with stale := k.stale + 1 })
  else if !d.fits then s.report (s.originOf t) .badDeposit 0 (d.ctl.getD 0)
  else
    match c.status with
    | .parkWait n =>
      let c := { c with regs := c.regs.setMany d.first d.vals }
      if 1 < n then s.setCtx t { c with status := .parkWait (n - 1) }
      else s.setCtx t ({ c with snap := ⟨c.regs, c.pw, c.fstat, c.flags, c.reachlim, c.pc⟩ }.wake (s.cycle + 1))
    | _ => s

/-- Whether a context is in a park wait, its `park` retired (R120). -/
def State.parked (s : State) (t : ThreadId) : Bool :=
  match (s.ctx t).status with
  | .parkWait _ => decide ((s.ctx t).nextIssue ≤ s.cycle)
  | _ => false

/-- Whether a context takes a deposit that comes now: parked, with nothing held ahead of it. -/
def State.takesDeposit (s : State) (t : ThreadId) : Bool :=
  s.parked t && (s.ctx t).hold = [] && !(s.core t.core).lane.any (fun d => d.slot = t.slot)

/-- A continuation barge at its core (R110, R125, R127): dropped for a FREE context, applied to a waiting one, else
held in the lane while it has room. -/
def State.continuation (s : State) (c : CoreId) (b : Barge) : State × Taken :=
  let d := b.deposit
  let t : ThreadId := ⟨c, d.slot⟩
  let k := s.core c
  if (s.ctx t).status = .free then (s.setCore c { k with stale := k.stale + 1 }, .dropped)
  else if s.takesDeposit t then (s.applyDeposit t d, .dropped)
  else if k.lane.length < 8 then (s, .placed { k with lane := k.lane ++ [d] })
  else (s, .busy)

/-- The placement of an item is acknowledged to its sender (R109, R247). -/
def State.placedAck (s : State) (src : Sender) (it : Item) : State :=
  match src, it.load with
  | .node n, .barge b => s.toNet n (some b.sid) (.placed (senderOf b.src) it.id)
  | .node _, .packet _ => s
  | src, _ => s.settled src it.id

/-- R110: a barge or thread packet arrives at a basin. -/
def execBargeArrival (s : State) : Res :=
  match s.arg with
  | .bargeArrival dst src it =>
    let foreign := match src with | .node _ => true | _ => false
    if foreign && !s.remoteOk dst it.load.sid then
      (match it.load with
       | .barge b => .next (s.toNet (routeNode b.src) (some b.sid) (.reject (senderOf b.src) it.id none))
       | .packet _ => .next s)
    else if !s.alive it.load.sid then .next (s.placedAck src it)
    else
      let r : State × Taken :=
        match it.load with
        | .barge b => if ctlCont b.ctl then s.continuation dst b else (s, (s.core dst).take dst it.load it.prio s.cycle)
        | .packet _ => (s, (s.core dst).take dst it.load it.prio s.cycle)
      (match r.2 with
       | .placed k => .next ((r.1.setCore dst k).placedAck src it)
       | .dropped => .next (r.1.placedAck src it)
       | .busy =>
         let s := r.1.onCore dst (fun k => { k with busy := k.busy + 1 })
         (match src, it.load with
          | .node n, .barge b => .next (s.toNet n (some b.sid) (.busy (senderOf b.src) it.id))
          | _, _ => .next (s.postFirst (.barge src dst it.lane) (.busyReply src it.id))))
  | _ => .next s

/-- The wait before the resend after n refusals (R109): 64 cycles, doubled up to 8,192. -/
def resendWait (n : Nat) : Nat := min 8192 (64 * 2 ^ (n - 1))

/-- R109: a BUSY reply. A barge refused 16 times is dropped with BASIN_FULL; a packet, which has no route word, is never dropped: h2 of
its BASIN_FULL is that of the core it goes to (log 124). -/
def execBusyReply (s : State) : Res :=
  match s.arg with
  | .busyReply src id =>
    (match s.sendRec src id with
     | none => .next s
     | some r =>
       let n := r.tries + 1
       match r.item.load with
       | .barge b =>
         if 16 ≤ n then
           .next ((match b.origin with | some o => s.report o .basinFull 6 b.route | none => s).settled src id)
         else
           .next ((s.setSendRec src id (some { r with tries := n, due := s.cycle + resendWait n })).postFirst
             (.barge src r.dst r.item.lane) (.bargeResend src id) (resendWait n))
       | .packet p =>
         let s := if n = 16 then s.report p.origin .basinFull 6 (coreWord s.node r.dst) else s
         .next ((s.setSendRec src id (some { r with tries := n, due := s.cycle + resendWait n })).postFirst
           (.barge src r.dst r.item.lane) (.bargeResend src id) (resendWait n)))
  | _ => .next s

/-- R109: the back-off wait ends and the item is sent again, ahead of later ones of its channel. -/
def execBargeResend (s : State) : Res :=
  match s.arg with
  | .bargeResend src id =>
    (match s.sendRec src id with
     | none => .next s
     | some r => .next (s.dispatchItem src r.dst r.item true))
  | _ => .next s

/-- R108: another device refuses a barge, or an arrival. A core's send unit reports REMOTE_VIOLATION with the route word; for an
initial barge the lockkeeper takes it as a fault of rank 7. -/
def execRemoteReject (s : State) : Res :=
  match s.arg with
  | .remoteReject src id (some (o, w, unit)) =>
    (match src with
     | .core c => .next ((s.report o .remoteViolation unit w).performed c id)
     | .lock d =>
       .next (s.post .none (.rank7Fault d
         { route := w, ctl := 0, src := lockWord s.node d, sid := o.sid, origin := some o,
           payload := [faultWord .remoteViolation 6 0 0 0 0 0 false, 0, w, lockWord s.node d, 0, 0] }))
     | .node _ => .next s)
  | .remoteReject src id none =>
    (match s.sendRec src id, src with
     | some r, .core _ =>
       let s := match r.item.load with
         | .barge b => (match b.origin with | some o => s.report o .remoteViolation b.unit b.route | none => s)
         | .packet _ => s
       .next (s.settled src id)
     | some r, .lock d =>
       let s := s.settled src id
       (match r.item.load with
        | .barge b =>
          .next (s.post .none (.rank7Fault d { b with
            payload := [faultWord .remoteViolation 6 0 0 0 0 0 false, 0, b.route, lockWord s.node d, 0, 0] }))
        | .packet _ => .next s)
     | _, _ => .next s)
  | _ => .next s

/-- R112: a head that has been at its core for 4,096 cycles moves to the tail of the next higher priority, where its SID may hold a
slot (R114). -/
def execPromotion (s : State) : Res :=
  match s.arg with
  | .promotion c p =>
    let k := s.core c
    (match k.basin.find? (fun e => e.prio = p) with
     | some e =>
       if 2 ≤ p && p ≤ 3 && e.at_ + 4096 ≤ s.cycle && k.mayHold c e.load.sid (p - 1) then
         let k := { k with basin := dropFirst (fun (x : Slot) => x.prio = p) k.basin ++ [{ e with prio := p - 1 }] }
         .next (s.setCore c (k.refill c))
       else .next s
     | none => .next s)
  | _ => .next s

/-- R113: a fault barge not dispatched within 4,096 cycles of its arrival goes to the lockkeeper at rank 7. -/
def execFaultRedelivery (s : State) : Res :=
  match s.arg with
  | .faultRedelivery c =>
    let k := s.core c
    let old (e : Slot) : Bool := e.prio = 0 && e.at_ + 4096 ≤ s.cycle && !s.ctl.down.contains c.die
    (match (k.basin ++ k.faults).find? old with
     | some e =>
       let k := if k.basin.any old then { k with basin := dropFirst old k.basin }.refill0
                else { k with faults := dropFirst old k.faults }
       (match e.load with
        | .barge b => .next ((s.setCore c k).post .none (.rank7Fault c.die b))
        | .packet _ => .next s)
     | none => .next s)
  | _ => .next s

/-! ## Dispatch (R117, R118, R136, R207) -/

/-- The state a thread starts with from a barge (R118). -/
def State.startBarge (s : State) (t : ThreadId) (b : Barge) (prio : Nat) : State :=
  let idx := ctlHandler b.ctl
  let h := (s.handler b.sid idx).getD ⟨0, 0, 0xFFFF, 0, [], []⟩
  let regs := ((({} : Regs).setMany 0 (b.payload.take 6)).set 6 b.ctl).set 7 b.src
  let pc := fld idx 16 ||| fld (4 * h.entry) 0
  let lim := (s.job b.sid).reachlim
  let c : Ctx :=
    { status := .ready, serial := s.nextSerial, epoch := s.nextSerial + 1, regs := regs, pw := 1, pc := pc, lit := idx,
      sid := b.sid, reachlim := lim, snap := ⟨regs, 1, 0, 0, lim, pc⟩, prio := max 1 prio, ctl := b.ctl, src := b.src,
      duties := b.duty.toList, nextIssue := s.cycle }
  { s.setCtx t c with nextSerial := s.nextSerial + 2 }

/-- The state a migrated thread resumes with (R135, R136). -/
def State.startPacket (s : State) (t : ThreadId) (p : Packet) : State :=
  let regs := Regs.ofList p.h
  let c : Ctx :=
    { status := .ready, serial := s.nextSerial, epoch := s.nextSerial + 1, regs := regs, pw := p.pw ||| 1, pc := p.pc,
      lit := p.litBase, sid := p.sid, fstat := p.fstat, reachlim := p.reachlim,
      snap := ⟨regs, p.pw ||| 1, p.fstat, 0, p.reachlim, p.pc⟩, prio := p.prio, ctl := p.ctl, src := p.src,
      duties := p.duties, nextIssue := s.cycle }
  { s.setCtx t c with nextSerial := s.nextSerial + 2 }

/-- The contexts of a core a dispatch may take: FREE, not held for a stolen entry, and on an edge core with their block
zeroed, which takes 128 cycles (R217). -/
def State.freeSlots (s : State) (c : CoreId) : List Nat :=
  (List.range 16).filter (fun i =>
    let x := s.ctx ⟨c, i⟩
    x.status = .free && (s.core c).steal ≠ some i && (c.isHandler || x.freeAt + 128 ≤ s.cycle))

/-- Whether a core keeps its last FREE context for a priority-0 barge (R207); one held for a stolen entry (R139) is not counted. -/
def State.keepsLast (s : State) (c : CoreId) : Bool :=
  (List.range 16).any (fun i => (s.ctx ⟨c, i⟩).status = .suspended) &&
  ((List.range 16).filter (fun i => (s.ctx ⟨c, i⟩).status = .free && (s.core c).steal ≠ some i)).length ≤ 1

/-- An edge core's block of a context, zeroed for its next thread (R217). -/
def State.zeroBlock (s : State) (t : ThreadId) : State :=
  match t.core with
  | .hc _ _ _ => s
  | .ec d e =>
    let k := (Loc.edge d e (4096 * t.slot)).key
    { s with mem := memClear s.mem k (k + 4096), poison := s.poison.filter (fun q => q < k || k + 4096 ≤ q) }

/-- Starts an item in a context. -/
def State.start (s : State) (t : ThreadId) (l : Load) (prio : Nat) : State :=
  let s := s.zeroBlock t
  match l with
  | .barge b => s.startBarge t b prio
  | .packet p => s.startPacket t p

/-- The item a core dispatches next (R117): the head of priority 0, 1, 2 or 3, of a job whose barges are dispatched. -/
def State.nextItem (s : State) (c : CoreId) : Option Slot :=
  let k := s.core c
  let ok (p : Nat) (e : Slot) : Bool := e.prio = p && s.dispatches e.load.sid
  let tops := if s.keepsLast c then [0] else [0, 1, 2, 3]
  tops.findSome? (fun p => k.basin.find? (ok p))

/-- An entry that a core has stolen and not been able to dispatch, with the context held for it (R139): its job's barges are dispatched. -/
def State.stolenItem (s : State) (c : CoreId) : Option (Nat × Barge) :=
  match (s.core c).steal, (s.core c).stolen with
  | some i, some b => if s.dispatches b.sid then some (i, b) else none
  | _, _ => none

/-- R117: a core dispatches one item a cycle into its lowest FREE context: of its basin, or the bottom of its deque. An entry stolen before goes
first, into the context held for it (R139, log 125). -/
def execDispatch (s : State) : Res :=
  match s.arg with
  | .dispatch c =>
    let k := s.core c
    if k.lastDispatch = some s.cycle || s.moving c then .next s else
    (match s.stolenItem c, (s.freeSlots c).head? with
     | some (i, b), _ =>
       .next ((s.setCore c { k with steal := none, stolen := none, lastDispatch := some s.cycle }).start ⟨c, i⟩ (.barge b) 1)
     | none, some i =>
       let t : ThreadId := ⟨c, i⟩
       let k := { k with lastDispatch := some s.cycle }
       (match s.nextItem c with
        | some e =>
          let k := { k with basin := dropFirst (fun x => x = e) k.basin }
          let k := if e.prio = 0 then k.refill0 else k.refill c
          .next ((s.setCore c k).start t e.load e.prio)
        | none =>
          if s.keepsLast c then .next s
          else
            (match (k.deque.filter (fun e => e.by_ = none)).getLast? with
             | some e =>
               if !s.dispatches e.barge.sid then .next s
               else
                 let k := { k with deque := (dropFirst (fun x => x = e) k.deque.reverse).reverse }
                 .next ((s.setCore c k).start t (.barge e.barge) e.barge.prio)
             | none => .next s))
     | none, none => .next s)
  | _ => .next s

/-! ## Deposits and completions -/

/-- R125, R127: the result of a closing effect reaches its context, and is applied, held or dropped; an effect that ends without one
only lets go of its place in the reply hold (R142, R228). -/
def execDeposit (s : State) : Res :=
  match s.arg with
  | .deposit c d =>
    let t : ThreadId := ⟨c, d.slot⟩
    let x := s.ctx t
    let mine : Bool := x.status ≠ .free && (d.serial.isNone || d.serial = some x.serial)
    if !mine then .next (if d.vals = [] then s else s.onCore c (fun k => { k with stale := k.stale + 1 }))
    else
      let s := if d.serial.isSome then s.onCtx t (fun x => { x with outst := x.outst - 1 }) else s
      if d.vals = [] then .next s
      else if s.takesDeposit t then .next (s.applyDeposit t d)
      else .next (s.onCtx t (fun x => { x with hold := x.hold ++ [d] }))
  | _ => .next s

/-- R127: a held deposit applies to a context in a park wait, one a cycle: the reply hold first, then the lane. -/
def execHeldDepositApply (s : State) : Res :=
  match s.arg with
  | .heldDepositApply t =>
    let x := { s.ctx t with heldAt := s.cycle + 1 }
    let k := s.core t.core
    if !s.parked t || s.cycle < (s.ctx t).heldAt then .next s
    else
      (match x.hold, k.lane.find? (fun d => d.slot = t.slot) with
       | d :: r, _ => .next ((s.setCtx t { x with hold := r }).applyDeposit t d)
       | [], some d =>
         .next (((s.setCtx t x).setCore t.core { k with lane := dropFirst (fun d => d.slot = t.slot) k.lane }).applyDeposit t d)
       | [], none => .next s)
  | _ => .next s

/-- R132, R133: a completion enters the queue, and every MWAIT context wakes. -/
def State.addCompletion (s : State) (c : CoreId) (x : Completion) : State :=
  let s := s.onCore c (fun k => { k with comps := k.comps ++ [⟨x, none⟩] })
  c.threads.foldl (fun s t => if (s.ctx t).status = .mwait then s.onCtx t (fun c => c.wake s.cycle) else s) s

/-- R132: a completion arrives. -/
def execCompletionArrival (s : State) : Res :=
  match s.arg with
  | .completionArrival c x => if s.alive x.sid then .next (s.addCompletion c x) else .next s
  | _ => .next s

/-! ## Stealing (R139) -/

/-- The SID that holds a hive (R266). -/
def State.sidOf (s : State) (h : HiveId) : Option Nat :=
  (s.jobs.find? (fun e => e.2.hives.contains h)).map Prod.fst

/-- Whether two handler cores lie in one steal domain of a SID (R22, R140). -/
def State.sameDomain (s : State) (sid : Nat) (a b : CoreId) : Bool :=
  match a, b with
  | .hc d h _, .hc d' h' _ =>
    (s.job sid).hives.contains ⟨d, h⟩ && (s.job sid).hives.contains ⟨d', h'⟩ &&
    (match (s.job sid).dom with | 1 => d = d' && h = h' | 2 => d = d' | _ => true)
  | _, _ => false

/-- R139: an idle core holds a context and asks another core of its domain. -/
def execStealRequest (s : State) : Res :=
  match s.arg with
  | .stealRequest a v =>
    let k := s.core a
    let free := (s.freeSlots a).head?
    (match a.hive?.bind s.sidOf, free with
     | some sid, some i =>
       if !s.moving a && k.basin = [] && k.spill = [] && k.faults = [] && k.deque = [] && k.steal = none && k.stolen = none && !s.keepsLast a && a ≠ v &&
          s.dispatches sid && s.sameDomain sid a v then
         .next ((s.setCore a { k with steal := some i }).post .none (.stealVictim v a))
       else .next s
     | _, _ => .next s)
  | _ => .next s

/-- R139: a victim sends its top committed entry, or answers empty. -/
def execStealVictim (s : State) : Res :=
  match s.arg with
  | .stealVictim v a =>
    let k := s.core v
    (match k.deque.find? (fun e => e.by_ = none) with
     | some e => .next ((s.setCore v { k with deque := dropFirst (fun x => x = e) k.deque }).post .none (.stealAnswer a (some e.barge)))
     | none => .next (s.post .none (.stealAnswer a none)))
  | _ => .next s

/-- R139: the thief dispatches the entry into the held context at priority 1, or releases the context. Where it has dispatched in this cycle
(R117) or its hive is being moved, the entry is its next dispatch, and the context stays held (log 125). -/
def execStealAnswer (s : State) : Res :=
  match s.arg with
  | .stealAnswer a b =>
    let k := s.core a
    let s' := s.setCore a { k with steal := none }
    (match k.steal, b with
     | some i, some b =>
       if !s.dispatches b.sid then .next s'
       else if k.lastDispatch = some s.cycle || s.moving a then .next (s.setCore a { k with stolen := some b })
       else
         .next ((s.setCore a { k with steal := none, lastDispatch := some s.cycle }).start ⟨a, i⟩ (.barge b) 1)
     | _, _ => .next s')
  | _ => .next s

/-! ## Counters (R143 to R147) -/

/-- A fault of a counter, unit 5, at its setter's fault edge (R145, R147); h2 is a free value where no rule names one (log 25). -/
def State.counterFault (s : State) (o : Option Origin) (c : Cause) (h2 : Option Word) : State :=
  match o, h2 with
  | some o, some w => s.report o c 5 w
  | some o, none => s.draw.report o c 5 (Config.freeWord s.free)
  | none, _ => s

/-- A core that route mode 0b11 may choose (R102, R139): in the sender's steal domain, or a hive of the SID on an edge
core's die. Which one is left open, a free value (log 10). -/
def State.anyCore (s : State) (c : CoreId) (sid : Nat) : CoreId :=
  let hs := (s.job sid).hives.filter (fun h =>
    match c with
    | .hc d x _ => (match (s.job sid).dom with | 1 => h = ⟨d, x⟩ | 2 => h.die = d | _ => true)
    | .ec d _ => h.die = d)
  let n := Config.freeNat s.free % (8 * hs.length)
  match hs[n / 8]? with
  | some h => .hc h.die h.hive (n % 8)
  | none => c

/-- Sends a checked barge from a core to its destination (R102, R109). -/
def State.sendTo (s : State) (c : CoreId) (b : Barge) (d : Dest) (rel : Option Nat) : State :=
  match d with
  | .core x => s.sendFrom c x (.barge b) b.prio rel
  | .node _ x => s.sendFrom c x (.barge b) b.prio rel
  | .any => s.draw.sendFrom c (s.anyCore c b.sid) (.barge b) b.prio rel
  | .lock n die =>
    let s := match rel with | some r => s.performed c r | none => s
    if n = s.node then s.post .none (.jobEnd die b.sid none) else s.toNet n (some b.sid) (.jobBarge die b)
  | .global _ => s

/-- The stored barge of a counter (R101, R144). Its bytes are read as they stand: no rule makes a counter a consumer of poison
(R465, log 126). -/
def State.storedBarge (s : State) (c : CoreId) (x : Counter) : Barge :=
  let sid := (x.origin.map Origin.sid).getD 0
  let base : Loc := match c.tile? with | some t => .tile t (x.arg.toNat % 2 ^ 18) | none => .comp 0
  let bs := s.bytes base 64
  let w (i : Nat) : Word := BitVec.ofNat 64 (recN bs (8 * i) 8)
  { route := w 0, ctl := w 1, payload := (List.range (ctlCount (w 1))).map (fun i => w (2 + i)),
    src := identWord s.node c 0 sid, sid := sid, origin := x.origin, unit := 5 }

/-- The action of a counter that fires (R147): nothing, its stored barge, a towpath token (R326), a shard flag (R352).
A global route is translated first; a barge that fails its check is not sent (R145). -/
def State.fire (s : State) (c : CoreId) (x : Counter) : State :=
  match x.action with
  | 1 =>
    let b := s.storedBarge c x
    let off : Word := BitVec.ofNat 64 (x.arg.toNat % 2 ^ 18)
    (match checkBarge s c 0 b.sid b.route b.ctl with
     | .error e => s.counterFault x.origin e.cause (some off)
     | .ok (.global va) =>
       let n := s.nextSerial
       ({ s with nextSerial := n + 1 }.onCore c (fun k => { k with fired := k.fired ++ [Firing.mk n b off] })).post .none
         (.translation (stationOf c) ⟨.counter c n, b.sid, va, .route⟩)
     | .ok d => s.sendTo c b d none)
  | 2 => s.emitTowpath c (x.arg.toNat % 1024)
  | 3 => s.raiseShard c (x.arg.toNat % 16)
  | _ => s

/-- Fires a counter that has reached its target, and turns its phase (R147). One that nothing has set has no target and never fires
(log 127). -/
def State.fireIf (s : State) (c : CoreId) (i : Nat) : State :=
  let x := tget (s.core c).counters {} i
  if x.target ≠ 0 && x.target ≤ x.count then
    let y := { x with phase := 1 - x.phase, count := x.next + (x.count - x.target), next := 0 }
    (s.onCore c (fun k => { k with counters := tput k.counters i y })).fire c x
  else s

/-- An arrival is performed: its core here, or that of another node, is told (R247). -/
def State.arrived (s : State) (a : Arrival) (sid : Option Nat) : State :=
  match a.node, a.src with
  | some n, some c => s.toNet n sid (.ack c a.rel)
  | none, some c => s.performed c a.rel
  | _, none => s

/-- An arrival is counted in the counter's phase, or toward the next one (R147). -/
def State.countArrival (s : State) (c : CoreId) (a : Arrival) : State :=
  let x := tget (s.core c).counters {} a.idx
  let set (s : State) (y : Counter) : State := s.onCore c (fun k => { k with counters := tput k.counters a.idx y })
  let s1 :=
    if !x.barrier || a.par = x.phase then set s { x with count := x.count + 1 }
    else if x.next = x.target then s.counterFault x.origin .barrierOverrun none
    else set s { x with next := x.next + 1 }
  (s1.fireIf c a.idx).arrived a (c.hive?.bind s.sidOf)

/-- R147: an arrival reaches a counter; one from another node is checked again as a barge is (R108). -/
def execCounterArrival (s : State) : Res :=
  match s.arg with
  | .counterArrival c a =>
    (match a.node, a.origin with
     | some n, some o =>
       if s.remoteOk c o.sid then .next (s.countArrival c a)
       else .next (s.toNet n (some o.sid) (.reject (.core o.core) a.rel (some (o, coreWord s.node c, 6))))
     | _, _ => .next (s.countArrival c a))
  | _ => .next s

/-- R147: a counter still at or above its target fires again in the next cycle. -/
def execCounterCarryFire (s : State) : Res :=
  match s.arg with
  | .counterCarryFire c i => .next (s.fireIf c i)
  | _ => .next s

end Sys2Proof.Machine
end

