-- ==== Sys2Proof/Machine/Numbers.lean ====
section
/-! DEFINITION. Number formats and exact arithmetic (R69 to R100): decoding to an exact value, the exact operations, and
the one rounding of each. -/

namespace Sys2Proof.Machine

open Sys2Proof

/-! ## Formats (R70, R71) -/

/-- Which codes of the all-ones exponent are not finite (R70). -/
inductive Special where
  | ieee | nanOnly | none
  deriving DecidableEq, Repr

/-- A float format: widths of exponent and trailing significand, bias, special codes. -/
structure FFmt where
  ew : Nat
  mw : Nat
  bias : Nat
  special : Special
  deriving DecidableEq, Repr

def fp32 : FFmt := ⟨8, 23, 127, .ieee⟩
def fp16 : FFmt := ⟨5, 10, 15, .ieee⟩
def bf16 : FFmt := ⟨8, 7, 127, .ieee⟩
def e4m3 : FFmt := ⟨4, 3, 7, .nanOnly⟩
def e5m2 : FFmt := ⟨5, 2, 15, .ieee⟩
def e2m3 : FFmt := ⟨2, 3, 1, .none⟩
def e3m2 : FFmt := ⟨3, 2, 3, .none⟩
def e2m1 : FFmt := ⟨2, 1, 1, .none⟩

/-- Bits of a format. -/
def FFmt.bits (f : FFmt) : Nat := 1 + f.ew + f.mw

/-- The canonical NaN (R71); a format without one has none to give. -/
def FFmt.nan (f : FFmt) : Nat :=
  match f.special with
  | .ieee => (2 ^ f.ew - 1) * 2 ^ f.mw + 2 ^ (f.mw - 1)
  | .nanOnly => 2 ^ (f.ew + f.mw) - 1
  | .none => 0

/-- Infinity of a format, without its sign. -/
def FFmt.inf (f : FFmt) : Nat := (2 ^ f.ew - 1) * 2 ^ f.mw

/-- The code of the largest finite magnitude (R70). -/
def FFmt.maxCode (f : FFmt) : Nat :=
  match f.special with
  | .ieee => f.inf - 1
  | .nanOnly => 2 ^ (f.ew + f.mw) - 2
  | .none => 2 ^ (f.ew + f.mw) - 1

/-- A sign bit in a format's place. -/
def FFmt.signed (f : FFmt) (neg : Bool) (mag : Nat) : Nat := if neg then 2 ^ (f.ew + f.mw) + mag else mag

/-- An exact value: NaN, an infinity, or (−1)^neg · m · 2^e; zero keeps its sign. -/
inductive Val where
  | nan
  | inf (neg : Bool)
  | fin (neg : Bool) (m : Nat) (e : Int)
  deriving DecidableEq, Repr

/-- The value a code stands for (R70). -/
def FFmt.decode (f : FFmt) (x : Nat) : Val :=
  let mag := x % 2 ^ (f.ew + f.mw)
  let neg := x / 2 ^ (f.ew + f.mw) % 2 = 1
  let ex := mag / 2 ^ f.mw
  let man := mag % 2 ^ f.mw
  let top := ex = 2 ^ f.ew - 1
  let finite : Val :=
    if ex = 0 then .fin neg man (1 - (f.bias : Int) - f.mw)
    else .fin neg (2 ^ f.mw + man) ((ex : Int) - f.bias - f.mw)
  match f.special with
  | .ieee => if top then (if man = 0 then .inf neg else .nan) else finite
  | .nanOnly => if mag = 2 ^ (f.ew + f.mw) - 1 then .nan else finite
  | .none => finite

/-! ## Rounding (R72, R77 to R81) -/

/-- Rounding modes (R77). -/
inductive Mode where
  | rne | rz | ru | rd | sr
  deriving DecidableEq, Repr

/-- A mode by its code. -/
def Mode.ofCode : Nat → Mode
  | 0 => .rne | 1 => .rz | 2 => .ru | 3 => .rd | _ => .sr

/-- Rounds a magnitude m · 2^e (a little more where `sticky`) to a whole number of units 2^q: the number, and whether
it is inexact. `r` is the 16-bit draw of SR (R78). -/
def quantize (md : Mode) (neg : Bool) (m : Nat) (e q : Int) (sticky : Bool) (r : Nat) : Nat × Bool :=
  if q ≤ e then
    let n := m * 2 ^ (e - q).toNat
    let up := match md with
      | .ru => sticky && !neg
      | .rd => sticky && neg
      | _ => false
    (if up then n + 1 else n, sticky)
  else
    let d := (q - e).toNat
    let n := m / 2 ^ d
    let rem := m % 2 ^ d
    let half := 2 ^ (d - 1)
    let inexact := rem ≠ 0 || sticky
    let up := match md with
      | .rne => half < rem || (rem = half && (sticky || n % 2 = 1))
      | .rz => false
      | .ru => inexact && !neg
      | .rd => inexact && neg
      | .sr => 65536 ≤ rem * 65536 / 2 ^ d + r
    (if up then n + 1 else n, inexact)

/-- An overflowed result (R80): by mode, or the largest finite value where it saturates. -/
def FFmt.overflow (f : FFmt) (md : Mode) (sat neg : Bool) : Nat :=
  let toInf := match md with
    | .rne => true
    | .sr => true
    | .rz => false
    | .ru => !neg
    | .rd => neg
  if sat || f.special = .none || !toInf then f.signed neg f.maxCode
  else
    match f.special with
    | .ieee => f.signed neg f.inf
    | _ => f.nan

/-- Rounds a magnitude to a format (R72, R80, R81): its code and flags. -/
def FFmt.round (f : FFmt) (md : Mode) (sat neg : Bool) (m : Nat) (e : Int) (sticky : Bool) (r : Nat) : Nat × BitVec 7 :=
  if m = 0 && !sticky then (f.signed neg 0, 0)
  else
    let top : Int := e + (Nat.log2 m : Int)
    let emin : Int := 1 - (f.bias : Int)
    let q : Int := max top emin - f.mw
    let x := quantize md neg m e q sticky r
    -- the code of x.1 units of 2^q: adding one to a full significand carries into the exponent
    let code : Nat := if x.1 < 2 ^ f.mw then x.1 else ((q + f.mw + f.bias : Int).toNat - 1) * 2 ^ f.mw + x.1
    if f.maxCode < code then (f.overflow md sat neg, flagOf ||| flagNx)
    else
      let tiny := top < emin &&
        (let u := quantize md neg m e (top - f.mw) sticky r
         decide ((Nat.log2 u.1 : Int) + (top - f.mw) < emin))
      (f.signed neg code, if x.2 then (if tiny then flagNx ||| flagUf else flagNx) else 0)

/-- Rounds an exact value to a format (R80 to R82). -/
def FFmt.ofVal (f : FFmt) (md : Mode) (sat : Bool) (v : Val) (r : Nat := 0) : Nat × BitVec 7 :=
  match v with
  | .nan => if f.special = .none then (0, flagNv) else (f.nan, 0)
  | .inf neg =>
    if f.special = .ieee && !sat then (f.signed neg f.inf, 0) else (f.overflow md sat neg, flagOf ||| flagNx)
  | .fin neg m e => f.round md sat neg m e false r

/-! ## Exact operations (R86, R92) -/

/-- A signed mantissa. -/
def sgn (neg : Bool) (m : Nat) : Int := if neg then -(m : Int) else m

/-- The sign of an exact zero sum (R92). -/
def zeroSign (md : Mode) (a b : Bool) : Bool := if a = b then a else md = .rd

/-- The exact sum (R86, R92). -/
def Val.add (md : Mode) : Val → Val → Val × BitVec 7
  | .nan, _ => (.nan, 0)
  | _, .nan => (.nan, 0)
  | .inf a, .inf b => if a = b then (.inf a, 0) else (.nan, flagNv)
  | .inf a, _ => (.inf a, 0)
  | _, .inf b => (.inf b, 0)
  | .fin a m e, .fin b n f =>
    let q := min e f
    let x := sgn a (m * 2 ^ (e - q).toNat) + sgn b (n * 2 ^ (f - q).toNat)
    if x = 0 then (.fin (zeroSign md a b) 0 0, 0) else (.fin (x < 0) x.natAbs q, 0)

/-- The exact product. -/
def Val.mul : Val → Val → Val × BitVec 7
  | .nan, _ => (.nan, 0)
  | _, .nan => (.nan, 0)
  | .inf a, .inf b => (.inf (a != b), 0)
  | .inf a, .fin b n _ => if n = 0 then (.nan, flagNv) else (.inf (a != b), 0)
  | .fin a m _, .inf b => if m = 0 then (.nan, flagNv) else (.inf (a != b), 0)
  | .fin a m e, .fin b n f => (.fin (a != b) (m * n) (e + f), 0)

/-- The negation. -/
def Val.neg : Val → Val
  | .nan => .nan
  | .inf a => .inf (!a)
  | .fin a m e => .fin (!a) m e

/-- a · b + c exactly: a product 0 · ∞ sets nv, whatever c is (R86, log 22). -/
def Val.fma (md : Mode) (a b c : Val) : Val × BitVec 7 :=
  let p := a.mul b
  let x := p.1.add md c
  (x.1, p.2 ||| x.2)

/-- a < b; false where either is NaN (R93). -/
def Val.lt : Val → Val → Bool
  | .nan, _ => false
  | _, .nan => false
  | .inf a, .inf b => a && !b
  | .inf a, _ => a
  | _, .inf b => !b
  | .fin a m e, .fin b n f =>
    let q := min e f
    sgn a (m * 2 ^ (e - q).toNat) < sgn b (n * 2 ^ (f - q).toNat)

/-- Numeric equality; false where either is NaN (R93). -/
def Val.eq (a b : Val) : Bool := a ≠ .nan && b ≠ .nan && !a.lt b && !b.lt a

/-- An operation on codes of a format, rounded once. -/
def FFmt.op2 (f : FFmt) (md : Mode) (g : Val → Val → Val × BitVec 7) (a b : Nat) : Nat × BitVec 7 :=
  let x := g (f.decode a) (f.decode b)
  let y := f.ofVal md false x.1
  (y.1, x.2 ||| y.2)

/-- The rounded sum, product and multiply-add (R92). -/
def FFmt.add (f : FFmt) (md : Mode) (a b : Nat) : Nat × BitVec 7 := f.op2 md (Val.add md) a b
def FFmt.sub (f : FFmt) (md : Mode) (a b : Nat) : Nat × BitVec 7 := f.op2 md (fun x y => x.add md y.neg) a b
def FFmt.mul (f : FFmt) (md : Mode) (a b : Nat) : Nat × BitVec 7 := f.op2 md Val.mul a b
def FFmt.fma (f : FFmt) (md : Mode) (a b c : Nat) : Nat × BitVec 7 :=
  let x := Val.fma md (f.decode a) (f.decode b) (f.decode c)
  let y := f.ofVal md false x.1
  (y.1, x.2 ||| y.2)

/-- The extrema (R93). -/
def FFmt.vmax (f : FFmt) (a b : Nat) : Nat :=
  let x := f.decode a
  let y := f.decode b
  if x = .nan || y = .nan then f.nan
  else if x.eq y then (match x with | .fin true 0 _ => b | _ => a)
  else if x.lt y then b else a

def FFmt.vmin (f : FFmt) (a b : Nat) : Nat :=
  let x := f.decode a
  let y := f.decode b
  if x = .nan || y = .nan then f.nan
  else if x.eq y then (match x with | .fin false 0 _ => b | _ => a)
  else if x.lt y then a else b

/-! ## Functions (R94) -/

/-- One step of the integer square root from above, with fuel. -/
def isqrtAux : Nat → Nat → Nat → Nat
  | 0, _, x => x
  | k + 1, n, x => let y := (x + n / x) / 2; if y < x then isqrtAux k n y else x

/-- The integer square root. -/
def isqrt (n : Nat) : Nat := if n = 0 then 0 else isqrtAux 600 n (2 ^ (Nat.log2 n / 2 + 1))

/-- 1/a. -/
def FFmt.rcp (f : FFmt) (md : Mode) (a : Nat) : Nat × BitVec 7 :=
  match f.decode a with
  | .nan => f.ofVal md false .nan
  | .inf s => f.ofVal md false (.fin s 0 0)
  | .fin s m e =>
    if m = 0 then
      let x := f.ofVal md false (.inf s)
      (x.1, x.2 ||| flagDz)
    else
      let k := Nat.log2 m + 64
      f.round md false s (2 ^ k / m) (-(e + k)) (2 ^ k % m ≠ 0) 0

/-- 1/√a. -/
def FFmt.rsq (f : FFmt) (md : Mode) (a : Nat) : Nat × BitVec 7 :=
  match f.decode a with
  | .nan => f.ofVal md false .nan
  | .inf false => f.ofVal md false (.fin false 0 0)
  | .inf true => let x := f.ofVal md false .nan; (x.1, x.2 ||| flagNv)
  | .fin s m e =>
    if m = 0 then
      let x := f.ofVal md false (.inf s)
      (x.1, x.2 ||| flagDz)
    else if s then
      let x := f.ofVal md false .nan
      (x.1, x.2 ||| flagNv)
    else
      let m' := if e % 2 = 0 then m else 2 * m
      let e' := if e % 2 = 0 then e else e - 1
      let k := Nat.log2 m' + 128
      let k := k + k % 2
      let y := isqrt (2 ^ k / m')
      f.round md false false y (-(e' / 2) - (k / 2 : Nat)) (y * y * m' ≠ 2 ^ k) 0

/-- Fraction bits of the fixed point used for 2^x and log2 x. -/
def fixP : Nat := 256

/-- A lower bound of 2^(2^−i) for i = 0 … in fixed point: repeated square roots of 2. -/
def rootOf2 : Nat → Nat
  | 0 => 2 ^ (fixP + 1)
  | i + 1 => isqrt (rootOf2 i * 2 ^ fixP)

/-- A lower bound of 2^g, g = frac · 2^−n, in fixed point: the product of the roots its bits name. `root` is the root
for the bit now looked at. -/
def exp2Frac : Nat → Nat → Nat → Nat → Nat
  | 0, _, _, acc => acc
  | n + 1, frac, root, acc =>
    let root := isqrt (root * 2 ^ fixP)
    exp2Frac n frac root (if frac / 2 ^ n % 2 = 1 then acc * root / 2 ^ fixP else acc)

/-- The fixed-point floor of 2^(frac · 2^−d), by its definition: the greatest n from `lo` to `lo` + 4096 whose 2^d-th
power does not exceed 2^frac. It answers where an interval does not decide a rounding; no operand is known to need it. -/
def exp2Floor (d frac lo : Nat) : Nat :=
  (((List.range 4097).reverse.map (lo + ·)).find? (fun n => n ^ 2 ^ d ≤ 2 ^ (frac + fixP * 2 ^ d))).getD lo

/-- 2^a (R309). A value that is no power of two is irrational: it is rounded from both ends of an interval, and where they
differ, from its exact floor. -/
def FFmt.exp2 (f : FFmt) (md : Mode) (a : Nat) : Nat × BitVec 7 :=
  match f.decode a with
  | .nan => f.ofVal md false .nan
  | .inf false => f.ofVal md false (.inf false)
  | .inf true => f.ofVal md false (.fin false 0 0)
  | .fin s m e =>
    if 0 ≤ e || m % 2 ^ (-e).toNat = 0 then
      let n : Int := sgn s (if 0 ≤ e then m * 2 ^ (min e.toNat 64) else m / 2 ^ (-e).toNat)
      f.round md false false 1 (max (-2000) (min 2000 n)) false 0
    else
      let d := (-e).toNat
      let x : Int := sgn s m
      let n : Int := x / 2 ^ d
      let frac := (x % 2 ^ d).toNat
      let lo := exp2Frac d frac (2 ^ (fixP + 1)) (2 ^ fixP)
      let k := max (-2000) (min 2000 n) - fixP
      let p := f.round md false false lo k true 0
      if p = f.round md false false (lo + 4096) k true 0 then p else f.round md false false (exp2Floor d frac lo) k true 0

/-- Bits of log2 y for y in [1, 2) given by an interval in fixed point, by repeated squaring; none where the interval
does not decide one. -/
def log2Bits : Nat → Nat → Nat → Nat → Option Nat
  | 0, _, _, acc => some acc
  | n + 1, lo, hi, acc =>
    let lo2 := lo * lo / 2 ^ fixP
    let hi2 := hi * hi / 2 ^ fixP + 1
    let two := 2 ^ (fixP + 1)
    if two ≤ lo2 then log2Bits n (lo2 / 2) (hi2 / 2 + 1) (2 * acc + 1)
    else if hi2 < two then log2Bits n lo2 hi2 (2 * acc)
    else none

/-- The first 120 fraction bits of log2 of m · 2^−l in [1, 2): from the squared interval, or where that does not decide them
from the exact power m^(2^120), whose logarithm's floor they are. -/
def log2Frac (m l : Nat) : Nat :=
  let y := m * 2 ^ fixP / 2 ^ l
  match log2Bits 120 y y 0 with
  | some b => b
  | none => Nat.log2 (m ^ 2 ^ 120) - l * 2 ^ 120

/-- log2 a (R309). A value that is no power of two has an irrational logarithm: it is rounded from the floor of its bits. -/
def FFmt.log2 (f : FFmt) (md : Mode) (a : Nat) : Nat × BitVec 7 :=
  match f.decode a with
  | .nan => f.ofVal md false .nan
  | .inf false => f.ofVal md false (.inf false)
  | .inf true => let x := f.ofVal md false .nan; (x.1, x.2 ||| flagNv)
  | .fin s m e =>
    if m = 0 then
      let x := f.ofVal md false (.inf true)
      (x.1, x.2 ||| flagDz)
    else if s then
      let x := f.ofVal md false .nan
      (x.1, x.2 ||| flagNv)
    else
      let l := Nat.log2 m
      let n : Int := e + l
      if m = 2 ^ l then f.round md false (n < 0) n.natAbs 0 false 0
      else
        let x : Int := n * 2 ^ 120 + log2Frac m l
        if 0 ≤ x then f.round md false false x.toNat (-120) true 0
        else f.round md false true ((-x).toNat - 1) (-120) true 0

/-! ## Integers and conversions (R82 to R84, R89) -/

/-- An integer format: width and whether signed (R69). -/
structure IFmt where
  width : Nat
  signed : Bool
  deriving DecidableEq, Repr

/-- The range of an integer format. -/
def IFmt.lo (f : IFmt) : Int := if f.signed then -(2 ^ (f.width - 1) : Nat) else 0
def IFmt.hi (f : IFmt) : Int := if f.signed then (2 ^ (f.width - 1) : Nat) - 1 else (2 ^ f.width : Nat) - 1

/-- The number a code stands for. -/
def IFmt.decode (f : IFmt) (x : Nat) : Int :=
  let v := x % 2 ^ f.width
  if f.signed && 2 ^ (f.width - 1) ≤ v then (v : Int) - (2 ^ f.width : Nat) else v

/-- The code of a number, its low bits. -/
def IFmt.code (f : IFmt) (x : Int) : Nat := (x % (2 ^ f.width : Nat)).toNat

/-- Clamps to the range; a clamp sets of (R89). -/
def IFmt.clamp (f : IFmt) (x : Int) : Nat × BitVec 7 :=
  if x < f.lo then (f.code f.lo, flagOf) else if f.hi < x then (f.code f.hi, flagOf) else (f.code x, 0)

/-- A float value to an integer (R82, R83): clamping sets nv, a fraction nx. -/
def IFmt.ofVal (f : IFmt) (md : Mode) (v : Val) (r : Nat) : Nat × BitVec 7 :=
  match v with
  | .nan => (0, flagNv)
  | .inf neg => (f.code (if neg then f.lo else f.hi), flagNv)
  | .fin neg m e =>
    let q := quantize md neg m e 0 false r
    let x := sgn neg q.1
    let nx : BitVec 7 := if q.2 then flagNx else 0
    if x < f.lo then (f.code f.lo, nx ||| flagNv)
    else if f.hi < x then (f.code f.hi, nx ||| flagNv)
    else (f.code x, nx)

/-- An integer as an exact value. -/
def intVal (x : Int) : Val := .fin (x < 0) x.natAbs 0

/-- A number format of a lane or a conversion. -/
inductive NFmt where
  | flt (f : FFmt)
  | int (f : IFmt)
  deriving DecidableEq, Repr

/-- Bits of a number format. -/
def NFmt.bits : NFmt → Nat
  | .flt f => f.bits
  | .int f => f.width

/-- Whether an integer conversion keeps every value: it widens, or it is the same format (R84). -/
def IFmt.fits (f g : IFmt) : Bool := (f.width < g.width) || f = g

/-- Converts a code (R82 to R85). A widening from a signed source into an unsigned format of greater width does not
occur: UINT8 is the narrowest format. -/
def convert (src dst : NFmt) (md : Mode) (sat : Bool) (x r : Nat) : Nat × BitVec 7 :=
  match src, dst with
  | .flt f, .flt g => g.ofVal md sat (f.decode x) r
  | .flt f, .int g => g.ofVal md (f.decode x) r
  | .int f, .flt g => g.ofVal md sat (intVal (f.decode x)) r
  | .int f, .int g =>
    if f.fits g || !sat then (g.code (f.decode x), 0)
    else g.clamp (f.decode x)

/-! ## Atomics (R100, R227, R432) -/

/-- The new value of an atomic (R227, R432). A claim that does not fit leaves its word. -/
def atomicNew (op : AtomOp) (old b c : Word) : Word :=
  match op with
  | .add => old + b
  | .and => old &&& b
  | .or => old ||| b
  | .xor => old ^^^ b
  | .max => if old.slt b then b else old
  | .min => if b.slt old then b else old
  | .xchg => b
  | .cas => if old = b then c else old
  | .fadd => BitVec.ofNat 64 (fp32.add .rne (bitsN old 31 0) (bitsN b 31 0)).1
  | .badd =>
    fld (bf16.add .rne (bitsN old 15 0) (bitsN b 15 0)).1 0 ||| fld (bf16.add .rne (bitsN old 31 16) (bitsN b 31 16)).1 16
      ||| fld (bf16.add .rne (bitsN old 47 32) (bitsN b 47 32)).1 32
      ||| fld (bf16.add .rne (bitsN old 63 48) (bitsN b 63 48)).1 48
  | .claim =>
    let n := bitsN old 31 0 + bitsN b 31 0
    if n ≤ bitsN old 63 32 then fld n 0 ||| fld (bitsN old 63 32) 32 else old

end Sys2Proof.Machine
end

