-- ==== Sys2Proof/Machine/Planes.lean ====
section
/-! DEFINITION. The fabric's shared operations: planes, generators, instances and the images they come from, faults of a
plane, the receiving end of arcs (R314). -/

namespace Sys2Proof.Machine

open Sys2Proof

/-! ## Accessors -/

def State.plane (s : State) (p : PlaneId) : Plane := tget s.planes {} p
def State.setPlane (s : State) (p : PlaneId) (x : Plane) : State := { s with planes := tput s.planes p x }
def State.onPlane (s : State) (p : PlaneId) (f : Plane → Plane) : State := s.setPlane p (f (s.plane p))
def State.elem (s : State) (e : ElemId) : Elem := tget s.elems {} e
def State.setElem (s : State) (e : ElemId) (x : Elem) : State := { s with elems := tput s.elems e x }
def State.tile (s : State) (t : TileId) : Tile := tget s.tiles {} t
def State.setTile (s : State) (t : TileId) (x : Tile) : State := { s with tiles := tput s.tiles t x }
def State.gen (s : State) (g : GenId) : Gen := tget s.gens {} g
def State.setGen (s : State) (g : GenId) (x : Gen) : State := { s with gens := tput s.gens g x }
def State.onGen (s : State) (g : GenId) (f : Gen → Gen) : State := s.setGen g (f (s.gen g))
def State.inst (s : State) (i : InstId) : Option Inst := tfind s.insts i
def State.setInst (s : State) (i : InstId) (x : Inst) : State := { s with insts := tput s.insts i x }
def State.onInst (s : State) (i : InstId) (f : Inst → Inst) : State :=
  match s.inst i with
  | some x => s.setInst i (f x)
  | none => s

/-! ## Graph images (R65 to R68) -/

/-- The bytes of a job's graph image. -/
def State.image (s : State) (sid n : Nat) : List Byte := ((s.job sid).graphs[n]?).getD []

/-- The image's records of a section: how many, where, and their size. -/
def recsAt (img : List Byte) (n off size : Nat) : List (List Byte) :=
  (List.range n).map (fun i => (img.drop (off + size * i)).take size)

def imgElems (img : List Byte) : List (List Byte) := recsAt img (recN img 0x0C 2) (recN img 0x18 4) 192
def imgWires (img : List Byte) : List (List Byte) := recsAt img (recN img 0x0E 2) (recN img 0x1C 4) 32
def imgStores (img : List Byte) : List (List Byte) := recsAt img (recN img 0x10 2) (recN img 0x20 4) 32
def imgChecks (img : List Byte) : List (List Byte) := recsAt img (recN img 0x12 2) (recN img 0x24 4) 16
def imgIsects (img : List Byte) : List (List Byte) := recsAt img (recN img 0x14 2) (recN img 0x28 4) 8
def imgColls (img : List Byte) : List (List Byte) := recsAt img (recN img 0x16 2) (recN img 0x2C 4) 64

/-- The tile at region coordinates of tiles, from an origin hive (R6, R389). -/
def tileAt (die hive x y : Nat) : TileId :=
  let col := 4 * (hive % 8) + x
  let row := 4 * (hive / 8) + y
  ⟨die, row / 4 * 8 + col / 4, row % 4 * 4 + col % 4⟩

/-- The tile of an instance at region coordinates of tiles; a hive that moved stands where it went (R491). -/
def State.tileOf (s : State) (i : InstId) (x y : Nat) : TileId :=
  match s.inst i with
  | some n => s.redirectTile n.sid (tileAt n.origin.die n.origin.hive x y)
  | none => tileAt i.die i.hive x y

/-- The element and plane of an instance at region coordinates of elements. -/
def State.elemOf (s : State) (i : InstId) (x y : Nat) : ElemId := ⟨s.tileOf i (x / 4) (y / 4), y % 4 * 4 + x % 4⟩
def State.planeAt (s : State) (i : InstId) (x y : Nat) : PlaneId := ⟨s.elemOf i x y, i.plane⟩

/-- The generator a record of an instance names. -/
def State.genAt (s : State) (i : InstId) (x y g : Nat) : GenId := ⟨s.tileOf i (x / 4) (y / 4), g⟩

/-- The tile coordinates of a region, by rows. -/
def Inst.coords (n : Inst) : List (Nat × Nat) :=
  (List.range n.height).flatMap (fun y => (List.range n.width).map (fun x => (x, y)))

/-- The region coordinates of a tile of an instance. -/
def State.tileXY (s : State) (i : InstId) (t : TileId) : Nat × Nat :=
  match s.inst i with
  | some n => (n.coords.find? (fun c => s.tileOf i c.1 c.2 = t)).getD (0, 0)
  | none => (0, 0)

/-- The region coordinates of an element. -/
def State.elemXY (s : State) (i : InstId) (e : ElemId) : Nat × Nat :=
  let c := s.tileXY i e.tile
  (4 * c.1 + e.elem % 4, 4 * c.2 + e.elem / 4)

/-- A store record's settings. -/
def storeRec (r : List Byte) : StoreRec := ⟨recN r 5 1, recN r 8 4, recN r 12 4, recN r 16 4⟩

/-- The rule slots of an element record. -/
def recRules (r : List Byte) : List (BitVec 32 × BitVec 32) :=
  (List.range 16).map (fun i => (BitVec.ofNat 32 (recN r (64 + 8 * i) 4), BitVec.ofNat 32 (recN r (68 + 8 * i) 4)))

/-- Whether a rule reads a generator of the paired store tile (`sld` 0 to 3), writes it (`sst`). -/
def ruleReads (w : BitVec 32) (g : Nat) : Bool := bitsN w 31 24 = 0xEB && bitsN w 18 14 = g
def ruleWrites (w : BitVec 32) (g : Nat) : Bool := bitsN w 31 24 = 0xEC && bitsN w 18 14 = g

/-- The store tile paired with a compute tile, and the reverse (R7). -/
def TileId.pair (t : TileId) : TileId :=
  { t with tile := if isCompute t.tile then storeTile (memberOf t.tile) else computeTile (memberOf t.tile) }

/-- What a generator takes from a store record of an instance: its image may read and write it on the paired tile. -/
def State.genCfg (s : State) (i : InstId) (img : List Byte) (r : List Byte) : GenId × GenCfg :=
  let g := s.genAt i (recN r 0 2) (recN r 2 2) (recN r 4 1)
  let ws := ((imgElems img).filter (fun e => s.tileOf i (recN e 0 2 / 4) (recN e 2 2 / 4) = g.tile.pair)).flatMap recRules
  (g, ⟨i, storeRec r, ws.any (fun x => ruleReads x.1 g.gen), ws.any (fun x => ruleWrites x.1 g.gen)⟩)

/-- The generators of an instance. -/
def State.instGens (s : State) (i : InstId) : List GenId :=
  (s.gens.filter (fun e => match e.2.cfg with | some c => c.inst = i | none => false)).map Prod.fst

/-- The planes of an instance. -/
def State.instPlanes (s : State) (i : InstId) : List PlaneId :=
  (s.planes.filter (fun e => e.2.inst = some i)).map Prod.fst

/-! ## Faults of units (R205) -/

/-- The origin of a fault of an instance's unit on a tile. -/
def State.instOrigin (s : State) (i : InstId) (t : TileId) : Origin :=
  let x := s.inst i
  let sid := match x with | some x => x.sid | none => 0
  let n := match x with | some x => x.image | none => 0
  let img := s.image sid n
  { core := t.core, sid := sid, edge := recN img 8 2, rank := recN img 6 1, image := n, slot := i.plane, tag := 0,
    ident := identWord s.node t.core 0 sid }

/-- h1 of a plane's fault (R205). -/
def planeWord (p : PlaneId) (rule : Nat) : Word :=
  fld p.elem.tile.die 40 ||| fld p.elem.tile.hive 34 ||| fld p.elem.tile.tile 30 ||| fld p.elem.elem 26
    ||| fld p.plane 24 ||| fld rule 16

/-- A fault of unit 1 an element rule raises. -/
def State.ruleFault (s : State) (r : RuleId) (c : Cause) (h2 : Word) (duty : Option Suspended) : State :=
  let p := s.plane r.plane
  match p.inst with
  | none => s
  | some i =>
    let o := s.instOrigin i r.plane.elem.tile
    let w := match p.rules[r.slot]? with | some x => x.1 | none => 0
    s.deliverFault o (faultWord c 1 r.plane.plane 0 0 0 o.rank duty.isSome) (planeWord r.plane r.slot) h2
      (w.setWidth 64) duty

/-! ## Lanes (R294) -/

/-- The lane format of a code. -/
def laneFmt : Nat → NFmt
  | 0 => .flt fp32 | 1 => .flt bf16 | 2 => .flt fp16 | 3 => .flt e4m3 | 4 => .flt e5m2
  | 5 => .int ⟨32, true⟩ | 6 => .int ⟨16, true⟩ | 7 => .int ⟨8, true⟩ | 8 => .int ⟨8, false⟩ | _ => .int ⟨64, true⟩

/-- Lanes of a token. -/
def NFmt.lanes (f : NFmt) : Nat := 128 / f.bits

/-- Lane i. -/
def lane (f : NFmt) (v : BitVec 128) (i : Nat) : Nat := v.toNat / 2 ^ (f.bits * i) % 2 ^ f.bits

/-- All lanes, lane 0 first. -/
def lanesOf (f : NFmt) (v : BitVec 128) : List Nat := (List.range f.lanes).map (lane f v)

/-- A token's data from lanes of a width. -/
def ofLanes (width : Nat) (l : List Nat) : BitVec 128 :=
  BitVec.ofNat 128 (l.foldr (fun x acc => x % 2 ^ width + 2 ^ width * acc) 0)

/-- The lane-0 test (R294). -/
def laneTest (f : NFmt) (v : BitVec 128) : Bool := lane f v 0 ≠ 0

/-! ## Ports (R40, R42) -/

/-- A token is a marker (R397). -/
def Token.marker (t : Token) : Bool := t.kind = .mark || t.kind = .reconf

/-- The head of an input channel in a cycle (R286). -/
def Plane.headAt (p : Plane) (ch cycle : Nat) : Option Latch :=
  match tfind p.latch ch with
  | some l => if l.since ≤ cycle then some l else none
  | none => none

/-- Reads a source port: the token, and sp after it (R40, R41, R287). -/
def Plane.read (p : Plane) (plane : Nat) (f : NFmt) (port : BitVec 5) : Token × Nat :=
  let n := port.toNat
  let data (v : BitVec 128) : Token := { data := v }
  if n ≤ 7 then ((match tfind p.latch n with | some l => l.tok | none => {}), p.sp)
  else if n = 8 then (data p.acc, p.sp)
  else if n = 10 then (data (tget p.scr 0 p.sp), (p.sp + 1) % 64)
  else if n = 11 then (data (BitVec.ofNat 128 p.sp), p.sp)
  else if n = 12 then (data (BitVec.ofNat 128 plane), p.sp)
  else if n = 13 then (data (p.q.setWidth 128), p.sp)
  else if 16 ≤ n && n ≤ 23 then
    let k := (p.lits[n - 16]?).getD 0
    (data (if f.bits = 64 then k.signExtend 64 ++ k.signExtend 64
           else ofLanes f.bits (List.replicate f.lanes k.toNat)), p.sp)
  else ({}, p.sp)

/-- Whether an output slot is free. -/
def Plane.free (p : Plane) (ch : Nat) : Bool := !thas p.outs ch

/-! ## Arcs (R314) -/

/-- Frees a producer's slot. -/
def State.ackArc (s : State) (src : PlaneId) (ch : Nat) : State :=
  s.onPlane src (fun p => { p with outs := tdel p.outs ch, freed := tput p.freed ch s.cycle })

/-- A collective node. -/
def State.coll (s : State) (i : InstId) (n : Nat) : Option CollNode := tfind s.colls (i, n)
def State.setColl (s : State) (i : InstId) (n : Nat) (c : CollNode) : State :=
  { s with colls := tput s.colls (i, n) { c with last := s.cycle } }

/-- A collective node's out channel is free: its next token goes there (R440, R445). -/
def State.collNext (s : State) (i : InstId) (n : Nat) : State :=
  match s.coll i n with
  | none => s
  | some c =>
    match c.outq with
    | [] => s.setColl i n { c with fly := false }
    | (t, r) :: rest =>
      let s := s.setColl i n { c with outq := rest, fly := true }
      (s.onPlane c.out (fun p => { p with rank := tput p.rank c.outCh r })).post (.arc ⟨c.out, c.outCh⟩)
        (.tokenArrival ⟨c.out, c.outCh⟩ t) 4

/-- Acknowledges the token of an input channel to its producer (R291, R293). -/
def State.ackTo (s : State) (dst : PlaneId) (ch : Nat) : State :=
  match tfind (s.plane dst).src ch with
  | some (.arc sp sch) =>
    if sp.elem.tile = dst.elem.tile then s.ackArc sp sch
    else s.post (.arc ⟨dst, ch⟩) (.arcAck ⟨dst, ch⟩) 4
  | some (.coll i n) => s.collNext i n
  | none => s

/-- NaN or infinite (R338, R339). -/
def laneNonFinite (f : NFmt) (x : Nat) : Bool :=
  match f with
  | .flt g => (match g.decode x with | .fin _ _ _ => false | _ => true)
  | .int _ => false

/-- The lane format of a plane's `isect` rule on a channel pair. -/
def Plane.isectFmt (p : Plane) (a b : Nat) : NFmt :=
  match p.rules.find? (fun r => bitsN r.1 31 24 = 0xEE && bitsN r.1 23 19 = a && bitsN r.1 18 14 = b) with
  | some r => laneFmt (bitsN r.2 28 25)
  | none => .int ⟨32, true⟩

/-- What an intersection unit does with a token on each side (R339). -/
inductive Meet where
  | both | dropA | dropB
  deriving DecidableEq, Repr

def meet (a b : Token) : Meet :=
  let isData (t : Token) : Bool := t.kind = .data || t.kind = .ctrl
  let co (t : Token) : Nat := bitsN t.data 127 96
  if isData a && isData b then
    (if co a = co b then .both else if co a < co b then .dropA else .dropB)
  else if isData b then .dropB
  else if isData a then .dropA
  else if a.kind = b.kind then .both
  else if a.kind = .eof then .dropA else .dropB

/-- A dropped operand sets skipnf when its lanes 0 to 2 hold a NaN or infinity (R339). -/
def skipFlag (f : NFmt) (t : Token) : BitVec 7 :=
  if (t.kind = .data || t.kind = .ctrl) && (List.range 3).any (fun i => i < f.lanes && laneNonFinite f (lane f t.data i)) then flagSkipnf else 0

/-- Whether containment holds an element (R467): it fires, sends and acknowledges nothing. -/
def State.held (s : State) (e : ElemId) : Bool := (s.elem e).dead || s.cycle < (s.elem e).heldTo

/-- One action of the intersection unit of a channel (R339); none in a held element (R467). -/
def State.isectStep (s : State) (pid : PlaneId) (ch : Nat) : State :=
  let p := s.plane pid
  match p.isects.find? (fun u => u.1 = ch || u.2 = ch) with
  | none => s
  | some (a, b) =>
    if s.held pid.elem then s
    else match tfind p.held a, tfind p.held b with
    | some x, some y =>
      let f := p.isectFmt a b
      (match meet x.tok y.tok with
       | .both =>
         let n := max x.since y.since
         s.setPlane pid { p with held := tdel (tdel p.held a) b,
                                 latch := tput (tput p.latch a ⟨x.tok, n⟩) b ⟨y.tok, n⟩ }
       | .dropA => (s.setPlane pid { p with held := tdel p.held a, flags := p.flags ||| skipFlag f x.tok }).ackTo pid a
       | .dropB => (s.setPlane pid { p with held := tdel p.held b, flags := p.flags ||| skipFlag f y.tok }).ackTo pid b)
    | _, _ => s

/-- A token or marker arrives at an input channel (R285, R339, R397); it is a head from a cycle on. -/
def State.arrive (s : State) (pid : PlaneId) (ch : Nat) (t : Token) (since : Nat) : State :=
  let p := s.plane pid
  if t.marker then s.setPlane pid { p with mark := tput p.mark ch t }
  else if p.isects.any (fun u => u.1 = ch || u.2 = ch) then
    (s.setPlane pid { p with held := tput p.held ch ⟨t, since⟩ }).isectStep pid ch
  else s.setPlane pid { p with latch := tput p.latch ch ⟨t, since⟩ }

end Sys2Proof.Machine
end

