-- ==== Sys2Proof/Machine/Coll.lean ====
section
/-! DEFINITION. Collective nodes (R440 to R447, R452, R453): taking tokens, combining in rank order, delivering. -/

namespace Sys2Proof.Machine

open Sys2Proof

/-- The group a bound node belongs to. -/
def State.groupOf (s : State) (i : InstId) (c : CollNode) : Option Group :=
  match s.inst i, c.rank with
  | some x, some r => tfind s.groups (x.sid, c.group, r)
  | _, _ => none

/-- A rank's group on this device and its node: one that still joins takes what ranks bound before it send (R450, log 36). -/
def State.nodeOf (s : State) (sid group rank : Nat) : Option (Group × CollNode) :=
  match tfind s.groups (sid, group, rank) with
  | some g => if g.st < 2 then none else (tfind s.colls (g.inst, g.node)).map (fun c => (g, c))
  | none => none

/-- Adds one lane in rank order (R99): floats round to nearest, integers clamp. -/
def laneAdd (f : NFmt) (a b : Nat) : Nat :=
  match f with
  | .flt g => (g.add .rne a b).1
  | .int g => (g.clamp (g.decode a + g.decode b)).1

/-- The sum of contributions in ascending rank order (R99, R453), with the poison of any (R464). -/
def reduceToks (f : NFmt) : List Token → Token
  | [] => {}
  | t :: r =>
    r.foldl (fun a b =>
      { kind := .data, data := ofLanes f.bits (((lanesOf f a.data).zip (lanesOf f b.data)).map (fun e => laneAdd f e.1 e.2)),
        poison := a.poison || b.poison }) { t with kind := .data }

/-- Whether an operator sums (R440). -/
def collReduces (op : Nat) : Bool := op ≤ 1

/-- The usable plane token j travels on (R450). -/
def Group.planeFor (g : Group) (j : Nat) : Option Nat :=
  if g.usable = [] then none else g.usable[j % g.usable.length]?

/-- Whether a switch combines token j (R450). -/
def Group.bySwitch (g : Group) (j : Nat) : Bool :=
  match g.planeFor j with
  | some p => g.switches.contains p
  | none => false

/-- The node identifier of a rank's device. -/
def Group.nodeId (g : Group) (rank : Nat) : Nat := ((g.table[rank]?).map Prod.fst).getD 0

/-- Whether every rank of a group lies in one rack (R450). -/
def Group.rack (g : Group) : Bool := g.table.all (fun e => e.1 / 256 = (g.table.headD (0, 0)).1 / 256)

/-- A token's copies for ranks on other devices or for a switch go into the egress queue that serves the node (R443): on the token's
plane, or by R414 where the group spans racks (R450). -/
def State.collOut (s : State) (c : CollNode) (g : Group) (l : List (CollMsg × NetBody)) : State :=
  s.toEgress (c.inp.elem.tile.die, c.gw, c.inp.plane) (l.filterMap (fun e =>
    if g.rack then (g.planeFor e.1.index).map (fun p => ⟨some p, g.nodeId e.1.dst, e.2⟩) else some ⟨none, g.nodeId e.1.dst, e.2⟩))

/-- Sends one token to the nodes of ranks: here, and elsewhere as one token of the egress queue. -/
def State.collSpread (s : State) (c : CollNode) (g : Group) (l : List CollMsg) (body : CollMsg → NetBody) (ev : CollMsg → Ev) : State :=
  let here (m : CollMsg) : Bool := g.nodeId m.dst = s.node
  ((l.filter here).foldl (fun s m => s.post .none (ev m) 4) s).collOut c g ((l.filter (fun m => !here m)).map (fun m => (m, body m)))

/-- Sends a contribution to the nodes of ranks, or to the switch that combines it. -/
def State.collSend (s : State) (c : CollNode) (g : Group) (l : List CollMsg) : State :=
  let bySwitch (m : CollMsg) : Bool := g.bySwitch m.index && m.tok.kind ≠ .eos
  (s.collOut c g ((l.filter bySwitch).map (fun m => (m, .coll m)))).collSpread c g (l.filter (fun m => !bySwitch m)) .coll
    (fun m => .contributionArrival m none)

/-- Sends a result, or a token that needs no sum, to the nodes of ranks. -/
def State.resultSend (s : State) (c : CollNode) (g : Group) (l : List CollMsg) : State :=
  s.collSpread c g l .result (fun m => .resultArrival m none)

/-- Room for a token in the egress queue that serves a node (R444, R462). -/
def State.egressRoom (s : State) (c : CollNode) : Bool :=
  let e := tget s.egress {} (c.inp.elem.tile.die, c.gw, c.inp.plane)
  e.queue.length < 64 && e.waits = []

/-- A message for every rank of a group. -/
def Group.toAll (g : Group) (m : CollMsg) : List CollMsg := (List.range g.n).map (fun r => { m with dst := r })

/-- Sends one kept contribution under the plan in force (R450, R452). -/
def State.collOffer (s : State) (c : CollNode) (g : Group) (m : CollMsg) : State :=
  if collReduces c.op then s.collSend c g [{ m with dst := m.index % g.n }] else s.resultSend c g (g.toAll m)

/-- Whether the epoch a node sends next has begun, here or at another rank. -/
def CollNode.begun (c : CollNode) : Bool :=
  0 < c.idx || c.parts.any (fun x => x.1.1 = c.epoch) || c.res.any (fun x => x.1.1 = c.epoch) || c.lens.any (fun x => x.1.1 = c.epoch)

/-- Whether a node may take a token: while its job runs, and after JOB_END in an epoch that has begun (R26, log 148). -/
def State.collGoes (s : State) (i : InstId) (c : CollNode) : Bool :=
  match (s.job (((s.inst i).map Inst.sid).getD 0)).state with
  | .running => true
  | .ending _ => c.begun
  | _ => false

/-- A node takes the token at its in channel once its window has room (R444, R462): it acknowledges it and sends it on;
an EOS ends its epoch and tells every rank the length (R446). -/
def State.collTake (s : State) (i : InstId) (n : Nat) : State :=
  match s.coll i n with
  | none => s
  | some c =>
    match c.wait, c.rank, s.groupOf i c with
    | some t, some r, some g =>
      if g.st ≠ 3 || !s.collGoes i c || c.recorded || 64 ≤ c.kept.length || !s.egressRoom c then s
      else
        let sid := ((s.inst i).map Inst.sid).getD 0
        let m : CollMsg := ⟨sid, c.group, r, r, c.epoch, c.idx, if t.kind = .eos then { kind := .eos } else { t with kind := .data }⟩
        let s := s.onPlane c.inp (fun p => { p with outs := tdel p.outs c.inCh, freed := tput p.freed c.inCh s.cycle })
        if t.kind = .eos then
          (s.setColl i n { c with wait := none, epoch := c.epoch + 1, idx := 0 }).collSend c g (g.toAll m)
        else
          (s.setColl i n { c with wait := none, idx := c.idx + 1, kept := c.kept ++ [m] }).collOffer c g m
    | _, _, _ => s

/-- A plane gives a node a token or a marker (R397, R444). -/
def State.collGive (s : State) (i : InstId) (n : Nat) (t : Token) : State :=
  match s.coll i n with
  | none => s
  | some c =>
    if t.marker then s.setColl i n { c with mark := some t }
    else (s.setColl i n { c with wait := some t }).collTake i n

/-- The known lengths of an epoch, by rank, once every rank has sent its EOS. -/
def CollNode.lengths (c : CollNode) (n e : Nat) : Option (List Nat) := (List.range n).mapM (fun r => tfind c.lens (e, r))

/-- What a node delivers next (R440, R446): a token with its source rank, the EOS of an epoch that kept R440, the EOS of one
that did not with the rank whose length differs, or nothing yet. -/
inductive Deliver where
  | tok (t : Token) (rank : Nat)
  | last
  | broken (rank : Nat)
  | wait
  deriving DecidableEq, Repr

/-- The lowest rank whose length differs from rank 0's. -/
def oddRank (l : List Nat) : Nat := ((List.range l.length).find? (fun r => l[r]? ≠ l.head?)).getD 0

/-- The rank and position of an epoch's token d, where rank r sends l r tokens and they follow rank by rank. -/
def chunkAt (l : List Nat) (d : Nat) (r : Nat := 0) : Option (Nat × Nat) :=
  match l with
  | [] => none
  | k :: rest => if d < k then some (r, d) else chunkAt rest (d - k) (r + 1)

/-- Lengths that break R440 end an epoch once the tokens that are complete have been delivered (R446); a rank's chunk of tokens that a
node splits has no length then, so none of it is complete (log 138). -/
def CollNode.next (c : CollNode) (n rank : Nat) : Deliver :=
  let e := c.depoch
  let ls := c.lengths n e
  let same (l : List Nat) : Bool := l.all (fun x => some x = l.head?)
  let get (src i : Nat) (r : Nat) : Deliver := match tfind c.res (e, src, i) with | some t => .tok t r | none => .wait
  let orBroken (l : List Nat) (d : Deliver) : Deliver := match d with | .tok t r => .tok t r | _ => .broken (oddRank l)
  let chunks (place : Nat → Nat → Deliver) (total : Nat → Nat) : Deliver :=
    match ls with
    | none => .wait
    | some l =>
      let t := l.headD 0
      if !same l || t % n ≠ 0 then .broken (oddRank l)
      else if c.done < total (t / n) then place (t / n) c.done
      else .last
  match c.op with
  | 0 =>
    (match tfind c.res (e, 0, c.done), ls with
     | some t, _ => .tok t 0xFFFF
     | none, none => .wait
     | none, some l =>
       if c.done < l.foldl min (l.headD 0) then .wait else if same l then .last else .broken (oddRank l))
  | 1 => chunks (fun k d => get 0 (rank * k + d) 0xFFFF) (fun k => k)
  | 2 =>
    (match ls with
     | some l =>
       (match chunkAt l c.done with
        | some (r, i) => if same l then get r i r else orBroken l (get r i r)
        | none => if same l then .last else .broken (oddRank l))
     | none =>
       (match tfind c.lens (e, 0) with
        | some k => if c.done < k then get 0 c.done 0 else .wait
        | none => get 0 c.done 0))
  | 3 => chunks (fun k d => get (d / max 1 k) (rank * k + d % max 1 k) (d / max 1 k)) (fun k => n * k)
  | _ =>
    (match ls with
     | some l =>
       let ok := (l.drop 1).all (· = 0)
       if c.done < l.headD 0 then (if ok then get 0 c.done 0 else orBroken l (get 0 c.done 0))
       else if ok then .last else .broken (oddRank l)
     | none => get 0 c.done 0)

/-- Raises the fault of R446. -/
def State.collFault (s : State) (i : InstId) (c : CollNode) (rank : Nat) : State :=
  let o := s.instOrigin i c.inp.elem.tile
  s.deliverFault o (faultWord .illegalForm 4 i.plane 0 0 0 o.rank false) 0
    (fld c.group 0 ||| fld (c.depoch % 65536) 16 ||| fld rank 32) 0 none

/-- Puts a token on a node's way out. -/
def State.collEmit (s : State) (i : InstId) (n : Nat) (t : Token) (r : Nat) : State :=
  match s.coll i n with
  | none => s
  | some c =>
    let s := s.setColl i n { c with outq := c.outq ++ [(t, r)] }
    if c.fly then s else s.collNext i n

/-- Ends the epoch a node delivers. What it still combines for other ranks, and its contributions whose results have not come, stay; of an epoch
that breaks R440 they are dropped (R446). -/
def State.collEpoch (s : State) (i : InstId) (n : Nat) (c : CollNode) (broken : Bool) : State :=
  let e := c.depoch
  let s := s.setColl i n { c with depoch := e + 1, done := 0, res := c.res.filter (fun x => x.1.1 ≠ e),
                                  parts := if broken then c.parts.filter (fun x => x.1.1 ≠ e) else c.parts,
                                  lens := c.lens.filter (fun x => x.1.1 ≠ e),
                                  kept := if broken then c.kept.filter (fun m => m.epoch ≠ e) else c.kept,
                                  past := if broken then c.past.filter (fun m => m.epoch ≠ e) else c.past }
  let s := match s.inst i, c.rank with
    | some x, some r => (match tfind s.groups (x.sid, c.group, r) with
      | some g => { s with groups := tput s.groups (x.sid, c.group, r) { g with epochs := g.epochs + 1 } }
      | none => s)
    | _, _ => s
  s.collEmit i n { kind := .eos } 0xFFFF

/-- Delivers what is complete, in order (R440, R446). -/
def State.collDeliver (s : State) (i : InstId) (n : Nat) : Nat → State
  | 0 => s
  | fuel + 1 =>
    match s.coll i n with
    | none => s
    | some c =>
      match c.rank, s.groupOf i c with
      | some r, some g =>
        (match c.next g.n r with
         | .wait => s
         | .tok t src => ((s.setColl i n { c with done := c.done + 1 }).collEmit i n { t with kind := .data } src).collDeliver i n fuel
         | .last => (s.collEpoch i n c false).collDeliver i n fuel
         | .broken k => ((s.collFault i c k).collEpoch i n c true).collDeliver i n fuel)
      | _, _ => s

/-- How many deliveries one arrival can lead to at most. -/
def CollNode.fuel (c : CollNode) : Nat := c.res.length + c.lens.length + 2

/-- The sum of a token once every rank's contribution has come goes to every rank (R440); the last 64 are kept, which is as far as
ranks can lie apart (R462), for a rank that contributes again (R452). -/
def State.collCombine (s : State) (g : Group) (c : CollNode) (m : CollMsg) : State :=
  match (List.range g.n).mapM (fun r => tfind c.parts (m.epoch, r, m.index)) with
  | none => s.setColl g.inst g.node c
  | some l =>
    let t := reduceToks (laneFmt c.fmt) l
    let sums := c.sums ++ [((m.epoch, m.index), t)]
    (s.setColl g.inst g.node { c with parts := c.parts.filter (fun x => !(x.1.1 = m.epoch && x.1.2.2 = m.index)),
                                      sums := sums.drop (sums.length - 64) }).resultSend c g (g.toAll { m with src := 0, tok := t })

/-- A contribution reaches a node (R440): an EOS tells a length; a token is combined once every rank's has come and the node is bound. -/
def State.contribution (s : State) (m : CollMsg) : State :=
  match s.nodeOf m.sid m.group m.dst with
  | none => s
  | some (g, c) =>
    if m.tok.kind = .eos then
      (s.setColl g.inst g.node { c with lens := if m.epoch < c.depoch then c.lens else tput c.lens (m.epoch, m.src) m.index }).collDeliver
        g.inst g.node (c.fuel + 1)
    else
      match tfind c.sums (m.epoch, m.index) with
      | some t => s.resultSend c g [{ m with src := 0, dst := m.src, tok := t }]
      | none =>
        let c := { c with parts := tput c.parts (m.epoch, m.src, m.index) m.tok }
        if g.st = 3 then s.collCombine g c m else s.setColl g.inst g.node c

/-- A node's contribution has its result: it waits no longer, and the last 64 stay for a change of plan, because ranks can lie that far apart (R452,
R462, log 139). -/
def CollNode.answered (c : CollNode) (m : CollMsg) : CollNode :=
  let hit (k : CollMsg) : Bool := k.epoch = m.epoch && k.index = m.index
  let past := c.past ++ c.kept.filter hit
  { c with kept := c.kept.filter (fun k => !hit k), past := past.drop (past.length - 64) }

/-- What a node learns of a sum that came to it: it can answer a rank that contributes again (R452). -/
def CollNode.known (c : CollNode) (m : CollMsg) : CollNode :=
  if !collReduces c.op || thas c.sums (m.epoch, m.index) then c
  else
    let sums := c.sums ++ [((m.epoch, m.index), m.tok)]
    { c with sums := sums.drop (sums.length - 64), parts := c.parts.filter (fun x => !(x.1.1 = m.epoch && x.1.2.2 = m.index)) }

/-- A result, or a token that needs no sum, reaches a rank's node (R452); a second one is dropped. Ranks that contributed here again get it. -/
def State.resultCame (s : State) (m : CollMsg) : State :=
  match s.nodeOf m.sid m.group m.dst with
  | none => s
  | some (g, c) =>
    let c := if collReduces c.op || some m.src = c.rank then c.answered m else c
    let late := if collReduces c.op then (c.parts.filter (fun x => x.1.1 = m.epoch && x.1.2.2 = m.index)).map (fun x => { m with dst := x.1.2.1 }) else []
    let c := c.known m
    let s := s.resultSend c g late
    let c := if m.epoch < c.depoch || thas c.res (m.epoch, m.src, m.index) then c else { c with res := tput c.res (m.epoch, m.src, m.index) m.tok }
    ((s.setColl g.inst g.node c).collDeliver g.inst g.node c.fuel).collTake g.inst g.node

/-- R440: a contribution arrives, over a link in a frame (R461). -/
def execContributionArrival (s : State) : Res :=
  match s.arg with
  | .contributionArrival m rx => .next (s.framed rx m.sid (fun s => s.contribution m))
  | _ => .next s

/-- R452: a result, or a token that needs no sum, arrives. -/
def execResultArrival (s : State) : Res :=
  match s.arg with
  | .resultArrival m rx => .next (s.framed rx m.sid (fun s => s.resultCame m))
  | _ => .next s

/-- A rank is bound: what has come while it joined is combined and delivered. -/
def State.collBound (s : State) (k : Nat × Nat × Nat) : State :=
  match s.nodeOf k.1 k.2.1 k.2.2 with
  | none => s
  | some (g, c) =>
    let s := ((c.parts.map (fun x => (x.1.1, x.1.2.2))).eraseDups).foldl (fun s (p : Nat × Nat) =>
      match s.coll g.inst g.node with
      | some c => s.collCombine g c ⟨k.1, k.2.1, 0, k.2.2, p.1, p.2, {}⟩
      | none => s) s
    (s.collDeliver g.inst g.node (c.fuel + 1)).collTake g.inst g.node

/-- Tokens that a link that went DOWN has not delivered are sent again, but for contributions, which their ranks keep (R452). -/
def State.collAgain (s : State) (b : NetBody) : State :=
  let send (m : CollMsg) (f : CollNode → Group → State) : State :=
    match s.groups.find? (fun e => e.1.1 = m.sid && e.1.2.1 = m.group && e.2.st = 3) with
    | some (_, g) => (match s.coll g.inst g.node with | some c => f c g | none => s)
    | none => s
  match b with
  | .coll m => if m.tok.kind = .eos then send m (fun c g => s.collSend c g [m]) else s
  | .result m => send m (fun c g => s.resultSend c g [m])
  | _ => s

/-- The collective message a body is. -/
def NetBody.collMsg? : NetBody → Option CollMsg
  | .coll m => some m
  | .result m => some m
  | _ => none

/-- Under a new plan a group's tokens in the egress queues go by its planes; contributions leave them, since they are sent again (R452). -/
def State.replane (s : State) (sid group : Nat) (g : Group) : State :=
  let mine (x : EgressCopy) : Bool := match x.body.collMsg? with | some m => m.sid = sid && m.group = group | none => false
  let again (x : EgressCopy) : Bool := match x.body with | .coll m => m.tok.kind ≠ .eos | _ => false
  let move (x : EgressCopy) : EgressCopy :=
    match x.body.collMsg? with
    | some m => if mine x && x.plane.isSome then { x with plane := (g.planeFor m.index).or x.plane } else x
    | none => x
  { s with egress := s.egress.map (fun e =>
      let e := (e.1, e.2.without (fun x => mine x && again x))
      (e.1, ⟨e.2.queue.map (List.map move), e.2.waits.map (List.map move)⟩)) }

/-- A new plan: what has no result yet at some rank is sent again (R452); a rank that has one drops the second. -/
def State.collResend (s : State) (i : InstId) (n : Nat) : State :=
  match s.coll i n with
  | none => s
  | some c =>
    match s.groupOf i c with
    | some g => (c.past ++ c.kept).foldl (fun s m => s.collOffer c g m) s
    | none => s

end Sys2Proof.Machine
end

