-- ==== Sys2Proof/Machine/Fabric.lean ====
section
/-! DEFINITION. Pushes and pops of a plane (R285, R291, R314), accesses of memory nodes (R333). -/

namespace Sys2Proof.Machine

open Sys2Proof

/-- Sends a token or marker along an output channel (R293). -/
def State.sendArc (s : State) (pid : PlaneId) (ch : Nat) (t : Token) : State :=
  match tfind (s.plane pid).dst ch with
  | some (.arc dp dch) =>
    if dp.elem.tile = pid.elem.tile then s.arrive dp dch t (s.cycle + 1)
    else s.post (.arc ⟨dp, dch⟩) (.tokenArrival ⟨dp, dch⟩ t) 4
  | some (.coll i n) => s.collGive i n t
  | none => s

/-- Whether a token is the checkpoint token of the cut under way in a plane's instance (R402). -/
def State.checkpoint (s : State) (pid : PlaneId) (t : Token) : Bool :=
  match (s.plane pid).inst.bind s.inst with
  | some x =>
    x.st = .marking && t.kind = .ctrl && bitsN t.data 127 112 = 0xC4EC &&
    (match x.wave with | some w => bitsN t.data 15 0 = w.id | none => false)
  | none => false

/-- Pushes a token to an output channel (R285): its slot holds it until it is acknowledged. A plane that pushes the armed
checkpoint token chooses no further firing (R402). -/
def State.pushTok (s : State) (pid : PlaneId) (ch : Nat) (t : Token) : State :=
  let stop := s.checkpoint pid t
  (s.onPlane pid (fun p => { p with outs := tput p.outs ch t, recorded := p.recorded || stop })).sendArc pid ch t

/-- Writes a destination port (R40). -/
def State.putPort (s : State) (pid : PlaneId) (port : BitVec 5) (t : Token) : State :=
  let n := port.toNat
  if n ≤ 7 then s.pushTok pid n t
  else s.onPlane pid (fun p =>
    if n = 8 then { p with acc := t.data }
    else if n = 10 then { p with scr := tput p.scr p.sp t.data, sp := (p.sp + 1) % 64 }
    else if n = 11 then { p with sp := bitsN t.data 5 0 }
    else if n = 13 then { p with q := t.data.extractLsb' 0 4 }
    else p)

/-- Pops an input channel (R291). -/
def State.popCh (s : State) (pid : PlaneId) (ch : Nat) : State :=
  if thas (s.plane pid).latch ch then
    (s.onPlane pid (fun p => { p with latch := tdel p.latch ch })).ackTo pid ch
  else s

/-- The channels of a mask. -/
def maskList (m : Nat) : List Nat := (List.range 8).filter (fun i => m / 2 ^ i % 2 = 1)

/-! ## A rule -/

/-- Trigger fields (R47). -/
def trReady (t : BitVec 32) : Nat := bitsN t 7 0
def trPop (t : BitVec 32) : Nat := bitsN t 15 8
def trFmt (t : BitVec 32) : NFmt := laneFmt (bitsN t 28 25)
def trMode (t : BitVec 32) : Mode := Mode.ofCode (bitsN t 30 29)
def trEos (t : BitVec 32) : Bool := bitsN t 31 31 = 1
def trUrgent (t : BitVec 32) : Bool := bitsN t 24 24 = 1

/-- A rule's word and trigger; an unused slot has none (R48). -/
def State.rule (s : State) (r : RuleId) : Option (BitVec 32 × BitVec 32) :=
  match (s.plane r.plane).rules[r.slot]? with
  | some (w, t) => if w = 0 then none else some (w, t)
  | none => none

/-- The first source a rule reads and the second, as it would read them now, and sp after both (R41). -/
def Plane.two (p : Plane) (plane : Nat) (f : NFmt) (a b : Option (BitVec 5)) : Token × Token × Nat :=
  let x := match a with | some a => p.read plane f a | none => ({}, p.sp)
  let y := match b with | some b => { p with sp := x.2 }.read plane f b | none => ({}, x.2)
  (x.1, y.1, y.2)

/-! ## Memory nodes (R249, R333) -/

/-- The fields of an element rule's word (R31). -/
def wA (w : BitVec 32) : BitVec 5 := w.extractLsb' 19 5
def wB (w : BitVec 32) : BitVec 5 := w.extractLsb' 14 5
def wD (w : BitVec 32) : BitVec 5 := w.extractLsb' 9 5
def wE (w : BitVec 32) : BitVec 5 := w.extractLsb' 4 5
def wT (w : BitVec 32) : Nat := bitsN w 3 0

/-- Sends a node's translated accesses, and those at windows, in the order the node issued them: none passes one that is not yet translated
or has not popped its operands (R249); one refused by a NACK is passed, since its home is not known. -/
def State.pumpRule (s : State) (r : RuleId) : State :=
  let p := s.plane r.plane
  let sid := match p.inst.bind s.inst with | some i => i.sid | none => 0
  let go := (p.accs.filter (fun a => a.slot = r.slot)).takeWhile (fun a => a.st ≠ .asked && !a.holds)
  go.foldl (fun s a =>
    match a.st with
    | .ready l =>
      let q : MemReq := { asker := .rule r a.seq, sid := sid, loc := l, addr := a.addr, op := a.op }
      let s := s.onPlane r.plane (fun p => { p with accs := p.accs.map (fun b => if b.seq = a.seq then { b with st := .sent } else b) })
      s.post (.node r l.home) (match a.op with | .load _ => .loadPerform q | .atomic _ _ _ => .atomicPerform q | _ => .storePerform q)
    | .away w =>
      let s := s.onPlane r.plane (fun p => { p with accs := p.accs.map (fun b => if b.seq = a.seq then { b with st := .sent } else b) })
      (match p.inst with
       | some i => s.windowSend r.plane.elem.tile.core 0 sid (.rule r a.seq) w a.op (s.instOrigin i r.plane.elem.tile)
       | none => s)
    | _ => s) s

/-- Pushes the completion tokens of a plane that may be pushed (R333): each rule's in issue order, each as soon as its
output slots are free. A plane that recorded for a cut, and a held element, push nothing. -/
def State.pushDone (s : State) (pid : PlaneId) : State :=
  let p := s.plane pid
  if p.recorded || s.held pid.elem then s
  else
    p.accs.foldl (fun s a =>
      let p := s.plane pid
      match a.st, p.rules[a.slot]? with
      | .done t, some (w, _) =>
        if p.accs.any (fun b => b.slot = a.slot && b.seq < a.seq) then s
        else
          let ports : List (BitVec 5) := if wT w = 3 then [] else if wT w = 1 then [wD w, wE w] else [wD w]
          if ports.all (fun q => 7 < q.toNat || p.free q.toNat) then
            ports.foldl (fun s q => s.putPort pid q t) (s.setPlane pid { p with accs := p.accs.filter (fun b => b.seq ≠ a.seq) })
          else s
      | _, _ => s) s

/-- Whether a rule pushes no completion token (R335, R336). -/
def State.silent (s : State) (r : RuleId) : Bool :=
  match s.rule r with
  | some (w, _) => wT w = 3
  | none => false

/-- An access of a memory node has been performed: its completion token (R333 to R336), poisoned where what it read or a token it was made
from is (R464); with TAG 0x3 it counts no more. -/
def State.nodeDone (s : State) (r : RuleId) (seq : Nat) (x : NodeAcc) (a : Ans) : State :=
  match a with
  | .data bs bad =>
    let t : Token := match x.op with
      | .store _ _ => { x.tok with kind := .data }
      | .atomic _ _ _ => if bad then { poison := true } else { data := BitVec.ofNat 128 (natOf bs), poison := x.tok.poison }
      | _ => { data := BitVec.ofNat 128 (natOf bs), poison := bad || x.tok.poison }
    if s.silent r then s.onPlane r.plane (fun p => { p with accs := p.accs.filter (fun y => y.seq ≠ seq) })
    else (s.onPlane r.plane (fun p => { p with accs := p.accs.map (fun y => if y.seq = seq then { y with st := .done t } else y) })).pushDone r.plane
  | _ => s

/-- An access of a memory node is answered or fails (R277, R333). Once one has failed, the tokens of those issued after it are never
pushed, since tokens are pushed in issue order; the accesses are performed. -/
def State.nodeAnswer (s : State) (r : RuleId) (seq : Nat) (a : Ans) : State :=
  let p := s.plane r.plane
  match p.accs.find? (fun x => x.seq = seq && x.slot = r.slot) with
  | none => s
  | some x =>
    let put (st : NodeSt) : State :=
      s.setPlane r.plane { p with accs := p.accs.map (fun y => if y.seq = seq then { y with st := st } else y) }
    let stall (c : Cause) : State :=
      let accs := (p.accs.filter (fun y => y.seq ≠ seq)).filterMap (fun y =>
        if y.slot = r.slot && seq < y.seq then (match y.st with | .done _ => none | _ => some { y with late := true }) else some y)
      let stuck := if x.late then p.stuck else p.stuck ++ [r.slot]
      ((s.setPlane r.plane { p with accs := accs, stuck := stuck }).ruleFault r c x.addr none).pumpRule r
    match a with
    | .data _ _ =>
      if x.late then s.setPlane r.plane { p with accs := p.accs.filter (fun y => y.seq ≠ seq) } else s.nodeDone r seq x a
    | .nack => ((put .nacked).ruleFault r .pageFault x.addr (some (.rule r seq))).pumpRule r
    | .fault c => stall c
    | _ => s

/-- A memory node pops its operands (R277, R291): the channels of its pop mask; and `sp` moves past a scratch source (R41), at the same
moment, which for an address that must be translated is that of the answer (log 73). -/
def State.popOperands (s : State) (r : RuleId) : State :=
  match s.rule r with
  | none => s
  | some (w, t) =>
    let b := if bitsN w 31 24 = 0xE9 then some (wB w) else none
    let s := s.onPlane r.plane (fun p => { p with sp := (p.two r.plane.plane (trFmt t) (some (wA w)) b).2.2 })
    (maskList (trPop t)).foldl (fun s c => s.popCh r.plane c) s

/-- A rule's translated access that has not popped its operands yet pops them and goes on, once no containment holds its element (R277,
R467). -/
def State.takeOperands (s : State) (r : RuleId) : State :=
  let mine (y : NodeAcc) : Bool := y.slot = r.slot && y.holds && (match y.st with | .ready _ => true | _ => false)
  if s.held r.plane.elem || !(s.plane r.plane).accs.any mine then s
  else ((s.popOperands r).onPlane r.plane (fun p => { p with accs := p.accs.map (fun y =>
    if mine y then { y with holds := false } else y) })).pumpRule r

/-- A translation of a node's access is answered (R274, R277): one that may go on pops its operands if it has not yet. -/
def State.nodeXlate (s : State) (r : RuleId) (seq : Nat) (a : XAns) : State :=
  match a with
  | .ok l =>
    (((s.onPlane r.plane (fun p => { p with accs := p.accs.map (fun y =>
      if y.seq = seq && y.slot = r.slot && y.st = .asked then { y with st := .ready l } else y) })).takeOperands r).pumpRule r)
  | .nack => s.nodeAnswer r seq .nack
  | .access => s.nodeAnswer r seq (.fault .access)

/-- A resolved fault: the node makes the access again (R277). -/
def State.nodeResume (s : State) (r : RuleId) (seq : Nat) : State :=
  let p := s.plane r.plane
  match p.accs.find? (fun x => x.seq = seq && x.slot = r.slot && x.st = .nacked), p.inst.bind s.inst with
  | some x, some i =>
    (s.setPlane r.plane { p with accs := p.accs.map (fun y => if y.seq = seq then { y with st := .asked } else y) }).post .none
      (.translation (stationOf r.plane.elem.tile.core)
        ⟨.rule r seq, i.sid, bitsN x.addr 56 0, match x.op with | .load _ => .read | _ => .write⟩)
  | _, _ => s

/-- What an access of a plane's memory node is about (R333): the checks of R213 with the plane's SID. -/
def State.nodeTarget (s : State) (p : PlaneId) (addr : Word) (len : Nat) (win : Bool) : Except Stop Target :=
  checkAddrOf s p.elem.tile.core 0 (((s.plane p).inst.bind s.inst).map Inst.sid |>.getD 0) addr len len win

/-- Whether a firing of a memory node pops its operands in its cycle: not where a check fails, where the address must be translated first
(R277), or where no new access begins (R26). -/
def State.popsNow (s : State) (p : PlaneId) (addr : Word) (len : Nat) (win : Bool) : Bool :=
  match s.nodeTarget p addr len win with
  | .ok (.here _) => true
  | .ok (.window _) => s.dispatches (((s.plane p).inst.bind s.inst).map Inst.sid |>.getD 0)
  | _ => false

/-- A rule chosen for this cycle does not fire in it: its access fails its checks, or may not begin (R26, R333). -/
def State.unchosen (s : State) (r : RuleId) : State :=
  let t := s.tile r.plane.elem.tile
  s.setTile r.plane.elem.tile { t with chosen := dropFirst (· = r) t.chosen, skipped := t.skipped.filter (· ≠ r) }

/-- Issues an access of a memory node (R333): the checks of R213, then the home, the station or the window, where after a JOB_END no
new access begins (R26). A failed check stalls the rule and pops nothing; an access that must be translated pops nothing before its
answer (R277). -/
def State.nodeIssue (s : State) (r : RuleId) (addr : Word) (len : Nat) (op : MemOp) (tok : Token)
    (fired : State → State) : State :=
  let p := s.plane r.plane
  match p.inst.bind s.inst with
  | some i =>
    let core := r.plane.elem.tile.core
    match s.nodeTarget r.plane addr len (match op with | .atomic _ _ _ => false | _ => true) with
    | .error e => ((s.unchosen r).setPlane r.plane { p with stuck := p.stuck ++ [r.slot] }).ruleFault r e.cause addr none
    | .ok tg =>
      let add (st : NodeSt) : State :=
        let acc : NodeAcc := { slot := r.slot, seq := p.nseq, addr := addr, op := op, tok := tok, st := st, holds := st = .asked }
        fired (s.setPlane r.plane { p with accs := p.accs ++ [acc], nseq := p.nseq + 1 })
      match tg with
      | .here l => ((add (.ready l)).popOperands r).pumpRule r
      | .global va =>
        (add .asked).post .none (.translation (stationOf core)
          ⟨.rule r p.nseq, i.sid, va, match op with | .load _ => .read | _ => .write⟩)
      | .window w =>
        if s.dispatches i.sid then ((add (.away w)).popOperands r).pumpRule r else s.unchosen r
  | none => s

end Sys2Proof.Machine
end

