-- ==== Sys2Proof/Machine/Store.lean ====
section
/-! DEFINITION. Store tiles (R315 to R331): write and read ports, passes, closing, notices, towpath tokens. -/

namespace Sys2Proof.Machine

open Sys2Proof

/-- 16-byte words of a slot or line. -/
def StoreRec.words (r : StoreRec) : Nat := r.size / 16

/-- The place of a word of a slot, line or FIFO entry. -/
def wordLoc (g : GenId) (r : StoreRec) (slot word : Nat) : Loc := .tile g.tile (r.base + slot * r.size + 16 * word)

/-- The program's fields (R324): extents, strides, eof, fin, fcode; the default reads a slot or line once in order. -/
structure Prog where
  e0 : Nat
  e1 : Nat
  e2 : Nat
  s0 : Int
  s1 : Int
  s2 : Int
  eof : Bool
  fin : Bool
  fcode : Nat
  deriving DecidableEq, Repr

def Gen.program (x : Gen) (r : StoreRec) : Prog :=
  match x.prog with
  | none => ⟨r.words, 1, 1, 1, 0, 0, false, false, 0⟩
  | some v =>
    let i16 (n : Nat) : Int := (BitVec.ofNat 16 n).toInt
    ⟨bitsN v 15 0 + 1, bitsN v 47 32 + 1, bitsN v 79 64 + 1, i16 (bitsN v 31 16), i16 (bitsN v 63 48),
      i16 (bitsN v 95 80), bitsN v 96 96 = 1, bitsN v 97 97 = 1, bitsN v 107 98⟩

/-- Sorts by a key, ascending; equal keys keep their order. -/
def insKey {α : Type} (k : α → Nat) (x : α) : List α → List α
  | [] => [x]
  | y :: r => if k x < k y then x :: y :: r else y :: insKey k x r
def sortKey {α : Type} (k : α → Nat) (l : List α) : List α := l.foldl (fun acc x => insKey k x acc) []

/-- The union of ranges, overlapping ones joined, in ascending order (R337). -/
def joinRanges (l : List (Nat × Nat)) : List (Nat × Nat) :=
  (sortKey Prod.fst l).foldl (fun acc r =>
    match acc.getLast? with
    | some p => if r.1 < p.1 + p.2 then acc.dropLast ++ [(p.1, max p.2 (r.1 + r.2 - p.1))] else acc ++ [r]
    | none => [r]) []

/-- The ranges of a store tile that a cut saves (R337, R403, R406). -/
def State.tileRanges (s : State) (i : InstId) (img : List Byte) (id : Nat) (t : TileId) : List (Nat × Nat) :=
  let gens := (imgStores img).filter (fun r => s.tileOf i (recN r 0 2 / 4) (recN r 2 2 / 4) = t)
  let bufs := (gens.filter (fun r => id = 0xFFFF || recN r 5 1 = 1)).map (fun r => (recN r 8 4, recN r 12 4 * recN r 16 4))
  let live := ((imgChecks img).filter (fun r => id ≠ 0xFFFF && recN r 0 2 = id &&
    s.tileOf i (recN r 2 1 / 4) (recN r 3 1 / 4) = t)).map (fun r => (recN r 4 4, recN r 8 4))
  joinRanges (bufs ++ live)

/-- Keeps what a cut saves of a generator (R384, R403): once it has recorded and its hauls have stopped. -/
def State.snapGen (s : State) (g : GenId) : State :=
  let x := s.gen g
  match x.cfg with
  | none => s
  | some c =>
    match s.inst c.inst with
    | none => s
    | some n =>
      match n.wave with
      | none => s
      | some w =>
        let stopped : Bool := [x.prod, x.cons].all (fun e => match e with
          | some (.haul k tag) => tget s.tags TagState.free (k, tag) = .stopped
          | _ => true)
        if n.st = .marking && x.recorded && stopped && !w.snaps.any (fun z => z.gen = g) then
          let bytes := (s.tileRanges c.inst (s.image n.sid n.image) w.id g.tile).flatMap (fun r =>
            (List.range r.2).map (fun k => (s.byte (.tile g.tile (r.1 + k)), s.poisoned (.tile g.tile (r.1 + k)) 1)))
          s.setInst c.inst { n with wave := some { w with snaps := w.snaps ++ [⟨g, x, bytes⟩] } }
        else s

/-- Places a token in a generator's read port (R315). -/
def State.placePort (s : State) (g : GenId) (t : Token) : State :=
  s.onGen g (fun x => { x with rport := some ⟨t, s.cycle + 4⟩ })

/-- Empties a slot or line: its full bit, and a notice to a bound engine producer (R329). -/
def State.emptySlot (s : State) (g : GenId) (slot : Nat) : State :=
  let x := s.gen g
  let s := s.setGen g { x with full := x.full.filter (· ≠ slot) }
  match x.prod with
  | some _ => (s.onGen g (fun x => { x with nseq := (x.nseq + 1) % 65536 })).post (.notice g) (.freedSlotNotice ⟨g, slot, x.nseq⟩)
  | none => s

/-- Sets the full bit of the slot at the fill index (R320, R322). -/
def Gen.fillSlot (x : Gen) (n : Nat) : Gen :=
  { x with full := x.full ++ [x.fill], fill := (x.fill + 1) % n, part := 0 }

/-- The token of a word of SRAM. -/
def State.wordTok (s : State) (l : Loc) (k : Kind) : Token :=
  { kind := k, data := BitVec.ofNat 128 (natOf (s.bytes l 16)), poison := s.poisoned l 16 }

/-- The word a pass reads at counters i0, i1, i2 (R325). -/
def passLoc (g : GenId) (r : StoreRec) (x : Gen) (p : Prog) (i : Nat × Nat × Nat) : Loc :=
  let w := if r.mode = 2 then r.count * r.words else r.words
  let off := ((i.1 * p.s0 + i.2.1 * p.s1 + i.2.2 * p.s2) % (w : Int)).toNat
  if r.mode = 2 then wordLoc g r ((x.drain + off / r.words) % r.count) (off % r.words)
  else wordLoc g r x.drain off

/-- The next counters of a pass; i2 = e2 once every word is placed. -/
def Prog.next (p : Prog) (i : Nat × Nat × Nat) : Nat × Nat × Nat :=
  if i.1 + 1 < p.e0 then (i.1 + 1, i.2.1, i.2.2)
  else if i.2.1 + 1 < p.e1 then (0, i.2.1 + 1, i.2.2)
  else (0, 0, i.2.2 + 1)

/-- A generator with a free read port goes on (R321, R325): a FIFO gives its oldest entry; a pass its next word; after
the last word's acknowledgement the pass ends: EOF, the full bit, the notice, the towpath token. -/
def State.genPump (s : State) (g : GenId) : State :=
  let x := s.gen g
  match x.cfg, x.rport with
  | some c, none =>
    if x.recorded then s
    else if c.recd.mode = 1 then
      (match x.kinds with
       | k :: ks =>
         if c.reader then
           (s.setGen g { x with kinds := ks, head := (x.head + 1) % c.recd.count }).placePort g
             (s.wordTok (wordLoc g c.recd x.head 0) k)
         else s
       | [] => s)
    else
      (match x.pass with
       | none => s
       | some i =>
         let p := x.program c.recd
         if i.2.2 < p.e2 then
           (s.setGen g { x with pass := some (p.next i) }).placePort g (s.wordTok (passLoc g c.recd x p i) .data)
         else
           let s := if p.eof then s.placePort g { kind := .eof } else s
           let s := (s.onGen g (fun x => { x with pass := none })).emptySlot g x.drain
           let s := s.onGen g (fun y => { y with drain := (x.drain + 1) % c.recd.count })
           if p.fin then s.emitTowpath g.tile.core p.fcode else s)
  | _, _ => s

/-- Whether the slots let a pass begin (R320, R322). -/
def Gen.passable (x : Gen) (r : StoreRec) : Bool :=
  if r.mode = 2 then x.full.length = r.count else r.mode = 0 && x.full.contains x.drain

/-- Whether a generator begins a pass now (R327). -/
def State.passReady (s : State) (g : GenId) : Bool :=
  let x := s.gen g
  match x.cfg with
  | some c => c.reader && x.run && x.pass = none && x.passable c.recd && !x.recorded
  | none => false

/-- R325: a pass begins. -/
def execPassStart (s : State) : Res :=
  match s.arg with
  | .passStart g =>
    if s.passReady g then .next ((s.onGen g (fun x => { x with pass := some (0, 0, 0) })).genPump g) else .next s
  | _ => .next s

/-- Whether a generator takes the token at its write port now (R320, R321, R323). -/
def State.portReady (s : State) (g : GenId) : Bool :=
  let x := s.gen g
  match x.cfg, x.wport with
  | some c, some t =>
    if x.closed || x.recorded then false
    else if c.recd.mode = 1 then x.kinds.length < c.recd.count
    else !x.full.contains x.fill && (t.kind ≠ .ctrl || x.pass = none)
  | _, _ => false

/-- Whether a closed buffer reopens now (R323). -/
def State.reopenReady (s : State) (g : GenId) : Bool :=
  let x := s.gen g
  match x.cfg with
  | some c =>
    x.closed && !x.recorded &&
      (if c.reader then x.pass = none && x.rport = none && !x.passable c.recd else x.full = [])
  | none => false

/-- R323: a closed buffer places its EOS, empties what is still full, and is open again. -/
def execBufferReopen (s : State) : Res :=
  match s.arg with
  | .bufferReopen g =>
    let x := s.gen g
    if s.reopenReady g then
      let reader := match x.cfg with | some c => c.reader | none => false
      let s := if reader then x.full.foldl (fun s i => s.emptySlot g i) (s.placePort g { kind := .eos }) else s
      .next (s.onGen g (fun x => { x with fill := 0, drain := 0, part := 0, closed := false }))
    else .next s
  | _ => .next s

/-- Applies a start or stop token (R321, R327). -/
def State.towpath (s : State) (g : GenId) (run : Bool) : State :=
  match (s.gen g).cfg with
  | some c => if c.recd.mode = 1 then s else s.onGen g (fun x => { x with run := run })
  | none => s

/-- R327: a towpath start token moves a generator to RUN. -/
def execTowpathStart (s : State) : Res :=
  match s.arg with
  | .towpathStart g => .next (s.towpath g true)
  | _ => .next s

/-- R327: a towpath stop token moves a generator to IDLE. -/
def execTowpathStop (s : State) : Res :=
  match s.arg with
  | .towpathStop g => .next (s.towpath g false)
  | _ => .next s

/-- The consumer engine or an `hslot` empties the drain slot (R374, R382). -/
def State.emptyDrain (s : State) (g : GenId) : State :=
  let x := s.gen g
  match x.cfg with
  | some c => (s.emptySlot g x.drain).onGen g (fun y => { y with drain := (x.drain + 1) % c.recd.count })
  | none => s

/-- Binds an engine to a producer side: one notice for each empty slot, in ring order from the fill index (R329);
the first has seq 0, since none was sent before it (log 157). -/
def State.bindProd (s : State) (g : GenId) (e : Engine) : State :=
  let x := s.gen g
  match x.cfg with
  | some c =>
    let free := ((List.range c.recd.count).map (fun i => (x.fill + i) % c.recd.count)).filter (fun i => !x.full.contains i)
    let s := s.setGen g { x with prod := some e, nseq := free.length }
    (List.range free.length).foldl (fun s i =>
      match free[i]? with
      | some k => s.post (.notice g) (.freedSlotNotice ⟨g, k, i⟩)
      | none => s) s
  | none => s

/-- Whether an EOS has been written that is not yet delivered to the read port (R331, R411; log 132). -/
def Gen.eosHeld (x : Gen) : Bool := x.closed || x.kinds.contains .eos

/-- The status token of a generator (R331). -/
def Gen.status (x : Gen) : BitVec 128 :=
  let fifo : Bool := match x.cfg with | some c => decide (c.recd.mode = 1) | none => false
  let mode := match x.cfg with | some c => c.recd.mode | none => 3
  let used := if fifo then x.kinds.length else x.full.length
  let mask := x.full.foldl (fun m i => m + 2 ^ i) 0
  let b (c : Bool) : Nat := if c then 1 else 0
  BitVec.ofNat 128 (mode + 4 * b (x.run && x.cfg.isSome) + 8 * b x.eosHeld + 16 * b x.pass.isSome + 256 * (if fifo then 0 else x.fill)
    + 2 ^ 16 * (if fifo then 0 else x.drain) + 2 ^ 32 * used + 2 ^ 64 * (if fifo then 0 else mask))

end Sys2Proof.Machine
end

