-- ==== Sys2Proof/Machine/Firing.lean ====
section
/-! DEFINITION. When a rule fires and what every firing does (R288 to R291, R395, R471, R529): readiness, the choice of a
cycle's firings, the shared mould of element instructions. -/

namespace Sys2Proof.Machine

open Sys2Proof

/-! ## What a rule needs -/

/-- The ports a tag action pushes to (R45). -/
def tagPorts (w : BitVec 32) : List (BitVec 5) :=
  let t := wT w
  if t = 1 then [wD w, wE w] else if t = 2 then [wE w] else if t = 3 || (8 ≤ t && t ≤ 11) then [] else [wD w]

/-- The data channel `merge` takes from (R299). -/
def mergeSel (p : Plane) (f : NFmt) (a : BitVec 5) (k : BitVec 10) : Nat :=
  match tfind p.latch a.toNat with
  | some l => if laneTest f l.tok.data then k.toNat % 8 else k.toNat / 8 % 8
  | none => 0

/-- The channel `mergeu` takes from, if any (R300). -/
def mergeuSel (p : Plane) (cycle : Nat) (a b : BitVec 5) : Option Nat :=
  let c (x : BitVec 5) : Option Latch := (p.headAt x.toNat cycle).bind (fun l => if l.tok.kind = .eos then none else some l)
  match c a, c b with
  | some x, some y => some (if y.since < x.since then b.toNat else a.toNat)
  | some _, none => some a.toNat
  | none, some _ => some b.toNat
  | none, none => none

/-- The heads `bmexp` needs in its phase (R338): none where they are not there. -/
def bmHeads (p : Plane) (cycle : Nat) (a b : BitVec 5) : Option (List Nat) :=
  let k (x : BitVec 5) : Option Kind := (p.headAt x.toNat cycle).map (fun l => l.tok.kind)
  match p.bm.phase with
  | 0 => match k a, k b with
    | some .eos, some .eos => some [a.toNat, b.toNat]
    | some .eos, _ => none
    | some _, _ => some [a.toNat]
    | none, _ => none
  | 1 => if (k a).isSome then some [a.toNat] else none
  | 2 => if (k b).isSome then some [b.toNat] else none
  | 3 => some []
  | _ => none

/-- The ports a firing of `bmexp` pushes to (R338). -/
def bmPorts (p : Plane) (cycle : Nat) (w : BitVec 32) : List (BitVec 5) :=
  let eos (x : BitVec 5) : Bool := match p.headAt x.toNat cycle with | some l => l.tok.kind = .eos | none => false
  match p.bm.phase with
  | 0 => if eos (wA w) then tagPorts w else []
  | 2 => if eos (wB w) then [] else tagPorts w
  | 3 => tagPorts w
  | _ => []

/-- The heads of a rule (R288, R299, R300, R338), with the cycle each became a head: none where one is missing. -/
def State.ruleHeads (s : State) (r : RuleId) (w t : BitVec 32) : Option (List Latch) :=
  let p := s.plane r.plane
  let chans (l : List Nat) : Option (List Latch) := l.mapM (fun c => p.headAt c s.cycle)
  match readElement w with
  | some (.merge a k _ _) => chans [a.toNat, mergeSel p (trFmt t) a k]
  | some (.mergeu a b _ _) => (mergeuSel p s.cycle a b).bind (fun c => chans [c])
  | some (.bmexp a b _ _ _) => (bmHeads p s.cycle a b).bind chans
  | some (.sld g _ _ _) =>
    (chans (maskList (trReady t))).bind (fun l =>
      if g.toNat ≤ 3 then
        (match (s.gen ⟨r.plane.elem.tile.pair, g.toNat⟩).rport with
         | some x => if x.since ≤ s.cycle then some (x :: l) else none
         | none => none)
      else some l)
  | _ => chans (maskList (trReady t))

/-- Condition 3 of R288, and the instructions that skip it (R300, R304, R306, R338); of a read port, the first of the heads, a rule with
eos = 1 takes only an EOS (R330). -/
def eosOk (w t : BitVec 32) (heads : List Latch) : Bool :=
  match readElement w with
  | some (.drop _ _) => true
  | some (.sync _ _ _ _) => true
  | some (.mergeu _ _ _ _) => true
  | some (.bmexp _ _ _ _ _) => true
  | some (.sld g _ _ _) =>
    (heads.any (fun l => l.tok.kind = .eos) = trEos t) && (3 < g.toNat || (heads.head?.map (fun l => l.tok.kind)) = some .eos || !trEos t)
  | _ => heads.any (fun l => l.tok.kind = .eos) = trEos t

/-- Whether an exit rule of a twin copy may run further ahead (R471): at most 64 firings. -/
def State.twinRoom (s : State) (r : RuleId) : Bool :=
  match (s.plane r.plane).inst with
  | none => true
  | some i =>
    s.twins.all (fun w =>
      let lead : Option Bool := if w.a = i then some true else if w.b = i then some false else none
      match lead with
      | none => true
      | some me =>
        let c := s.elemXY i r.plane.elem
        match tfind w.ahead (c.1, c.2, r.slot) with
        | some l => l.aLeads ≠ me || l.sent.length < 64
        | none => true)

/-- What a rule needs beside heads and q (R288 condition 4, R332, R333, R471); `extra` says which occupied slots count as
free (R529). -/
def State.ruleRoom (s : State) (r : RuleId) (w t : BitVec 32) (extra : Nat → Bool) : Bool :=
  let p := s.plane r.plane
  let f := trFmt t
  let room (l : List (BitVec 5)) : Bool := l.all (fun q => 7 < q.toNat || p.free q.toNat || extra q.toNat)
  let few : Bool := (p.accs.filter (fun a => a.slot = r.slot)).length < 8
  match readElement w with
  | some (.steer a b d e) =>
    room [if laneTest f (p.two r.plane.plane f (some a) (some b)).2.1.data then d else e]
  | some (.guard a b d) => if laneTest f (p.two r.plane.plane f (some a) (some b)).2.1.data then room [d] else true
  | some (.mld _ _ _ _) => few
  | some (.mst _ _ _ _ _) => few && s.twinRoom r
  | some (.matom _ _ _ _) => few && s.twinRoom r
  | some (.sst _ g _) => (s.gen ⟨r.plane.elem.tile.pair, g.toNat⟩).wport = none && s.twinRoom r
  | some (.bmexp _ _ _ _ _) => room (bmPorts p s.cycle w)
  | some (.xsend _ d) => room [d] && s.twinRoom r
  | some _ => room (tagPorts w)
  | none => false

/-- Conditions 1 to 4 of R288. -/
def State.could (s : State) (r : RuleId) (extra : Nat → Bool) : Bool :=
  match s.rule r with
  | none => false
  | some (w, t) =>
    (((s.plane r.plane).q.toNat &&& bitsN t 19 16) == bitsN t 23 20) &&
    (match s.ruleHeads r w t with
     | some h => eosOk w t h
     | none => false) && s.ruleRoom r w t extra

/-- Values a `bmexp` token packs. -/
def NFmt.vals (f : NFmt) : Nat := 128 / f.bits

/-- The channels a firing of a rule pops in its cycle (R277, R291, R299, R300, R303, R338). -/
def State.popsOf (s : State) (r : RuleId) : List Nat :=
  let p := s.plane r.plane
  match s.rule r with
  | none => []
  | some (w, t) =>
    let f := trFmt t
    let mem (a : BitVec 5) (len : Nat) (win : Bool) : List Nat :=
      if s.popsNow r.plane ((p.read r.plane.plane f a).1.data.extractLsb' 0 64) len win then maskList (trPop t) else []
    match readElement w with
    | some (.merge a k _ _) => [a.toNat, mergeSel p f a k]
    | some (.mergeu a b _ _) => (mergeuSel p s.cycle a b).toList
    | some (.rep a b _ _ _) =>
      let n := bitsN (p.two r.plane.plane f (some a) (some b)).2.1.data 31 0
      if max 1 n ≤ p.rc + 1 then maskList (trPop t) else []
    | some (.bmexp a b _ _ _) =>
      let k (x : BitVec 5) : Token := match tfind p.latch x.toNat with | some l => l.tok | none => {}
      (match p.bm.phase with
       | 0 => if (k a).kind = .eos then [a.toNat, b.toNat] else [a.toNat]
       | 1 => if (k a).kind ≠ .eos && (k a).data.cpop.toNat = p.bm.n then [a.toNat] else []
       | 2 => if (k b).kind ≠ .eos && (p.bm.lane + 1 = f.vals || p.bm.out + 1 = p.bm.n) then [b.toNat] else []
       | _ => [])
    | some (.mld a _ _ _) => mem a 16 true
    | some (.mst a _ _ _ _) => mem a 16 true
    | some (.matom a k _ _) => mem a (if k = 7 then 4 else 8) false
    | _ => maskList (trPop t)

/-- Whether an access whose operands stand at their latches until it is translated keeps a rule from firing: the rule's own, or one that
pops a channel the rule would pop (R277, log 73). -/
def State.takes (s : State) (r : RuleId) (a : NodeAcc) : Bool :=
  let pop := match s.rule ⟨r.plane, a.slot⟩ with | some (_, t) => maskList (trPop t) | none => []
  a.holds && (a.slot = r.slot || (s.popsOf r).any pop.contains)

/-- Condition 5 of R288: no memory fault stalls the rule, no access waits with the operands it would pop, and containment does not hold its
element. -/
def State.unheld (s : State) (r : RuleId) : Bool :=
  let p := s.plane r.plane
  !s.held r.plane.elem && !p.stuck.contains r.slot &&
    !p.accs.any (fun a => s.takes r a || (a.slot = r.slot && a.st = .nacked))

/-- Whether a rule is ready under R288, were its plane active. -/
def State.readyWith (s : State) (r : RuleId) (extra : Nat → Bool) : Bool := s.unheld r && s.could r extra

/-- Readiness on the state as it is. -/
def State.ready (s : State) (r : RuleId) : Bool := s.readyWith r (fun _ => false)

/-! ## The choice of a cycle (R289, R529) -/

/-- The rule slots of a plane. -/
def PlaneId.rules (p : PlaneId) : List RuleId := (List.range 16).map (RuleId.mk p)

/-- The earliest cycle in which one of a rule's heads became one; none for a rule without heads (R289). -/
def State.ruleKey (s : State) (r : RuleId) : Option Nat :=
  match s.rule r with
  | some (w, t) => ((s.ruleHeads r w t).getD []).foldl (fun m l => some (match m with | some n => min n l.since | none => l.since)) none
  | none => none

/-- Whether key a is smaller than key b. -/
def keyLt : Option Nat → Option Nat → Bool
  | some a, some b => a < b
  | some _, none => true
  | none, _ => false

/-- Whether a rule is urgent. -/
def State.urgent (s : State) (r : RuleId) : Bool :=
  match s.rule r with
  | some (_, t) => trUrgent t
  | none => false

/-- The rule an element fires among the ready ones (R289). -/
def State.pick (s : State) (p : PlaneId) (l : List RuleId) : Option RuleId :=
  let u := l.filter s.urgent
  let n := l.filter (fun r => !s.urgent r)
  let pool := if u ≠ [] && (n = [] || (s.plane p).ucount < 8) then u else n
  pool.foldl (fun b r => match b with
    | none => some r
    | some x => if keyLt (s.ruleKey r) (s.ruleKey x) then some r else some x) none

/-- The elements of a tile that an element's output channels feed on a plane (R529). -/
def State.feeds (s : State) (t : TileId) (plane e : Nat) : List Nat :=
  (s.plane ⟨⟨t, e⟩, plane⟩).dst.filterMap (fun x => match x.2 with
    | .arc p _ => if p.elem.tile = t then some p.elem.elem else none
    | _ => none)

/-- Elements reachable along a plane's in-tile arcs. -/
def State.reaches (s : State) (t : TileId) (plane : Nat) : Nat → List Nat → List Nat
  | 0, l => l
  | n + 1, l => s.reaches t plane n ((l ++ l.flatMap (s.feeds t plane)).eraseDups)

/-- Whether an arc inside a tile lies on a directed cycle of the plane's in-tile arcs (R529). -/
def State.cyclic (s : State) (t : TileId) (plane src dst : Nat) : Bool := (s.reaches t plane 16 [dst]).contains src

/-- The slots of an element that count as free (R529): the consumer's firing chosen for this cycle pops the channel, and
the arc is on no cycle. -/
def State.freedBy (s : State) (t : TileId) (plane e : Nat) (chosen : List RuleId) (ch : Nat) : Bool :=
  match tfind (s.plane ⟨⟨t, e⟩, plane⟩).dst ch with
  | some (.arc p c) =>
    p.elem.tile = t && !s.cyclic t plane e p.elem.elem &&
    chosen.any (fun r => r.plane = p && (s.popsOf r).contains c)
  | _ => false

/-- The choices of a cycle, consumers before producers (R529): `n` bounds the elements still to decide. -/
def State.chooseFrom (s : State) (t : TileId) (plane : Nat) : Nat → List Nat → List RuleId → List RuleId
  | 0, _, acc => acc
  | n + 1, todo, acc =>
    let free (e : Nat) : Bool := (s.feeds t plane e).all (fun d => !todo.contains d || s.cyclic t plane e d)
    match todo.find? free with
    | none => acc
    | some e =>
      let p : PlaneId := ⟨⟨t, e⟩, plane⟩
      let l := p.rules.filter (fun r => s.readyWith r (s.freedBy t plane e acc))
      s.chooseFrom t plane n (todo.filter (· ≠ e)) (acc ++ (s.pick p l).toList)

/-- The urgent firings among those chosen for a cycle that were chosen while a rule that is not urgent was ready (R290, R529). -/
def State.chosenOver (s : State) (t : TileId) (plane : Nat) (l : List RuleId) : List RuleId :=
  l.filter (fun r => s.urgent r &&
    r.plane.rules.any (fun x => !s.urgent x && s.readyWith x (s.freedBy t plane r.plane.elem.elem l)))

/-- Whether a plane's rules may fire (R390, R395, R402). -/
def State.mayFire (s : State) (p : PlaneId) : Bool :=
  let x := s.plane p
  match x.inst.bind s.inst with
  | some i => (i.st = .active || i.st = .swapping || i.st = .marking) && !x.recorded
  | none => false

/-- The firings of a plane of a tile, were it active. -/
def State.choose (s : State) (t : TileId) (plane : Nat) : List RuleId :=
  let es := (List.range 16).filter (fun e => s.mayFire ⟨⟨t, e⟩, plane⟩ && (s.plane ⟨⟨t, e⟩, plane⟩).rules ≠ [])
  s.chooseFrom t plane es.length es []

/-- Whether a plane is eligible (R395). -/
def State.eligible (s : State) (t : TileId) (plane : Nat) : Bool :=
  ((s.tile t).w[plane]?).getD 0 ≠ 0 && s.choose t plane ≠ []

/-! ## One firing -/

/-- What an instruction's result is: the plane after its sources were read, the result and the second one (R46), acc
after the pushes (R302, R311), the channels popped instead of the pop mask, the writes instead of the tag action's. -/
structure Fired where
  p : Plane
  x : Token
  y : Token
  acc : Option (BitVec 128) := none
  pops : Option (List Nat) := none
  writes : Option (List (BitVec 5 × Token)) := none
  deriving DecidableEq, Repr

/-- The q update of a tag action (R45). -/
def qAction (w : BitVec 32) (bit : Bool) (p : Plane) : Plane :=
  let t := wT w
  let set (n : Nat) (v : Bool) : Plane :=
    { p with q := if v then p.q ||| (1#4 <<< n) else p.q &&& ~~~(1#4 <<< n) }
  if 4 ≤ t && t ≤ 7 then set (t - 4) bit
  else if 8 ≤ t && t ≤ 11 then set (t - 8) bit
  else if 12 ≤ t then set (t - 12) true
  else p

/-- The writes of a firing: the tag action's, the second result to DB (R45, R46). -/
def tagWrites (w : BitVec 32) (x y : Token) : List (BitVec 5 × Token) :=
  let t := wT w
  if t = 1 then [(wD w, x), (wE w, y)] else if t = 2 then [(wE w, y)]
  else if t = 3 || (8 ≤ t && t ≤ 11) then [] else [(wD w, x)]

/-- Records an exit's firing for its twin (R471): the first difference of an arming raises TWIN_MISMATCH. -/
def State.twinExit (s : State) (r : RuleId) (sent : List (BitVec 128 × Kind)) : State :=
  match (s.plane r.plane).inst with
  | none => s
  | some i =>
    let X := (s.elemXY i r.plane.elem).1
    let Y := (s.elemXY i r.plane.elem).2
    let key := (X, Y, r.slot)
    let v := sent
    match s.twins.find? (fun w => w.a = i || w.b = i) with
    | none => s
    | some w =>
      let me : Bool := w.a = i
      let put (z : Twin) : State := { s with twins := s.twins.map (fun o => if o.a = w.a then z else o) }
      match tfind w.ahead key with
      | none => put { w with ahead := tput w.ahead key ⟨me, 0, [v]⟩ }
      | some ⟨who, k, l⟩ =>
        if who = me || l = [] then put { w with ahead := tput w.ahead key ⟨me, k, l ++ [v]⟩ }
        else
          match l with
          | u :: rest =>
            let s := put { w with ahead := tput w.ahead key ⟨who, k + 1, rest⟩, raised := w.raised || u ≠ v }
            if u = v || w.raised then s
            else
              let o := s.instOrigin w.a (s.planeAt w.a X Y).elem.tile
              let kinds := v.map Prod.snd ≠ u.map Prod.snd
              s.deliverFault o (faultWord .twinMismatch 1 w.a.plane 0 0 0 o.rank false)
                (planeWord (s.planeAt w.a X Y) r.slot) (fld (k % 2 ^ 32) 0 ||| fld (if kinds then 1 else 0) 32) 0 none
          | [] => s

/-- What a replay window copies of a plane (R468). -/
def Plane.copy (p : Plane) : PlaneCopy :=
  { acc := p.acc, q := p.q, sp := p.sp, scr := p.scr, flags := p.flags, g := p.g, ucount := p.ucount, rc := p.rc, bm := p.bm,
    latch := p.latch, rank := p.rank }

/-- A plane with the registers of a copy; its latches stay. -/
def Plane.put (p : Plane) (c : PlaneCopy) : Plane :=
  { p with acc := c.acc, q := c.q, sp := c.sp, scr := c.scr, flags := c.flags, g := c.g, ucount := c.ucount, rc := c.rc, bm := c.bm }

/-- The generator a rule reads (R330). -/
def State.sldGen (s : State) (r : RuleId) : Option GenId :=
  match (s.rule r).bind (fun x => readElement x.1) with
  | some (.sld g _ _ _) => some ⟨r.plane.elem.tile.pair, g.toNat % 4⟩
  | _ => none

/-- What every firing does beside its instruction (R290, R468): the urgency count, the replay window, which holds the last 8 firings and is
emptied by one that issues an access or pushes to a collective node, and the firing leaves the list of its cycle. -/
def State.firedOnce (s : State) (r : RuleId) (mem : Bool) : State :=
  let t := s.tile r.plane.elem.tile
  let skipped := t.skipped.contains r
  let gen := match s.sldGen r with | some g => s.gen g | none => {}
  let s := s.setTile r.plane.elem.tile { t with chosen := dropFirst (· = r) t.chosen, skipped := t.skipped.filter (· ≠ r) }
  s.onPlane r.plane (fun p =>
    let w := if mem then [] else p.window ++ [⟨r.slot, p.copy, skipped, gen⟩]
    { p with ucount := if skipped then p.ucount + 1 else 0,
             window := if 8 < w.length then w.drop 1 else w })

/-- Runs an element instruction for the current rule: it must be the rule's word, chosen for this cycle, and ready. -/
def elemInstr (i : Instr) (act : State → RuleId → BitVec 32 → BitVec 32 → State) (s : State) :
    Host.Outcome State Fault Refusal :=
  let r := s.curR
  match s.rule r with
  | some (w, t) =>
    if w = encode i && (s.tile r.plane.elem.tile).chosen.contains r && s.ready r then .next (act s r w t) else .next s
  | none => .next s

/-- The mould of R291: sources, result, destinations, q, pops. A result carries the poison of its sources (R464). -/
def stdFire (i : Instr) (a b : Option (BitVec 5)) (f : Plane → Nat → BitVec 32 → Token → Token → Fired) (s : State) :
    Host.Outcome State Fault Refusal :=
  elemInstr i (fun s r w t =>
    let s := s.firedOnce r false
    let p := s.plane r.plane
    let fm := trFmt t
    let src := p.two r.plane.plane fm a b
    let bad := src.1.poison || src.2.1.poison
    let z := f { p with sp := src.2.2 } s.cycle t src.1 src.2.1
    let mark (k : Token) : Token := { k with poison := k.poison || bad }
    let s := s.setPlane r.plane z.p
    let s := (z.writes.getD (tagWrites w z.x z.y)).foldl (fun s q => s.putPort r.plane q.1 (mark q.2)) s
    let s := s.onPlane r.plane (qAction w (laneTest fm z.x.data))
    let s := match z.acc with | some v => s.onPlane r.plane (fun p => { p with acc := v }) | none => s
    (z.pops.getD (maskList (trPop t))).foldl (fun s c => s.popCh r.plane c) s) s

/-- A result with the kind of SA's token (R287). -/
def one (p : Plane) (x : Token) : Fired := { p := p, x := x, y := x }

end Sys2Proof.Machine
end

