-- ==== Sys2Proof/Machine/Haul.lean ====
section
/-! DEFINITION. Hauls (R364 to R384): descriptors, the visit order, start, the accesses, ends, stops at cuts; and the
write ports of store tiles, whose full slots a haul may wait for. -/

namespace Sys2Proof.Machine

open Sys2Proof

/-! ## Descriptors (R367 to R371) -/

/-- A descriptor's fields (R367). -/
structure Desc where
  rank : Nat
  esize : Nat
  opts : Nat
  zero : Nat
  tag : Nat
  src : Word
  dst : Word
  fill : List Byte
  entry : Word
  exit : Word
  p : Nat
  q : Nat
  ss : List Int
  ds : List Int
  ext : List Nat
  cnt : List Nat
  start : List Int
  deriving DecidableEq, Repr

/-- A signed field. -/
def recI (l : List Byte) (off n : Nat) : Int := (BitVec.ofNat (8 * n) (recN l off n)).toInt

/-- A doubleword field. -/
def recW (l : List Byte) (off : Nat) : Word := BitVec.ofNat 64 (recN l off 8)

/-- Reads a descriptor. -/
def Desc.of (d : List Byte) : Desc :=
  { rank := recN d 0 1, esize := recN d 1 1, opts := recN d 2 1,
    zero := recN d 3 1 + recN d 6 2 + recN d 0x3A 6, tag := recN d 4 2, src := recW d 8, dst := recW d 0x10,
    fill := (d.drop 0x18).take 16, entry := recW d 0x28, exit := recW d 0x30, p := recN d 0x38 1, q := recN d 0x39 1,
    ss := (List.range 16).map (fun i => recI d (0x40 + 8 * i) 8),
    ds := (List.range 16).map (fun i => recI d (0xC0 + 8 * i) 8),
    ext := (List.range 16).map (fun i => recN d (0x140 + 4 * i) 4),
    cnt := (List.range 16).map (fun i => recN d (0x180 + 4 * i) 4),
    start := (List.range 16).map (fun i => recI d (0x1C0 + 4 * i) 4) }

def Desc.opt (d : Desc) (i : Nat) : Bool := d.opts / 2 ^ i % 2 = 1
def Desc.transpose (d : Desc) : Bool := d.opt 0
def Desc.boundDst (d : Desc) : Bool := d.opt 1
def Desc.srcRing (d : Desc) : Bool := d.opt 2
def Desc.dstRing (d : Desc) : Bool := d.opt 3
/-- Bytes of an element. -/
def Desc.esz (d : Desc) : Nat := 2 ^ d.esize
/-- Bytes of a destination element of `haul.x` (R377); 0 where the ratio gives none. -/
def Desc.dsz (d : Desc) : Nat :=
  if d.p = 0 || d.esz * d.q % d.p ≠ 0 then 0
  else if [1, 2, 4, 8, 16].contains (d.esz * d.q / d.p) then d.esz * d.q / d.p else 0
/-- Elements of the copy window. -/
def Desc.total (d : Desc) : Nat := (d.cnt.take d.rank).foldl (· * ·) 1

/-- Exchanges the first two of a list (R371). -/
def swap2 {α : Type} : List α → List α
  | a :: b :: r => b :: a :: r
  | l => l

/-- An index in stream order as one index a dimension, the first varying fastest. -/
def digits : List Nat → Nat → List Nat
  | [], _ => []
  | c :: r, k => k % c :: digits r (k / c)

/-- The index vector of the k-th element of the stream (R370, R371). -/
def Desc.index (d : Desc) (k : Nat) : List Nat :=
  let c := d.cnt.take d.rank
  if d.transpose then swap2 (digits (swap2 c) k) else digits c k

/-- Whether an index lies inside the bounded-side tensor (R370). -/
def Desc.inside (d : Desc) (iv : List Nat) : Bool :=
  (List.range d.rank).all (fun i =>
    let c := (d.start[i]?).getD 0 + ((iv[i]?).getD 0 : Nat)
    decide (0 ≤ c) && decide (c < ((d.ext[i]?).getD 0 : Nat)))

/-- The address of an element at a memory end: ua on the bounded side, ub on the other (R370). -/
def Desc.addr (d : Desc) (base : Word) (st : List Int) (iv : List Nat) (bounded : Bool) : Word :=
  let off := (List.range d.rank).foldl (fun (a : Int) i =>
    let n : Int := ((iv[i]?).getD 0 : Nat)
    a + (if bounded then (d.start[i]?).getD 0 + n else n) * (st[i]?).getD 0) 0
  BitVec.ofInt 64 (base.toNat + off)

/-! ## Checks at execution (R368, R369, R377) -/

/-- The generator a ring name names. -/
def ringGen (w : Word) : GenId := ⟨⟨bitsN w 40 40, bitsN w 39 34, bitsN w 33 30⟩, bitsN w 29 28⟩

/-- R369, in its order; a slot index may stand only where `slot` says so. -/
def ringCheck (s : State) (sid : Nat) (w : Word) (slot : Bool) : Except Stop Unit :=
  let no (x : Cause) : Except Stop Unit := .error ⟨x, none⟩
  if bitsN w 63 62 ≠ 1 || bitsN w 61 41 ≠ 0 || bitsN w 27 24 ≠ 0 || bitsN w 15 0 ≠ 0 || (!slot && bitsN w 23 16 ≠ 0) then
    no .illegalForm
  else if s.part.dies ≤ bitsN w 40 40 then no .unavailable
  else if !s.holds sid ⟨bitsN w 40 40, bitsN w 39 34⟩ then no .remoteViolation
  else if isCompute (bitsN w 33 30) then no .illegalForm
  else .ok ()

/-- The memory ends of a copy: base, strides, element size, whether bounded. -/
def Desc.ends (d : Desc) (x : Bool) : List (Word × List Int × Nat × Bool) :=
  (if d.srcRing then [] else [(d.src, d.ss, d.esz, !d.boundDst)]) ++
  (if d.dstRing then [] else [(d.dst, d.ds, if x && d.dsz ≠ 0 then d.dsz else d.esz, d.boundDst)])

/-- The ring names of a haul. -/
def Desc.rings (d : Desc) (x : Bool) : List Word :=
  (if d.srcRing then [d.src] else []) ++ (if d.dstRing then [d.dst] else []) ++ (if x then [d.entry, d.exit] else [])

/-- The limits of R367. -/
def Desc.form (d : Desc) (x : Bool) : Bool :=
  let high (l : List Int) : Bool := (l.drop d.rank).all (· = 0)
  let highN (l : List Nat) : Bool := (l.drop d.rank).all (· = 0)
  decide (1 ≤ d.rank) && decide (d.rank ≤ 16) && decide (d.esize ≤ 4) && decide (d.opts < 16) && d.zero = 0 &&
  decide (d.tag < 2048) && (d.fill.drop d.esz).all (· = 0) &&
  (if x then decide (1 ≤ d.p) && decide (d.p ≤ 16) && decide (1 ≤ d.q) && decide (d.q ≤ 16)
   else d.entry = 0 && d.exit = 0 && d.p = 0 && d.q = 0) &&
  high d.ss && high d.ds && highN d.ext && highN d.cnt && high d.start && (d.cnt.take d.rank).all (· ≠ 0)

/-- The rows of R368 in order, then R377's checks at execution; h2 is the end's address where a row is about a memory end (log 25). -/
def Desc.check (d : Desc) (s : State) (sid : Nat) (x : Bool) : Except Stop Unit := do
  let ends := d.ends x
  let flat (l : List Int) : Bool := (l.take d.rank).all (· = 0)
  if !d.form x || 2 ^ 40 - 1 < d.total then .error ⟨.illegalForm, none⟩
  if (d.srcRing && d.dstRing) || (d.srcRing && !d.boundDst) || (d.dstRing && d.boundDst) ||
     (d.srcRing && !flat d.ss) || (d.dstRing && !flat d.ds) then .error ⟨.illegalForm, none⟩
  if d.transpose && (d.rank = 1 || 2 < d.esize || !(d.srcRing || d.dstRing)) then .error ⟨.illegalForm, none⟩
  match ends.find? (fun e => bitsN e.1 63 62 = 3) with
  | some e => .error ⟨.addrForm, some e.1⟩
  | none => pure ()
  match ends.find? (fun e => e.1.toNat % e.2.2.1 ≠ 0 || (e.2.1.take d.rank).any (fun n => n % (e.2.2.1 : Int) ≠ 0)) with
  | some e => .error ⟨.align, some e.1⟩
  | none => pure ()
  (d.rings x).foldlM (fun _ w => ringCheck s sid w false) ()
  match ends.find? (fun e => bitsN e.1 63 62 = 1 && s.part.dies ≤ bitsN e.1 40 40) with
  | some e => .error ⟨.unavailable, some e.1⟩
  | none => pure ()
  if x && (d.dsz = 0 || d.dstRing) then .error ⟨.illegalForm, none⟩

/-! ## Instructions -/

/-- Reads a record from core-local memory for an engine or remote instruction (R379, R465): ADDR_FORM, ALIGN, BOUNDS and
ACCESS as R213 has them; own stores forwarded. The answer is empty where a byte carries poison. -/
def readRecord (s : State) (t : ThreadId) (ea : Word) (al n : Nat) : Except Stop (List Byte) := do
  if bitsN ea 63 62 ≠ 0 then .error ⟨.addrForm, some ea⟩
  match ← checkAddr s t ea al n false with
  | .here l => .ok (if s.poisoned l n then [] else forward s t ea (s.bytes l n))
  | _ => .error ⟨.addrForm, some ea⟩

/-- UNAVAILABLE for an instruction that an edge core has not (R364). -/
def needHandlerCore (t : ThreadId) : Except Stop Unit :=
  if t.core.isHandler then .ok () else .error ⟨.unavailable, none⟩

/-- R379: checks and buffers a haul, or clears the predicate where its tag is not FREE. -/
def haulOp (i : Instr) (x : Bool) (t : BitVec 4) (a d : BitVec 5) (s : State) : Res :=
  threadInstr i t (fun s th => do
    let ea ← rd s th a
    needHandlerCore th
    let bs ← readRecord s th ea 64 512
    if bs = [] then .ok (s.consumePoison th (some ea) (encode i))
    else
      let r := Desc.of bs
      r.check s (s.ctx th).sid x
      if tget s.tags TagState.free (th.core, r.tag) = .free then
        let s ← s.addEff th (.haul x r.tag bs (encode i))
        .ok ({ s with tags := tput s.tags (th.core, r.tag) .reserved }.onCtx th (fun c => c.setPred d.toNat true))
      else .ok (s.onCtx th (fun c => c.setPred d.toNat false))) s

/-- R379. -/
def execHaul (a d : BitVec 5) (t : BitVec 4) (s : State) : Res := haulOp (.haul a d t) false t a d s

/-- R379, through a subgraph (R377). -/
def execHaulX (a d : BitVec 5) (t : BitVec 4) (s : State) : Res := haulOp (.haulX a d t) true t a d s

/-- The tag operand of R380. -/
def tagWord (s : State) (t : ThreadId) (a : BitVec 5) : Except Stop Nat := do
  let v ← rd s t a
  if bitsN v 63 11 ≠ 0 then .error ⟨.illegalForm, none⟩ else .ok v.toNat

/-- R380. -/
def execHcancel (a : BitVec 5) (t : BitVec 4) (s : State) : Res :=
  threadInstr (.hcancel a t) t (fun s th => do
    needHandlerCore th
    let n ← tagWord s th a
    s.addEff th (.hcancel n)) s

/-- R382. -/
def execHslot (a : BitVec 5) (t : BitVec 4) (s : State) : Res :=
  threadInstr (.hslot a t) t (fun s th => do
    needHandlerCore th
    let v ← rd s th a
    ringCheck s (s.ctx th).sid v true
    s.addEff th (.hslot v)) s

/-- Whether an element of a haul is stalled on a NACK. -/
def Leg.stalled (l : Leg) : Bool :=
  l.fly.any (fun f => match f.2 with | .readNack => true | .writeNack _ _ => true | _ => false)

/-- What the completion of a tag's ended haul says it moved, while the tag is COMPLETE: the completion stands in the
core's queue or is on its way there (R378, R383). -/
def State.movedOf (s : State) (c : CoreId) (n : Nat) : Nat :=
  let sent := s.pending.filterMap (fun p => match p.ev with
    | .completionArrival d x => if d = c then some x else none
    | _ => none)
  match (((s.core c).comps.map CompEntry.comp) ++ sent).find? (fun x => x.tag = some n) with
  | some x => bitsN x.w1 39 0
  | none => 0

/-- The word `hstat` reads (R383). -/
def hstatWord (s : State) (c : CoreId) (n : Nat) : Word :=
  let h := tfind s.hauls (c, n)
  let code := match tget s.tags TagState.free (c, n) with
    | .free => 0 | .reserved => 1 | .queued => 2
    | .running => if (h.map (fun h => h.legs.any Leg.stalled)).getD false then 4 else 3
    | .stopped => 5 | .complete => 6
  fld code 0 ||| fld (match h with | some h => h.moved % 2 ^ 40 | none => if code = 6 then s.movedOf c n else 0) 16

/-- R383. -/
def execHstat (a d : BitVec 5) (t : BitVec 4) (s : State) : Res :=
  scalarInstr (.hstat a d t) t (fun s th c => do
    needHandlerCore th
    let n ← tagWord s th a
    .ok (c.wr d (hstatWord s th.core n))) s

/-! ## A running haul (R373 to R376) -/

def State.haul? (s : State) (c : CoreId) (tag : Nat) : Option Haul := tfind s.hauls (c, tag)
def State.setHaul (s : State) (c : CoreId) (tag : Nat) (h : Haul) : State := { s with hauls := tput s.hauls (c, tag) h }
def State.setTag (s : State) (c : CoreId) (tag : Nat) (x : TagState) : State := { s with tags := tput s.tags (c, tag) x }

/-- The key of elements that only fill a slot up (R371, R381). -/
def padKey : Nat := 2 ^ 48

/-- Elements of a slot at a ring end. -/
def slotElems (s : State) (g : GenId) (esz : Nat) : Nat :=
  match (s.gen g).cfg with
  | some c => max 1 (c.recd.size / esz)
  | none => 1

/-- The slot of its destination ring that element k of a leg falls in, counted from its first. -/
def Leg.slotNo (s : State) (l : Leg) (k : Nat) : Nat :=
  match l.dst with
  | .ring g => (k % padKey + l.pad) / slotElems s g l.esz
  | .mem _ => 0

/-- The slot of its source ring that element k of a leg stands in. -/
def Leg.srcSlot (s : State) (l : Leg) (g : GenId) (k : Nat) : Nat :=
  let x := s.gen g
  match x.cfg with
  | some c => (x.drain + (k / slotElems s g l.esz - l.took)) % c.recd.count
  | none => 0

/-- Where element k of a leg lies in the ring at one of its ends. -/
def Leg.place (s : State) (l : Leg) (g : GenId) (k : Nat) (write : Bool) : Loc :=
  match (s.gen g).cfg with
  | some c =>
    let n := slotElems s g l.esz
    if write then .tile g.tile (c.recd.base + (l.slots[l.slotNo s k - l.shut]?).getD 0 * c.recd.size + (k % padKey + l.pad) % n * l.esz)
    else .tile g.tile (c.recd.base + l.srcSlot s g k * c.recd.size + k % n * l.esz)
  | none => .tile g.tile 0

/-- Sends an access of element k of a leg to its home. -/
def State.haulPost (s : State) (c : CoreId) (tag n k : Nat) (h : Haul) (l : Loc) (a : Word) (op : MemOp) : State :=
  let r : MemReq := { asker := .haul c tag (2 * k + n), sid := h.sid, loc := l, addr := a, op := op }
  s.post .none (match op with | .load _ => .loadPerform r | _ => .storePerform r)

/-- An access of a leg at one of its ends (R376): the ring's home, or the memory's after R213, or the translation
station. The answer is the cause of a failed check. -/
def State.haulAccess (s : State) (c : CoreId) (tag n k : Nat) (h : Haul) (e : HEnd) (l : Leg) (op : MemOp) (write : Bool) :
    State × Option Cause :=
  match e with
  | .ring g => (s.haulPost c tag n k h (l.place s g k write) 0 op, none)
  | .mem base =>
    let d := Desc.of h.desc
    let a := d.addr base (if write then d.ds else d.ss) (d.index k) (if write then l.bdst else l.bsrc)
    match checkAddrOf s c 0 h.sid a l.esz l.esz false with
    | .ok (.here x) => (s.haulPost c tag n k h x a op, none)
    | .ok (.global va) =>
      (s.post .none (.translation (stationOf c) ⟨.haul c tag (2 * k + n), h.sid, va, if write then .write else .read⟩), none)
    | .ok (.window _) => (s, some .addrForm)
    | .error e => (s, some e.cause)

/-- Changes a leg. -/
def State.onLeg (s : State) (c : CoreId) (tag n : Nat) (f : Leg → Leg) : State :=
  match s.haul? c tag with
  | some h => s.setHaul c tag { h with legs := h.legs.mapIdx (fun i l => if i = n then f l else l) }
  | none => s

def State.onHaul (s : State) (c : CoreId) (tag : Nat) (f : Haul → Haul) : State :=
  match s.haul? c tag with
  | some h => s.setHaul c tag (f h)
  | none => s

/-- Sets the stage of an element under way, or takes it off. -/
def Leg.put (l : Leg) (k : Nat) (st : Option HStage) : Leg :=
  { l with fly := (l.fly.filter (fun f => f.1 ≠ k)) ++ (match st with | some x => [(k, x)] | none => []) }

/-- A leg and the stage of its element under way. -/
def Haul.at_ (h : Haul) (n k : Nat) : Option (Leg × HStage) :=
  match h.legs[n]? with
  | some l => (l.fly.find? (fun f => f.1 = k)).map (fun f => (l, f.2))
  | none => none

/-- Whether a leg is in the middle of a slot of its source ring. -/
def Leg.midSource (s : State) (l : Leg) (total : Nat) : Bool :=
  match l.src with
  | .ring g => l.idx < total && l.idx % slotElems s g l.esz ≠ 0
  | .mem _ => false

/-- Whether both ends of a leg are rings. -/
def Leg.ringToRing (l : Leg) : Bool :=
  match l.src, l.dst with
  | .ring _, .ring _ => true
  | _, _ => false

/-- Empties the source slots whose every element has been read (R374); a haul that ends early reads no further of the slot it has
begun (R381). `fuel` bounds the slots. -/
def State.srcClose (s : State) (c : CoreId) (tag n : Nat) : Nat → State
  | 0 => s
  | fuel + 1 =>
    match s.haul? c tag with
    | none => s
    | some h =>
      match h.legs[n]? with
      | none => s
      | some l =>
        match l.src with
        | .mem _ => s
        | .ring g =>
          let m := slotElems s g l.esz
          let total := (Desc.of h.desc).total
          let reads : Bool := l.fly.any (fun f => match f.2 with
            | .reading => f.1 / m = l.took
            | .readNack => f.1 / m = l.took
            | _ => false)
          if l.took * m < min l.idx total && ((l.took + 1) * m ≤ l.idx || total ≤ l.idx || h.ending) && !reads then
            ((s.onLeg c tag n (fun l => { l with took := l.took + 1 })).emptyDrain g).srcClose c tag n fuel
          else s

/-- Sets full the slots whose every element has been written, in ring order (R328, R374). A haul that ends or stops has filled its
slots up. `fuel` bounds the slots. -/
def State.slotClose (s : State) (c : CoreId) (tag n : Nat) : Nat → State
  | 0 => s
  | fuel + 1 =>
    match s.haul? c tag with
    | none => s
    | some h =>
      match h.legs[n]? with
      | none => s
      | some l =>
        match l.dst with
        | .mem _ => s
        | .ring g =>
          if l.slots ≠ [] && !l.fly.any (fun f => l.slotNo s f.1 = l.shut) &&
              (h.ending || l.padded || (l.shut + 1) * slotElems s g l.esz ≤ l.idx + l.pad) then
            let s := s.onLeg c tag n (fun l => { l with slots := l.slots.drop 1, shut := l.shut + 1 })
            (s.onGen g (fun x => match x.cfg with | some k => x.fillSlot k.recd.count | none => x)).slotClose c tag n fuel
          else s

/-- Completes the slots a leg has begun to fill with fill elements (R381, R384): the elements given up and, unless a stop has filled them up
already, those not issued. -/
def State.padSlots (s : State) (c : CoreId) (tag n : Nat) (dead : List Nat) : State :=
  match s.haul? c tag with
  | none => s
  | some h =>
    match h.legs[n]? with
    | none => s
    | some l =>
      match l.dst with
      | .mem _ => s
      | .ring g =>
        let last := (l.shut + l.slots.length) * slotElems s g l.esz
        let pads := dead ++ (if l.padded then [] else (List.range (last - (l.idx + l.pad))).map (l.idx + ·))
        let v := (Desc.of h.desc).fill.take l.esz
        let s := s.onLeg c tag n (fun l => { l with fly := l.fly ++ pads.map (fun k => (padKey + k, HStage.writing v false)), padded := true })
        pads.foldl (fun s k => (s.haulAccess c tag n (padKey + k) h l.dst l (.store (v.map some) false) true).1) s

/-- Ends a haul's early run (R381): nothing new is issued, stalled accesses are abandoned, a slot being filled is filled up,
a slot being read counts as read. -/
def State.haulEndEarly (s : State) (c : CoreId) (tag : Nat) : State :=
  match s.haul? c tag with
  | none => s
  | some h =>
    let s := s.setHaul c tag { h with ending := true }
    (List.range h.legs.length).foldl (fun s n =>
      match (s.haul? c tag).bind (fun h => h.legs[n]?) with
      | none => s
      | some l =>
        let dead : List Nat := (l.fly.filter (fun f => match f.2 with | .readNack => true | .writeNack _ _ => true | _ => false)).map Prod.fst
        let s := s.onLeg c tag n (fun l => { l with fly := l.fly.filter (fun f => !dead.contains f.1) })
        ((s.padSlots c tag n dead).srcClose c tag n 9).slotClose c tag n 9) s

/-- The haul fails with a status (R376, R381). -/
def State.haulFail (s : State) (c : CoreId) (tag : Nat) (x : Cause) : State :=
  match s.haul? c tag with
  | some h => if h.ending then s else (s.setHaul c tag { h with status := x.code }).haulEndEarly c tag
  | none => s

/-- Issues the write of an element (R370, R374, R376). -/
def State.haulWrite (s : State) (c : CoreId) (tag n k : Nat) (v : List Byte) (bad : Bool) : State :=
  match s.haul? c tag with
  | none => s
  | some h =>
    match h.legs[n]? with
    | none => s
    | some l =>
      let s := s.onLeg c tag n (fun l => l.put k (some (.writing v bad)))
      let r := s.haulAccess c tag n k h l.dst l (.store (v.map some) bad) true
      match r.2 with
      | none => if bad then r.1.onHaul c tag (fun h => { h with poison := true }) else r.1
      | some x => (r.1.onLeg c tag n (fun l => l.put k none)).haulFail c tag x

/-- Issues the next element of a leg: its read, its fill, or the padding of a last slot (R370, R371, R374). An element whose read
fails its check stands as one given up, which the end of the haul takes off. -/
def State.haulIssue (s : State) (c : CoreId) (tag n : Nat) (h : Haul) (l : Leg) : State :=
  let d := Desc.of h.desc
  let k := l.idx
  let s := s.onLeg c tag n (fun l => { l with idx := k + 1 })
  if d.total ≤ k then
    s.haulWrite c tag n (padKey + k) (d.fill.take l.esz) false
  else if l.bsrc && !d.inside (d.index k) then
    (s.onHaul c tag (fun h => { h with outside := h.outside + 1 })).haulWrite c tag n k (d.fill.take l.esz) false
  else
    let s := s.onLeg c tag n (fun l => l.put k (some .reading))
    let r := s.haulAccess c tag n k h l.src l (.load l.esz) false
    match r.2 with
    | none => r.1
    | some x => (r.1.onLeg c tag n (fun l => l.put k (some .readNack))).haulFail c tag x

/-- How a leg goes on: it issues an element, opening the slot of its destination ring that it names, or it waits. -/
inductive LegGo where
  | issue (slot : Option Nat)
  | wait
  deriving DecidableEq, Repr

/-- Whether and how a leg goes on now (R374, R375): it reads full slots, opens a slot whose notice it holds, in ring order, and keeps
at most eight elements under way (log 26). One that a cut stops goes on only to the end of the slot it is reading (R384), as far as its
destination has room (log 78). -/
def Leg.next (s : State) (h : Haul) (l : Leg) : LegGo :=
  let total := (Desc.of h.desc).total
  let live := (l.fly.filter (fun f => match f.2 with | .readNack => false | .writeNack _ _ => false | _ => true)).length
  let more : Bool := l.idx < total ||
    (match l.dst with | .ring g => (l.idx + l.pad) % slotElems s g l.esz ≠ 0 | .mem _ => false)
  let stop : Bool := h.ending || (h.stopping && !l.midSource s total)
  let src : Bool := match l.src with
    | .ring g =>
      total ≤ l.idx || ((s.gen g).full.contains (l.srcSlot s g l.idx) && l.idx / slotElems s g l.esz - l.took < (s.gen g).full.length)
    | .mem _ => true
  if stop || !more || 8 ≤ live || !src then .wait
  else
    match l.dst with
    | .mem _ => .issue none
    | .ring g =>
      if l.slotNo s l.idx < l.shut + l.slots.length then .issue none
      else
        match (s.gen g).cfg with
        | some c =>
          let k := ((s.gen g).fill + l.slots.length) % c.recd.count
          if l.notes.contains k then .issue (some k) else .wait
        | none => .wait

/-- Lets a leg go on as far as it can; `fuel` bounds the steps. -/
def State.legPump (s : State) (c : CoreId) (tag n : Nat) : Nat → State
  | 0 => s
  | fuel + 1 =>
    match s.haul? c tag with
    | none => s
    | some h =>
      match h.legs[n]? with
      | none => s
      | some l =>
        match l.next s h with
        | .wait => s
        | .issue none => (s.haulIssue c tag n h l).legPump c tag n fuel
        | .issue (some k) =>
          let l' := { l with notes := l.notes.filter (· ≠ k), slots := l.slots ++ [k] }
          ((s.onLeg c tag n (fun _ => l')).haulIssue c tag n h l').legPump c tag n fuel

/-- Whether a haul has nothing more to do: it may complete. -/
def Haul.finished (h : Haul) : Bool :=
  h.legs.all (fun l => l.fly = [] && l.slots = [] && (h.ending || decide ((Desc.of h.desc).total ≤ l.idx))) &&
  (h.legs ≠ [] || h.ending)

/-- Whether a haul that a cut stops has come to the end of its slots (R384), or needs a slot that its destination does not free (log 78). -/
def Haul.halted (s : State) (h : Haul) : Bool :=
  h.stopping && !h.ending && h.legs.all (fun l => l.fly = [] && l.slots = [] &&
    (!l.midSource s (Desc.of h.desc).total || (l.ringToRing && l.next s h = .wait)))

/-- Fills up the slots of the legs of a haul that a cut stops, each once it has read the slot it had begun (R384). -/
def State.padStopped (s : State) (c : CoreId) (tag : Nat) : State :=
  match s.haul? c tag with
  | none => s
  | some h =>
    if !h.stopping || h.ending then s
    else
      (List.range h.legs.length).foldl (fun s n =>
        match h.legs[n]? with
        | some l => if l.padded || l.midSource s (Desc.of h.desc).total then s else (s.padSlots c tag n []).slotClose c tag n 9
        | none => s) s

/-- The generators a haul is bound to. -/
def Haul.rings (h : Haul) : List GenId :=
  h.legs.flatMap (fun l => [l.src, l.dst].filterMap (fun e => match e with | .ring g => some g | .mem _ => none))

/-- Goes on with every leg of a haul; one that a cut stops is STOPPED once it has come to the end of its slots (R384). -/
def State.haulPump (s : State) (c : CoreId) (tag : Nat) : State :=
  match s.haul? c tag with
  | none => s
  | some h =>
    if tget s.tags TagState.free (c, tag) ≠ .running then s
    else
      let s := ((List.range h.legs.length).foldl (fun s n => s.legPump c tag n 16) s).padStopped c tag
      match s.haul? c tag with
      | some h => if h.halted s && !h.finished then h.rings.foldl State.snapGen (s.setTag c tag .stopped) else s
      | none => s

/-- A slot became full or was emptied: the hauls bound to the generator go on. -/
def State.ringMoved (s : State) (g : GenId) : State :=
  match (s.gen g).cons with
  | some (.haul c tag) => s.haulPump c tag
  | _ => s

/-! ## Start (R372, R373, R377) -/

/-- The sums of R372 for one memory end: none where a product or partial sum leaves 80 bits. -/
def Desc.span (d : Desc) (base : Nat) (st : List Int) (bounded : Bool) : Option (Int × Int) :=
  let ok (x : Int) : Bool := decide (-(2 ^ 79 : Nat) ≤ x) && decide (x < (2 ^ 79 : Nat))
  (List.range d.rank).foldlM (fun (a : Int × Int) i =>
    let n : Int := ((d.cnt[i]?).getD 0 : Nat)
    let b : Int := (d.start[i]?).getD 0
    let e : Int := ((d.ext[i]?).getD 0 : Nat)
    let lo : Int := if bounded then max b 0 else 0
    let hi : Int := (if bounded then min (b + n) e else n) - 1
    let x := lo * (st[i]?).getD 0
    let y := hi * (st[i]?).getD 0
    let mn := a.1 + min x y
    let mx := a.2 + max x y
    if ok x && ok y && ok mn && ok mx then some (mn, mx) else none) ((base : Int), (base : Int))

/-- Whether a bounded range of a dimension is empty (R372). -/
def Desc.emptyBound (d : Desc) : Bool :=
  (List.range d.rank).any (fun i =>
    let b : Int := (d.start[i]?).getD 0
    decide (min (b + ((d.cnt[i]?).getD 0 : Nat)) ((d.ext[i]?).getD 0 : Nat) - 1 < max b 0))

/-- The pre-check of one memory end (R372): none where it passes. -/
def Desc.preEnd (d : Desc) (s : State) (c : CoreId) (sid : Nat) (e : Word × List Int × Nat × Bool) : Option Cause :=
  let a := e.1
  if e.2.2.2 && d.emptyBound then none
  else if bitsN a 63 62 = 1 && !s.holds sid ⟨bitsN a 40 40, bitsN a 39 34⟩ then some .remoteViolation
  else
    let base := match bitsN a 63 62 with | 0 => bitsN a 17 0 | 1 => bitsN a 18 0 | _ => bitsN a 56 0
    let size : Nat := match bitsN a 63 62 with
      | 0 => (match c.tile? with | some t => tileSize t.tile | none => 65536)
      | 1 => tileSize (bitsN a 33 30)
      | _ => 2 ^ 57
    match d.span base e.2.1 e.2.2.2 with
    | none => some .copyAddrOvf
    | some (mn, mx) =>
      if mn < 0 || (size : Int) ≤ mx + e.2.2.1 - 1 then some .copyAddrOvf else none

/-- The generator of a ring name as it stands now, moves of a hive followed (R491). -/
def State.ringAt (s : State) (sid : Nat) (w : Word) : GenId :=
  let g := ringGen w
  ⟨s.redirectTile sid g.tile, g.gen⟩

/-- The legs of a haul: its copy, or for `haul.x` the way into the entry ring and the way out of the exit ring (R377). -/
def Desc.legs (d : Desc) (s : State) (sid : Nat) (x : Bool) : List Leg :=
  let src : HEnd := if d.srcRing then .ring (s.ringAt sid d.src) else .mem d.src
  let dst : HEnd := if d.dstRing then .ring (s.ringAt sid d.dst) else .mem d.dst
  if x then
    [{ src := src, dst := .ring (s.ringAt sid d.entry), esz := d.esz, bsrc := !d.boundDst, bdst := false },
     { src := .ring (s.ringAt sid d.exit), dst := dst, esz := d.dsz, bsrc := false, bdst := d.boundDst }]
  else [{ src := src, dst := dst, esz := d.esz, bsrc := !d.boundDst, bdst := d.boundDst }]

/-- A leg as it stands when its stopped haul goes on (R384): at a slot boundary of its destination ring. -/
def Leg.resume (s : State) (l : Leg) : Leg :=
  let l := { l with padded := false }
  let l := match l.dst with
    | .ring g =>
      let n := slotElems s g l.esz
      let pad := (n - l.idx % n) % n
      { l with pad := pad, shut := (l.idx + pad) / n, slots := [] }
    | .mem _ => l
  match l.src with
  | .ring g => { l with took := l.idx / slotElems s g l.esz }
  | .mem _ => l

/-- The sides a haul binds: a generator, and whether as its producer. -/
def legSides (ls : List Leg) : List (GenId × Bool) :=
  ls.flatMap (fun l =>
    (match l.src with | .ring g => [(g, false)] | .mem _ => []) ++ (match l.dst with | .ring g => [(g, true)] | .mem _ => []))

/-- Whether a side may be bound (R319, R373). -/
def Gen.bindable (x : Gen) (prod : Bool) : Bool :=
  match x.cfg with
  | none => false
  | some c =>
    if prod then (c.recd.mode = 0 || c.recd.mode = 2) && x.prod = none && !c.writer
    else c.recd.mode = 0 && x.cons = none && !c.reader

/-- Whether every side a haul needs may be bound, none twice. -/
def State.sidesFree (s : State) (l : List (GenId × Bool)) : Bool :=
  l.all (fun e => (s.gen e.1).bindable e.2) && decide (l.Nodup)

/-- The divisibility checks of R377 at start. -/
def Desc.xFits (d : Desc) (s : State) (sid : Nat) : Bool :=
  match (s.gen (s.ringAt sid d.entry)).cfg, (s.gen (s.ringAt sid d.exit)).cfg with
  | some a, some b =>
    let t := d.total * d.esz
    a.recd.size ≠ 0 && b.recd.size ≠ 0 && t % (16 * d.p) = 0 && t % a.recd.size = 0 && t * d.q / d.p % b.recd.size = 0
  | _, _ => false

/-- Unbinds an engine from every generator side it holds; the notices on their way to it have no taker (R329, R373). -/
def State.unbind (s : State) (e : Engine) : State :=
  let mine (g : GenId) : Bool := (s.gen g).prod = some e
  { s with pending := s.pending.filter (fun p => match p.ev with | .freedSlotNotice n => !mine n.gen | _ => true),
           gens := s.gens.map (fun x =>
      (x.1, { x.2 with prod := if x.2.prod = some e then none else x.2.prod,
                       cons := if x.2.cons = some e then none else x.2.cons })) }

/-- The completion of a haul (R378). -/
def Haul.completion (h : Haul) (tag : Nat) : Completion :=
  { w0 := fld tag 0 ||| fld (if h.poison then 1 else 0) 11 ||| fld (if h.cancelled then 1 else 0) 12 ||| fld h.status 16
          ||| fld (h.outside % 2 ^ 40) 24,
    w1 := fld (h.moved % 2 ^ 40) 0, tag := some tag, sid := h.sid }

/-- A haul ends: its bindings end, its completion is sent (R373, R378). -/
def State.haulEnd (s : State) (c : CoreId) (tag : Nat) : State :=
  match s.haul? c tag with
  | none => s
  | some h =>
    let s := h.rings.foldl State.snapGen ((s.unbind (.haul c tag)).setTag c tag .complete)
    { s with hauls := tdel s.hauls (c, tag) }.post .none (.completionArrival c (h.completion tag)) 1

/-- Hauls a core runs now. -/
def State.running (s : State) (c : CoreId) : Nat :=
  (s.tags.filter (fun e => e.1.1 = c && e.2 = .running)).length

/-- Whether a haul waits for a generator that a swap or a cut under way has stopped. -/
def Desc.blocked (d : Desc) (s : State) (sid : Nat) (x : Bool) : Bool :=
  (d.rings x).any (fun w => (s.gen (s.ringAt sid w)).recorded)

/-- The haul a core starts next (R364, R384): a resumed one first, then a queued one, each in release order. A queued one that waits
for a generator holds up those behind it. -/
def State.nextHaul (s : State) (c : CoreId) : Option Nat :=
  let first (l : List ((CoreId × Nat) × Haul)) : Option Nat :=
    (l.foldl (fun (b : Option (Nat × Nat)) e => match b with
      | some x => if e.2.order < x.1 then some (e.2.order, e.1.2) else some x
      | none => some (e.2.order, e.1.2)) none).map Prod.snd
  let here := s.hauls.filter (fun e => e.1.1 = c)
  let st (e : (CoreId × Nat) × Haul) : TagState := tget s.tags .free e.1
  if 32 ≤ s.running c || s.moving c then none
  else
    match first (here.filter (fun e => st e = .stopped && e.2.resumed && !(Desc.of e.2.desc).blocked s e.2.sid e.2.x)) with
    | some n => some n
    | none =>
      match first (here.filter (fun e => st e = .queued && s.dispatches e.2.sid)) with
      | some n =>
        if (here.any (fun e => e.1.2 = n && (Desc.of e.2.desc).blocked s e.2.sid e.2.x)) then none else some n
      | none => none

/-- R372: an engine starts its next haul: pre-check, R377's checks, bindings; or it goes on with one a cut stopped. -/
def execHaulStart (s : State) : Res :=
  match s.arg with
  | .haulStart c =>
    (match s.nextHaul c with
     | none => .next s
     | some tag =>
       match s.haul? c tag with
       | none => .next s
       | some h =>
         let d := Desc.of h.desc
         let s := s.setTag c tag .running
         if h.resumed then
           .next ((s.setHaul c tag { h with resumed := false, stopping := false, legs := h.legs.map (Leg.resume s) }).haulPump c tag)
         else
           let fail (x : Cause) : Res := .next ((s.setHaul c tag { h with status := x.code, ending := true }).haulEnd c tag)
           match (d.ends h.x).findSome? (d.preEnd s c h.sid) with
           | some x => fail x
           | none =>
             let ls := d.legs s h.sid h.x
             let sides := legSides ls
             if (h.x && !d.xFits s h.sid) || !s.sidesFree sides then fail .illegalForm
             else
               let s := s.setHaul c tag { h with legs := ls }
               let s := sides.foldl (fun s e =>
                 if e.2 then s.bindProd e.1 (.haul c tag)
                 else s.onGen e.1 (fun x => { x with cons := some (.haul c tag) })) s
               .next (s.haulPump c tag))
  | _ => .next s

/-- Counts a written element: those of the last leg, padding not (R378). -/
def State.haulMoved (s : State) (c : CoreId) (tag n k : Nat) : State :=
  s.onHaul c tag (fun h => if n + 1 = h.legs.length && k < padKey then { h with moved := h.moved + 1 } else h)

/-- R376: an access of a haul is answered. -/
def execHaulAccessAnswer (s : State) : Res :=
  match s.arg with
  | .haulAccessAnswer c tag idx a =>
    let n := idx % 2
    let k := idx / 2
    (match s.haul? c tag with
     | none => .next s
     | some h =>
       match h.at_ n k with
       | none => .next s
       | some (l, st) =>
         let d := Desc.of h.desc
         let nackFault (s : State) : State :=
           let base := match (match st with | .reading => l.src | _ => l.dst) with | .mem b => b | .ring _ => 0
           let addr := match st with
             | .reading => d.addr base d.ss (d.index k) l.bsrc
             | _ => d.addr base d.ds (d.index k) l.bdst
           s.deliverFault h.origin (faultWord .pageFault 2 0 0 0 0 h.origin.rank true) 0 addr (fld h.word.toNat 0) (some (.haul c tag idx))
         let drained (s : State) : State := s.srcClose c tag n 9
         match st, a with
         | .reading, .data bs bad =>
           let s := s.onLeg c tag n (fun l => l.put k none)
           if h.ending then
             (match l.dst with
              | .ring _ => .next ((drained s).haulWrite c tag n (padKey + k) (d.fill.take l.esz) false)
              | .mem _ => .next (drained s))
           else if l.bdst && !d.inside (d.index k) then
             .next (((drained s).onHaul c tag (fun h => { h with outside := h.outside + 1 })).haulPump c tag)
           else .next (((drained s).haulWrite c tag n k bs bad).haulPump c tag)
         | .writing _ _, .data _ _ =>
           let s := ((s.onLeg c tag n (fun l => l.put k none)).haulMoved c tag n k).slotClose c tag n 9
           let s := match l.dst with | .ring g => s.ringMoved g | .mem _ => s
           .next (s.haulPump c tag)
         | .reading, .nack =>
           if h.ending then
             (match l.dst with
              | .ring _ => .next ((s.onLeg c tag n (fun l => l.put k none)).haulWrite c tag n (padKey + k) (d.fill.take l.esz) false)
              | .mem _ => .next (drained (s.onLeg c tag n (fun l => l.put k none))))
           else .next ((nackFault (s.onLeg c tag n (fun l => l.put k (some .readNack)))).haulPump c tag)
         | .writing v bad, .nack =>
           if h.ending then .next (s.onLeg c tag n (fun l => l.put k none))
           else .next ((nackFault (s.onLeg c tag n (fun l => l.put k (some (.writeNack v bad))))).haulPump c tag)
         | .reading, .fault x =>
           (match l.dst with
            | .ring _ =>
              .next (((s.onLeg c tag n (fun l => l.put k none)).haulWrite c tag n (padKey + k) (d.fill.take l.esz) false).haulFail c tag x)
            | .mem _ => .next ((s.onLeg c tag n (fun l => l.put k none)).haulFail c tag x))
         | _, .fault x => .next ((s.onLeg c tag n (fun l => l.put k none)).haulFail c tag x)
         | _, _ => .next s)
  | _ => .next s

/-- A translation of a haul's access is answered (R376). -/
def State.haulXlate (s : State) (c : CoreId) (tag idx : Nat) (va : Nat) (a : XAns) : State :=
  match s.haul? c tag with
  | none => s
  | some h =>
    let n := idx % 2
    let k := idx / 2
    match a, h.at_ n k with
    | .ok x, some (l, .reading) => s.haulPost c tag n k h x (fld 2 62 ||| BitVec.ofNat 64 va) (.load l.esz)
    | .ok x, some (_, .writing v bad) => s.haulPost c tag n k h x (fld 2 62 ||| BitVec.ofNat 64 va) (.store (v.map some) bad)
    | .nack, some _ => s.post .none (.haulAccessAnswer c tag idx .nack)
    | .access, some _ => s.post .none (.haulAccessAnswer c tag idx (.fault .access))
    | _, none => s
    | _, _ => s

/-- A resolved fault: the access is made again (R376), unless the haul has given it up (R381). -/
def State.haulResume (s : State) (c : CoreId) (tag idx : Nat) : State :=
  let n := idx % 2
  let k := idx / 2
  match s.haul? c tag with
  | none => s
  | some h =>
    match h.at_ n k with
    | some (l, .readNack) =>
      let r := (s.onLeg c tag n (fun l => l.put k (some .reading))).haulAccess c tag n k h l.src l (.load l.esz) false
      (match r.2 with | none => r.1 | some x => (r.1.onLeg c tag n (fun l => l.put k none)).haulFail c tag x)
    | some (_, .writeNack v bad) => s.haulWrite c tag n k v bad
    | _ => s

/-- R378: a haul whose every access is performed ends and sends its completion. -/
def execHaulComplete (s : State) : Res :=
  match s.arg with
  | .haulComplete c tag =>
    (match s.haul? c tag with
     | some h => if h.finished && tget s.tags TagState.free (c, tag) = .running then .next (s.haulEnd c tag) else .next s
     | none => .next s)
  | _ => .next s

/-- The engine performs a cancel (R380). Of a STOPPED haul nothing is restored any more. -/
def State.haulCancelled (s : State) (c : CoreId) (tag : Nat) : State :=
  match s.haul? c tag, tget s.tags TagState.free (c, tag) with
  | some h, .queued => (s.setHaul c tag { h with cancelled := true }).haulEnd c tag
  | some h, .stopped =>
    { (s.setHaul c tag { h with cancelled := true }).haulEnd c tag with dropped := s.dropped ++ [⟨c, tag, h.sid, h.desc⟩] }
  | some h, .running => if h.ending then s else (s.setHaul c tag { h with cancelled := true }).haulEndEarly c tag
  | _, _ => s

/-- R380: the engine performs a cancel. -/
def execHaulCancel (s : State) : Res :=
  match s.arg with
  | .haulCancel c tag rel => .next ((s.haulCancelled c tag).performed c rel)
  | _ => .next s

/-- R382: the store tile performs an `hslot`. -/
def execHslotPerform (s : State) : Res :=
  match s.arg with
  | .hslotPerform core w o rel =>
    let s := s.performed core rel
    let g := s.ringAt o.sid w
    let x := s.gen g
    (match x.cfg with
     | some c =>
       if c.recd.mode = 0 && !c.reader && x.cons = none && x.drain = bitsN w 23 16 && x.full.contains x.drain then
         .next (s.emptyDrain g)
       else .next (s.report o .illegalForm 2 w)
     | none => .next (s.report o .illegalForm 2 w))
  | _ => .next s

/-- A released haul reaches its engine (R364, R365): QUEUED, in release order, after the cancels released before it (R380). -/
def State.haulAccept (s : State) (c : CoreId) (h : Haul) (tag : Nat) : State :=
  let cancels := s.pending.filterMap (fun p => match p.ev with | .haulCancel d n rel => if d = c then some (n, rel) else none | _ => none)
  let s := { s with pending := s.pending.filter (fun p => match p.ev with | .haulCancel d _ _ => d ≠ c | _ => true) }
  let s := cancels.foldl (fun s n => (s.haulCancelled c n.1).performed c n.2) s
  { (s.setTag c tag .queued).setHaul c tag { h with order := s.horder } with horder := s.horder + 1 }

/-! ## Write ports (R323) -/

/-- R323: a generator takes the token at its write port, by mode and kind. -/
def execWritePortToken (s : State) : Res :=
  match s.arg with
  | .writePortToken g =>
    let x := s.gen g
    (match x.cfg, x.wport with
     | some c, some t =>
       if !s.portReady g then .next s
       else
         let x := { x with wport := none }
         if c.recd.mode = 1 then
           let l := wordLoc g c.recd ((x.head + x.kinds.length) % c.recd.count) 0
           .next (((s.setGen g { x with kinds := x.kinds ++ [t.kind] }).store l (bytesOf 16 t.data.toNat) t.poison).genPump g)
         else
           (match t.kind with
            | .data =>
              let l := wordLoc g c.recd x.fill x.part
              let x := if x.part + 1 = c.recd.words then x.fillSlot c.recd.count else { x with part := x.part + 1 }
              .next (((s.setGen g x).store l (bytesOf 16 t.data.toNat) t.poison).ringMoved g)
            | .ctrl => .next (s.setGen g { x with prog := some t.data })
            | .eos =>
              let x := if x.part = 0 then x else x.fillSlot c.recd.count
              .next ((s.setGen g { x with closed := true }).ringMoved g)
            | _ => .next (s.setGen g x))
     | _, _ => .next s)
  | _ => .next s

end Sys2Proof.Machine
end

