-- ==== Sys2Proof/Machine/Joint.lean ====
section
/-! DEFINITION. The joint array of a hive (R341 to R363). -/

namespace Sys2Proof.Machine

open Sys2Proof

/-! ## Op records (R344 to R346) -/

/-- The fields of an op record (R344). -/
structure OpRec where
  seq : Nat
  mode : Nat
  bank : Nat
  fa : Nat
  fb : Nat
  acc : Nat
  opts : Nat
  k : Nat
  shard : Nat
  a : Nat
  asc : Nat
  part : Nat
  bt : Nat
  bg : Nat
  bst : Nat
  bsg : Nat
  deriving DecidableEq, Repr

def OpRec.of (r : List Byte) : OpRec :=
  { seq := recN r 0 2, mode := recN r 2 1, bank := recN r 3 1, fa := recN r 4 1, fb := recN r 5 1, acc := recN r 6 1,
    opts := recN r 7 1, k := recN r 8 2, shard := recN r 10 1, a := recN r 12 1, asc := recN r 13 1,
    part := recN r 14 1, bt := recN r 16 1, bg := recN r 17 1, bst := recN r 18 1, bsg := recN r 19 1 }

/-- Bytes of 16 packed elements of a format (R345). -/
def opBytes (f : Nat) : Nat :=
  match f with | 2 => 12 | 3 => 12 | 4 => 8 | 6 => 32 | 7 => 32 | _ => 16

/-- The groups of R350. -/
def opGroup (f : Nat) : Nat := if f ≤ 3 then 0 else if f = 4 then 1 else if f = 5 then 2 else 3

/-- Cycles of a K block (R350). -/
def opCycles (f : Nat) : Nat := match opGroup f with | 1 => 8 | 3 => 32 | _ => 16

/-- The float format of an operand code. -/
def opFlt (f : Nat) : FFmt :=
  match f with | 0 => e4m3 | 1 => e5m2 | 2 => e2m3 | 3 => e3m2 | 4 => e2m1 | 6 => bf16 | _ => fp16

def OpRec.opt (o : OpRec) (i : Nat) : Bool := o.opts / 2 ^ i % 2 = 1
/-- The kind of an op's results (R342): 1 FP32, 2 INT32. -/
def OpRec.kind (o : OpRec) : Nat := if o.fa = 5 then 2 else 1

/-- The limits of R344, for member m: none where they are met. -/
def OpRec.check (o : OpRec) (r : List Byte) (caps m : Nat) : Option Cause :=
  let st (t : Nat) : Bool := t < 16 && !isCompute t
  let red : Bool := o.mode = 2 && 4 ≤ m
  let ring (v : Nat) (want : Bool) : Bool := if want then v ≤ 3 else v = 0xFF
  let low : Bool := decide (o.mode ≤ 2) && decide (o.bank ≤ 1) && decide (o.fa ≤ 7) && decide (o.fb ≤ 7) && opGroup o.fa = opGroup o.fb
  if !low then some .illegalForm
  else if (o.fa = 4 || o.fb = 4) && caps % 2 = 0 then some .unavailable
  else if o.acc = (if o.fa = 5 then 1 else 0) && decide (o.opts < 32) && decide (16 ≤ o.k) && decide (o.k ≤ 4096) && o.k % 16 = 0 &&
     decide (o.shard ≤ 15) && (o.shard = 0 || o.mode = 1 || o.opt 4) && recN r 11 1 = 0 && recN r 15 1 = 0 &&
     (r.drop 20).all (· = 0) && ring o.a (!red) && ring o.asc (o.opt 2 && !red) && ring o.part (o.mode = 1) &&
     st o.bt && decide (o.bg ≤ 3) && (if o.opt 3 then st o.bst && decide (o.bsg ≤ 3) else o.bst = 0xFF && o.bsg = 0xFF) &&
     !(o.opt 0 && 2 ≤ o.fa && o.fa ≤ 4) && !(o.opt 1 && 2 ≤ o.fb && o.fb ≤ 4) &&
     !(o.opt 2 && 5 ≤ o.fa) && !(o.opt 3 && 5 ≤ o.fb) && (o.fa ≠ 4 || o.opt 2) && (o.fb ≠ 4 || o.opt 3) then none
  else some .illegalForm

/-- A generator of the store tile paired with a member (R344). -/
def memberGen (h : HiveId) (m g : Nat) : GenId := ⟨⟨h.die, h.hive, storeTile m⟩, g⟩

/-- The generators an op reads, with member and role: 0 A, 1 A scales, 2 B, 3 B scales. -/
def Op.reads (o : Op) (h : HiveId) : List (GenId × Nat) :=
  let rs := o.recs.map OpRec.of
  let own (f : OpRec → Nat) (role : Nat) : List (GenId × Nat) :=
    (rs.mapIdx (fun m r => (m, f r))).filterMap (fun e => if e.2 ≤ 3 then some (memberGen h e.1 e.2, role) else none)
  let shared : List (GenId × Nat) := match rs with
    | r :: _ => (⟨⟨h.die, h.hive, r.bt⟩, r.bg⟩, 2) :: (if r.opt 3 then [(⟨⟨h.die, h.hive, r.bst⟩, r.bsg⟩, 3)] else [])
    | [] => []
  own OpRec.a 0 ++ own OpRec.asc 1 ++ shared

/-- The partial rings of an op: member and generator. -/
def Op.parts (o : Op) (h : HiveId) : List (Nat × GenId) :=
  ((o.recs.map OpRec.of).mapIdx (fun m r => (m, r.part))).filterMap
    (fun e => if e.2 ≤ 3 then some (e.1, memberGen h e.1 e.2) else none)

/-- The generators an op names (R344). -/
def Op.gens (o : Op) (h : HiveId) : List GenId := (o.reads h).map Prod.fst ++ (o.parts h).map Prod.snd

/-- Whether RECONF has passed a generator (R399): no engine begins an access to it until the swap ends (R253). -/
def State.reconfPassed (s : State) (g : GenId) : Bool :=
  let x := s.gen g
  x.recorded && (match (x.cfg.bind (fun c => s.inst c.inst)) with | some n => n.st = .swapping | none => false)

/-- The first record of an op, whose shared fields are every record's. -/
def Op.rec0 (o : Op) : OpRec := OpRec.of (o.recs.headD [])

/-- Slot and count of a TILE-mode generator. -/
def State.tileGen (s : State) (g : GenId) : Option StoreRec :=
  match (s.gen g).cfg with
  | some c => if c.recd.mode = 0 then some c.recd else none
  | none => none

/-- K blocks of a slot (R345). -/
def Op.perSlot (o : Op) (s : State) (h : HiveId) : Nat :=
  match ((o.reads h).find? (fun e => e.2 = 2)).bind (fun e => s.tileGen e.1) with
  | some c => max 1 (c.size / (256 * opBytes o.rec0.fb))
  | none => 1

/-! ## Instructions -/

/-- Adds a joint-array effect: the 17th of a reach raises REACH_EFFECTS (R348). -/
def State.addJoint (s : State) (t : ThreadId) (e : Eff) : Except Stop State :=
  if 16 ≤ ((s.ctx t).buf.filter (fun b => b.eff.joint)).length && (s.ctx t).room.toOption.isSome then .error ⟨.reachEffects, none⟩
  else s.addEff t e

/-- The gang member of a handler core. -/
def CoreId.member : CoreId → Nat
  | .hc _ _ m => m
  | .ec _ _ => 0

/-- R347. -/
def execGang (a : BitVec 5) (t : BitVec 4) (s : State) : Res :=
  threadInstr (.gang a t) t (fun s th => do
    let ea ← rd s th a
    needHandlerCore th
    let r ← readRecord s th ea 64 64
    if r = [] then .ok (s.consumePoison th (some ea) (encode (.gang a t)))
    else
      match (OpRec.of r).check r s.part.caps th.core.member with
      | some x => .error ⟨x, none⟩
      | none => s.addJoint th (.gang r)) s

/-- R356. -/
def execJzero (e : BitVec 5) (t : BitVec 4) (s : State) : Res :=
  threadInstr (.jzero e t) t (fun s th => do
    needHandlerCore th
    s.addJoint th (.jzero e.toNat)) s

/-- The fields of a drain record (R358). -/
structure DrainRec where
  target : Nat
  fmt : Nat
  sat : Bool
  gen : Nat
  fin : Nat
  base : Word
  pitch : Nat
  deriving DecidableEq, Repr

def DrainRec.of (r : List Byte) : DrainRec :=
  { target := recN r 0 1, fmt := recN r 1 1 % 8, sat := recN r 1 1 / 128 = 1, gen := recN r 2 1, fin := recN r 4 2,
    base := recW r 8, pitch := recN r 16 4 }

/-- The generators a slice instruction of a member names (R357, R359). -/
def Eff.gens (e : Eff) (h : HiveId) (m : Nat) : List GenId :=
  match e with
  | .jdrain _ r => if (DrainRec.of r).target = 0 then [memberGen h m (DrainRec.of r).gen] else []
  | .jdrainO _ g _ => [memberGen h m g]
  | _ => []

/-- Bytes of a drained value. -/
def DrainRec.w (d : DrainRec) : Nat := match d.fmt with | 0 => 4 | 1 => 2 | 2 => 2 | 5 => 4 | _ => 1

/-- The limits of R358. -/
def DrainRec.form (d : DrainRec) (r : List Byte) : Bool :=
  decide (d.target ≤ 1) && decide (d.fmt ≤ 6) && recN r 1 1 / 8 % 16 = 0 && recN r 3 1 = 0 && d.fin / 1024 % 32 = 0 &&
  recN r 6 2 = 0 && (r.drop 20).all (· = 0) &&
  (if d.target = 0 then decide (d.gen ≤ 3) && d.base = 0 && d.pitch = 0
   else d.gen = 0 && bitsN d.base 63 62 = 1 && d.base.toNat % 16 = 0 && d.pitch % 16 = 0 && 256 * d.w ≤ d.pitch)

/-- R357: reads and checks a drain record. -/
def execJdrain (a e : BitVec 5) (t : BitVec 4) (s : State) : Res :=
  threadInstr (.jdrain a e t) t (fun s th => do
    let ea ← rd s th a
    needHandlerCore th
    let r ← readRecord s th ea 32 32
    if r = [] then .ok (s.consumePoison th (some ea) (encode (.jdrain a e t)))
    else
      let d := DrainRec.of r
      if !d.form r then .error ⟨.illegalForm, none⟩
      else if d.target = 1 then
        let _ ← checkAddr s th d.base 16 (31 * d.pitch + 256 * d.w) false
        s.addJoint th (.jdrain e.toNat r)
      else s.addJoint th (.jdrain e.toNat r)) s

/-- R359. -/
def execJdrainO (g : BitVec 5) (k : BitVec 10) (b : BitVec 5) (t : BitVec 4) (s : State) : Res :=
  threadInstr (.jdrainO g k b t) t (fun s th => do
    needHandlerCore th
    s.addJoint th (.jdrainO b.toNat g.toNat k.toNat)) s

/-- A slice. -/
def State.slice (s : State) (h : HiveId) (m b : Nat) : Slice := tget s.slices {} (h, m, b)
def State.setSlice (s : State) (h : HiveId) (m b : Nat) (x : Slice) : State := { s with slices := tput s.slices (h, m, b) x }

/-- The bank an effect of the joint queue names. -/
def Eff.bank : Eff → Nat
  | .gang r => recN r 3 1
  | .jzero b => b
  | .jdrain b _ => b
  | .jdrainO b _ _ => b
  | _ => 0

/-- The word `jstat` reads (R360). -/
def jstatWord (s : State) (h : HiveId) (m b : Nat) : Word :=
  let x := s.slice h m b
  let j := s.joint h
  let busy : Bool := j.ops.any (fun o => o.rec0.bank = b) ||
    (match tfind j.runs m with | some r => r.entry.eff.bank = b | none => false)
  fld x.flags.toNat 0 ||| fld x.kind 8 ||| fld (if x.red then 1 else 0) 10 ||| fld (if busy then 1 else 0) 11
    ||| fld x.seq 16 ||| fld j.shard.toNat 32 ||| fld (tget j.queues [] m).length 48

/-- R360. -/
def execJstat (d e : BitVec 5) (t : BitVec 4) (s : State) : Res :=
  scalarInstr (.jstat d e t) t (fun s th c => do
    needHandlerCore th
    match th.core.hive? with
    | some h => .ok (c.wr d (jstatWord s h th.core.member e.toNat))
    | none => .ok c) s

/-- The word `jred` reads (R361). -/
def jredWord (j : Joint) : Word :=
  fld j.cmpSeq 0 ||| fld j.cmpGroup 16 ||| fld j.cmpBank 18 ||| fld (if j.cmpValid then 1 else 0) 19 ||| fld j.cmpCount.toNat 32

/-- R361. -/
def execJred (d : BitVec 5) (t : BitVec 4) (s : State) : Res :=
  scalarInstr (.jred d t) t (fun s th c => do
    needHandlerCore th
    match th.core.hive? with
    | some h => .ok (c.wr d (jredWord (s.joint h)))
    | none => .ok c) s

/-! ## The barrier and the head of the op queue (R348, R349) -/

/-- A released joint-array effect reaches its member's queue (R348). -/
def State.jointAccept (s : State) (c : CoreId) (e : Eff) (o : Origin) : State :=
  match c.hive? with
  | some h =>
    let j := s.joint h
    s.setJoint h { j with queues := tput j.queues c.member (tget j.queues [] c.member ++ [⟨e, o⟩]) }
  | none => s

/-- h2 of a fault of unit 3 (R362). -/
def jointH2 (lo hi group bank member : Nat) (eq : Bool) (detail : Nat) : Word :=
  fld lo 0 ||| fld hi 16 ||| fld group 32 ||| fld bank 34 ||| fld member 35 ||| fld (if eq then 1 else 0) 38 ||| fld detail 39

/-- The gang heads of all eight members, if every head is one. -/
def Joint.gangHeads (j : Joint) : Option (List (List Byte × Origin)) :=
  (List.range 8).mapM (fun m => match (tget j.queues [] m).head? with
    | some ⟨.gang r, o⟩ => some (r, o)
    | _ => none)

/-- The shared fields of a record (R344). -/
def sharedOf (r : List Byte) : List Byte := r.take 12 ++ (r.drop 16).take 4

/-- R349: the eight heads leave together and are compared. -/
def execJointBarrier (s : State) : Res :=
  match s.arg with
  | .jointBarrier h =>
    let j := s.joint h
    (match j.gangHeads with
     | some hs =>
       if 4 ≤ j.ops.length then .next s
       else
         let j' := { j with queues := j.queues.map (fun e => (e.1, e.2.drop 1)) }
         let recs := hs.map Prod.fst
         let r0 := recs.headD []
         if recs.all (fun r => sharedOf r = sharedOf r0) then
           .next (s.setJoint h { j' with ops := j.ops ++ [{ recs := recs, origins := hs.map Prod.snd }] })
         else
           let s0 := recN r0 0 2
           let eq := recs.all (fun r => recN r 0 2 = s0)
           .next ((List.range 8).foldl (fun s m =>
             match hs[m]? with
             | some (r, o) => s.report o .gangMismatch 3 (jointH2 (recN r 0 2) s0 0 (recN r 3 1) m eq 0)
             | none => s) (s.setJoint h j'))
     | none => .next s)
  | _ => .next s

/-- The checks of an op at the head of the queue: the detail of R362 that fails. R349 orders the three checks; where several parts of the second
fail, the model reports the first of missing, not distinct, size, count (log 151). -/
def Op.headFault (o : Op) (s : State) (h : HiveId) : Option Nat :=
  let r := o.rec0
  let sl := (List.range 8).map (fun m => s.slice h m r.bank)
  let okSlices : Bool :=
    if r.mode = 2 then sl.all (fun x => x.kind = 0 || (x.red && x.kind = r.kind))
    else sl.all (fun x => !x.red && (x.kind = 0 || x.kind = r.kind))
  let rd := o.reads h
  let pt := o.parts h
  let ofMember := (List.range 8).flatMap (fun m =>
    match o.recs[m]? with
    | some x => ([(OpRec.of x).a, (OpRec.of x).asc, (OpRec.of x).part].filter (· ≤ 3)).map (memberGen h m)
    | none => [])
  let named := ofMember ++ ((rd.filter (fun e => 2 ≤ e.2)).map Prod.fst)
  let b := o.perSlot s h
  let want (role : Nat) : Nat :=
    match role with | 0 => b * 32 * opBytes r.fa | 1 => b * 32 | 2 => b * 256 * opBytes r.fb | _ => b * 256
  let size (g : GenId) : Nat := ((s.tileGen g).map StoreRec.size).getD 0
  let me : Engine := .array h
  let held (e : Option Engine) : Bool := e.isSome && e ≠ some me
  if !okSlices then some 0
  else if named.any (fun g => (s.tileGen g).isNone) then some 1
  else if !named.Nodup then some 6
  else if r.k / 16 % b ≠ 0 || rd.any (fun e => size e.1 ≠ want e.2) || pt.any (fun e => size e.2 ≠ 32768) then some 2
  else if pt.any (fun e => ((s.tileGen e.2).map StoreRec.count).getD 0 ≤ r.shard) then some 7
  else if named.any (fun g => held (s.gen g).cons || ((s.gen g).cfg.map GenCfg.reader).getD false) ||
          pt.any (fun e => held (s.gen e.2).prod || ((s.gen e.2).cfg.map GenCfg.writer).getD false) then some 3
  else none

/-- R349: the op at the head is checked and its rings are bound, or it is dropped. It waits while a swap goes on that has passed one of its
generators (R253). -/
def execOpHeadCheck (s : State) : Res :=
  match s.arg with
  | .opHeadCheck h =>
    let j := s.joint h
    (match j.ops with
     | o :: rest =>
       if o.checked || (o.gens h).any s.reconfPassed then .next s
       else
         match o.headFault s h with
         | some d =>
           .next ((List.range 8).foldl (fun s m =>
             match o.origins[m]? with
             | some x => s.report x .illegalForm 3 (jointH2 o.rec0.seq 0 0 o.rec0.bank m false d)
             | none => s) (s.setJoint h { j with ops := rest }))
         | none =>
           let s := s.setJoint h { j with ops := { o with checked := true } :: rest,
                                          partials := (j.partials ++ (o.parts h).map Prod.snd).eraseDups }
           let s := (o.gens h).foldl
             (fun s g => s.onGen g (fun x => { x with cons := some (.array h) })) s
           .next ((o.parts h).foldl (fun s e =>
             if (s.gen e.2).prod = some (.array h) then s else s.bindProd e.2 (.array h)) s)
     | [] => .next s)
  | _ => .next s

/-! ## An op (R350 to R354) -/

/-- Whether the op at the head may start (R350, R352, R355). -/
def Joint.startReady (j : Joint) : Bool :=
  match j.ops with
  | o :: _ =>
    o.checked && !o.started && (!o.rec0.opt 4 || j.shard.getLsbD o.rec0.shard) &&
    j.runs.all (fun r => r.2.entry.eff.bank ≠ o.rec0.bank)
  | [] => false

/-- R350: an op starts; it clears the flag it waited for, and in ORDERED mode starts from zero (R351). A value that is poisoned stays so until
`jzero` (R464). -/
def execOpStart (s : State) : Res :=
  match s.arg with
  | .opStart h =>
    let j := s.joint h
    (match j.ops with
     | o :: rest =>
       if !j.startReady || thas s.moves h then .next s
       else
         let r := o.rec0
         let sh := if r.opt 4 then j.shard &&& ~~~(1#16 <<< r.shard) else j.shard
         let s := s.setJoint h { j with ops := { o with started := true } :: rest, shard := sh }
         .next (if r.mode = 1 then
             (List.range 8).foldl (fun s m => let x := s.slice h m r.bank
               s.setSlice h m r.bank { x with vals := [] }) s
           else s)
     | [] => .next s)
  | _ => .next s

/-- Whether the next K block may start: every slot it reads is full (R350, R252). -/
def State.blockReady (s : State) (h : HiveId) : Bool :=
  match (s.joint h).ops with
  | o :: _ =>
    o.started && !o.busy && decide (o.blk < o.rec0.k / 16) &&
    (o.reads h).all (fun e => (s.gen e.1).full.contains (s.gen e.1).drain)
  | [] => false

/-- R350: a K block starts. -/
def execBlockStart (s : State) : Res :=
  match s.arg with
  | .blockStart h =>
    if s.blockReady h then
      let j := s.joint h
      (match j.ops with
       | o :: rest =>
         .next ((s.setJoint h { j with ops := { o with busy := true } :: rest }).post .none (.blockEnd h) (opCycles o.rec0.fa))
       | [] => .next s)
    else .next s
  | _ => .next s

/-- The 16 elements of a row or column in block j of the drain slot (R346), lowest k first, and whether any is poisoned. -/
def State.opLine (s : State) (g : GenId) (f lines j r : Nat) (tr : Bool) : List Nat × Bool :=
  let e := opBytes f
  let w := e * 8 / 16
  let loc (off : Nat) : Loc := match (s.gen g).cfg with
    | some c => .tile g.tile (c.recd.base + (s.gen g).drain * c.recd.size + off)
    | none => .tile g.tile 0
  if tr then
    let b := e / 16
    let at_ (k : Nat) : Loc := loc ((16 * j + k) * lines * b + r * b)
    ((List.range 16).map (fun k => natOf (s.bytes (at_ k) b)), (List.range 16).any (fun k => s.poisoned (at_ k) b))
  else
    let l := loc ((lines * j + r) * e)
    let v := natOf (s.bytes l e)
    ((List.range 16).map (fun k => v / 2 ^ (w * k) % 2 ^ w), s.poisoned l e)

/-- The scale of a row or column in block j (R346, R351): 127 without a ring. -/
def State.opScale (s : State) (g : Option GenId) (lines j r : Nat) : Nat × Bool :=
  match g with
  | none => (127, false)
  | some g =>
    match (s.gen g).cfg with
    | some c =>
      let l : Loc := .tile g.tile (c.recd.base + (s.gen g).drain * c.recd.size + lines * j + r)
      (natOf (s.bytes l 1), s.poisoned l 1)
    | none => (127, false)

/-- The value of a float block (R96): the single rounding. A product 0 · ∞, or products of both infinities, set nv whatever
else is NaN (R86). -/
def blockFlt (fa fb ea eb : Nat) (a b : List Nat) : Nat × BitVec 7 :=
  let ps := ((a.map (opFlt fa).decode).zip (b.map (opFlt fb).decode)).map (fun e => e.1.mul e.2)
  let vs := ps.map Prod.fst
  if ps.any (fun p => p.2 = flagNv) || (vs.contains (.inf true) && vs.contains (.inf false)) then (fp32.nan, flagNv)
  else if ea = 0xFF || eb = 0xFF || vs.contains .nan then (fp32.nan, 0)
  else
    let v : Val := match vs with
      | [] => .fin false 0 0
      | v :: rest => rest.foldl (fun x y => (x.add .rne y).1) v
    match v with
    | .fin n m e => fp32.ofVal .rne false (.fin n m (e + (ea : Int) + (eb : Int) - 254))
    | v => fp32.ofVal .rne false v

/-- One block added to one accumulator (R96, R97). -/
def blockAdd (r : OpRec) (acc : BitVec 32) (a b : List Nat) (ea eb : Nat) : BitVec 32 × BitVec 7 :=
  if r.fa = 5 then
    let i8 : IFmt := ⟨8, true⟩
    let p := (a.zip b).foldl (fun (t : Int) e => t + i8.decode e.1 * i8.decode e.2) 0
    let v := acc.toInt + p
    (BitVec.ofInt 32 v, if v < -(2 ^ 31 : Int) || (2 ^ 31 : Int) ≤ v then flagIovf else 0)
  else
    let x := blockFlt r.fa r.fb ea eb a b
    let y := fp32.add .rne acc.toNat x.1
    (BitVec.ofNat 32 y.1, x.2 ||| y.2)

/-- The values of a slice, 8,192 of them. -/
def Slice.all (x : Slice) : List (BitVec 32) := if x.vals = [] then List.replicate 8192 0 else x.vals

/-- A slice after one K block (R351, R354, R464). -/
def State.blockSlice (s : State) (h : HiveId) (o : Op) (m : Nat) : Slice :=
  let r := o.rec0
  let x := s.slice h m r.bank
  let from_ := if r.mode = 2 then m % 4 else m
  let mine := OpRec.of ((o.recs[from_]?).getD [])
  let b := o.perSlot s h
  let j := o.blk % b
  let ag := memberGen h from_ mine.a
  let asg := if r.opt 2 then some (memberGen h from_ mine.asc) else none
  let bg : GenId := ⟨⟨h.die, h.hive, r.bt⟩, r.bg⟩
  let bsg := if r.opt 3 then some (⟨⟨h.die, h.hive, r.bst⟩, r.bsg⟩ : GenId) else none
  let rows := (List.range 32).map (fun i => (s.opLine ag r.fa 32 j i (r.opt 0), s.opScale asg 32 j i))
  let cols := (List.range 256).map (fun n => (s.opLine bg r.fb 256 j n (r.opt 1), s.opScale bsg 256 j n))
  let cells := rows.flatMap (fun a => cols.map (fun c =>
    (a.1.1, c.1.1, a.2.1, c.2.1, a.1.2 || c.1.2 || a.2.2 || c.2.2)))
  let out := (x.all.zip cells).map (fun e => (blockAdd r e.1 e.2.1 e.2.2.1 e.2.2.2.1 e.2.2.2.2.1, e.2.2.2.2.2))
  let bad := (out.mapIdx (fun i e => (i, e.2))).filterMap (fun e => if e.2 && !x.bad.contains e.1 then some e.1 else none)
  { x with vals := out.map (fun e => e.1.1), bad := x.bad ++ bad,
           flags := out.foldl (fun f e => f ||| e.1.2) x.flags }

/-- R350: a K block's products are added; after the last block of a slot the slots are emptied. -/
def execBlockEnd (s : State) : Res :=
  match s.arg with
  | .blockEnd h =>
    let j := s.joint h
    (match j.ops with
     | o :: rest =>
       if !o.busy then .next s
       else
         let b := o.perSlot s h
         let xs := (List.range 8).map (s.blockSlice h o)
         let s := (List.range 8).foldl (fun s m => match xs[m]? with
           | some x => s.setSlice h m o.rec0.bank x
           | none => s) s
         let s := s.setJoint h { j with ops := { o with busy := false, blk := o.blk + 1 } :: rest }
         .next (if (o.blk + 1) % b = 0 then (o.reads h).foldl (fun s e => s.emptyDrain e.1) s else s)
     | [] => .next s)
  | _ => .next s

/-- The bytes of values as stores: those that are clean, and those written poisoned (R464). -/
def valueStores (w : Nat) (vs : List (Nat × Bool)) : List (List (Option Byte) × Bool) :=
  let part (b : Bool) : List (Option Byte) :=
    vs.flatMap (fun v => if v.2 = b then (bytesOf w v.1).map some else List.replicate w none)
  (if vs.any (fun v => !v.2) then [(part false, false)] else []) ++ (if vs.any (fun v => v.2) then [(part true, true)] else [])

/-- Sends the writes of 32 rows of 256 values; the answer says how many were sent. -/
def State.sendRows (s : State) (c : CoreId) (off sid : Nat) (place : Nat → Option Loc) (w : Nat) (vs : List (Nat × Bool)) : State × Nat :=
  (List.range 32).foldl (fun (a : State × Nat) r =>
    match place r with
    | none => a
    | some l =>
      (valueStores w ((vs.drop (256 * r)).take 256)).foldl (fun (a : State × Nat) st =>
        (a.1.post .none (.storePerform { asker := .joint c off, sid := sid, loc := l, addr := 0, op := .store st.1 st.2 }), a.2 + 1)) a)
    (s, 0)

/-- The asker numbers of an op's partial writes. -/
def partOff : Nat := 2 ^ 20

/-- Whether an op has something to do at its end: its partial writes to send, or nothing left (R350, R353). -/
def Joint.endReady (j : Joint) (h : HiveId) : Bool :=
  match j.ops with
  | o :: _ =>
    o.started && !o.busy && decide (o.rec0.k / 16 ≤ o.blk) &&
    (if o.wrote || o.rec0.mode ≠ 1 then o.need = 0
     else (o.parts h).all (fun e => j.notes.contains (e.2, o.rec0.shard)))
  | [] => false

/-- R350: an op whose last block is added writes its partial slots (R353), and then completes. -/
def execOpComplete (s : State) : Res :=
  match s.arg with
  | .opComplete h =>
    let j := s.joint h
    (match j.ops with
     | o :: rest =>
       if !j.endReady h then .next s
       else
         let r := o.rec0
         if r.mode = 1 && !o.wrote then
           let sid := (o.origins.head?.map Origin.sid).getD 0
           let j' := { j with notes := j.notes.filter (fun n => !((o.parts h).any (fun (e : Nat × GenId) => decide (n = (e.2, r.shard))))),
                              part := (o.parts h).foldl (fun t (e : Nat × GenId) => tput t (e.2, r.shard) r.kind) j.part }
           let a := (o.parts h).foldl (fun (a : State × Nat) e =>
             let x := s.slice h e.1 r.bank
             let base := ((s.tileGen e.2).map StoreRec.base).getD 0
             let vs := x.all.mapIdx (fun i v => (v.toNat, x.bad.contains i))
             let q := a.1.sendRows (.hc h.die h.hive e.1) partOff sid (fun row => some (.tile e.2.tile (base + 32768 * r.shard + 1024 * row))) 4 vs
             (q.1, a.2 + q.2)) (s, 0)
           .next (a.1.setJoint h { j' with ops := { o with wrote := true, need := a.2 } :: rest })
         else
           let s := (o.parts h).foldl (fun s e => s.onGen e.2 (fun x => { x with full := x.full ++ [r.shard] })) s
           let s := (List.range 8).foldl (fun s m =>
             let x := s.slice h m r.bank
             s.setSlice h m r.bank { x with kind := r.kind, red := r.mode = 2, seq := r.seq }) s
           .next (s.setJoint h { j with ops := rest })
     | [] => .next s)
  | _ => .next s

/-! ## Slice instructions (R355 to R359) -/

/-- The value of a slice in a drain's format (R357, R84), and its flags. -/
def drainValue (kind : Nat) (d : DrainRec) (v : BitVec 32) : Nat × BitVec 7 :=
  if kind = 0 then (0, 0)
  else if kind = 2 then
    (if d.fmt = 5 then (v.toNat, 0) else convert (.int ⟨32, true⟩) (.int ⟨8, true⟩) .rne d.sat v.toNat 0)
  else
    match d.fmt with
    | 0 => convert (.flt fp32) (.flt fp32) .rne d.sat v.toNat 0
    | 1 => convert (.flt fp32) (.flt bf16) .rne d.sat v.toNat 0
    | 2 => convert (.flt fp32) (.flt fp16) .rne d.sat v.toNat 0
    | 3 => convert (.flt fp32) (.flt e4m3) .rne d.sat v.toNat 0
    | _ => convert (.flt fp32) (.flt e5m2) .rne d.sat v.toNat 0

/-- Ends a member's running slice instruction. -/
def State.sliceEnd (s : State) (h : HiveId) (m : Nat) : State :=
  let j := s.joint h
  s.setJoint h { j with runs := tdel j.runs m }

/-- What a drain is refused for (R357, R358): the detail of R362; where several apply, the format first (log 151). -/
def State.drainFault (s : State) (h : HiveId) (m bank : Nat) (d : DrainRec) : Option Nat :=
  let x := s.slice h m bank
  if x.kind ≠ 0 && (x.kind = 2) ≠ (5 ≤ d.fmt) then some 4
  else if d.target = 0 then
    let g := memberGen h m d.gen
    match s.tileGen g with
    | none => some 1
    | some c =>
      if c.size ≠ 8192 * d.w then some 2
      else if ((s.gen g).cfg.map GenCfg.writer).getD false || ((s.gen g).prod.isSome && (s.gen g).prod ≠ some (.array h)) then some 3
      else none
  else none

/-- Sends the writes of a drain once it may (R357): to the fill slot it holds a notice of, or to fabric memory. A
redundant slice is compared with its other row group then; the other row group's own drain writes nothing. -/
def State.drainSend (s : State) (h : HiveId) (m : Nat) : State :=
  let j := s.joint h
  match tfind j.runs m with
  | some ⟨⟨.jdrain bank rec, o⟩, _, false, _⟩ =>
    let d := DrainRec.of rec
    let x := s.slice h m bank
    let g := memberGen h m d.gen
    let f := (s.gen g).fill
    if d.target = 0 && !j.notes.contains (g, f) then s
    else
      let skip : Bool := x.red && 4 ≤ m
      let conv := if skip then [] else x.all.map (drainValue x.kind d)
      let vs := conv.mapIdx (fun i v => (v.1, x.bad.contains i))
      let base := ((s.tileGen g).map StoreRec.base).getD 0
      let place (row : Nat) : Option Loc :=
        if d.target = 0 then some (.tile g.tile (base + 8192 * d.w * f + 256 * row * d.w))
        else
          match checkAddrOf s (.hc h.die h.hive m) 0 o.sid (d.base + BitVec.ofNat 64 (row * d.pitch)) 16 (256 * d.w) false with
          | .ok (.here l) => some l
          | _ => none
      let a := if skip then (s, 0) else s.sendRows (.hc h.die h.hive m) m o.sid place d.w vs
      let s := a.1.setSlice h m bank { x with flags := conv.foldl (fun z v => z ||| v.2) x.flags }
      let j := { j with notes := if d.target = 0 then j.notes.filter (fun n => n ≠ (g, f)) else j.notes,
                        runs := tput j.runs m ⟨⟨.jdrain bank rec, o⟩, a.2, true, f⟩ }
      let diff : Bool := x.red && !skip && (s.slice h (m + 4) bank).all ≠ x.all
      let s := s.setJoint h (if diff then { j with cmpSeq := x.seq, cmpGroup := m, cmpBank := bank, cmpValid := true, cmpCount := j.cmpCount + 1 } else j)
      if diff then s.report o .jaMismatch 3 (jointH2 x.seq 0 m bank m false 0) else s
  | _ => s

/-- Whether a member's slice instruction may leave its queue (R348). -/
def Joint.sliceReady (j : Joint) (m : Nat) : Bool :=
  match (tget j.queues [] m).head? with
  | some e =>
    (match e.eff with | .gang _ => false | _ => true) && !thas j.runs m && j.ops.all (fun o => o.rec0.bank ≠ e.eff.bank)
  | none => false

/-- Sends the towpath token of a drain (R326, R357). -/
def State.drainFin (s : State) (h : HiveId) (m : Nat) (d : DrainRec) : State :=
  if 32768 ≤ d.fin then s.emitTowpath (.hc h.die h.hive m) (d.fin % 1024) else s

/-- R348: a slice instruction leaves its queue and begins; not while a swap goes on that has passed its generator (R253). -/
def execSliceStart (s : State) : Res :=
  match s.arg with
  | .sliceStart h m =>
    let j := s.joint h
    if !j.sliceReady m || thas s.moves h ||
        (match tget j.queues [] m with | e :: _ => (e.eff.gens h m).any s.reconfPassed | [] => false) then .next s
    else
      (match tget j.queues [] m with
       | ⟨e, o⟩ :: rest =>
         let s := s.setJoint h { j with queues := tput j.queues m rest, runs := tput j.runs m { entry := ⟨e, o⟩ } }
         let refuse (bank d : Nat) : Res :=
           .next ((s.sliceEnd h m).report o .illegalForm 3 (jointH2 0 0 0 bank m false d))
         (match e with
          | .jzero b =>
            .next ((s.setSlice h m b { seq := (s.slice h m b).seq }).sliceEnd h m)
          | .jdrain b rec =>
            let d := DrainRec.of rec
            (match s.drainFault h m b d with
             | some x => refuse b x
             | none =>
               let g := memberGen h m d.gen
               let s := if d.target = 0 && (s.gen g).prod = none then s.bindProd g (.array h) else s
               .next (s.drainSend h m))
          | .jdrainO b g n =>
            if !j.partials.contains (memberGen h m g) then refuse b 5
            else if (s.slice h m b).red then refuse b 0
            else if ((s.tileGen (memberGen h m g)).map StoreRec.count).getD 0 < n then refuse b 7
            else .next s
          | _ => .next (s.sliceEnd h m))
       | [] => .next s)
  | _ => .next s

/-- A write of the array is performed: a drain's or an op's partial slot's. -/
def State.jointWrote (s : State) (c : CoreId) (off : Nat) : State :=
  match c.hive? with
  | none => s
  | some h =>
    let j := s.joint h
    if off = partOff then
      (match j.ops with
       | o :: rest => s.setJoint h { j with ops := { o with need := o.need - 1 } :: rest }
       | [] => s)
    else
      match tfind j.runs off with
      | some r => s.setJoint h { j with runs := tput j.runs off { r with need := r.need - 1 } }
      | none => s

/-- R357: every write of a drain is performed: its full bit, its towpath token. -/
def execJdrainComplete (s : State) : Res :=
  match s.arg with
  | .jdrainComplete h m =>
    (match tfind (s.joint h).runs m with
     | some ⟨⟨.jdrain _ rec, _⟩, 0, true, _⟩ =>
       let d := DrainRec.of rec
       let g := memberGen h m d.gen
       let s := if d.target = 0 then
           (s.onGen g (fun x => match x.cfg with | some c => x.fillSlot c.recd.count | none => x)).ringMoved g
         else s
       .next ((s.drainFin h m d).sliceEnd h m)
     | _ => .next s)
  | _ => .next s

/-- Whether a `jdrain.o` may combine: its slots are full (R359). -/
def State.combineReady (s : State) (h : HiveId) (m : Nat) : Bool :=
  match tfind (s.joint h).runs m with
  | some ⟨⟨.jdrainO _ g n, _⟩, _, _, _⟩ => (List.range n).all (fun i => (s.gen (memberGen h m g)).full.contains i)
  | _ => false

/-- R359, R98: n partial slots are combined in ascending order into the slice, and emptied. The manual gives one kind for the slots: the model
takes the kind that was noted when slot 0 was written, and FP32 where the array wrote none (log 151). A value that is poisoned stays so until
`jzero` (R464). -/
def execPartialCombine (s : State) : Res :=
  match s.arg with
  | .partialCombine h m =>
    (match tfind (s.joint h).runs m with
     | some ⟨⟨.jdrainO b gi n, _⟩, _, _, _⟩ =>
       if !s.combineReady h m then .next s
       else
         let g := memberGen h m gi
         let base := ((s.tileGen g).map StoreRec.base).getD 0
         let kind := tget (s.joint h).part 1 (g, 0)
         let at_ (slot i : Nat) : Loc := .tile g.tile (base + 32768 * slot + 4 * i)
         let value (slot i : Nat) : BitVec 32 := BitVec.ofNat 32 (natOf (s.bytes (at_ slot i) 4))
         let step (c : BitVec 32 × BitVec 7) (v : BitVec 32) : BitVec 32 × BitVec 7 :=
           if kind = 2 then
             let x := c.1.toInt + v.toInt
             (BitVec.ofInt 32 x, c.2 ||| (if x < -(2 ^ 31 : Int) || (2 ^ 31 : Int) ≤ x then flagIovf else 0))
           else let y := fp32.add .rne c.1.toNat v.toNat; (BitVec.ofNat 32 y.1, c.2 ||| y.2)
         let out := (List.range 8192).map (fun i =>
           (List.range (n - 1)).foldl (fun c k => step c (value (k + 1) i)) (value 0 i, 0))
         let bad := (List.range 8192).filter (fun i => (List.range n).any (fun k => s.poisoned (at_ k i) 4))
         let x := s.slice h m b
         let s := s.setSlice h m b { x with vals := out.map Prod.fst, bad := x.bad ++ bad.filter (fun i => !x.bad.contains i), kind := kind,
                                             flags := out.foldl (fun f e => f ||| e.2) x.flags }
         .next (((List.range n).foldl (fun s i => s.emptySlot g i) s).sliceEnd h m)
     | _ => .next s)
  | _ => .next s

/-- R329: a freed-slot notice reaches the engine bound as the producer. -/
def execFreedSlotNotice (s : State) : Res :=
  match s.arg with
  | .freedSlotNotice n =>
    (match (s.gen n.gen).prod with
     | some (.haul c tag) =>
       let s := s.onHaul c tag (fun h =>
         { h with legs := h.legs.map (fun l => if l.dst = .ring n.gen then { l with notes := l.notes ++ [n.slot] } else l) })
       .next (s.haulPump c tag)
     | some (.array h) =>
       let j := s.joint h
       let s := s.setJoint h { j with notes := j.notes ++ [(n.gen, n.slot)] }
       .next ((List.range 8).foldl (fun s m => s.drainSend h m) s)
     | none => .next s)
  | _ => .next s

end Sys2Proof.Machine
end

