-- ==== Sys2Proof/Machine/Graph.lean ====
section
/-! DEFINITION. Graph instances (R385 to R404): place words, reservation, loading, the swap and the cut. -/

namespace Sys2Proof.Machine

open Sys2Proof

/-! ## Place words (R389) -/

/-- A region of tiles from an origin hive: the hives it touches. -/
def regionHives (die hive w h : Nat) : List HiveId :=
  (List.range ((h + 3) / 4)).flatMap (fun y => (List.range ((w + 3) / 4)).map (fun x => ⟨die, hive + 8 * y + x⟩))

/-- The checks of R389, in the order of its table and of the text after it. -/
def placeCheck (s : State) (sid : Nat) (w : Word) : Except Stop Unit :=
  let no (x : Cause) : Except Stop Unit := .error ⟨x, none⟩
  let img := s.image sid (bitsN w 13 0)
  let wd := recN img 0x0A 1
  let ht := recN img 0x0B 1
  let hv := bitsN w 21 16
  if (s.job sid).graphs.length ≤ bitsN w 13 0 then no .illegalForm
  else if s.part.dies ≤ bitsN w 22 22 then no .unavailable
  else if bitsN w 63 23 ≠ 0 then no .illegalForm
  else if 32 < 4 * (hv % 8) + wd || 32 < 4 * (hv / 8) + ht then no .bounds
  else if (regionHives (bitsN w 22 22) hv wd ht).any (fun h => !s.holds sid h) then no .remoteViolation
  else .ok ()

/-! ## Instructions -/

/-- The operation a thread issues. -/
def State.graphOp (s : State) (t : ThreadId) (i : Instr) (op : Nat) (place : Word) (other : Option Word) (arg : Word) :
    GraphOp :=
  { word := encode i, op := op, place := place, other := other, arg := arg, thread := t, serial := (s.ctx t).serial, origin := s.originOf t,
    ask := (s.ctx t).awaits }

/-- R393: asks the lockkeeper for a reservation, and waits as in a load wait. -/
def execGload (a d : BitVec 5) (t : BitVec 4) (s : State) : Res :=
  threadInstr (.gload a d t) t (fun s th => do
    let g ← rd s th a
    placeCheck s (s.ctx th).sid g
    if recN (s.image (s.ctx th).sid (bitsN g 13 0)) 0x16 2 ≠ 0 && bitsN g 15 14 ≠ 3 then .error ⟨.illegalForm, none⟩
    let op := s.graphOp th (.gload a d t) 0xA8 g none 0
    let s := s.onCtx th (fun c =>
      { c with status := .loadWait, loadWait := some { kind := .reserve d.toNat, addr := g, pieces := [], eff := some (.graph op) } })
    .ok (s.post .none (.graphReserve op))) s

/-- R398: activates a SHADOW instance and may retire an ACTIVE one; port z names none. -/
def execGswap (a b : BitVec 5) (t : BitVec 4) (s : State) : Res :=
  threadInstr (.gswap a b t) t (fun s th => do
    let n ← rd s th a
    placeCheck s (s.ctx th).sid n
    if b = 10 then s.addEff th (.graph (s.graphOp th (.gswap a b t) 0xA9 n none 0))
    else
      let o ← rd s th b
      placeCheck s (s.ctx th).sid o
      s.addEff th (.graph (s.graphOp th (.gswap a b t) 0xA9 n (some o) 0))) s

/-- R401: cuts an instance at a checkpoint id, or at once. -/
def execGmark (a b : BitVec 5) (t : BitVec 4) (s : State) : Res :=
  threadInstr (.gmark a b t) t (fun s th => do
    let g ← rd s th a
    placeCheck s (s.ctx th).sid g
    let c ← rd s th b
    if bitsN c 63 16 ≠ 0 then .error ⟨.illegalForm, none⟩
    s.addEff th (.graph (s.graphOp th (.gmark a b t) 0xAA g none c))) s

/-- The address of a cut area (R407). -/
def areaCheck (a : Word) : Except Stop Unit :=
  if bitsN a 63 62 ≠ 2 || bitsN a 61 57 ≠ 0 then .error ⟨.addrForm, some a⟩
  else if a.toNat % 4096 ≠ 0 then .error ⟨.align, some a⟩
  else .ok ()

/-- The translation probes of a save or restore (R190): a save touches the bytes of the instance's cut, as many as it has now; a restore its
header, which says how many more (log 150). -/
def State.areaProbes (s : State) (sid : Nat) (place v : Word) (save : Bool) : List Probe :=
  let n := if save then max 64 (((s.inst (s.placeInst sid place)).map (fun x => x.area.length)).getD 0) else 64
  probesOf (.global (bitsN v 56 0)) (min n (2 ^ 57 - bitsN v 56 0)) (if save then .write else .read)

/-- R407: writes a CUT instance to memory and frees it. -/
def execGsave (a b : BitVec 5) (t : BitVec 4) (s : State) : Res :=
  threadInstr (.gsave a b t) t (fun s th => do
    let g ← rd s th a
    placeCheck s (s.ctx th).sid g
    let v ← rd s th b
    areaCheck v
    s.addEff th (.graph (s.graphOp th (.gsave a b t) 0xAD g none v)) (s.areaProbes (s.ctx th).sid g v true)) s

/-- R408: resumes a cut in place, or rebuilds one from memory. -/
def execGrest (a b : BitVec 5) (t : BitVec 4) (s : State) : Res :=
  threadInstr (.grest a b t) t (fun s th => do
    let g ← rd s th a
    placeCheck s (s.ctx th).sid g
    if b = 10 then s.addEff th (.graph (s.graphOp th (.grest a b t) 0xAE g none 0))
    else
      let v ← rd s th b
      areaCheck v
      s.addEff th (.graph (s.graphOp th (.grest a b t) 0xAE g (some v) 0)) (s.areaProbes (s.ctx th).sid g v false)) s

/-- R396: sets a tile's sequencer. -/
def execGctx (a b : BitVec 5) (t : BitVec 4) (s : State) : Res :=
  threadInstr (.gctx a b t) t (fun s th => do
    let ea ← rd s th a
    let w ← rd s th b
    if bitsN ea 63 62 ≠ 1 then .error ⟨.addrForm, some ea⟩
    match ← checkAddr s th ea 1 1 false with
    | .here (.tile ti off) =>
      if !isCompute ti.tile || off ≠ 0 then .error ⟨.illegalForm, some ea⟩
      else if bitsN w 63 33 ≠ 0 then .error ⟨.illegalForm, none⟩
      else s.addEff th (.gctx ti w)
    | _ => .error ⟨.addrForm, some ea⟩) s

/-- R396: a tile performs a `gctx`. -/
def execGctxPerform (s : State) : Res :=
  match s.arg with
  | .gctxPerform t w c rel =>
    let x := s.tile t
    .next ((s.setTile t { x with w := [bitsN w 7 0, bitsN w 15 8, bitsN w 23 16, bitsN w 31 24], boost := bitsN w 32 32 = 1,
                                 skips := [0, 0, 0, 0], left := 0 }).performed c rel)
  | _ => .next s

/-! ## Reservation (R393) -/

/-- Sends the completion of a graph operation (R392); those of one lockkeeper to one core keep their order (log 117). The cut a lockkeeper makes for a move (R491) has none. -/
def State.graphDone (s : State) (g : GraphOp) (status detail : Nat) : State :=
  if 256 ≤ g.op then s else
  let w0 := fld g.op 0 ||| fld 1 15 ||| fld status 16 ||| fld (bitsN g.place 22 0) 24
  s.post (.barge (.lock (bitsN g.place 22 22)) g.origin.core 5) (.completionArrival g.origin.core { w0 := w0, w1 := fld detail 0, tag := none, sid := g.origin.sid }) 1

/-- What a reservation meets: it may be made, it fails, or it waits for an instance to settle. -/
inductive Reserve where
  | ok | no
  | wait (i : InstId)
  deriving DecidableEq, Repr

/-- The compute tiles of an instance's region. -/
def State.computeTiles (s : State) (i : InstId) : List TileId :=
  match s.inst i with
  | some n => (n.coords.map (fun c => s.tileOf i c.1 c.2)).filter (fun t => isCompute t.tile)
  | none => []

/-- The elements of a tile. -/
def TileId.elems (t : TileId) : List ElemId := (List.range 16).map (ElemId.mk t)

/-- The gateway of a collective record (R442): its die and index. -/
def gatewayOf (t : TileId) : Nat × Nat := (t.die, t.hive % 8 / 2)

/-- The state an instance is in; none: FREE. -/
def State.instSt (s : State) (i : InstId) : Option InstState := (s.inst i).map Inst.st

/-- Judges a reservation of an image at an instance that stands in the tables as RESERVED (R393). -/
def State.judge (s : State) (i : InstId) (img : List Byte) : Reserve :=
  let planes := (s.computeTiles i).flatMap (fun t => t.elems.map (fun e => PlaneId.mk e i.plane))
  let gens := (imgStores img).map (fun r => s.genAt i (recN r 0 2) (recN r 2 2) (recN r 4 1))
  let held (g : GenId) : Option InstState := ((s.gen g).cfg.map GenCfg.inst).bind s.instSt
  let isect (r : List Byte) : Bool :=
    let e := s.elemOf i (recN r 0 2) (recN r 2 2)
    (List.range 4).any (fun p => p ≠ i.plane && (s.plane ⟨e, p⟩).isects.any (fun u =>
      [recN r 4 1, recN r 5 1].contains u.1 || [recN r 4 1, recN r 5 1].contains u.2))
  let gws := (imgColls img).map (fun r => gatewayOf (s.elemOf i (recN r 4 2) (recN r 6 2)).tile)
  let gwFull (g : Nat × Nat) : Bool :=
    64 < (gws.filter (· = g)).length + (s.colls.filter (fun e => gatewayOf e.2.inp.elem.tile = g)).length
  if planes.any (fun p => (s.plane p).inst.isSome) then .no
  else if gens.any (fun g => (s.gen g).pend.isSome ||
      (match held g with | some .reserved => true | some .loading => true | some .shadow => true | _ => false)) then .no
  else if (imgIsects img).any isect || gws.any gwFull then .no
  else
    match gens.find? (fun g => match held g with | some .swapping => true | some .marking => true | _ => false) with
    | some g => (match (s.gen g).cfg with | some c => .wait c.inst | none => .ok)
    | none => .ok

/-- A new collective node of a record (R441). -/
def State.newColl (s : State) (i : InstId) (r : List Byte) : CollNode :=
  let inp := s.planeAt i (recN r 4 2) (recN r 6 2)
  { op := recN r 0 1, fmt := recN r 1 1, group := recN r 2 2, inp := inp, inCh := recN r 0x0C 1,
    out := s.planeAt i (recN r 8 2) (recN r 0x0A 2), outCh := recN r 0x0D 1, p := recN r 0x10 2, q := recN r 0x12 2,
    gw := (gatewayOf inp.elem.tile).2 }

/-- Puts an intersection unit before its channels (R339). -/
def State.loadIsect (s : State) (i : InstId) (r : List Byte) : State :=
  s.onPlane (s.planeAt i (recN r 0 2) (recN r 2 2)) (fun p => { p with isects := p.isects ++ [(recN r 4 1, recN r 5 1)] })

/-- Takes what a reservation names (R393, R442): planes with their intersection units, generators as pending records, collective
nodes. -/
def State.claim (s : State) (i : InstId) (img : List Byte) : State :=
  let s := (s.computeTiles i).foldl (fun s t => t.elems.foldl (fun s e => s.setPlane ⟨e, i.plane⟩ { inst := some i }) s) s
  let s := (imgIsects img).foldl (fun s r => s.loadIsect i r) s
  let s := (imgStores img).foldl (fun s r =>
    let g := s.genCfg i img r
    s.onGen g.1 (fun x => { x with pend := some g.2 })) s
  (imgColls img).zipIdx.foldl (fun s r => s.setColl i r.2 (s.newColl i r.1)) s

/-- The entry of an instance that a place word asks for. -/
def State.newInst (s : State) (sid : Nat) (w : Word) (st : InstState) : Inst :=
  let img := s.image sid (bitsN w 13 0)
  { st := st, image := bitsN w 13 0, sid := sid, origin := ⟨bitsN w 22 22, bitsN w 21 16⟩, width := recN img 0x0A 1,
    height := recN img 0x0B 1 }

/-- Puts an operation among those that wait for an instance to settle (R391). -/
def State.waitOn (s : State) (i : InstId) (g : GraphOp) : State := s.onInst i (fun n => { n with waitq := n.waitq ++ [g] })

/-- Where an operation has to wait before it acts on an instance (R391): the instance has not settled, or another
operation works on it, as the swap that will activate it. -/
def State.unsettled (s : State) (i : InstId) : Bool :=
  thas s.saves i || s.insts.any (fun e => e.2.st = .swapping && e.2.wave.bind Wave.new = some i) ||
  (match s.instSt i with
   | some .reserved => true | some .loading => true | some .swapping => true | some .marking => true | _ => false)

/-- Puts an operation behind what works on an instance. -/
def State.putOff (s : State) (i : InstId) (g : GraphOp) : State :=
  match tfind s.saves i with
  | some v => { s with saves := tput s.saves i { v with waitq := v.waitq ++ [g] } }
  | none => s.waitOn i g

/-- The instances an operation is about: a `gswap` may name two. -/
def State.opInsts (s : State) (g : GraphOp) : List InstId :=
  s.placeInst g.origin.sid g.place :: (if g.op = 0xA9 then (g.other.map (s.placeInst g.origin.sid)).toList else [])

/-- The instance behind which an earlier operation on one of these waits, where it is another one (R391). -/
def State.behind (s : State) (l : List InstId) : Option InstId :=
  ((s.saves.map (fun e => (e.1, e.2.waitq)) ++ s.insts.map (fun e => (e.1, e.2.waitq))).find? (fun e =>
    e.2.any (fun w => (s.opInsts w).any (fun i => i ≠ e.1 && l.contains i)))).map Prod.fst

/-- What an operation has to wait behind (R391): an earlier operation on one of its instances that waits, or an instance of its own that has
not settled. -/
def State.mustWait (s : State) (g : GraphOp) : Option InstId :=
  let l := s.opInsts g
  match s.behind l with
  | some j => some j
  | none => l.find? s.unsettled

/-- R393: the lockkeeper takes a reservation request. -/
def execGraphReserve (s : State) : Res :=
  match s.arg with
  | .graphReserve g =>
    let sid := g.origin.sid
    let i := s.placeInst sid g.place
    let n := s.newInst sid g.place .reserved
    let answer (s : State) (a : Ans) : Res := .next (s.post .none (.loadReply g.thread g.ask 0 a))
    if ((s.ctx g.thread).awaiting g.ask).isNone then .next s
    else if !s.inTurn g then .next (s.rearrive g)
    else if thas s.saves i then .next (s.putOff i g)
    else if (s.inst i).isSome then answer s .refused
    else if (s.behind [i]).isSome then .next (match s.behind [i] with | some j => s.putOff j g | none => s)
    else
      let s1 := s.setInst i n
      let img := s.image sid n.image
      (match s1.judge i img with
       | .no => answer s .refused
       | .wait j => .next (s.waitOn j g)
       | .ok => answer (s1.claim i img) (.reserved (.comp 0) 0))
  | _ => .next s

/-! ## Loading (R394) -/

/-- Removes an instance's record from the operations that wait, and lets them go on. -/
def State.settle (s : State) (i : InstId) : State :=
  match s.inst i with
  | some n => (s.setInst i { n with waitq := [] }).again n.waitq
  | none => s

/-- Writes an element record into its plane (R66, R79, R394). -/
def State.loadElem (s : State) (i : InstId) (r : List Byte) : State :=
  let x := recN r 0 2
  let y := recN r 2 2
  s.setPlane (s.planeAt i x y)
    { inst := some i, rules := recRules r, lits := (List.range 8).map (fun k => BitVec.ofNat 32 (recN r (0x20 + 4 * k) 4)),
      acc := BitVec.ofNat 128 (recN r 0x10 16), q := BitVec.ofNat 4 (recN r 6 1), sp := recN r 7 1,
      g := BitVec.ofNat 32 (0x2545F491 ^^^ (x * 65536 + y * 4 + i.plane)) }

/-- A kind by its code (R67). -/
def Kind.ofCode : Nat → Kind
  | 0 => .data | 1 => .eof | 2 => .eos | 3 => .mark | 4 => .reconf | _ => .ctrl
def Kind.code : Kind → Nat
  | .data => 0 | .eof => 1 | .eos => 2 | .mark => 3 | .reconf => 4 | .ctrl => 5

/-- Joins the channels of a wire record, with its initial token where `init` says so (R67, R314, R394). -/
def State.loadWire (s : State) (i : InstId) (init : Bool) (r : List Byte) : State :=
  let a := s.planeAt i (recN r 0 2) (recN r 2 2)
  let b := s.planeAt i (recN r 4 2) (recN r 6 2)
  let o := recN r 8 1
  let n := recN r 9 1
  let s := s.onPlane a (fun p => { p with dst := tput p.dst o (.arc b n) })
  let s := s.onPlane b (fun p => { p with src := tput p.src n (.arc a o) })
  if init && recN r 0x0A 1 = 1 then
    let t : Token := { kind := .ofCode (recN r 0x0B 1), data := BitVec.ofNat 128 (recN r 0x10 16) }
    (s.onPlane a (fun p => { p with outs := tput p.outs o t })).arrive b n t s.cycle
  else s

/-- Joins the channels of the collective nodes of an instance (R441). -/
def State.loadColls (s : State) (i : InstId) : State :=
  (s.colls.filter (fun e => e.1.1 = i)).foldl (fun s e =>
    let s := s.onPlane e.2.inp (fun p => { p with dst := tput p.dst e.2.inCh (.coll i e.1.2) })
    s.onPlane e.2.out (fun p => { p with src := tput p.src e.2.outCh (.coll i e.1.2) })) s

/-- Generators that are FREE take the records of an instance (R394). -/
def State.takeGens (s : State) (i : InstId) : State :=
  { s with gens := s.gens.map (fun e =>
      match e.2.cfg, e.2.pend with
      | none, some c => if c.inst = i then (e.1, { cfg := some c }) else e
      | _, _ => e) }

/-- Writes an image into the planes of its instance. -/
def State.loadImage (s : State) (i : InstId) (img : List Byte) (init : Bool) : State :=
  let s := (imgElems img).foldl (fun s r => s.loadElem i r) s
  let s := (imgIsects img).foldl (fun s r => s.loadIsect i r) s
  let s := (imgWires img).foldl (fun s r => s.loadWire i init r) s
  (s.loadColls i).takeGens i

/-- R394: a released `gload` writes its planes; one die's lockkeeper writes them load by load (log 117). -/
def execGloadPerform (s : State) : Res :=
  match s.arg with
  | .gloadPerform g =>
    let i := s.placeInst g.origin.sid g.place
    let s := s.performed g.origin.core g.rel
    (match s.inst i with
     | some n =>
       if n.st = .reserved then
         let s := (s.setInst i { n with st := .loading, wave := some { op := g } }).loadImage i (s.image n.sid n.image) true
         .next (s.post (.loads i.die) (.gloadDone i))
       else .next s
     | none => .next s)
  | _ => .next s

/-- R394: every plane is written: the instance is SHADOW, and its completion is sent. -/
def execGloadDone (s : State) : Res :=
  match s.arg with
  | .gloadDone i =>
    (match s.inst i with
     | some n =>
       (match n.st, n.wave with
        | .loading, some w => .next (((s.setInst i { n with st := .shadow, wave := none }).graphDone w.op 0 0).settle i)
        | _, _ => .next s)
     | none => .next s)
  | _ => .next s

/-! ## Nodes and edges (R387, R397) -/

/-- The generators of an instance that a plane reads, or writes. -/
def State.gensOf (s : State) (i : InstId) (p : PlaneId) (reads : Bool) : List GenId :=
  ((List.range 4).map (GenId.mk p.elem.tile.pair)).filter (fun g =>
    (match (s.gen g).cfg with | some c => c.inst = i | none => false) &&
    (s.plane p).rules.any (fun r => if reads then ruleReads r.1 g.gen else ruleWrites r.1 g.gen))

/-- The nodes of an instance. -/
def State.nodes (s : State) (i : InstId) : List NodeId :=
  ((s.planes.filter (fun e => e.2.inst = some i && e.2.rules ≠ [])).map (fun e => NodeId.plane e.1)) ++
  ((s.instGens i).map NodeId.gen) ++ ((s.colls.filter (fun e => e.1.1 = i)).map (fun e => NodeId.coll i e.1.2))

/-- Whether a token that stands at a place is a head by now (R293). -/
def State.settledHead (s : State) (l : Option Latch) : Bool := match l with | some l => l.since ≤ s.cycle | none => true

/-- The marker received at each entering edge of a node: behind the tokens pushed before it (R397). -/
def State.entering (s : State) (i : InstId) : NodeId → List (Option Token)
  | .plane p =>
    let x := s.plane p
    (x.src.map (fun e => if s.settledHead (tfind x.latch e.1) then tfind x.mark e.1 else none)) ++
      (s.gensOf i p true).map (fun g => let y := s.gen g; if s.settledHead y.rport then y.rmark else none)
  | .gen g => if (match (s.gen g).cfg with | some c => c.writer | none => false) then [(s.gen g).wmark] else []
  | .coll j n => match s.coll j n with | some c => [c.mark] | none => []

/-- Sends a marker on every leaving edge of a node; a collective node's goes out behind its last token (R397, R447). -/
def State.sendMarks (s : State) (i : InstId) (t : Token) : NodeId → State
  | .plane p =>
    let s := (s.plane p).dst.foldl (fun s e => s.sendArc p e.1 t) s
    (s.gensOf i p false).foldl (fun s g => s.onGen g (fun x => { x with wmark := some t })) s
  | .gen g => s.onGen g (fun x => { x with rmark := some t })
  | .coll j n =>
    match s.coll j n with
    | some c => s.post (.arc ⟨c.out, c.outCh⟩) (.tokenArrival ⟨c.out, c.outCh⟩ t) 4
    | none => s

/-- Whether an engine bound to a side of a generator has completed what it does there (R253): a haul unbinds as it completes; a joint array
stays bound (R343), and has completed where no op or slice instruction under way names the generator. -/
def State.engineDone (s : State) (g : GenId) : Option Engine → Bool
  | none => true
  | some (.haul _ _) => false
  | some (.array h) =>
    (s.joint h).ops.all (fun o => !o.checked || !(o.gens h).contains g) &&
    (s.joint h).runs.all (fun r => !((r.2.entry.eff.gens h r.1).contains g))

/-- Whether a node is quiet under R399 and R447; a token that is no head yet may still fire a rule. -/
def State.quiet (s : State) : NodeId → Bool
  | .plane p =>
    let x := s.plane p
    !p.rules.any (fun r => s.could r (fun _ => false)) && x.accs = [] && x.latch.all (fun l => l.2.since ≤ s.cycle) &&
    !(s.tile p.elem.tile).chosen.any (fun r => r.plane = p)
  | .gen g => let x := s.gen g; x.pass = none && s.engineDone g x.prod && s.engineDone g x.cons
  | .coll j n =>
    match s.coll j n with
    | some c => c.idx = 0 && c.depoch = c.epoch && c.outq = []
    | none => true

/-- Lets no more happen at a node: a plane chooses no firing, a generator and a collective node go no further. -/
def State.freeze (s : State) (b : Bool) : NodeId → State
  | .plane p => s.onPlane p (fun x => { x with recorded := b })
  | .gen g => s.onGen g (fun x => { x with recorded := b })
  | .coll j n => match s.coll j n with | some c => s.setColl j n { c with recorded := b } | none => s

/-- Takes the markers off a node, and lets it go on where it was stopped (R400, R408). -/
def State.thaw (s : State) (n : NodeId) : State :=
  let s := s.freeze false n
  match n with
  | .plane p => (s.onPlane p (fun x => { x with mark := [] })).pushDone p
  | .gen g => (s.onGen g (fun x => { x with wmark := none, rmark := none })).genPump g
  | .coll j k =>
    match s.coll j k with
    | some c => (s.setColl j k { c with mark := none }).collTake j k
    | none => s

/-! ## gswap (R398 to R400) -/

/-- R398: the lockkeeper performs a `gswap`. -/
def execGswapPerform (s : State) : Res :=
  match s.arg with
  | .gswapPerform g =>
    let sid := g.origin.sid
    let s := s.performed g.origin.core g.rel
    let n := s.placeInst sid g.place
    let o := g.other.map (s.placeInst sid)
    if !s.inTurn g then .next (s.rearrive g)
    else
      match s.mustWait g with
      | some j => .next (s.putOff j g)
      | none =>
      let pend := (s.gens.filter (fun e => match e.2.pend with | some c => c.inst = n | none => false)).map Prod.fst
      (match s.inst n, o with
       | some x, none =>
         if x.st = .shadow && pend = [] then .next ((s.setInst n { x with st := .active }).graphDone g 0 0)
         else .next (s.graphDone g 2 0)
       | some x, some o =>
         (match s.inst o with
          | some y =>
            if x.st = .shadow && y.st = .active && pend.all (fun h => (s.instGens o).contains h) then
              .next (s.setInst o { y with st := .swapping, wave := some { op := g, new := some n } })
            else .next (s.graphDone g 2 0)
          | none => .next (s.graphDone g 2 0))
       | none, _ => .next (s.graphDone g 2 0))
  | _ => .next s

/-- Whether containment lets a node pass, record and send (R467, R469). -/
def State.mayPass (s : State) : NodeId → Bool
  | .plane p => !s.held p.elem
  | _ => true

/-- Whether no element of an instance is held: with one held for good a cut or swap never completes (R469). -/
def State.noneHeld (s : State) (i : InstId) : Bool := (s.instPlanes i).all (fun p => !s.held p.elem)

/-- Whether a node passes RECONF now (R399). -/
def State.passNow (s : State) (i : InstId) (n : NodeId) : Bool :=
  match s.inst i with
  | some x =>
    x.st = .swapping &&
    (match x.wave with
     | some w => !w.passed.contains n && (s.nodes i).contains n && (s.entering i n).all Option.isSome && s.quiet n && s.mayPass n
     | none => false)
  | none => false

/-- The places of a node that hold a token (R399): a plane's latches and intersection units, a generator's slots, FIFO entries
and ports, a full slot by its first word. -/
def State.strays (s : State) : NodeId → List Stray
  | .plane p =>
    let x := s.plane p
    (List.range 8).flatMap (fun c =>
      (match tfind x.latch c with | some l => [⟨p.elem.tile, p.elem.elem, c, l.tok⟩] | none => []) ++
      (match tfind x.held c with | some l => [⟨p.elem.tile, p.elem.elem, c, l.tok⟩] | none => []))
  | .gen g =>
    let x := s.gen g
    match x.cfg with
    | none => []
    | some c =>
      let at_ (t : Token) : Stray := ⟨g.tile, 0, 8 + g.gen, t⟩
      (x.full.map (fun k => at_ (s.wordTok (wordLoc g c.recd k 0) .data))) ++
      (x.kinds.zipIdx.map (fun k => at_ (s.wordTok (wordLoc g c.recd ((x.head + k.2) % c.recd.count) 0) k.1))) ++
      (x.wport.toList.map at_) ++ (x.rport.toList.map (fun l => at_ l.tok))
  | .coll _ _ => []

/-- R399: a node passes RECONF: it records the places of its tokens and sends RECONF on. -/
def execReconfPass (s : State) : Res :=
  match s.arg with
  | .reconfPass i n =>
    if s.passNow i n then
      let l := s.strays n
      let s := (s.freeze true n).sendMarks i { kind := .reconf } n
      .next (s.onInst i (fun x => { x with wave := x.wave.map (fun w =>
        { w with passed := w.passed ++ [n], strays := w.strays ++ l }) }))
    else .next s
  | _ => .next s

/-- Whether every node has passed. -/
def State.swapOver (s : State) (i : InstId) : Bool :=
  match s.inst i with
  | some x =>
    x.st = .swapping && s.noneHeld i && (match x.wave with | some w => (s.nodes i).all (fun n => w.passed.contains n) | none => false)
  | none => false

/-- The order of strays: tile Y, tile X, element, channel (R400). -/
def Stray.key (s : State) (i : InstId) (x : Stray) : Nat :=
  let c := s.tileXY i x.tile
  ((c.2 * 64 + c.1) * 16 + x.elem) * 16 + x.ch

/-- The first stray. -/
def firstStray (s : State) (i : InstId) : List Stray → Option Stray
  | [] => none
  | x :: r => some (r.foldl (fun b y => if y.key s i < b.key s i then y else b) x)

/-- R400: the swap ends: the old instance is FREE and the new one ACTIVE, or with strays it is abandoned. -/
def execSwapEnd (s : State) : Res :=
  match s.arg with
  | .swapEnd i =>
    if !s.swapOver i then .next s
    else
      (match s.inst i with
       | some x =>
         (match x.wave with
          | some w =>
            (match firstStray s i w.strays, w.new with
             | none, some n =>
               let s := (s.dropInst i).onInst n (fun y => { y with st := .active })
               .next ((s.graphDone w.op 0 0).settle n)
             | some y, _ =>
               let s1 := s.setInst i { x with st := .active, wave := none }
               let s1 := (s.nodes i).foldl State.thaw s1
               let o := s.instOrigin i y.tile
               let p : PlaneId := ⟨⟨y.tile, y.elem⟩, i.plane⟩
               let s1 := s1.deliverFault o (faultWord .strayToken 1 i.plane 0 0 0 o.rank false) (planeWord p 0)
                 (fld y.ch 0 ||| fld y.tok.kind.code 4 ||| fld (min 65535 w.strays.length) 16 ||| fld (bitsN y.tok.data 31 0) 32)
                 0 none
               let s1 := (s1.graphDone w.op 0x15 w.strays.length).settle i
               .next (match w.new with | some n => s1.settle n | none => s1)
             | none, none => .next s)
          | none => .next s)
       | none => .next s)
  | _ => .next s

/-! ## gmark (R401 to R404) -/

/-- R402: the lockkeeper performs a `gmark`. An immediate one joins a cut in progress. -/
def execGmarkPerform (s : State) : Res :=
  match s.arg with
  | .gmarkPerform g =>
    let i := s.placeInst g.origin.sid g.place
    let s := if 256 ≤ g.op then s else s.performed g.origin.core g.rel
    let now := g.arg = 0xFFFF
    (match s.inst i with
     | some x =>
       if !s.inTurn g then .next (s.rearrive g)
       else if x.st = .marking && now then
         .next (s.setInst i { x with wave := x.wave.map (fun w => { w with now := true, joined := w.joined ++ [g] }) })
       else
         match s.mustWait g with
         | some j => .next (s.putOff j g)
         | none =>
           if x.st = .active then
             .next (s.setInst i { x with st := .marking, wave := some { op := g, id := g.arg.toNat, now := now } })
           else .next (s.graphDone g 2 0)
     | none => match s.mustWait g with | some j => .next (s.putOff j g) | none => .next (s.graphDone g 2 0))
  | _ => .next s

/-- The planes of an instance that read a generator. -/
def State.readersOf (s : State) (i : InstId) (g : GenId) : List PlaneId :=
  (s.instPlanes i).filter (fun p => (s.gensOf i p true).contains g)

/-- Whether a node records now (R402, R447). -/
def State.recordNow (s : State) (i : InstId) (w : Wave) (n : NodeId) : Bool :=
  let ent := s.entering i n
  match n with
  | .plane p => (w.now && ent = []) || ent.any Option.isSome || (s.plane p).recorded
  | .gen g =>
    if ent = [] then w.now || (s.readersOf i g).any (fun p => w.passed.contains (.plane p)) else ent.any Option.isSome
  | .coll _ _ => ent.any Option.isSome && s.quiet n

/-- Whether a node that has recorded may send its MARK (R402): its chosen firings have run and its accesses are performed. -/
def State.markNow (s : State) : NodeId → Bool
  | .plane p =>
    !(s.tile p.elem.tile).chosen.any (fun r => r.plane = p) &&
    (s.plane p).accs.all (fun a => match a.st with | .done _ => true | _ => false)
  | _ => true

/-- Whether a step of the cut is open to a node: it records, or sends its MARK. -/
def State.nodeReady (s : State) (i : InstId) (n : NodeId) : Bool :=
  match s.inst i with
  | some x =>
    x.st = .marking &&
    (match x.wave with
     | some w =>
       (s.nodes i).contains n && s.mayPass n &&
       (if w.passed.contains n then !w.sent.contains n && s.markNow n else s.recordNow i w n)
     | none => false)
  | none => false

/-- Stops a generator's hauls (R384): each finishes the slots it is filling and reading. One that is still STOPPED from an earlier cut stays so. -/
def State.stopHauls (s : State) (g : GenId) : State :=
  let x := s.gen g
  let one (s : State) (e : Option Engine) : State :=
    match e with
    | some (.haul c tag) =>
      (match s.haul? c tag with
       | some h =>
         let s := { s with dropped := s.dropped.filter (fun d => !(d.core = c && d.tag = tag && d.desc = h.desc)) }
         if tget s.tags TagState.free (c, tag) = .stopped then s.setHaul c tag { h with resumed := false }
         else if h.stopping || h.ending then s
         else (s.setHaul c tag { h with stopping := true }).haulPump c tag
       | none => s)
    | _ => s
  one (one s x.prod) x.cons

/-- R402: a node records for the cut, and sends its MARK once its accesses are performed. -/
def execNodeRecord (s : State) : Res :=
  match s.arg with
  | .nodeRecord i n =>
    if !s.nodeReady i n then .next s
    else
      (match (s.inst i).bind Inst.wave with
       | some w =>
         let first := !w.passed.contains n
         let s := if first then s.freeze true n else s
         let s := if first then (match n with | .gen g => (s.stopHauls g).snapGen g | _ => s) else s
         let go := s.markNow n
         let s := if go then s.sendMarks i { kind := .mark, data := BitVec.ofNat 128 w.id } n else s
         .next (s.onInst i (fun x => { x with wave := x.wave.map (fun w =>
           { w with passed := if first then w.passed ++ [n] else w.passed, sent := if go then w.sent ++ [n] else w.sent }) }))
       | none => .next s)
  | _ => .next s

/-- The hauls bound to an instance's generators. -/
def State.boundHauls (s : State) (i : InstId) : List (CoreId × Nat) :=
  ((s.instGens i).flatMap (fun g =>
    [(s.gen g).prod, (s.gen g).cons].filterMap (fun e => match e with
      | some (.haul c tag) => some (c, tag)
      | _ => none))).eraseDups

/-- Whether a cut is complete (R402, R384): every node has recorded, every MARK is received, the hauls have stopped. -/
def State.cutOver (s : State) (i : InstId) : Bool :=
  match s.inst i with
  | some x =>
    x.st = .marking && s.noneHeld i &&
    (match x.wave with
     | some w =>
       (s.nodes i).all (fun n => w.sent.contains n && (s.entering i n).all Option.isSome) &&
       (s.boundHauls i).all (fun h => tget s.tags TagState.free h = .stopped)
     | none => false)
  | none => false

end Sys2Proof.Machine
end

