-- ==== Sys2Proof/Machine/Cut.lean ====
section
/-! DEFINITION. Cuts in memory (R405 to R408): the bytes of an area, `gsave` and `grest`. -/

namespace Sys2Proof.Machine

open Sys2Proof

/-! ## Bytes with their poison -/

/-- A byte of an area and whether its data are poisoned (R464). -/
abbrev PByte := Byte × Bool

/-- Clean bytes. -/
def clean (l : List Byte) : List PByte := l.map (fun b => (b, false))

/-- A little-endian field. -/
def num (n v : Nat) : List PByte := clean (bytesOf n v)

/-- A token's data. -/
def tokBytes (t : Token) : List PByte := (bytesOf 16 t.data.toNat).map (fun b => (b, t.poison))

/-- Fills up to a length with zeros. -/
def padTo (n : Nat) (l : List PByte) : List PByte := l ++ List.replicate (n - l.length) (0, false)

/-- Fills up to a multiple of 64. -/
def pad64 (l : List PByte) : List PByte := padTo ((l.length + 63) / 64 * 64) l

/-- A record of fields at rising offsets, zero elsewhere. -/
def layout (size : Nat) (l : List (Nat × List PByte)) : List PByte :=
  padTo size (l.foldl (fun acc e => padTo e.1 acc ++ e.2) [])

/-! ## Records (R406) -/

/-- The channel of a slot of a plane's intersection units: slot 2u + side, u by ascending first channel. -/
def Plane.isectSlots (p : Plane) : List Nat := (sortKey Prod.fst p.isects).flatMap (fun u => [u.1, u.2])

/-- The queued completion tokens of a plane: by rule slot, each rule's in issue order (R406). -/
def Plane.queued (p : Plane) : List (Nat × Token) :=
  (sortKey NodeAcc.slot (sortKey NodeAcc.seq p.accs)).filterMap (fun a => match a.st with | .done t => some (a.slot, t) | _ => none)

/-- A plane record. -/
def planeRec (s : State) (i : InstId) (pid : PlaneId) : List PByte :=
  let p := s.plane pid
  let c := s.elemXY i pid.elem
  let lat := (List.range 8).foldl (fun n k => match tfind p.latch k with
    | some l => n + 2 ^ k + l.tok.kind.code * 2 ^ (8 + 3 * k)
    | none => n) 0
  let slots := p.isectSlots
  let tok (k : Nat) : Option Token := (slots[k]?).bind (fun ch => (tfind p.held ch).map Latch.tok)
  let isw := (List.range 8).foldl (fun n k => match tok k with
    | some t => n + 2 ^ (4 * k) + t.kind.code * 2 ^ (4 * k + 1)
    | none => n) 0
  let q := p.queued
  layout 4096 [
    (0x000, num 2 c.1 ++ num 1 c.2 ++ num 1 i.plane ++ num 4 p.g.toNat),
    (0x008, num 1 p.q.toNat ++ num 1 p.sp ++ num 1 p.flags.toNat ++ num 1 p.ucount ++ num 4 p.rc ++ num 16 p.acc.toNat),
    (0x020, num 4 lat ++ num 1 p.bm.phase ++ num 1 p.bm.n ++ num 1 p.bm.bit ++ num 1 p.bm.lane ++ num 4 p.bm.base
      ++ (num 16 p.bm.bitmap.toNat).map (fun b => (b.1, p.bm.bad))),
    (0x040, (List.range 8).flatMap (fun k => match tfind p.latch k with | some l => tokBytes l.tok | none => num 16 0)),
    (0x0C0, num 2 q.length), (0x0C4, num 4 isw),
    (0x100, (List.range 64).flatMap (fun k => num 16 (tget p.scr 0 k).toNat)),
    (0x500, q.flatMap (fun e => num 1 e.1)),
    (0x580, (List.range 8).flatMap (fun k => match tok k with | some t => tokBytes t | none => num 16 0)),
    (0x600, q.flatMap (fun e => tokBytes e.2))]

/-- The bits of a generator's program; the default's are those R324 gives. -/
def Gen.progBits (x : Gen) (r : StoreRec) : Nat :=
  match x.prog with
  | some v => v.toNat
  | none => r.words - 1 + 2 ^ 16

/-- The image's store record of a generator. -/
def State.genRec (s : State) (i : InstId) (img : List Byte) (g : GenId) : List Byte :=
  ((imgStores img).find? (fun r => s.genAt i (recN r 0 2) (recN r 2 2) (recN r 4 1) = g)).getD []

/-- A generator record without its ranges, as the generator stood when it recorded (R403). -/
def genFixed (s : State) (i : InstId) (img : List Byte) (snaps : List GenSnap) (g : GenId) (ranges : Nat) : List PByte :=
  let x := ((snaps.find? (fun x => x.gen = g)).map GenSnap.x).getD (s.gen g)
  let raw := s.genRec i img g
  let r := storeRec raw
  let fifo : Bool := r.mode = 1
  let b (c : Bool) (n : Nat) : Nat := if c then n else 0
  let pass := x.pass.getD (0, 0, 0)
  let ports := (match x.wport with | some t => 1 + 2 * t.kind.code | none => 0)
    + (match x.rport with | some l => 16 + 32 * l.tok.kind.code | none => 0)
  let kind (k : Nat) : Nat := ((x.kinds[(k + r.count - x.head) % r.count]?).map Kind.code).getD 0
  layout 512 [
    (0x000, clean (raw.take 2) ++ num 1 (recN raw 2 2) ++ num 1 g.gen ++ num 4 ranges ++ clean (raw.take 32)),
    (0x028, num 16 (x.progBits r) ++ num 1 (b x.run 1 + b x.closed 2 + b x.pass.isSome 4)
      ++ num 1 (if fifo then 0 else x.fill) ++ num 1 (if fifo then 0 else x.drain) ++ num 1 ports
      ++ num 2 (if fifo then x.head else 0) ++ num 2 (if fifo then x.kinds.length else 0)
      ++ num 2 pass.1 ++ num 2 pass.2.1 ++ num 2 pass.2.2),
    (0x048, num 8 (x.full.foldl (fun m k => m + 2 ^ k) 0)),
    (0x050, (match x.wport with | some t => tokBytes t | none => num 16 0)
      ++ (match x.rport with | some l => tokBytes l.tok | none => num 16 0))] ++
  (if fifo then pad64 ((List.range ((r.count + 1) / 2)).flatMap (fun k =>
     num 1 (kind (2 * k) + (if 2 * k + 1 < r.count then 16 * kind (2 * k + 1) else 0))))
   else [])

/-- The place of a byte of a tile among the bytes of ranges, in their order. -/
def rangeIndex (off : Nat) : List (Nat × Nat) → Option Nat
  | [] => none
  | r :: rest =>
    if r.1 ≤ off && off < r.1 + r.2 then some (off - r.1) else (rangeIndex off rest).map (· + r.2)

/-- A byte of a saved range (R337, R403): as it stood when the generator whose buffer it lies in recorded, or the tile's lowest one;
a tile without a generator of the instance has no node that records. -/
def savedByte (s : State) (snaps : List GenSnap) (rs : List (Nat × Nat)) (t : TileId) (off : Nat) : PByte :=
  let mine := snaps.filter (fun x => x.gen.tile = t)
  let owner := mine.find? (fun x => match x.x.cfg with
    | some c => c.recd.base ≤ off && off < c.recd.base + c.recd.size * c.recd.count
    | none => false)
  match (owner <|> (sortKey (fun (x : GenSnap) => x.gen.gen) mine).head?), rangeIndex off rs with
  | some x, some k => (x.bytes[k]?).getD (0, false)
  | _, _ => (s.byte (.tile t off), s.poisoned (.tile t off) 1)

/-- A saved range with its header. -/
def rangeBytes (byte : Nat → PByte) (r : Nat × Nat) : List PByte :=
  pad64 (num 4 r.1 ++ num 4 r.2 ++ num 8 0 ++ (List.range r.2).map (fun k => byte (r.1 + k)))

/-- The generator records of one store tile, its ranges in the first. -/
def tileRecs (s : State) (i : InstId) (img : List Byte) (id : Nat) (snaps : List GenSnap) (t : TileId) : List (List PByte) :=
  let gens := (sortKey GenId.gen (s.instGens i)).filter (fun g => g.tile = t)
  let rs := s.tileRanges i img id t
  let bytes := rs.flatMap (rangeBytes (savedByte s snaps rs t))
  match gens with
  | g :: rest => (genFixed s i img snaps g rs.length ++ bytes) :: rest.map (fun g => genFixed s i img snaps g 0)
  | [] =>
    if rs = [] then []
    else
      let r := ((imgChecks img).find? (fun r => s.tileOf i (recN r 2 1 / 4) (recN r 3 1 / 4) = t)).getD []
      [layout 512 [(0, num 2 (recN r 2 1) ++ num 1 (recN r 3 1) ++ num 1 0xFF ++ num 4 rs.length)] ++ bytes]

/-- The ring name of a generator (R369). -/
def ringName (g : GenId) : Word :=
  fld 1 62 ||| fld g.tile.die 40 ||| fld g.tile.hive 34 ||| fld g.tile.tile 30 ||| fld g.gen 28

/-- A haul record. The notices on their way to the haul count as held. -/
def haulRec (s : State) (i : InstId) (c : CoreId) (tag : Nat) (h : Haul) : List PByte :=
  let l := h.legs[0]?
  let ring := ((legSides h.legs).map Prod.fst).find? (fun g => (s.instGens i).contains g)
  let sent := s.pending.filterMap (fun p => match p.ev with
    | .freedSlotNotice n => if (s.gen n.gen).prod = some (.haul c tag) then some n.slot else none
    | _ => none)
  let notes := ((l.map Leg.notes).getD [] ++ sent).foldl (fun m k => m + 2 ^ k) 0
  layout 1024 [
    (0x000, clean (h.desc.take 512)),
    (0x200, num 2 tag),
    (0x208, num 8 (identWord s.node c 0 h.sid).toNat ++ num 8 ((l.map Leg.idx).getD 0) ++ num 8 h.moved ++ num 8 h.outside
      ++ num 8 notes ++ num 8 ((ring.map ringName).getD 0).toNat)]

/-- The stopped hauls of an instance in the order of their release (R384). -/
def State.stoppedHauls (s : State) (i : InstId) : List ((CoreId × Nat) × Haul) :=
  sortKey (fun e => e.2.order) ((s.boundHauls i).filterMap (fun k => (tfind s.hauls k).map (fun h => (k, h))))

/-- The area of a cut (R405). -/
def cutArea (s : State) (i : InstId) (w : Wave) : List PByte :=
  match s.inst i with
  | none => []
  | some n =>
    let img := s.image n.sid n.image
    let planes := (imgElems img).map (fun r => s.planeAt i (recN r 0 2) (recN r 2 2))
    let order (p : PlaneId) : Nat := let c := s.tileXY i p.elem.tile; (c.2 * 64 + c.1) * 16 + p.elem.elem
    let ps := (sortKey order planes).map (planeRec s i)
    let gs := (n.coords.map (fun c => s.tileOf i c.1 c.2)).flatMap (tileRecs s i img w.id w.snaps)
    let hs := (s.stoppedHauls i).map (fun e => haulRec s i e.1.1 e.1.2 e.2)
    let body := ps.flatMap id ++ gs.flatMap id ++ hs.flatMap id
    layout 64 [
      (0x00, num 4 0x43555447 ++ num 2 1 ++ num 2 w.id ++ num 4 (bitsN w.op.place 22 0) ++ num 2 n.sid),
      (0x10, num 4 ps.length ++ num 4 gs.length ++ num 4 hs.length),
      (0x20, num 8 (64 + body.length))] ++ body

/-- The 32-byte pieces of an area that hold poisoned data. -/
def badPieces (l : List PByte) : List Nat :=
  (List.range ((l.length + 31) / 32)).filter (fun k => ((l.drop (32 * k)).take 32).any Prod.snd)

/-- R402: the cut is complete: the instance is CUT, and the completions are sent, that of the `gmark` that began it first. -/
def execCutComplete (s : State) : Res :=
  match s.arg with
  | .cutComplete i =>
    if !s.cutOver i then .next s
    else
      (match s.inst i with
       | some x =>
         (match x.wave with
          | some w =>
            let a := cutArea s i w
            let s := s.setInst i { x with st := .cut, wave := none, area := a.map Prod.fst, areaBad := badPieces a }
            let s := (w.op :: w.joined).foldl (fun s g => s.graphDone g 0 a.length) s
            .next (s.settle i)
          | none => .next s)
       | none => .next s)
  | _ => .next s

/-! ## Accesses of a save or restore (R376, R407) -/

/-- Asks for the translation of a piece. -/
def State.saveAsk (s : State) (i : InstId) (v : Save) (off : Nat) : State :=
  s.post .none (.translation (stationOf v.op.origin.core)
    ⟨.save i off, v.op.origin.sid, bitsN v.va 56 0 + off, if v.op.op = 0xAD then .write else .read⟩)

/-- Issues pieces in ascending order, at most eight at a time. -/
def State.savePump (s : State) (i : InstId) : Nat → State
  | 0 => s
  | n + 1 =>
    match tfind s.saves i with
    | none => s
    | some v =>
      if v.failed = 0 && v.next < v.want && v.fly.length < 8 then
        let v' := { v with next := v.next + 32, fly := v.fly ++ [v.next] }
        ((({ s with saves := tput s.saves i v' } : State).saveAsk i v v.next).savePump i n)
      else s

/-- A piece's translation is answered (R376). -/
def State.saveXlate (s : State) (i : InstId) (off : Nat) (a : XAns) : State :=
  match tfind s.saves i with
  | none => s
  | some v =>
    let addr := v.va + BitVec.ofNat 64 off
    let end_ (x : Cause) : State :=
      { s with saves := tput s.saves i { v with fly := v.fly.filter (· ≠ off), failed := x.code } }
    match a with
    | .ok l =>
      let r : MemReq := { asker := .save i off, sid := v.op.origin.sid, loc := l, addr := addr, op := .load 32 }
      if v.op.op = 0xAD then
        s.post .none (.storePerform { r with op := .store (((v.bytes.drop off).take 32).map some) (v.bad.contains (off / 32)) })
      else s.post .none (.loadPerform r)
    | .nack =>
      s.deliverFault v.op.origin (faultWord .pageFault 2 0 0 0 0 v.op.origin.rank true) 0 addr (fld v.op.word.toNat 0) (some (.save i off))
    | .access => end_ .access

/-- A piece is performed. -/
def State.saveAnswer (s : State) (i : InstId) (off : Nat) (a : Ans) : State :=
  match tfind s.saves i with
  | none => s
  | some v =>
    let v := { v with fly := v.fly.filter (· ≠ off) }
    match a with
    | .data bs bad =>
      let v := if v.op.op = 0xAD then v
        else { v with bytes := v.bytes.take off ++ bs ++ v.bytes.drop (off + 32), bad := if bad then v.bad ++ [off / 32] else v.bad }
      let v := { v with done := v.done + 32 }
      ({ s with saves := tput s.saves i v } : State).savePump i 9
    | .fault x => { s with saves := tput s.saves i { v with failed := x.code } }
    | _ => s

/-- A resolved fault: the piece is asked for again. -/
def State.saveResume (s : State) (i : InstId) (off : Nat) : State :=
  match tfind s.saves i with
  | some v => if v.fly.contains off then s.saveAsk i v off else s
  | none => s

/-- The pre-check of a range (R372, R407). -/
def areaFits (a : Word) (n : Nat) : Bool := bitsN a 56 0 + n ≤ 2 ^ 57

/-! ## gsave (R407) -/

/-- Whether a joint-array operation is bound to a generator of an instance. -/
def State.jointBound (s : State) (i : InstId) : Bool :=
  (s.instGens i).any (fun g =>
    [(s.gen g).prod, (s.gen g).cons].any (fun e => match e with | some (.array _) => true | _ => false))

/-- R407: the lockkeeper performs a `gsave`. -/
def execGsavePerform (s : State) : Res :=
  match s.arg with
  | .gsavePerform g =>
    let i := s.placeInst g.origin.sid g.place
    let s := s.performed g.origin.core g.rel
    if !s.inTurn g then .next (s.rearrive g)
    else
      match s.mustWait g with
      | some j => .next (s.putOff j g)
      | none =>
      (match s.inst i with
       | some x =>
         if x.st ≠ .cut then .next (s.graphDone g 2 0)
         else if s.jointBound i then .next (s.graphDone g 0x22 0)
         else if !areaFits g.arg x.area.length then .next (s.graphDone g 0x19 0)
         else
           let v : Save := { op := g, va := g.arg, bytes := x.area, bad := x.areaBad, want := x.area.length }
           .next (({ s with saves := tput s.saves i v } : State).savePump i 9)
       | none => .next (s.graphDone g 2 0))
  | _ => .next s

/-- Whether a save or restore has nothing more under way. -/
def Save.ended (v : Save) : Bool := v.fly = [] && (v.failed ≠ 0 || v.want ≤ v.next)

/-- Ends a save or restore: what waited goes on. -/
def State.saveEnd (s : State) (i : InstId) (v : Save) : State :=
  ({ s with saves := tdel s.saves i } : State).again v.waitq

/-- R407: the last write of a save is performed: the instance is FREE, its hauls stay STOPPED. The detail is the bytes written, of a
save that failed too (R392). -/
def execGsaveDone (s : State) : Res :=
  match s.arg with
  | .gsaveDone i =>
    (match tfind s.saves i with
     | some v =>
       if v.op.op = 0xAD && v.ended then
         (if v.failed = 0 then .next (((s.dropInst i).graphDone v.op 0 v.want).saveEnd i v)
          else .next ((s.graphDone v.op v.failed v.done).saveEnd i v))
       else .next s
     | none => .next s)
  | _ => .next s

/-! ## grest (R408) -/

/-- Resumes the hauls of an instance (R384). -/
def State.resumeHauls (s : State) (i : InstId) : State :=
  (s.boundHauls i).foldl (fun s k =>
    s.onHaul k.1 k.2 (fun h => if tget s.tags TagState.free k = .stopped then { h with resumed := true } else { h with stopping := false })) s

/-- A CUT instance goes on in place (R408). -/
def State.resumeCut (s : State) (i : InstId) (x : Inst) : State :=
  let s := s.setInst i { x with st := .active, area := [], areaBad := [] }
  ((s.nodes i).foldl State.thaw s).resumeHauls i

/-- R408: the lockkeeper performs a `grest`: in place, or by reading the area, its header first. -/
def execGrestPerform (s : State) : Res :=
  match s.arg with
  | .grestPerform g =>
    let i := s.placeInst g.origin.sid g.place
    let s := s.performed g.origin.core g.rel
    if !s.inTurn g then .next (s.rearrive g)
    else
      match s.mustWait g with
      | some j => .next (s.putOff j g)
      | none =>
      (match g.other with
       | none =>
         (match s.inst i with
          | some x =>
            if x.st = .cut then .next ((s.resumeCut i x).graphDone g 0 0)
            else .next (s.graphDone g 2 0)
          | none => .next (s.graphDone g 2 0))
       | some a =>
         if !areaFits a 64 then .next (s.graphDone g 0x19 0)
         else .next (({ s with saves := tput s.saves i { op := g, va := a, bytes := [], want := 64 } } : State).savePump i 9))
  | _ => .next s

/-- A generator record read from an area: its fixed part, FIFO kinds and ranges. -/
structure AreaGen where
  fix : List Byte
  kinds : List Byte
  ranges : List (Nat × List Byte)
  deriving DecidableEq, Repr

/-- Reads n ranges. -/
def readRanges : Nat → List Byte → Option (List (Nat × List Byte) × List Byte)
  | 0, l => some ([], l)
  | n + 1, l =>
    let len := recN l 4 4
    let all := (16 + len + 63) / 64 * 64
    if l.length < all || 524288 < recN l 0 4 + len then none
    else (readRanges n (l.drop all)).map (fun x => ((recN l 0 4, (l.drop 16).take len) :: x.1, x.2))

/-- Reads n generator records. -/
def readGens : Nat → List Byte → Option (List AreaGen × List Byte)
  | 0, l => some ([], l)
  | n + 1, l =>
    if l.length < 512 then none
    else
      let fix := l.take 512
      let fifo : Bool := recN fix 3 1 ≠ 0xFF && recN fix (8 + 5) 1 = 1
      let kn := if fifo then ((recN fix (8 + 16) 4 + 1) / 2 + 63) / 64 * 64 else 0
      if l.length < 512 + kn then none
      else
        (readRanges (recN fix 4 4) (l.drop (512 + kn))).bind (fun r =>
          (readGens n r.2).map (fun x => (⟨fix, (l.drop 512).take kn, r.1⟩ :: x.1, x.2)))

/-- What an area holds. -/
structure Area where
  planes : List (List Byte)
  gens : List AreaGen
  hauls : List (List Byte)
  deriving DecidableEq, Repr

/-- Reads an area: none where its length or counts do not fit (R408). -/
def Area.read (l : List Byte) : Option Area :=
  let np := recN l 0x10 4
  let nh := recN l 0x18 4
  if l.length < 64 + 4096 * np then none
  else
    (readGens (recN l 0x14 4) (l.drop (64 + 4096 * np))).bind (fun r =>
      if r.2.length = 1024 * nh then some ⟨recsAt l np 64 4096, r.1, recsAt r.2 nh 0 1024⟩ else none)

/-- The header's checks of R408: magic, version, SID, image, and a length no area of its counts can exceed. -/
def headerOk (g : GraphOp) (l : List Byte) : Bool :=
  recN l 0 4 = 0x43555447 && recN l 4 2 = 1 && recN l 0x0C 2 = g.origin.sid && recN l 8 4 % 2 ^ 14 = bitsN g.place 13 0 &&
  decide (64 + 4096 * recN l 0x10 4 + 512 * recN l 0x14 4 + 1024 * recN l 0x18 4 ≤ recN l 0x20 8) &&
  decide (recN l 0x20 8 ≤ 64 + 4096 * recN l 0x10 4 + 2 ^ 25 * recN l 0x14 4 + 1024 * recN l 0x18 4)

/-- A restored plane (R406). Its latched tokens become heads in the cycle of the restore: a record holds no such cycle (log 156). -/
def State.restPlane (s : State) (i : InstId) (r : List Byte) : State :=
  let pid := s.planeAt i (recN r 0 2) (recN r 2 1)
  let lat := recN r 0x20 4
  let isw := recN r 0xC4 4
  let p := s.plane pid
  let tok (k off : Nat) : Token := { kind := .ofCode k, data := BitVec.ofNat 128 (recN r off 16) }
  let bitmap : BitVec 128 := BitVec.ofNat 128 (recN r 0x2C 16)
  let bit := recN r 0x26 1
  let q := (List.range (recN r 0xC0 2)).map (fun k => (recN r (0x500 + k) 1, tok 0 (0x600 + 16 * k)))
  let slots := p.isectSlots
  let held := (List.range 8).filterMap (fun k =>
    if isw / 2 ^ (4 * k) % 2 = 1 then (slots[k]?).map (fun c => (c, Latch.mk (tok (isw / 2 ^ (4 * k + 1) % 8) (0x580 + 16 * k)) s.cycle))
    else none)
  let lats := (List.range 8).filterMap (fun k =>
    if lat / 2 ^ k % 2 = 1 then some (k, Latch.mk (tok (lat / 2 ^ (8 + 3 * k) % 8) (0x40 + 16 * k)) s.cycle) else none)
  let accs := q.zipIdx.map (fun e => ({ slot := e.1.1, seq := e.2, addr := 0, op := .load 8, tok := {}, st := .done e.1.2 } : NodeAcc))
  let s := s.setPlane pid { p with
    g := BitVec.ofNat 32 (recN r 4 4), q := BitVec.ofNat 4 (recN r 8 1), sp := recN r 9 1, flags := BitVec.ofNat 7 (recN r 0xA 1),
    ucount := recN r 0xB 1, rc := recN r 0xC 4, acc := BitVec.ofNat 128 (recN r 0x10 16),
    bm := { phase := recN r 0x24 1, n := recN r 0x25 1, bit := bit, lane := recN r 0x27 1, base := recN r 0x28 4, bitmap := bitmap,
            out := (bitmap &&& BitVec.ofNat 128 (2 ^ bit - 1)).cpop.toNat },
    scr := (List.range 64).map (fun k => (k, BitVec.ofNat 128 (recN r (0x100 + 16 * k) 16))),
    latch := lats, held := held, accs := accs, nseq := accs.length }
  (lats ++ held).foldl (fun s e =>
    match tfind p.src e.1 with
    | some (.arc a o) => s.onPlane a (fun x => { x with outs := tput x.outs o e.2.tok })
    | _ => s) s

/-- A restored generator. -/
def State.restGen (s : State) (i : InstId) (a : AreaGen) : State :=
  let r := a.fix
  let g := s.genAt i (recN r 0 2) (recN r 2 1) (recN r 3 1)
  let x := s.gen g
  match x.cfg with
  | none => s
  | some c =>
    let ports := recN r 0x3B 1
    let tok (k off : Nat) : Token := { kind := .ofCode k, data := BitVec.ofNat 128 (recN r off 16) }
    let head := recN r 0x3C 2
    let kind (k : Nat) : Kind := .ofCode (recN a.kinds (k / 2) 1 / 16 ^ (k % 2) % 8)
    let f := recN r 0x38 1
    let full := recN r 0x48 8
    s.setGen g { x with
      prog := if recN r 0x28 16 = ({} : Gen).progBits c.recd then none else some (BitVec.ofNat 128 (recN r 0x28 16)),
      run := f % 2 = 1, closed := f / 2 % 2 = 1,
      pass := if f / 4 % 2 = 1 then some (recN r 0x40 2, recN r 0x42 2, recN r 0x44 2) else none,
      fill := recN r 0x39 1, drain := recN r 0x3A 1, head := head,
      kinds := (List.range (recN r 0x3E 2)).map (fun k => kind ((head + k) % c.recd.count)),
      full := (List.range 64).filter (fun k => full / 2 ^ k % 2 = 1),
      wport := if ports % 2 = 1 then some (tok (ports / 2 % 8) 0x50) else none,
      rport := if ports / 16 % 2 = 1 then some ⟨tok (ports / 32 % 8) 0x60, s.cycle⟩ else none }

/-- Writes the saved ranges of a store tile back; every other byte of it is zero (R337). -/
def State.restRanges (s : State) (i : InstId) (l : List AreaGen) : State :=
  let tileOf (a : AreaGen) : TileId := s.tileOf i (recN a.fix 0 2 / 4) (recN a.fix 2 1 / 4)
  let tiles := (l.map tileOf).eraseDups
  let s := tiles.foldl (fun s t =>
    let k := (Loc.tile t 0).key
    { s with mem := memClear s.mem k (k + 524288), poison := s.poison.filter (fun q => q < k || k + 524288 ≤ q) }) s
  l.foldl (fun s a => a.ranges.foldl (fun s r => s.store (.tile (tileOf a) r.1) r.2) s) s

/-- A ring name for the new place of an instance: one inside the saved region moves with it (R408). -/
def State.moveRing (s : State) (i : InstId) (sid old : Nat) (w : Word) : Word :=
  let n := s.inst i
  let g := s.ringAt sid w
  let coords := (n.map Inst.coords).getD []
  let was (c : Nat × Nat) : TileId := s.redirectTile sid (tileAt (old / 2 ^ 22 % 2) (old / 2 ^ 16 % 64) c.1 c.2)
  match coords.find? (fun c => was c = g.tile) with
  | some c => ringName ⟨s.tileOf i c.1 c.2, g.gen⟩
  | none => w

/-- A restored haul (R384, R408): its ring names for the new place, its new core, its tag, and the descriptor as saved. -/
structure RestHaul where
  core : CoreId
  was : CoreId
  tag : Nat
  h : Haul
  ring : GenId
  saved : List Byte
  deriving DecidableEq, Repr

/-- Replaces a doubleword of a record. -/
def putWord (l : List Byte) (off : Nat) (w : Word) : List Byte := l.take off ++ bytesOf 8 w.toNat ++ l.drop (off + 8)

/-- A haul record of an area whose header names the place `old`, for the instance at its new place (R408): the ring name that
bound it and the descriptor's ring names move; it resumes on its core, or where its ring moved on the core paired with it. -/
def State.restHaul (s : State) (g : GraphOp) (i : InstId) (old : Nat) (r : List Byte) : RestHaul :=
  let sid := g.origin.sid
  let mv (w : Word) : Word := s.moveRing i sid old w
  let d := r.take 512
  let x : Bool := recN d 0x38 1 ≠ 0
  let d0 := Desc.of d
  let d := if d0.srcRing then putWord d 8 (mv d0.src) else d
  let d := if d0.dstRing then putWord d 0x10 (mv d0.dst) else d
  let d := if x then putWord (putWord d 0x28 (mv d0.entry)) 0x30 (mv d0.exit) else d
  let ring := ringGen (mv (recW r 0x230))
  let was := s.redirectCore sid (routeCore (recW r 0x208))
  let moved : Bool := mv (recW r 0x230) ≠ recW r 0x230
  let idx := recN r 0x210 8
  let mvd := recN r 0x218 8
  let out := recN r 0x220 8
  let bits := recN r 0x228 8
  let legs := (Desc.of d).legs s sid x
  let notes (l : Leg) : List Nat := match l.dst with
    | .ring g =>
      let y := s.gen g
      let n := match y.cfg with | some c => c.recd.count | none => 1
      ((List.range n).map (fun k => (y.fill + k) % n)).filter (fun k => bits / 2 ^ k % 2 = 1)
    | .mem _ => []
  let legs := legs.mapIdx (fun k l => if k = 0 then { l with idx := idx, notes := notes l }
    else { l with idx := mvd + (if l.bdst then out else 0) })
  let o := g.origin
  ⟨if moved then ring.tile.core else was, was, recN r 0x200 2,
   { x := x, desc := d, sid := sid, origin := { o with core := if moved then ring.tile.core else was }, serial := g.serial, order := 0,
     legs := legs, moved := mvd, outside := out, resumed := true }, ring, r.take 512⟩

/-- Brings back a haul: its bindings, its STOPPED tag, its place before the queued ones by its original release (R384). The tag it had on another
core is FREE; what holds that tag there by now, and is not STOPPED, stays (R365). -/
def State.putHaul (s : State) (r : RestHaul) : State :=
  let keep := if tget s.tags TagState.free (r.was, r.tag) = .stopped then tfind s.hauls (r.was, r.tag) else none
  let s := if r.was = r.core then s
    else match keep with
      | some _ => { s.setTag r.was r.tag .free with hauls := tdel s.hauls (r.was, r.tag) }
      | none => s
  let h := match keep with
    | some k => { r.h with origin := { k.origin with core := r.core }, serial := k.serial, word := k.word, poison := k.poison }
    | none => r.h
  let order := (keep.map Haul.order).getD s.horder
  let s := { (s.setTag r.core r.tag .stopped).setHaul r.core r.tag { h with order := order } with horder := s.horder + 1 }
  (legSides h.legs).foldl (fun s e =>
    s.onGen e.1 (fun x => if e.2 then { x with prod := some (.haul r.core r.tag) } else { x with cons := some (.haul r.core r.tag) })) s

/-- Rebuilds an instance from an area (R406, R408), or says why not; a haul cancelled while STOPPED is left out (R380); a ring name of an area meets R369 as one of a descriptor does, die 1
of an HZ480 among it (log 135). -/
def State.rebuild (s : State) (g : GraphOp) (i : InstId) (l : List Byte) : Except Nat State :=
  let sid := g.origin.sid
  let n := s.newInst sid g.place .active
  let img := s.image sid n.image
  let s1 := s.setInst i n
  let gens := (imgStores img).map (fun r => s1.genAt i (recN r 0 2) (recN r 2 2) (recN r 4 1))
  match Area.read l with
  | none => .error 2
  | some a =>
    if a.planes.length ≠ recN img 0x0C 2 then .error 2
    else if (s.inst i).isSome || s1.judge i img ≠ .ok ||
        gens.any (fun h => (s.gen h).cfg.isSome) then .error 0x22
    else
      let s2 := (s1.claim i img).loadImage i img false
      let s2 := a.planes.foldl (fun s r => s.restPlane i r) s2
      let s2 := (a.gens.filter (fun x => recN x.fix 3 1 ≠ 0xFF)).foldl (fun s x => s.restGen i x) s2
      let s2 := s2.restRanges i a.gens
      let hs := (a.hauls.map (s2.restHaul g i (recN l 8 4))).filter (fun h =>
        !s.dropped.any (fun d => d.core = h.was && d.tag = h.tag && d.sid = sid && d.desc = h.saved))
      let bad : Option Nat := hs.findSome? (fun h =>
        if s.part.dies ≤ h.core.die || s.part.dies ≤ h.was.die then some Cause.unavailable.code else ((Desc.of h.h.desc).rings h.h.x).findSome? (fun w =>
        match ringCheck s sid w false with | .error e => some e.cause.code | .ok _ => none))
      if bad.isSome then .error (bad.getD 0)
      else if hs.any (fun h => let t := tget s.tags TagState.free (h.core, h.tag); t ≠ .free && t ≠ .stopped) then .error 0x22
      else
        let s2 := hs.foldl State.putHaul s2
        .ok ((s2.nodes i).foldl State.thaw s2)

/-- R408: the header, or the whole area, has been read: the instance is rebuilt and ACTIVE, or the status says why not. -/
def execGrestDone (s : State) : Res :=
  match s.arg with
  | .grestDone i =>
    (match tfind s.saves i with
     | some v =>
       if v.op.op ≠ 0xAE || !v.ended then .next s
       else
         let fail (x : Nat) : Res := .next ((s.graphDone v.op x 0).saveEnd i v)
         if v.failed ≠ 0 then fail v.failed
         else if v.want = 64 then
           (if v.bad ≠ [] then fail 0x1D
            else if !headerOk v.op v.bytes then fail 2
            else if !areaFits v.va (recN v.bytes 0x20 8) then fail 0x19
            else if recN v.bytes 0x20 8 = 64 then fail 2
            else .next (({ s with saves := tput s.saves i { v with want := recN v.bytes 0x20 8 } } : State).savePump i 9))
         else if v.bad ≠ [] then fail 0x1D
         else
           (match s.rebuild v.op i v.bytes with
            | .error x => fail x
            | .ok s => .next ((s.graphDone v.op 0 0).saveEnd i v))
     | none => .next s)
  | _ => .next s

/-! ## The quiescence detector (R409, R411, R412) -/

/-- The output slots of a plane whose token a collective node has not taken: they stay SENT (R444, R462). -/
def Plane.sentOuts (p : Plane) : Nat :=
  (p.outs.filter (fun o => match tfind p.dst o.1 with | some (.coll _ _) => true | _ => false)).length

/-- Places of an instance that hold a token (R409): those of R399, and slots that stay SENT. -/
def State.blocked (s : State) (i : InstId) : Nat :=
  ((s.nodes i).map (fun n => (s.strays n).length + (match n with | .plane p => (s.plane p).sentOuts | _ => 0))).foldl (· + ·) 0

/-- Whether an arc token or acknowledgement of an instance is in flight. -/
def State.arcMoving (s : State) (i : InstId) : Bool :=
  s.pending.any (fun p => match p.ev with
    | .tokenArrival a _ => (s.plane a.dst).inst = some i
    | .arcAck a => (s.plane a.dst).inst = some i
    | _ => false) ||
  (s.instPlanes i).any (fun p => (s.plane p).latch.any (fun l => s.cycle < l.2.since))

/-- Whether an access of a memory node has not been performed; one that has only waits to push its token. -/
def NodeAcc.open_ (a : NodeAcc) : Bool := match a.st with | .done _ => false | _ => true

/-- Whether something of an instance is in flight beside rules (R409). -/
def State.inFlight (s : State) (i : InstId) : Bool :=
  s.arcMoving i || (s.instPlanes i).any (fun p => (s.plane p).accs.any NodeAcc.open_ || (s.plane p).mark ≠ []) ||
  (s.instGens i).any (fun g => let x := s.gen g; x.prod.isSome || x.cons.isSome || x.wmark.isSome || x.rmark.isSome) ||
  s.colls.any (fun e => e.1.1 = i && e.2.mark.isSome) || (s.instPlanes i).any (fun p => 0 < (s.plane p).sentOuts)

/-- The class of an instance (R409, R412): 0 RUNNING, 1 DONE, 2 STALLED. -/
def State.classOf (s : State) (i : InstId) : Nat :=
  let live := match s.instSt i with | some .active => true | some .swapping => true | some .marking => true | _ => false
  let rules := live && ((s.instPlanes i).any (fun p => s.mayFire p && p.rules.any s.ready) ||
    (s.instGens i).any (fun g => s.passReady g || s.portReady g || s.reopenReady g))
  let n := s.blocked i
  if live then (if rules || s.inFlight i then 0 else if n = 0 then 1 else 2)
  else if n ≠ 0 then 2 else if s.inFlight i then 0 else 1

/-- A tile's place in a record. -/
def tileBits (t : TileId) : Word := fld t.die 40 ||| fld t.hive 34 ||| fld t.tile 30

/-- The plane and generator records of an instance (R411), in ascending order. -/
def State.instRecords (s : State) (i : InstId) : List Word :=
  let ps := (s.instPlanes i).filterMap (fun p =>
    let x := s.plane p
    let mask (f : Nat → Bool) : Nat := (List.range 8).foldl (fun m c => if f c then m + 2 ^ c else m) 0
    let lat := mask (fun c => thas x.latch c)
    let out := mask (fun c => thas x.outs c)
    let want := mask (fun c => !thas x.latch c && x.rules.any (fun r => r.1 ≠ 0 && (maskList (trReady r.2)).contains c))
    if lat = 0 && out = 0 && x.held = [] then none
    else some (tileBits p.elem.tile ||| fld p.elem.elem 26 ||| fld p.plane 24 ||| fld lat 0 ||| fld out 8 ||| fld want 16))
  let gs := (s.instGens i).filterMap (fun g =>
    let x := s.gen g
    if (s.strays (.gen g)).length = 0 then none
    else
      let used := match x.cfg with | some c => if c.recd.mode = 1 then x.kinds.length else x.full.length | none => 0
      some (fld 1 61 ||| tileBits g.tile ||| fld g.gen 26 ||| fld (min 255 used) 0 ||| fld (if x.eosHeld then 1 else 0) 8
        ||| fld (if x.run then 1 else 0) 9))
  sortKey BitVec.toNat (ps ++ gs)

/-- The code of a state (R390, R412). -/
def instCode : Option InstState → Nat
  | none => 0 | some .reserved => 1 | some .loading => 2 | some .shadow => 3 | some .active => 4 | some .swapping => 5
  | some .marking => 6 | some .cut => 7

/-- R412: reads the detector. A place word that names die 1 on the HZ480 fails under R389, which raises ILLEGAL_FORM here; sel 1 has no place
word, and its die 1 raises UNAVAILABLE by R3 (log 133). -/
def execGquiet (a d : BitVec 5) (t : BitVec 4) (s : State) : Res :=
  threadInstr (.gquiet a d t) t (fun s th => do
    let q ← rd s th a
    let sid := (s.ctx th).sid
    let bad : Except Stop State := .error ⟨.illegalForm, none⟩
    let put (s : State) (v : Word) : Except Stop State := .ok (s.onCtx th (fun c => c.wr d v))
    let place : Word := BitVec.ofNat 64 (bitsN q 26 4)
    let good : Bool := match placeCheck s sid place with | .ok _ => true | .error _ => false
    let i := s.placeInst sid place
    match bitsN q 3 0 with
    | 0 =>
      if bitsN q 63 27 ≠ 0 || !good then bad
      else
        let cls := if (s.inst i).isSome then s.classOf i else 1
        let n := if (s.inst i).isSome then s.blocked i else 0
        let recs := if cls = 2 then (s.instRecords i).take 64 else []
        let s := if cls = 2 then { s with snaps := tput s.snaps (bitsN place 22 22) recs } else s
        put s (fld (instCode (s.instSt i)) 0 ||| fld cls 3 ||| fld recs.length 8 ||| fld (min 65535 n) 16)
    | 1 =>
      if bitsN q 63 34 ≠ 0 || bitsN q 31 15 ≠ 0 || !isCompute (bitsN q 7 4) then bad
      else if s.part.dies ≤ bitsN q 14 14 then .error ⟨.unavailable, none⟩
      else
        let ti := s.redirectTile sid ⟨bitsN q 14 14, bitsN q 13 8, bitsN q 7 4⟩
        let x := s.tile ti
        put s (fld x.cur 0 ||| fld (if (List.range 4).any (s.eligible ti) then 0 else 1) 2
          ||| fld ((x.skips[bitsN q 33 32]?).getD 0).toNat 32)
    | 2 =>
      if bitsN q 63 38 ≠ 0 || bitsN q 31 27 ≠ 0 || !good then bad
      else put s (((tget s.snaps [] (bitsN place 22 22))[bitsN q 37 32]?).getD 0)
    | _ => bad) s

end Sys2Proof.Machine
end

