-- ==== Sys2Proof/Machine/Events.lean ====
section
/-! DEFINITION. Events to the host (R479, R480), and what waits for a lockkeeper that restarts (R488). -/

namespace Sys2Proof.Machine

open Sys2Proof

/-- A host basin's registers. -/
def State.hostBasin (s : State) (n : Nat) : HostBasin := tget s.ctl.basins {} n

/-- Changes the device's registers. -/
def State.onCtl (s : State) (f : Ctl → Ctl) : State := { s with ctl := f s.ctl }

/-- Sets a host basin's registers. -/
def State.setHostBasin (s : State) (n : Nat) (b : HostBasin) : State :=
  s.onCtl (fun c => { c with basins := tput c.basins n b })

/-- The entries of a basin (R480). -/
def HostBasin.entries (b : HostBasin) : Nat := 2 ^ (b.size + 4)

/-- Whether a basin takes an entry now. -/
def HostBasin.room (b : HostBasin) : Bool := b.base ≠ 0 && (b.tail + 2 ^ 32 - b.head) % 2 ^ 32 < b.entries

/-- Writes an entry, and then advances tail (R480). -/
def State.basinWrite (s : State) (n : Nat) (ws : List Word) : State :=
  let b := s.hostBasin n
  let s := s.store (.comp (b.base + 64 * (b.tail % b.entries))) (ws.flatMap (fun w => bytesOf 8 w.toNat))
  s.setHostBasin n { b with tail := (b.tail + 1) % 2 ^ 32 }

/-- An entry reaches its basin: written, held while earlier ones wait or the basin has no room, or lost (R480). -/
def State.basinPut (s : State) (n : Nat) (ws : List Word) : State :=
  let b := s.hostBasin n
  if b.room && !s.ctl.hold.any (fun e => e.1 = n) then s.basinWrite n ws
  else if s.ctl.hold.length < 256 then s.onCtl (fun c => { c with hold := c.hold ++ [(n, ws)] })
  else s.setHostBasin n { b with lost := min 4095 (b.lost + 1) }

/-- Writes what the hold can give back to the basins (R480). -/
def State.basinPump (s : State) : State :=
  s.ctl.hold.foldl (fun s e => s.basinPut e.1 e.2) (s.onCtl (fun c => { c with hold := [] }))

/-- The entry of an event (R479). -/
def eventWords (node die code tag : Nat) (ps : List Word) : List Word :=
  [lockWord node die, fld code 51 ||| fld 1 49 ||| fld ps.length 46 ||| fld tag 0] ++ ps ++ List.replicate (6 - ps.length) 0

/-- Sends an event that names no job: to basin 0. -/
def State.eventOwner (s : State) (die code : Nat) (ps : List Word) : State :=
  s.basinPut 0 (eventWords s.node die code 0 ps)

/-- Sends an event about a job to its host basin, with its user tag (R21). -/
def State.eventJob (s : State) (die code sid : Nat) (ps : List Word) : State :=
  let j := s.job sid
  s.basinPut j.basin (eventWords s.node die code j.tag.toNat ps)

/-- REFUSED (R479): the cause and the service index. -/
def refusedWord (c : Cause) (service : Nat) : Word := fld c.code 0 ||| fld service 16

/-- Whether a die's lockkeeper is restarting (R488). -/
def State.restarting (s : State) (die : Nat) : Bool := s.ctl.down.contains die

/-- Whether what comes for a die's lockkeeper waits: for its restart (R488), or behind what waited for that. -/
def State.lkDown (s : State) (die : Nat) : Bool := s.restarting die || s.pending.any (fun p => p.chan = .lock die)

/-- What a lockkeeper does waits while it restarts (R488). -/
def State.byLock (s : State) (die : Nat) (f : State → State) : State :=
  if s.lkDown die then s.onCtl (fun c => { c with held := c.held ++ [(die, s.arg)] }) else f s

/-- The oldest of what waited for a die's lockkeeper goes on, once the one before it has been done. -/
def State.relockDie (s : State) (die : Nat) : State :=
  if s.lkDown die then s
  else
    match s.ctl.held.find? (fun e => e.1 = die) with
    | some e => (s.onCtl (fun c => { c with held := dropFirst (fun e => e.1 = die) c.held })).post (.lock die) e.2
    | none => s

/-- The same, for both dies: what waited for a restart is done in the order it came in (R113, R473, R488). -/
def State.relock (s : State) : State := (s.relockDie 0).relockDie 1

/-- The route word of a host barge (R478). -/
def hostRoute (node : Nat) (r : Word) : Bool := bitsN r 63 62 = 2 && (routeNode r = 0 || routeNode r = node) && bitsN r 40 0 = 0

/-- Whether a host barge has the form of R478 and its service's payload count. A LAUNCH's other fields are refused under R24 (R21). -/
def hostForm (node : Nat) (r c : Word) : Bool :=
  bitsN c 63 63 = 0 && (ctlHandler c = 0 || (hostRoute node r && ctlPrio c ≠ 0 && bitsN c 45 40 = 0)) &&
  (match ctlHandler c with
   | 0 => true | 2 => ctlCount c = 2 | 3 => ctlCount c = 2 | 4 => ctlCount c = 2 | 5 => ctlCount c = 1
   | 6 => ctlCount c = 2 | 7 => ctlCount c = 0 | _ => false)

/-- The step that carries out a host barge (R478). -/
def hostStep (node : Nat) (ws : List Word) : Ev :=
  let w (i : Nat) : Word := ws.getD i 0
  let c := w 1
  if !hostForm node (w 0) c then .unknownService ws true
  else
    match ctlHandler c with
    | 0 => .launch (w 0) c (w 2) (w 3) (w 4)
    | 2 => .shootdown c (w 2) (w 3)
    | 3 => .policy c (w 2) (w 3)
    | 4 => .twin c (w 2) (w 3)
    | 5 => .kill c (w 2)
    | 6 => .fwStage c (w 2) (w 3)
    | _ => .fwActivate c

/-- The lockkeeper takes a host barge; the next one waits until its event (R478). -/
def State.hostTake (s : State) (ws : List Word) : State :=
  (s.onCtl (fun c => { c with hostBusy := true })).post .host (hostStep s.node ws)

/-- A service has ended with its event: the lockkeeper takes the next host barge (R478), unless the device has tripped (R494). -/
def State.hostNext (s : State) : State :=
  match (if s.ctl.trip then [] else s.ctl.hostq) with
  | [] => s.onCtl (fun c => { c with hostBusy := false })
  | ws :: rest => (s.onCtl (fun c => { c with hostq := rest })).hostTake ws

/-- DCR_STATUS.ready (R485): set in step 5, cleared when a die reaches its trip point (R494). -/
def State.isReady (s : State) : Bool := s.readyAt.isSome && !s.ctl.trip

/-- R476, R477: a write to the barge port of the aperture the companion has while link 24 is UP: eight words are an aligned write of 64 bytes, every
other write is ignored. Before ready it is dropped and counted. -/
def execBargePortWrite (s : State) : Res :=
  match s.arg with
  | .bargePortWrite ws =>
    if !s.linkUp 24 || ws.length ≠ 8 then .next s
    else if !s.isReady then .next (s.onCtl (fun c => { c with early := min 0xFFFF (c.early + 1) }))
    else if s.ctl.hostBusy || s.ctl.hostq ≠ [] then .next (s.onCtl (fun c => { c with hostq := c.hostq ++ [ws] }))
    else .next (s.hostTake ws)
  | _ => .next s

/-- R478: a malformed barge, JOB_END or an unknown index is dropped and refused. R21, R278: so is a barge for a service of the host that
reaches a lockkeeper by another path than the Turso link. -/
def execUnknownService (s : State) : Res :=
  match s.arg with
  | .unknownService ws host =>
    .next (s.byLock 0 (fun s =>
      let s := s.eventOwner 0 0x002 [refusedWord .illegalForm (ctlHandler (ws.getD 1 0))]
      if host then s.hostNext else s))
  | _ => .next s

end Sys2Proof.Machine
end

