-- ==== Sys2Proof/Machine/FabricEv.lean ====
section
/-! DEFINITION. The fabric's own steps: tokens and acknowledgements on arcs (R314), memory nodes (R333), the context
sequencer (R395, R529). -/

namespace Sys2Proof.Machine

open Sys2Proof

/-- R314, R397: a token or marker arrives in a consumer's input latch. -/
def execTokenArrival (s : State) : Res :=
  match s.arg with
  | .tokenArrival a t => .next (s.arrive a.dst a.ch t s.cycle)
  | _ => .next s

/-- R314: an acknowledgement frees the producer's output slot. -/
def execArcAck (s : State) : Res :=
  match s.arg with
  | .arcAck a =>
    (match tfind (s.plane a.dst).src a.ch with
     | some (.arc p c) => .next ((s.ackArc p c).pushDone p)
     | _ => .next s)
  | _ => .next s

/-- R333: an access of a memory node is performed or fails. -/
def execMemNodeCompletion (s : State) : Res :=
  match s.arg with
  | .memNodeCompletion r seq a => .next (s.nodeAnswer r seq a)
  | _ => .next s

/-- The turn a plane is given (R395): with the boost, plane 3's is twice as long where an egress queue that serves its
collective nodes is empty. -/
def State.turn (s : State) (t : TileId) (e : Nat) : Nat :=
  let x := s.tile t
  let w := (x.w[e]?).getD 0
  let empty : Bool := s.colls.any (fun c =>
    c.2.inp.plane = e && (t.elems.any (fun k => (s.plane ⟨k, e⟩).inst = some c.1.1)) &&
    (tget s.egress {} (c.2.inp.elem.tile.die, c.2.gw, e)).queue = [])
  if e = 3 && x.boost && empty then 2 * w else w

/-- R395: the sequencer looks for the next eligible plane, and counts the planes it passes over when it moves to one. -/
def execPlaneSwitch (s : State) : Res :=
  match s.arg with
  | .planeSwitch t =>
    let x := s.tile t
    if x.chosen ≠ [] || x.last = some s.cycle then .next s
    else if 0 < x.left && s.eligible t x.cur then .next s
    else
      let order := (List.range 4).map (fun k => (x.cur + 1 + k) % 4)
      (match order.find? (s.eligible t) with
       | none => .next (s.setTile t { x with idle := true, last := some s.cycle })
       | some e =>
         let passed := order.takeWhile (· ≠ e)
         let skip (p : Nat) : Bool :=
           passed.contains p && (x.w[p]?).getD 0 ≠ 0 &&
           t.elems.any (fun k => (match (s.plane ⟨k, p⟩).inst with | some i => s.instSt i = some .active | none => false))
         let l := s.choose t e
         .next (s.setTile t { x with cur := e, left := s.turn t e - 1, idle := false, chosen := l, skipped := s.chosenOver t e l,
                                     last := some s.cycle,
                                     skips := x.skips.mapIdx (fun p n => if skip p then n + 1 else n) }))
  | _ => .next s

/-- What a plane's own units go on with in a cycle: its intersection units (R339), translated accesses (R277) and completion tokens (R333) that
a hold of its element or a full slot had kept. -/
def State.unitsGo (s : State) (pid : PlaneId) : State :=
  let p := s.plane pid
  let s := p.isects.foldl (fun s u => s.isectStep pid u.1) s
  let s := (p.accs.filter NodeAcc.holds).foldl (fun s a => s.takeOperands ⟨pid, a.slot⟩) s
  s.pushDone pid

/-- The firings that met an error and run again at the end of a hold (R468). -/
def State.retries (s : State) (t : TileId) : List RuleId :=
  (t.elems.filterMap (fun e => if s.held e then none else (s.elem e).retry)).filter s.ready

/-- The firings of a tile's cycle with those that end a hold in front; an element fires nothing beside one (R281, R468). -/
def State.withRetries (s : State) (t : TileId) : State :=
  let l := s.retries t
  let s := t.elems.foldl (fun s e => if (s.elem e).retry.isSome && !s.held e then s.setElem e { s.elem e with retry := none } else s) s
  if l = [] then s
  else
    let x := s.tile t
    let chosen := l ++ x.chosen.filter (fun r => !l.any (fun q => q.plane.elem = r.plane.elem))
    s.setTile t { x with chosen := chosen, skipped := x.skipped.filter chosen.contains }

/-- A tile's cycle begins with what its planes' units go on with; a current plane that is eligible and has turns left goes on, else the
sequencer looks for another (R395). -/
def State.tileBegin (s : State) (t : TileId) : State :=
  let x := s.tile t
  if x.chosen ≠ [] || x.last = some s.cycle then s
  else
    let s := t.elems.foldl (fun s e => (List.range 4).foldl (fun s p => s.unitsGo ⟨e, p⟩) s) s
    let s :=
      if 0 < x.left && s.eligible t x.cur then
        let l := s.choose t x.cur
        s.setTile t { x with left := x.left - 1, idle := false, chosen := l, skipped := s.chosenOver t x.cur l, last := some s.cycle }
      else
        match execPlaneSwitch { s with arg := .planeSwitch t } with
        | .next s => s
        | _ => s
    s.withRetries t

end Sys2Proof.Machine
end

