-- ==== Sys2Proof/Machine/Remote.lean ====
section
/-! DEFINITION. Windows and remote operations (R423 to R439): their instructions, and how a remote operation goes on. -/

namespace Sys2Proof.Machine

open Sys2Proof

/-! ## Windows (R423 to R425) -/

/-- A window's entry. -/
def State.win (s : State) (sid id : Nat) : Win := tget s.wins {} (sid, id)

/-- Sets a window's entry. -/
def State.setWin (s : State) (sid id : Nat) (w : Win) : State := { s with wins := tput s.wins (sid, id) w }

/-- The home of an entry (R423). -/
def winHome (id : Nat) : CoreId := .ec 0 (id % 128)

/-- The limits of a window record (R424). The range must lie in the global space (log 33). -/
def winForm (r : List Byte) : Bool :=
  let base := recW r 0
  let len := recN r 8 8
  bitsN base 63 57 = 0x40 && bitsN base 7 0 = 0 && 256 ≤ len && len ≤ 2 ^ 33 && len % 256 = 0 &&
  1 ≤ recN r 0x11 1 && recN r 0x11 1 ≤ 7 && recN r 0x12 2 = 0 && recN r 0x18 8 = 0 && bitsN base 56 0 + len ≤ 2 ^ 57

/-- R424: reserves an entry of the window table, and opens it at commit. -/
def execWopen (a d : BitVec 5) (t : BitVec 4) (s : State) : Res :=
  threadInstr (.wopen a d t) t (fun s th => do
    let ea ← rd s th a
    let r ← readRecord s th ea 32 32
    if r = [] then .ok (s.consumePoison th (some ea) (encode (.wopen a d t)))
    else
      if !winForm r then .error ⟨.illegalForm, none⟩
      let c := s.ctx th
      let w : WinOp :=
        { id := recN r 0x10 1, release := false,
          args := [BitVec.ofNat 64 (bitsN (recW r 0) 56 0), recW r 8, BitVec.ofNat 64 (recN r 0x11 1), BitVec.ofNat 64 (recN r 0x14 4)],
          thread := th, serial := c.serial, sid := c.sid, origin := s.originOf th, ask := c.awaits }
      let acc : Acc := if 2 ≤ recN r 0x11 1 then .write else .read
      let ps := probesOf (.global (bitsN (recW r 0) 56 0)) (recN r 8 8) acc
      let s := s.onCtx th (fun c =>
        { c with status := .loadWait,
                 loadWait := some { kind := .reserve d.toNat, addr := ea, pieces := [], eff := some (.wopen w), probes := ps } })
      .ok (s.post .none (.windowReserve w))) s

/-- R425: revokes a window. -/
def execWclose (a : BitVec 5) (t : BitVec 4) (s : State) : Res :=
  threadInstr (.wclose a t) t (fun s th => do
    let v ← rd s th a
    if bitsN v 63 8 ≠ 0 then .error ⟨.illegalForm, none⟩
    let c := s.ctx th
    s.addEff th (.wclose { id := v.toNat, release := true, args := [], thread := th, serial := c.serial, sid := c.sid, origin := s.originOf th })) s

/-- R423: an entry's home takes a reservation. -/
def execWindowReserve (s : State) : Res :=
  match s.arg with
  | .windowReserve w =>
    let e := s.win w.sid w.id
    if ((s.ctx w.thread).awaiting w.ask).isNone then .next s
    else if e.st = 0 then
      .next ((s.setWin w.sid w.id { e with st := 1 }).post .none (.loadReply w.thread w.ask 0 (.reserved (.comp 0) 0)))
    else .next (s.post .none (.loadReply w.thread w.ask 0 .refused))
  | _ => .next s

/-- The completion of a remote effect (R435). -/
def remoteDone (op retries status tag : Nat) (count : Word) (sid : Nat) : Completion :=
  { w0 := fld op 0 ||| fld (min 15 retries) 8 ||| fld 1 14 ||| fld status 16 ||| fld (tag % 2 ^ 40) 24, w1 := count, tag := none, sid := sid }

/-- Sends the completion of a `wclose`. -/
def State.wcloseDone (s : State) (w : WinOp) (status : Nat) : State :=
  s.post .none (.completionArrival w.origin.core (remoteDone 0xB1 0 status 0 (BitVec.ofNat 64 w.id) w.sid)) 1

/-- R425: an entry's home performs a `wclose`. -/
def execWclosePerform (s : State) : Res :=
  match s.arg with
  | .wclosePerform w =>
    let e := s.win w.sid w.id
    if e.st ≠ 2 then .next (s.wcloseDone w Cause.illegalForm.code)
    else
      let s := s.setWin w.sid w.id { e with st := 3, closing := some w }
      if e.fly = 0 then .next (s.post .none (.windowFreed w.sid w.id)) else .next s
  | _ => .next s

/-- R425: every access checked before the `wclose` is performed: the entry is FREE. -/
def execWindowFreed (s : State) : Res :=
  match s.arg with
  | .windowFreed sid id =>
    let e := s.win sid id
    (match e.closing with
     | some w =>
       if e.st = 3 && e.fly = 0 then .next ((s.setWin sid id { viol := e.viol }).wcloseDone w 0) else .next s
     | none => .next s)
  | _ => .next s

/-! ## Descriptors (R429) -/

/-- A remote descriptor's fields. -/
def rMode (d : List Byte) : Nat := recN d 0 1
def rEsz (d : List Byte) : Nat := 2 ^ recN d 1 1
def rKey (d : List Byte) : Nat := recN d 4 4
def rLocal (d : List Byte) : Word := recW d 8
def rFar (d : List Byte) : Word := recW d 0x10
def rLen (d : List Byte) : Nat := recN d 0x18 4
def rTag (d : List Byte) : Nat := recN d 0x20 8
/-- Bytes of a gather's bitmap, padded (R431). -/
def rMap (d : List Byte) : Nat := ((rLen d + 7) / 8 + 63) / 64 * 64

/-- The atomics of R432 in the order of their codes. -/
def ratomOp (n : Nat) : AtomOp :=
  match n with
  | 0 => .add | 1 => .and | 2 => .or | 3 => .xor | 4 => .max | 5 => .min | 6 => .xchg | 7 => .cas | 8 => .fadd | 9 => .badd
  | _ => .claim

/-- The zero fields and limits of R429 and R432. -/
def remoteForm (op : Nat) (d : List Byte) : Bool :=
  let z (off n : Nat) : Bool := recN d off n = 0
  z 2 2 && rTag d < 2 ^ 40 && z 0x38 8 &&
  (if op = 0xB4 then
     rMode d ≤ 10 && z 1 1 && z 8 8 && z 0x18 8 && (rMode d = 7 || z 0x30 8) && (rMode d ≠ 10 || !z 0x28 4)
   else
     z 0x1C 4 && z 0x28 8 && z 0x30 8 &&
     (if rMode d = 0 then z 1 1 && 1 ≤ rLen d && rLen d ≤ 2 ^ 30
      else rMode d = 1 && op = 0xB2 && recN d 1 1 ≤ 8 && 1 ≤ rLen d && rLen d ≤ 4096))

/-- The node a window address names is a node, is not behind an absent unit, and is a member of the job (R413, R3, R27). -/
def farNode (s : State) (sid : Nat) (w : Word) : Except Stop Unit :=
  if 144 ≤ bitsN w 48 41 then .error ⟨.illegalForm, some w⟩
  else if railAbsent s (bitsN w 61 41) then .error ⟨.unavailable, some w⟩
  else if !(s.job sid).members.contains (bitsN w 61 41) then .error ⟨.remoteViolation, some w⟩
  else .ok ()

/-- The checks of R429 on a descriptor, and the probes of its global local sides (R190). -/
def remoteCheck (s : State) (t : ThreadId) (op : Nat) (d : List Byte) (ea : Word) : Except Stop (List Probe) := do
  let sid := (s.ctx t).sid
  if !remoteForm op d then .error ⟨.illegalForm, none⟩
  if op = 0xB4 then
    if bitsN (rFar d) 63 62 ≠ 3 then .error ⟨.addrForm, some (rFar d)⟩
    farNode s sid (rFar d)
    if (rFar d).toNat % (if rMode d = 8 then 4 else 8) ≠ 0 then .error ⟨.align, some (rFar d)⟩
    .ok []
  else
    if bitsN (rLocal d) 63 62 = 3 then .error ⟨.addrForm, some (rLocal d)⟩
    if (bitsN (rFar d) 63 62 = 3) = (rMode d = 1) then .error ⟨.addrForm, some (rFar d)⟩
    if rMode d = 0 then farNode s sid (rFar d)
    let n := if rMode d = 0 then rLen d else rMap d + rLen d * rEsz d
    let tg ← checkAddr s t (rLocal d) 1 n false
    let ps := probesOf tg n (if op = 0xB2 then .write else .read)
    if rMode d = 1 then
      let ti ← checkAddr s t (rFar d) 1 (8 * rLen d) false
      .ok (ps ++ probesOf ti (8 * rLen d) .read)
    else .ok ps

/-- The lowest free remote slot of a core (R428). -/
def State.freeSlot (s : State) (c : CoreId) : Option Nat := (List.range 256).find? (fun n => !thas s.rslots (c, n))

/-- `rget`, `rput` and `ratom` (R429). -/
def remoteOp (i : Instr) (op : Nat) (a d : BitVec 5) (t : BitVec 4) (s : State) : Res :=
  threadInstr i t (fun s th => do
    let ea ← rd s th a
    let r ← readRecord s th ea 64 64
    if r = [] then .ok (s.consumePoison th (some ea) (encode i))
    else
      let ps ← remoteCheck s th op r ea
      match s.freeSlot th.core with
      | none => .ok (s.onCtx th (fun c => c.setPred d.toNat false))
      | some n =>
        let e : Eff := if op = 0xB2 then .rget n r else if op = 0xB3 then .rput n r else .ratom n r
        let o : RemoteOp := { op := op, desc := r, sid := (s.ctx th).sid, origin := s.originOf th }
        let s ← s.addEff th e ps
        .ok ({ s with rslots := tput s.rslots (th.core, n) o }.onCtx th (fun c => c.setPred d.toNat true))) s

/-- R430, R431. -/
def execRget (a d : BitVec 5) (t : BitVec 4) (s : State) : Res := remoteOp (.rget a d t) 0xB2 a d t s

/-- R430. -/
def execRput (a d : BitVec 5) (t : BitVec 4) (s : State) : Res := remoteOp (.rput a d t) 0xB3 a d t s

/-- R432. -/
def execRatom (a d : BitVec 5) (t : BitVec 4) (s : State) : Res := remoteOp (.ratom a d t) 0xB4 a d t s

/-- DCR_LINK_STATE of a link (R421). -/
def State.linkWord (s : State) (n : Nat) : Word :=
  let l := s.link n
  if linkAbsent s.part n then 3
  else
    fld l.peer 43 ||| fld l.replays.toNat 24 ||| fld l.downs.toNat 16 ||| fld l.lane 8 ||| fld (if l.spared then 1 else 0) 7 |||
      fld (if l.off then 1 else 0) 2 ||| fld l.st 0

/-- R439: reads network status. -/
def execNstat (a d : BitVec 5) (t : BitVec 4) (s : State) : Res :=
  threadInstr (.nstat a d t) t (fun s th => do
    let q ← rd s th a
    let sid := (s.ctx th).sid
    let put (v : Word) : Except Stop State := .ok (s.onCtx th (fun c => c.wr d v))
    let bad : Except Stop State := .error ⟨.illegalForm, none⟩
    match bitsN q 3 0 with
    | 0 => if bitsN q 63 13 ≠ 0 || bitsN q 7 4 ≠ 0 || 24 < bitsN q 12 8 then bad else put (s.linkWord (bitsN q 12 8))
    | 1 =>
      if bitsN q 63 4 ≠ 0 then bad
      else
        let used := (s.rslots.filter (fun e => e.1.1 = th.core)).length
        put (fld (256 - used) 0 ||| fld s.once.length 16 ||| fld (tget s.viols 0 sid).toNat 32)
    | 2 =>
      if bitsN q 63 24 ≠ 0 || bitsN q 15 4 ≠ 0 then bad
      else
        let w := s.win sid (bitsN q 23 16)
        put (fld w.st 0 ||| fld w.rights 2 ||| fld w.viol.toNat 32)
    | _ => bad) s

/-! ## A remote operation under way (R430 to R432) -/

def State.rop (s : State) (c : CoreId) (n : Nat) : Option RemoteOp := tfind s.rslots (c, n)
def State.setRop (s : State) (c : CoreId) (n : Nat) (o : RemoteOp) : State := { s with rslots := tput s.rslots (c, n) o }
def State.onRop (s : State) (c : CoreId) (n : Nat) (f : RemoteOp → RemoteOp) : State :=
  match s.rop c n with
  | some o => s.setRop c n (f o)
  | none => s

/-- A gather. -/
def RemoteOp.gather (o : RemoteOp) : Bool := o.op = 0xB2 && rMode o.desc = 1

/-- The pieces of an operation (R426), the elements of a gather, or the one of `ratom`. -/
def RemoteOp.total (o : RemoteOp) : Nat :=
  if o.op = 0xB4 then 1
  else if o.gather then rLen o.desc
  else
    let off := bitsN (rFar o.desc) 32 0
    (off + rLen o.desc + 255) / 256 - off / 256

/-- The offset into the transfer and the length of piece i. -/
def RemoteOp.cut (o : RemoteOp) (i : Nat) : Nat × Nat :=
  if o.gather then (i * rEsz o.desc, rEsz o.desc)
  else
    let off := bitsN (rFar o.desc) 32 0
    let lo := max off ((off / 256 + i) * 256)
    (lo - off, min (off + rLen o.desc) ((off / 256 + i + 1) * 256) - lo)

/-- Where on the local side a stage of piece i lies: its index entry, its data, its bit. -/
def RemoteOp.place (o : RemoteOp) (i : Nat) (st : RStage) : Word × Nat :=
  let at_ (a : Word) (n : Nat) : Word := a + BitVec.ofNat 64 n
  match st with
  | .index => (at_ (rFar o.desc) (8 * i), 8)
  | .mark => (at_ (rLocal o.desc) (i / 8), 1)
  | _ => (at_ (rLocal o.desc) ((if o.gather then rMap o.desc else 0) + (o.cut i).1), (o.cut i).2)

/-- The number an access of the local side goes by: block k of piece i; the clearing of a gather's bitmap comes after the last
piece. -/
def pieceKey (i k : Nat) : Nat := 16 * i + k

/-- The block that stands for the bit of a gather's element: its place is found before the element is written, so that one that fails leaves its
destination bytes untouched (R431). -/
def bitBlock : Nat := 15

/-- Block k of an access of the local side: its address and length, and whether it writes. -/
def RemoteOp.block (o : RemoteOp) (idx : Nat) : Word × Nat × Bool :=
  if o.total * 16 ≤ idx then
    let b := (blocks32 (rLocal o.desc).toNat (rMap o.desc)).getD (idx - o.total * 16) (0, 0)
    (rLocal o.desc + BitVec.ofNat 64 b.1, b.2, true)
  else
    match o.fly.find? (fun p => p.idx = idx / 16) with
    | none => (0, 0, false)
    | some p =>
      if idx % 16 = bitBlock then ((o.place p.idx .mark).1, 1, true)
      else
        let x := o.place p.idx p.stage
        let b := (blocks32 x.1.toNat x.2).getD (idx % 16) (0, 0)
        (x.1 + BitVec.ofNat 64 b.1, b.2, match p.stage with | .write => true | _ => false)

/-- The bytes and poison a block writes: zeros for the bitmap, the bitmap's byte with the bits of the elements that have arrived,
or the block's part of the piece's data. -/
def RemoteOp.bytesFor (o : RemoteOp) (idx : Nat) : List Byte × Bool :=
  if o.total * 16 ≤ idx then (List.replicate (o.block idx).2.1 0, false)
  else
    match o.fly.find? (fun p => p.idx = idx / 16) with
    | none => ([], false)
    | some p =>
      if idx % 16 = bitBlock then
        let b := (List.range 8).foldl (fun n j => if (p.idx :: o.bits).contains (p.idx / 8 * 8 + j) then n + 2 ^ j else n) 0
        ([BitVec.ofNat 8 b], false)
      else
        let all := p.buf.flatMap Prod.snd
        let b := (blocks32 (o.place p.idx p.stage).1.toNat (o.place p.idx p.stage).2).getD (idx % 16) (0, 0)
        ((all.drop b.1).take b.2, p.bad)

/-- Sends a block of the local side to its place. -/
def State.piecePost (s : State) (c : CoreId) (n idx : Nat) (o : RemoteOp) (l : Loc) : State :=
  let b := o.block idx
  let d := o.bytesFor idx
  let r : MemReq := { asker := .piece c n idx, sid := o.sid, loc := l, addr := b.1,
                      op := if b.2.2 then .store (d.1.map some) d.2 else .load b.2.1 }
  s.post .none (if b.2.2 then .storePerform r else .loadPerform r)

/-- Changes a piece under way. -/
def State.onPiece (s : State) (c : CoreId) (n i : Nat) (f : RPiece → RPiece) : State :=
  s.onRop c n (fun o => { o with fly := o.fly.map (fun p => if p.idx = i then f p else p) })

/-- Takes a piece off, performed. -/
def RemoteOp.took (o : RemoteOp) (i : Nat) : RemoteOp :=
  let len := if o.gather then 1 else (o.cut i).2
  let bad := o.fly.any (fun p => p.idx = i && p.bad)
  { o with fly := o.fly.filter (fun p => p.idx ≠ i), count := o.count + len, poison := o.poison || bad }

/-- Takes a piece off, failed: the status of the lowest one counts (R430). -/
def RemoteOp.lost (o : RemoteOp) (i status : Nat) : RemoteOp :=
  let first := match o.fail with | some (j, _) => decide (i < j) | none => true
  { o with fly := o.fly.filter (fun p => p.idx ≠ i), fail := if first then some (i, status) else o.fail }

/-- Goes on with a stage of a piece once every block of it has a place (R426: a piece is performed whole or not at all): the blocks are
accessed, or the piece is lost where one has failed. -/
def State.pieceTry (s : State) (c : CoreId) (n i : Nat) : State :=
  match s.rop c n with
  | none => s
  | some o =>
    match o.fly.find? (fun p => p.idx = i) with
    | none => s
    | some p =>
      if !p.need.all (fun k => p.locs.any (fun x => x.1 = k)) then s
      else
        match p.failed with
        | some x => s.onRop c n (fun o => o.lost i x.code)
        | none =>
          (p.locs.filter (fun x => x.1 ≠ bitBlock)).foldl (fun s x => s.piecePost c n (pieceKey i x.1) o x.2)
            (s.onPiece c n i (fun p => { p with locs := p.locs.filter (fun x => x.1 = bitBlock), need := p.need.filter (· ≠ bitBlock) }))

/-- A block of the local side has its place (R430). -/
def State.piecePlace (s : State) (c : CoreId) (n idx : Nat) (l : Loc) : State :=
  match s.rop c n with
  | none => s
  | some o =>
    if o.total * 16 ≤ idx then s.piecePost c n idx o l
    else
      (s.onPiece c n (idx / 16) (fun p => { p with locs := p.locs.filter (fun x => x.1 ≠ idx % 16) ++ [(idx % 16, l)] })).pieceTry c n
        (idx / 16)

/-- A block of the local side has none: the piece fails with ACCESS (R430), once its other blocks have their answers; the bitmap's
clearing fails the operation. -/
def State.pieceNoPlace (s : State) (c : CoreId) (n idx : Nat) : State :=
  match s.rop c n with
  | none => s
  | some o =>
    if o.total * 16 ≤ idx then
      s.setRop c n { o with fail := some (o.total, Cause.access.code), clear := o.clear.filter (· ≠ idx - o.total * 16) }
    else
      (s.onPiece c n (idx / 16) (fun p =>
        { p with need := p.need.filter (· ≠ idx % 16), failed := some .access })).pieceTry c n (idx / 16)

/-- Asks for the place of a block of the local side (R430): checked and translated each time it is accessed. -/
def State.pieceAsk (s : State) (c : CoreId) (n idx : Nat) : State :=
  match s.rop c n with
  | none => s
  | some o =>
    let b := o.block idx
    match checkAddrOf s c o.origin.slot o.sid b.1 1 b.2.1 false with
    | .ok (.here l) => s.piecePlace c n idx l
    | .ok (.global va) =>
      s.post .none (.translation (stationOf c) ⟨.piece c n idx, o.sid, va, if b.2.2 then .write else .read⟩)
    | _ => s.pieceNoPlace c n idx

/-- Begins a stage of a piece on the local side: its blocks are asked for (R430). -/
def State.pieceStage (s : State) (c : CoreId) (n i : Nat) (st : RStage) : State :=
  match s.rop c n with
  | none => s
  | some o =>
    let x := o.place i st
    let ks := List.range (blocks32 x.1.toNat x.2).length ++ (if o.gather && st = .write then [bitBlock] else [])
    let s := s.onPiece c n i (fun p =>
      { p with stage := st, need := ks, locs := [], stalled := [], failed := none, buf := if st = .index || st = .read then [] else p.buf })
    ks.foldl (fun s k => s.pieceAsk c n (pieceKey i k)) s

/-- Whether a gather's element may set its bit now: one at a time (R431). -/
def RemoteOp.marking (o : RemoteOp) : Bool := o.fly.any (fun p => p.stage = .mark && p.need ≠ [])

/-- An element whose data are written sets its bit once no other element is setting one. -/
def State.pieceMark (s : State) (c : CoreId) (n : Nat) : State :=
  match s.rop c n with
  | none => s
  | some o =>
    if o.marking then s
    else
      match o.fly.findSome? (fun p => if p.stage = .mark && p.need = [] then (p.locs.find? (fun x => x.1 = bitBlock)).map (fun x => (p, x.2)) else none) with
      | some (p, l) =>
        (s.onPiece c n p.idx (fun p => { p with need := [bitBlock], locs := [] })).piecePost c n (pieceKey p.idx bitBlock) o l
      | none => s

/-- The window address n bytes past another, and its offset (R211, R426): what goes past the offsets an address can hold is still the
window's, and fails the check of its length there. -/
def windowAt (a : Word) (n : Nat) : Word × Nat :=
  let off := bitsN a 32 0 + n
  ((a &&& ~~~(fld (2 ^ 33 - 1) 0)) ||| BitVec.ofNat 64 (off % 2 ^ 33), off)

/-- Sends an access of a remote operation to its window; every attempt of the operation keeps the limits of its first (R436). -/
def State.pieceSend (s : State) (c : CoreId) (n i : Nat) (o : RemoteOp) (a : Word × Nat) (op : MemOp) : State :=
  let lim := o.limits.getD (s.nretry c o.sid, s.rtimeout c o.sid)
  (s.onRop c n (fun o => { o with limits := some lim })).windowAsk c n o.sid (.piece c n (pieceKey i 0)) a.1 a.2 (rKey o.desc) op o.origin
    lim

/-- Sends the window side of a piece: a read, or the write of what was read (R430). -/
def State.pieceFar (s : State) (c : CoreId) (n i : Nat) : State :=
  match s.rop c n with
  | none => s
  | some o =>
    match o.fly.find? (fun p => p.idx = i) with
    | none => s
    | some p =>
      let len := (o.cut i).2
      let op : MemOp := if o.op = 0xB3 then .store ((p.buf.flatMap Prod.snd).map some) p.bad else .load len
      (s.onPiece c n i (fun p => { p with stage := .away, need := [] })).pieceSend c n i o
        (if o.gather then windowAt p.addr 0 else windowAt (rFar o.desc) (o.cut i).1) op

/-- Starts a piece. -/
def State.pieceStart (s : State) (c : CoreId) (n i : Nat) : State :=
  match s.rop c n with
  | none => s
  | some o =>
    let s := s.setRop c n { o with next := i + 1, fly := o.fly ++ [{ idx := i, stage := .away }] }
    if o.op = 0xB4 then
      s.pieceSend c n 0 o (windowAt (rFar o.desc) 0) (.atomic (ratomOp (rMode o.desc)) (recW o.desc 0x28) (recW o.desc 0x30))
    else if o.gather then s.pieceStage c n i .index
    else if o.op = 0xB3 then s.pieceStage c n i .read
    else s.pieceFar c n i

/-- The status of an operation whose pieces are all done (R430 to R432): PARTIAL for a gather whose elements have not all arrived, one whose bitmap
could not be cleared among them. -/
def RemoteOp.status (o : RemoteOp) : Nat :=
  if o.gather && o.count ≠ o.total then Cause.part.code
  else
    match o.fail with
    | some (_, x) => x
    | none => if o.poison then Cause.poison.code else 0

/-- Goes on with an operation: at most eight pieces under way (log 26); its completion once every piece is done. -/
def State.ropPump (s : State) (c : CoreId) (n : Nat) : Nat → State
  | 0 => s
  | fuel + 1 =>
    match s.rop c n with
    | none => s
    | some o =>
      if !o.started || o.clear ≠ [] then s
      else
      let dead : Bool := o.fail = some (o.total, Cause.access.code)
      if o.next < o.total && o.fly.length < 8 && !dead then (s.pieceStart c n o.next).ropPump c n fuel
      else if (o.next = o.total || dead) && o.fly = [] then
        let count : Word := if o.op = 0xB4 then o.old else BitVec.ofNat 64 o.count
        { s with rslots := tdel s.rslots (c, n) }.post .none
          (.completionArrival c (remoteDone o.op o.retries o.status (rTag o.desc) count o.sid)) 1
      else s

/-- The pieces one arrival may start or fail at most; a run of pieces that fail at once goes on at the next arrival. -/
def ropFuel (o : RemoteOp) : Nat := o.total - o.next + 2

/-- Goes on as far as it can. -/
def State.ropGo (s : State) (c : CoreId) (n : Nat) : State :=
  match s.rop c n with
  | some o => s.ropPump c n (ropFuel o)
  | none => s

/-- A released remote operation begins (R428); after a JOB_END none does (R26). A gather clears its bitmap first (R431). -/
def State.ropAccept (s : State) (c : CoreId) (n : Nat) : State :=
  match s.rop c n with
  | none => s
  | some o =>
    if !s.dispatches o.sid then { s with rslots := tdel s.rslots (c, n) }
    else if !o.gather then (s.setRop c n { o with started := true }).ropGo c n
    else
      let ks := List.range (blocks32 (rLocal o.desc).toNat (rMap o.desc)).length
      let s := s.setRop c n { o with started := true, clear := ks }
      (ks.foldl (fun s k => s.pieceAsk c n (o.total * 16 + k)) s).ropGo c n

/-- A block of the local side is NACKed (R430): the piece stalls, with one PAGE_FAULT barge however many of its blocks wait; and so does the
clearing of a bitmap. -/
def State.pieceFault (s : State) (c : CoreId) (n idx : Nat) (o : RemoteOp) : State :=
  let send (s : State) : State :=
    s.deliverFault o.origin (faultWord .pageFault 7 0 0 0 0 o.origin.rank true) 0 (o.block idx).1 0 (some (.piece c n idx))
  if o.total * 16 ≤ idx then
    let s := s.setRop c n { o with stalled := o.stalled ++ [idx] }
    if o.stalled = [] then send s else s
  else
    match o.fly.find? (fun p => p.idx = idx / 16) with
    | some p =>
      let s := s.onPiece c n p.idx (fun p => { p with stalled := p.stalled ++ [idx] })
      if p.stalled = [] then send s else s
    | none => s

/-- What is wrong with the index entry of a gather's element (R431): it must name a window of the job, at a node that is there (R3, R27),
aligned to the element. The element fails with the cause, and reports it (R431, log 34). -/
def State.gatherFault (s : State) (o : RemoteOp) (w : Word) : Option Cause :=
  if bitsN w 63 62 ≠ 3 then some .addrForm
  else
    match farNode s o.sid w with
    | .error e => some e.cause
    | .ok _ => if w.toNat % rEsz o.desc ≠ 0 then some .align else none

/-- An access of a remote operation is answered: from the window, or from its local side (R430 to R432). -/
def State.pieceAnswer (s : State) (c : CoreId) (n idx : Nat) (a : Ans) : State :=
  match s.rop c n with
  | none => s
  | some o =>
    let i := idx / 16
    let k := idx % 16
    if o.total * 16 ≤ idx then
      match a with
      | .nack => s.pieceFault c n idx o
      | .fault _ => (s.pieceNoPlace c n idx).ropGo c n
      | _ => (s.setRop c n { o with clear := o.clear.filter (· ≠ idx - o.total * 16) }).ropGo c n
    else
      match o.fly.find? (fun p => p.idx = i) with
      | none => s
      | some p =>
        let need := p.need.filter (· ≠ k)
        match p.stage, a with
        | .away, .fault x => ((s.onRop c n (fun o => o.lost i x.code)).pieceMark c n).ropGo c n
        | .away, .data bs bad =>
          if o.op = 0xB4 then
            let old : Word := BitVec.ofNat 64 (natOf bs)
            let full := rMode o.desc = 10 && bitsN old 63 32 < bitsN old 31 0 + recN o.desc 0x28 4
            if bad then (s.onRop c n (fun o => o.lost i Cause.poison.code)).ropGo c n
            else
              let s := s.onRop c n (fun o => { (if full then o.lost i Cause.full.code else o.took i) with old := old })
              s.ropGo c n
          else if o.op = 0xB3 then (s.onRop c n (fun o => o.took i)).ropGo c n
          else (s.onPiece c n i (fun p => { p with buf := [(0, bs)], bad := bad })).pieceStage c n i .write
        | .away, _ => s
        | _, .nack => s.pieceFault c n idx o
        | _, .fault _ => ((s.pieceNoPlace c n idx).pieceMark c n).ropGo c n
        | .index, .data bs bad =>
          let buf := (p.buf.filter (fun e => e.1 < k)) ++ [(k, bs)] ++ p.buf.filter (fun e => k < e.1)
          let s := s.onPiece c n i (fun p => { p with need := need, buf := buf, bad := p.bad || bad })
          if need ≠ [] then s
          else
            let w : Word := BitVec.ofNat 64 (natOf (buf.flatMap Prod.snd))
            if p.bad || bad then (s.onRop c n (fun o => o.lost i Cause.poison.code)).ropGo c n
            else
              match s.gatherFault o w with
              | some x => ((s.report o.origin x 7 w).onRop c n (fun o => o.lost i x.code)).ropGo c n
              | none => (s.onPiece c n i (fun p => { p with addr := w, buf := [] })).pieceFar c n i
        | .read, .data bs bad =>
          let buf := (p.buf.filter (fun e => e.1 < k)) ++ [(k, bs)] ++ p.buf.filter (fun e => k < e.1)
          let s := s.onPiece c n i (fun p => { p with need := need, buf := buf, bad := p.bad || bad })
          if need ≠ [] then s else (s.pieceFar c n i).ropGo c n
        | .write, .data _ _ =>
          let s := s.onPiece c n i (fun p => { p with need := need })
          if need ≠ [] then s
          else if o.gather then (s.onPiece c n i (fun p => { p with stage := .mark, need := [] })).pieceMark c n
          else (s.onRop c n (fun o => o.took i)).ropGo c n
        | .mark, .data _ _ =>
          ((s.onRop c n (fun o => { o.took i with bits := i :: o.bits })).pieceMark c n).ropGo c n
        | _, _ => s

/-- A translation of the local side is answered (R430). -/
def State.pieceXlate (s : State) (c : CoreId) (n idx : Nat) (a : XAns) : State :=
  match s.rop c n, a with
  | some _, .ok l => ((s.piecePlace c n idx l).pieceMark c n).ropGo c n
  | some _, .nack => s.pieceAnswer c n idx .nack
  | some _, .access => s.pieceAnswer c n idx (.fault .access)
  | none, _ => s

/-- A resolved fault: the local accesses that waited for it are made again (R430). -/
def State.pieceResume (s : State) (c : CoreId) (n idx : Nat) : State :=
  match s.rop c n with
  | none => s
  | some o =>
    let l := if o.total * 16 ≤ idx then o.stalled
             else match o.fly.find? (fun p => p.idx = idx / 16) with | some p => p.stalled | none => []
    let s := if o.total * 16 ≤ idx then s.setRop c n { o with stalled := [] }
             else s.onPiece c n (idx / 16) (fun p => { p with stalled := [] })
    ((l.foldl (fun s k => s.pieceAsk c n k) s).pieceMark c n).ropGo c n

/-! ## Pieces at a window (R426, R434) -/

/-- An operation performed exactly once (R434): `ratom`, and the window stores of handlers and elements. -/
def WinReq.once (r : WinReq) : Bool :=
  (match r.op with | .load _ => false | _ => true) && !r.bulk

/-- Two requests carry one request id (R434). -/
def WinReq.same (a b : WinReq) : Bool := a.node = b.node && a.core = b.core && a.slot = b.slot && a.seq = b.seq

/-- Answers an attempt; within this device, too, the answers to a core keep their order but for the adaptive ones (R415, R417). -/
def State.winReply (s : State) (r : WinReq) (a : Ans) : State :=
  if r.node = s.node then s.post (if r.bulk then .none else .access r.core 1 .away) (.remoteAnswer r a)
  else s.toNet r.node (some r.sid) (.answer r a)

/-- Answers a request, records its result, and answers the attempts that wait for it (R434). -/
def State.winDone (s : State) (r : WinReq) (a : Ans) : State :=
  if !r.once then s.winReply r a
  else
    let ws := match s.once.find? (fun e => e.req.same r) with | some e => e.waits | none => []
    let s := { s with once := s.once.map (fun e => if e.req.same r then { e with res := some a, waits := [] } else e) }
    (r :: ws).foldl (fun s x => s.winReply x a) s

/-- The bytes a request is about. -/
def WinReq.len (r : WinReq) : Nat :=
  match r.op with
  | .load n => n
  | .store bs _ => bs.length
  | .atomic .fadd _ _ => 4
  | _ => 8

/-- The right a request needs (R426). -/
def WinReq.right (r : WinReq) : Nat := match r.op with | .load _ => 1 | .store _ _ => 2 | _ => 4

/-- The checks of R426. -/
def Win.admits (w : Win) (r : WinReq) : Bool :=
  w.st = 2 && w.rights / r.right % 2 = 1 && r.off + r.len ≤ w.len && r.key = w.key

/-- The window id of an address (R211). -/
def winId (a : Word) : Nat := bitsN a 40 33

/-- A reported fault at the window's fault edge (R426, R427): it arose at the entry's home; h2 is the window address, h3 the
requester. -/
def State.winFault (s : State) (w : Win) (r : WinReq) (c : Cause) : State :=
  match w.origin with
  | some o => s.report { o with core := winHome (winId r.addr), ident := r.ident } c 7 r.addr
  | none => s

/-- R426: an entry's home checks a piece; what passes is translated, what fails is answered and reported (R427). -/
def execWindowPieceCheck (s : State) : Res :=
  match s.arg with
  | .windowPieceCheck r =>
    let known := if r.once then s.once.find? (fun e => e.req.same r) else none
    (match known with
     | some e =>
       (match e.res with
        | some a => .next (s.winReply r a)
        | none =>
          .next { s with once := s.once.map (fun e => if e.req.same r then { e with waits := e.waits ++ [r] } else e) })
     | none =>
       if r.once && 4096 ≤ s.once.length then .next (s.winReply r .refused)
       else
         let s := if r.once then { s with once := s.once ++ [{ req := r, born := s.cycle }] } else s
         let id := winId r.addr
         let w := s.win r.sid id
         if w.admits r then
           let n := s.nextSerial
           let s := { (s.setWin r.sid id { w with fly := w.fly + 1 }) with
                      nextSerial := n + 1, winReqs := tput s.winReqs n { req := r } }
           .next (s.post .none (.translation (stationOf (winHome id))
             ⟨.window n, r.sid, w.base + r.off, match r.op with | .load _ => .read | _ => .write⟩))
         else
           let s := { s with viols := tput s.viols r.sid (tget s.viols 0 r.sid + 1) }
           let s := if w.st = 2 || w.st = 3 then (s.setWin r.sid id { w with viol := w.viol + 1 }).winFault w r .remoteViolation else s
           .next (s.winDone r (.fault .remoteViolation)))
  | _ => .next s

/-- A piece is no longer under way: a window that closes is FREE once none is (R425). -/
def State.winLeave (s : State) (n : Nat) (r : WinReq) : State :=
  let id := winId r.addr
  let w := s.win r.sid id
  let s := { (s.setWin r.sid id { w with fly := w.fly - 1 }) with winReqs := tdel s.winReqs n }
  if w.st = 3 && w.fly = 1 then s.post .none (.windowFreed r.sid id) else s

/-- The rule that asks, where an element does. -/
def WinReq.rule? (r : WinReq) : Option RuleId := match r.asker with | .rule q _ => some q | _ => none

/-- Whether two requests are accesses of one thread or one rule, whose accesses to one home keep their order (R241, R249). Those of
remote operations are ordered by nothing (R255). -/
def WinReq.sameAgent (a b : WinReq) : Bool :=
  let engine (r : WinReq) : Bool := match r.asker with | .piece _ _ _ => true | _ => false
  !engine a && !engine b && a.node = b.node && a.core = b.core && a.rule? = b.rule? && a.slot = b.slot

/-- Sends translated pieces to their homes; none passes an earlier one of its thread or rule that has not been sent, loads and stores
alike (R241, R249). -/
def State.winSend (s : State) : State :=
  s.winReqs.foldl (fun s e =>
    match tfind s.winReqs e.1 with
    | some u =>
      (match u.loc with
       | some l =>
         let r := u.req
         if u.sent || s.winReqs.any (fun x => x.1 < e.1 && !x.2.sent && x.2.req.sameAgent r) then s
         else
           let s := { s with winReqs := tput s.winReqs e.1 { u with sent := true } }
           let q : MemReq := { asker := .window e.1, sid := r.sid, loc := l, addr := r.addr, op := r.op }
           let ch : Chan := match r.asker with | .piece _ _ _ => .none | _ => .window r.node r.core r.slot r.rule? l.home
           s.post ch (match r.op with | .load _ => .loadPerform q | .store _ _ => .storePerform q | _ => .ratomPerform e.1)
       | none => s)
    | none => s) s

/-- A piece's translation is answered (R426). -/
def State.winXlate (s : State) (n : Nat) (a : XAns) : State :=
  match tfind s.winReqs n with
  | none => s
  | some u =>
    let w := s.win u.req.sid (winId u.req.addr)
    let fail (c : Cause) : State := (((s.winFault w u.req c).winLeave n u.req).winDone u.req (.fault .remoteViolation)).winSend
    match a with
    | .ok l => { s with winReqs := tput s.winReqs n { u with loc := some l } }.winSend
    | .nack => fail .pageFault
    | .access => fail .access

/-- A piece has been performed (R426). -/
def State.winAnswer (s : State) (n : Nat) (a : Ans) : State :=
  match tfind s.winReqs n with
  | none => s
  | some u => (s.winLeave n u.req).winDone u.req a

end Sys2Proof.Machine
end

