-- ==== Sys2Proof/Machine/Engines.lean ====
section
/-! DEFINITION. Where the engines meet the threads and the homes: which unit takes an answer, a translation, a released
effect, a resolved fault. -/

namespace Sys2Proof.Machine

open Sys2Proof

/-- The answer of an access reaches the unit that asked (R276, R333, R376, R407, R426, R430). -/
def State.answerEngine (s : State) (ask : Asker) (a : Ans) : State :=
  match ask with
  | .rule r n => s.post .none (.memNodeCompletion r n a)
  | .haul c tag idx => s.post .none (.haulAccessAnswer c tag idx a)
  | .joint c off => s.jointWrote c off
  | .save i off => s.saveAnswer i off a
  | .piece c n idx => s.pieceAnswer c n idx a
  | .window n => s.winAnswer n a
  | _ => s

/-- The answer of a translation reaches the unit that asked (R274). -/
def State.xlateEngine (s : State) (r : XReq) (a : XAns) : State :=
  match r.asker with
  | .rule q n => s.nodeXlate q n a
  | .haul c tag idx => s.haulXlate c tag idx r.va a
  | .save i off => s.saveXlate i off a
  | .piece c n idx => s.pieceXlate c n idx a
  | .window n => s.winXlate n a
  | _ => s

/-- The 64 KiB pages an effect was translated with (R279). -/
def Buffered.pages (b : Buffered) : List Nat := b.probes.map (fun p => p.va / 65536)

/-- Records a released effect as outstanding (R235, R247). -/
def State.addOut (s : State) (c : CoreId) (o : Out) : State :=
  s.onCore c (fun k => { k with outs := k.outs ++ [o], nextRel := max k.nextRel (o.rel + 1) })

/-- Gives an engine or the remote unit a released effect (R188, R247). What goes to a lockkeeper, another tile or the haul engine's cancels counts
as outstanding until it is accepted there; what one core releases for one of them arrives in release order (R109, R380, R503). -/
def State.releaseEngine (s : State) (c : CoreId) (r : Released) : State :=
  let n := (s.core c).nextRel
  let o := r.origin
  let out (serial : Nat) (home : Home) (ev : Ev) : State :=
    (s.addOut c { rel := n, eff := r.eff, serial := r.serial, cls := .engine, home := home, need := 1, sid := r.sid,
                  pages := r.buf.pages }).post (.access c serial home) ev
  match r.buf.eff with
  | .haul x tag d w => s.haulAccept c { x := x, desc := d, sid := r.sid, origin := o, serial := r.serial, word := w, order := 0 } tag
  | .hcancel tag => out 0 (.core c) (.haulCancel c tag n)
  | .hslot w => out r.serial (.core (s.ringAt r.sid w).tile.core) (.hslotPerform c w o n)
  | .gang d => s.jointAccept c (.gang d) o
  | .jzero b => s.jointAccept c (.jzero b) o
  | .jdrain b d => s.jointAccept c (.jdrain b d) o
  | .jdrainO b ring k => s.jointAccept c (.jdrainO b ring k) o
  | .graph g =>
    let g := { g with rel := n }
    out 0 (.lock (bitsN g.place 22 22)) (if g.op = 0xA8 then .gloadPerform g else g.ev)
  | .gctx t w => out 0 (.core t.core) (.gctxPerform t w c n)
  | .wclose w => s.post (.access c r.serial (.core (winHome w.id))) (.wclosePerform w)
  | .rget k _ => s.ropAccept c k
  | .rput k _ => s.ropAccept c k
  | .ratom k _ => s.ropAccept c k
  | .cjoin g => out 0 (.lock c.die) (.cjoinCheck { g with rel := n })
  | _ => s

/-- A fault that a unit stalled on has been resolved (R276). -/
def State.resumeEngine (s : State) (d : Suspended) : State :=
  match d with
  | .rule r n => s.nodeResume r n
  | .haul c tag idx => s.haulResume c tag idx
  | .piece c n idx => s.pieceResume c n idx
  | .save i off => s.saveResume i off
  | .thread _ _ => s

end Sys2Proof.Machine
end

