-- ==== Sys2Proof/Machine/MemEv.lean ====
section
/-! DEFINITION. What the homes do (R219 to R231, R142) and the answers they send. -/

namespace Sys2Proof.Machine

open Sys2Proof

/-! ## The snoop filter (R220) -/

/-- R220: an edge core recalls a line, or its oldest one. -/
def execSnoopRecall (s : State) : Res :=
  match s.arg with
  | .snoopRecall die e line oldest =>
    let ls := tget s.snoop [] (die, e)
    .next { s with snoop := tput s.snoop (die, e) (if oldest then ls.drop 1 else ls.filter (· ≠ line)) }
  | _ => .next s

/-- R220: a companion access to an HBM line, in the edge core's order; a new line is recorded, the oldest recalled
first where the filter is full. -/
def execCompanionRequest (s : State) : Res :=
  match s.arg with
  | .companionRequest r =>
    let x := hbmLine r.p
    let ls := tget s.snoop [] x.1
    let ls := if ls.contains x.2 then ls else (if 16384 ≤ ls.length then ls.drop 1 else ls) ++ [x.2]
    let s := { s with snoop := tput s.snoop x.1 ls }
    .next (match r.write with
      | some bs => s.store (.hbm r.p) bs
      | none => s)
  | _ => .next s

/-! ## Answers -/

/-- Sends the answer of an access to whoever asked (R222, R236). -/
def State.answerTo (s : State) (ask : Asker) (a : Ans) : State :=
  match ask with
  | .load t w i => s.post .none (.loadReply t w i a)
  | .reserve t w => s.post .none (.loadReply t w 0 a)
  | .effect c rel => s.post .none (.storeAck c rel)
  | .none => s
  | ask => s.answerEngine ask a

/-- Reads at a home (R219). -/
def State.readAt (s : State) (l : Loc) (n : Nat) : State × Ans :=
  let s := s.recall l n true
  (s, .data (s.bytes l n) (s.poisoned l n))

/-- Writes at a home (R219, R220). -/
def State.writeAt (s : State) (l : Loc) (bs : List (Option Byte)) (bad : Bool) : State :=
  (s.recall l bs.length false).storeBytes l bs bad

/-- Deposits the result of a closing effect (R187, R192). -/
def State.result (s : State) (r : MemReq) (v : Word) : State :=
  match r.dep with
  | some (t, d, g) =>
    s.post .none (.deposit t.core { slot := t.slot, first := d, vals := [v], gen := g, ctl := none, sid := r.sid,
                                    serial := (r.origin.map Origin.serial) })
  | none => s

/-- Reports a fault found at a home to the fault edge of the thread that sent the effect (R204); a closing effect ends without a
result (R142, R228). -/
def State.homeFault (s : State) (r : MemReq) (c : Cause) : State :=
  let s := match r.dep with
    | some (t, d, g) =>
      s.post .none (.deposit t.core { slot := t.slot, first := d, vals := [], gen := g, ctl := none, sid := r.sid,
                                      serial := r.origin.map Origin.serial })
    | none => s
  match r.origin with
  | some o => s.report o c 0 r.addr
  | none => s

/-- The bytes an atomic works on (R227). -/
def AtomOp.width : AtomOp → Nat
  | .fadd => 4
  | _ => 8

/-- An atomic at its home (R228): one access; poisoned memory changes nothing and is reported. -/
def State.atomicAt (s : State) (r : MemReq) (op : AtomOp) (b c : Word) : State :=
  let n := op.width
  let s := s.recall r.loc n false
  if s.poisoned r.loc n then s.homeFault r .poison
  else
    let old : Word := BitVec.ofNat 64 (natOf (s.bytes r.loc n))
    let new := atomicNew op old b c
    let s := if op = .cas && old ≠ b then s else s.store r.loc (bytesOf n new.toNat)
    s.result r old

/-- A `join` at its record's home (R142). Words that break R141 and fail no row of R108 raise ILLEGAL_FORM, before UNAVAILABLE and
REMOTE_VIOLATION: the manual names no cause for them (log 153). -/
def State.joinAt (s : State) (r : MemReq) : State :=
  let s := s.recall r.loc 16 false
  if s.poisoned r.loc 16 then s.homeFault r .poison
  else
    let w0 : Word := BitVec.ofNat 64 (natOf (s.bytes r.loc 8))
    let w1 : Word := BitVec.ofNat 64 (natOf (s.bytes (r.loc.plus 8) 8))
    let route : Word := w0 &&& ~~~(fld (2 ^ 30 - 1) 0)
    let home : CoreId := match r.loc.home with
      | .core c => c
      | _ => (r.origin.map Origin.core).getD (.ec 0 0)
    if bitsN w0 63 62 ≠ 0 || ctlCont w1 || 1 < ctlCount w1 then s.homeFault r .illegalForm
    else
      match checkBarge s home 0 r.sid route w1 with
      | .error e => s.homeFault r e.cause
      | .ok d =>
        let n := bitsN w0 29 0
        if n = 0 then s.result r (BitVec.allOnes 64)
        else
          let s := s.store r.loc (bytesOf 8 (route ||| fld (n - 1) 0).toNat)
          let b : Barge :=
            { route := route, ctl := w1, payload := if ctlCount w1 = 1 then [r.addr] else [],
              src := identWord s.node home 0 r.sid, sid := r.sid, origin := r.origin }
          let s := if n = 1 then s.sendTo home b d none else s
          s.result r (BitVec.ofNat 64 (n - 1))

/-- A queue settle at its home (R230, R231): the commit or the discard of a reservation. -/
def State.settleAt (s : State) (r : MemReq) : State :=
  let q := s.qhead r.loc
  let push := match r.op with | .pushSettle _ => true | .pushRelease => true | _ => false
  let dead := if push then q.pushres = 0 else q.popres = 0
  if (qcheck r.loc q).isSome || dead then s.homeFault r .illegalForm
  else
    match r.op with
    | .pushSettle v =>
      let e := r.loc.plus (32 + 8 * (q.tail % q.cap))
      let s := (s.recall e 8 false).store e (bytesOf 8 v.toNat)
      s.setQhead r.loc { q with tail := (q.tail + 1) % 2 ^ 64, pushres := q.pushres - 1 }
    | .popSettle => s.setQhead r.loc { q with head := (q.head + 1) % 2 ^ 64, popres := 0 }
    | .pushRelease => s.setQhead r.loc { q with pushres := q.pushres - 1 }
    | _ => s.setQhead r.loc { q with popres := 0 }

/-- What a home does with a request, and then its answer. -/
def State.perform (s : State) (r : MemReq) : State :=
  match r.op with
  | .load n => let x := s.readAt r.loc n; x.1.answerTo r.asker x.2
  | .store bs bad => (s.writeAt r.loc bs bad).answerTo r.asker (.data [] false)
  | .atomic op b c =>
    (match r.asker with
     | .effect _ _ => (s.atomicAt r op b c).answerTo r.asker (.data [] false)
     | .none => s.atomicAt r op b c
     | ask =>
       let n := op.width
       let s := s.recall r.loc n false
       if s.poisoned r.loc n then s.answerTo ask (.data [] true)
       else
         let old : Word := BitVec.ofNat 64 (natOf (s.bytes r.loc n))
         let s := if op = .cas && old ≠ b then s else s.store r.loc (bytesOf n (atomicNew op old b c).toNat)
         s.answerTo ask (.data (bytesOf 8 old.toNat) false))
  | .join => (s.joinAt r).answerTo r.asker (.data [] false)
  | .pushReserve =>
    let x := s.qreserve r.loc true
    x.1.answerTo r.asker (match x.2 with | .ok v => .reserved r.loc v | .no => .refused | .poison => .data [] true | .bad c => .fault c)
  | .popReserve =>
    let x := s.qreserve r.loc false
    x.1.answerTo r.asker (match x.2 with | .ok v => .reserved r.loc v | .no => .refused | .poison => .data [] true | .bad c => .fault c)
  | _ => (s.settleAt r).answerTo r.asker (.data [] false)

/-- R219: a home performs a load. -/
def execLoadPerform (s : State) : Res :=
  match s.arg with
  | .loadPerform r => .next (s.perform r)
  | _ => .next s

/-- R219: a home performs a store and acknowledges it. -/
def execStorePerform (s : State) : Res :=
  match s.arg with
  | .storePerform r => .next (s.perform r)
  | _ => .next s

/-- R228: a home performs an atomic in one access. -/
def execAtomicPerform (s : State) : Res :=
  match s.arg with
  | .atomicPerform r => .next (s.perform r)
  | _ => .next s

/-- R142: a home performs a `join`. -/
def execJoinPerform (s : State) : Res :=
  match s.arg with
  | .joinPerform r => .next (s.perform r)
  | _ => .next s

/-- R231: a queue's home takes a reservation request. -/
def execQueueReserve (s : State) : Res :=
  match s.arg with
  | .queueReserve r => .next (s.perform r)
  | _ => .next s

/-- R231: a queue's home takes a settle. -/
def execQueueSettle (s : State) : Res :=
  match s.arg with
  | .queueSettle r => .next (s.perform r)
  | _ => .next s

/-- R236: an acknowledgement reaches the issuing core. -/
def execStoreAck (s : State) : Res :=
  match s.arg with
  | .storeAck c rel => .next (s.performed c rel)
  | _ => .next s

/-! ## Replies (R126, R222, R225) -/

/-- The load wait with one more reply. -/
def LoadWait.take (l : LoadWait) (i : Nat) (bs : List Byte) : LoadWait :=
  { l with pieces := l.pieces.mapIdx (fun j p => if j = i then { p with got := some bs } else p) }

/-- How a context goes on when its load wait ends (R126): READY in the next cycle; where a pre-emption waits for the reply, SUSPENDED where the
wait left it, with nothing discarded and no shield (R197, log 152). -/
def State.waitEnds (s : State) (c : Ctx) : Ctx := { c with loadWait := none }.wake (s.cycle + 1)

/-- Writes the registers of a load whose replies have all come (R222, R225). -/
def State.loadDone (s : State) (t : ThreadId) (l : LoadWait) : State :=
  let bs := forward s t l.addr (l.pieces.flatMap (fun p => p.got.getD []))
  s.onCtx t (fun c => s.waitEnds
    (match l.kind with
     | .scalar d n => c.loaded d (bs.take n)
     | .vec d n => { c with regs := c.regs.setMany d ((List.range n).map (fun i => BitVec.ofNat 64 (recN bs (8 * i) 8))) }
     | _ => c))

/-- A reply that no wait takes: of another attempt, or another thread. It is dropped; the data of a load whose generation is not
REACHGEN, or whose context is FREE, count as a dropped deposit (R125, R222, log 128). -/
def State.lateReply (s : State) (t : ThreadId) (w : Await) (a : Ans) : State :=
  match a with
  | .data _ _ =>
    if (s.ctx t).status = .free || (s.ctx t).gen ≠ w.gen then s.onCore t.core (fun k => { k with stale := k.stale + 1 }) else s
  | _ => s

/-- R222: a reply, NACK, fault or poison reaches the thread that waits for it. A reservation that is made becomes an effect; where the reach has
no room for it the thread faults and the reservation is given back (R189, R191, R196, log 21). -/
def execLoadReply (s : State) : Res :=
  match s.arg with
  | .loadReply t n i a =>
    let c := s.ctx t
    let w := s.lastWord t
    (match c.awaiting n with
     | none => .next (s.lateReply t n a)
     | some l =>
       let at_ : Word := match l.pieces[i]? with | some p => p.addr | none => l.addr
       match a with
       | .nack => .next (s.pageFault t at_ w)
       | .fault x => .next ((s.onCtx t Ctx.back).endThread t x at_ w)
       | .refused =>
         (match l.kind with
          | .reserve d => .next (s.onCtx t (fun c => s.waitEnds (c.setPred d false)))
          | k => .next (s.qanswer t k l.addr (.hbm 0) w .no s.waitEnds))
       | .reserved loc v =>
         (match l.kind with
          | .reserve d =>
            let es : List Buffered := l.eff.toList.map (fun e => ⟨e, l.probes⟩)
            (match c.room with
             | .ok _ =>
               let c := s.waitEnds { c.setPred d true with buf := c.buf ++ es }
               .next ((s.setCtx t c).askProbes t (c.buf.length - 1))
             | .error x => .next (((es.foldl (fun s b => s.undo t b) s).onCtx t Ctx.back).stop t x w))
          | k => .next (s.qanswer t k l.addr loc w (.ok v) s.waitEnds))
       | .data bs bad =>
         if bad then .next (s.consumePoison t (some at_) w)
         else
           let l := l.take i bs
           if l.pieces.all (fun p => p.got.isSome) then .next (s.loadDone t l)
           else .next (s.setCtx t { c with loadWait := some l }))
  | _ => .next s

end Sys2Proof.Machine
end

