-- ==== Sys2Proof/Machine/ReachEv.lean ====
section
/-! DEFINITION. The steps of a reach that its instructions do not take themselves: commit, release, probes' answers,
pre-emption, the end of waits (R183 to R198, R234, R244 to R247, R276). -/

namespace Sys2Proof.Machine

open Sys2Proof

/-- R193: a boundary whose waits have ended commits. -/
def execCommit (s : State) : Res :=
  match s.arg with
  | .commit t => .next (s.commitStep t)
  | _ => .next s

/-! ## Release (R193, R235) -/

/-- Where a byte of a released effect lies: the place a local or fabric address names, or the place a probe of its page
answered (R190, R214). -/
def State.placeOf (s : State) (c : CoreId) (sid : Nat) (ps : List Probe) (a : Word) : Option Loc :=
  match bitsN a 63 62 with
  | 0 =>
    match c with
    | .hc d h m => some (.tile ⟨d, h, computeTile m⟩ (bitsN a 17 0))
    | .ec d e => some (.edge d e (bitsN a 17 0))
  | 1 => some (.tile (s.redirectTile sid ⟨bitsN a 40 40, bitsN a 39 34, bitsN a 33 30⟩) (bitsN a 18 0))
  | 2 =>
    ps.findSome? (fun p =>
      if p.va / 65536 = bitsN a 56 0 / 65536 then
        match p.ans with
        | .ok l => some (l.plus (bitsN a 56 0 - p.va))
        | _ => none
      else none)
  | _ => none

/-- Sends a request of a released effect to its home: at once where that is the issuing core itself (R219) and nothing of the core is on its
way there or at a window, else on the thread's channel to that home (R241). -/
def State.toHome (s : State) (c : CoreId) (serial : Nat) (r : MemReq) (ev : MemReq → Ev) : State :=
  if r.loc.home = .core c && !s.pending.any (fun p => p.chan = .access c serial r.loc.home) && !s.wreqs.any (fun e => e.2.req.core = c) then s.perform { r with asker := .none } |>.performed c (match r.asker with | .effect _ n => n | _ => 0)
  else s.post (.access c serial r.loc.home) (ev r)

/-- Sends the blocks of a store, in ascending order, each with an acknowledgement of its own (R226, R236): to a window, or to the place
of the block. -/
def State.releaseStore (s : State) (c : CoreId) (r : Released) (a : Word) (bs : List Byte) : State :=
  (blocks32 a.toNat bs.length).foldl (fun s b =>
    let n := (s.core c).nextRel
    let x := a + BitVec.ofNat 64 b.1
    let op : MemOp := .store (((bs.drop b.1).take b.2).map some) false
    let out (h : Home) : State :=
      s.addOut c { rel := n, eff := r.eff, serial := r.serial, cls := .memory, home := h, need := 1, sid := r.sid, pages := r.buf.pages,
                   data := true }
    if bitsN a 63 62 = 3 then (out .away).windowSend c r.slot r.sid (.effect c n) x op r.origin r.serial
    else
      match s.placeOf c r.sid r.buf.probes x with
      | some l =>
        (out l.home).toHome c r.serial
          { asker := .effect c n, sid := r.sid, loc := l, addr := x, op := op, origin := some r.origin } .storePerform
      | none => s) s

/-- Releases one effect (R193): a store as its aligned 32-byte blocks in ascending order (R226), an atomic, a `join`
and a queue settle to their homes, a barge and an arrival to their destinations, the rest to the engines. The arrivals of one core at
another keep their order on a channel of their own: they have no priority, and no rule orders them against barges (R146, log 129). -/
def State.releaseOne (s : State) (c : CoreId) (r : Released) : State :=
  let n := (s.core c).nextRel
  let out (h : Home) (cls : Cls) (data : Bool) : Out :=
    { rel := n, eff := r.eff, serial := r.serial, cls := cls, home := h, need := 1, sid := r.sid, pages := r.buf.pages, data := data }
  let t : ThreadId := ⟨c, r.slot⟩
  let req (l : Loc) (a : Word) (op : MemOp) (dep : Option (ThreadId × Nat × BitVec 4)) : MemReq :=
    { asker := .effect c n, sid := r.sid, loc := l, addr := a, op := op, dep := dep, origin := some r.origin }
  let closing (a : Word) (op : MemOp) (d : BitVec 5) (data : Bool) (ev : MemReq → Ev) : State :=
    match s.placeOf c r.sid r.buf.probes a with
    | some l =>
      (s.addOut c (out l.home .memory data)).toHome c r.serial
        (req l a op (if d.toNat ≤ 9 then some (t, d.toNat, r.gen) else none)) ev
    | none => s
  let settle (l : Loc) (a : Word) (op : MemOp) : State :=
    let l := if r.buf.probes = [] then l else (s.placeOf c r.sid r.buf.probes a).getD l
    (s.addOut c (out l.home .memory false)).toHome c r.serial (req l a op none) .queueSettle
  match r.buf.eff with
  | .store a bs => s.releaseStore c r a bs
  | .atom op a x y d => closing a (.atomic op x y) d true .atomicPerform
  | .join a d => closing a .join d false .joinPerform
  | .push a v _ l => settle l a (.pushSettle v)
  | .pop a l => settle l a .popSettle
  | .pushDrop a l => settle l a .pushRelease
  | .popDrop a l => settle l a .popRelease
  | .send b d =>
    let d := match d with
      | .global va =>
        (match s.placeOf c r.sid r.buf.probes (fld 2 62 ||| BitVec.ofNat 64 va) with
         | some l => (match l.home with | .core x => Dest.core x | _ => d)
         | none => d)
      | d => d
    let h := match d with
      | .core x => Home.core x
      | .node _ _ => .away
      | .lock k die => if k = s.node then .lock die else .away
      | .any => .core (s.anyCore c r.sid)
      | .global _ => .away
    (s.addOut c (out h .message false)).sendTo c b d (some n)
  | .count d i p =>
    (match d with
     | .core x =>
       (s.addOut c (out (.core x) .message false)).post (.barge (.core c) x 4)
         (.counterArrival x { idx := i, par := p, src := some c, rel := n })
     | .node k x => (s.addOut c (out .away .message false)).toNet k (some r.sid) (.arrival x i p r.origin n)
     | _ => s)
  | _ => s.releaseEngine c r

/-- The memory effects of a core that are released and not performed (R235): a store counts once, however many blocks it has. -/
def Core.outEffs (k : Core) : Nat := ((k.outs.filter (fun o => o.cls = .memory)).map Out.eff).eraseDups.length

/-- Whether the head of a core's release queue may leave (R193, R235): one a cycle, and 64 effects outstanding. -/
def State.releaseReady (s : State) (c : CoreId) : Bool :=
  let k := s.core c
  k.lastRel ≠ some s.cycle && k.outEffs < 64

/-- Whether a push may be sent (R234): every store and atomic its thread released earlier to homes inside its scope has
been performed. -/
def Core.pushClear (k : Core) (c : CoreId) (serial scope : Nat) : Bool :=
  !k.outs.any (fun o => o.serial = serial && o.data && inScope c scope o.home)

/-- Takes the head off a release queue and releases it; a boundary whose last effect has left ends (R193). -/
def State.releaseHead (s : State) (c : CoreId) : State :=
  let k := s.core c
  match k.relq with
  | [] => s
  | r :: rest =>
    let s := (s.setCore c { k with relq := rest, lastRel := some s.cycle }).releaseOne c r
    let t : ThreadId := ⟨c, r.slot⟩
    match (s.ctx t).status with
    | .running (.release b) => if (s.ctx t).serial = r.serial && !s.releasing t then s.boundaryEnd t b else s
    | _ => s

/-- R193: a committed effect leaves the core; a push waits for PUSH_SEND. -/
def execEffectRelease (s : State) : Res :=
  match s.arg with
  | .effectRelease c =>
    (match (s.core c).relq with
     | r :: _ =>
       (match r.buf.eff with
        | .push _ _ _ _ => .next s
        | _ => if s.releaseReady c then .next (s.releaseHead c) else .next s)
     | [] => .next s)
  | _ => .next s

/-- R234: a committed push at the head is sent once earlier releases inside its scope are performed. -/
def execPushSend (s : State) : Res :=
  match s.arg with
  | .pushSend c =>
    let k := s.core c
    (match k.relq with
     | r :: _ =>
       (match r.buf.eff with
        | .push _ _ sc _ => if s.releaseReady c && k.pushClear c r.serial sc then .next (s.releaseHead c) else .next s
        | _ => .next s)
     | [] => .next s)
  | _ => .next s

/-- The packet of a thread (R136). -/
def State.packetOf (s : State) (t : ThreadId) : Packet :=
  let c := s.ctx t
  { h := c.regs.toList, pw := c.pw ||| 1, fstat := c.fstat, pc := c.pc, sid := c.sid, litBase := c.lit,
    reachlim := c.reachlim, prio := c.prio, ctl := c.ctl, src := c.src, duties := c.duties, origin := s.originOf t }

/-- R244: a committed `migr` ships its packet once every effect the thread released is performed. -/
def execMigrShip (s : State) : Res :=
  match s.arg with
  | .migrShip t =>
    let c := s.ctx t
    (match c.status, c.shipTo with
     | .running .ship, some d =>
       if (s.core t.core).drained c.serial then
         .next ((s.freeCtx t).sendFrom t.core d (.packet (s.packetOf t)) c.prio none)
       else .next s
     | _, _ => .next s)
  | _ => .next s

/-- R245: the last awaited acknowledgement has arrived and the fence retires. -/
def execFenceDone (s : State) : Res :=
  match s.arg with
  | .fenceDone t => .next (s.fenceStep t)
  | _ => .next s

/-- R246: the last awaited perform has arrived and the drain retires. -/
def execDrainDone (s : State) : Res :=
  match s.arg with
  | .drainDone t => .next (s.fenceStep t)
  | _ => .next s

/-! ## Probes (R190) -/

/-- Records a probe's answer. -/
def Ctx.setProbe (c : Ctx) (eff page : Nat) (a : ProbeState) : Ctx :=
  { c with buf := c.buf.mapIdx (fun i b =>
      if i = eff then { b with probes := b.probes.mapIdx (fun j p => if j = page then { p with ans := a } else p) } else b) }

/-- The state of a probe after an answer (R274). -/
def XAns.state : XAns → ProbeState
  | .ok l => .ok l
  | .nack => .bad .pageFault
  | .access => .bad .access

/-- The route of a waiting `send` is translated (R103): its control word is checked then, the barge enters the reach (R107, R108), and
the thread goes on; or it meets the fault. -/
def State.routeAnswer (s : State) (t : ThreadId) (b : Barge) (va : Nat) (a : XAns) : State :=
  let c := s.ctx t
  let w := s.lastWord t
  let at_ : Word := fld 2 62 ||| BitVec.ofNat 64 va
  match a with
  | .nack => s.pageFault t at_ w
  | .access => (s.onCtx t Ctx.back).endThread t .access at_ w
  | .ok l =>
    if !ctlForm s c.sid 1 false b.ctl then (s.onCtx t Ctx.back).stop t ⟨.illegalForm, none⟩ w
    else
      match c.room with
      | .error x => (s.onCtx t Ctx.back).stop t x w
      | .ok _ =>
        s.setCtx t { c with status := .ready, buf := c.buf ++ [⟨.send b (.global va), [{ va := va, acc := .route, ans := .ok l }]⟩] }

/-- R190, R103: a probe's answer is recorded with its effect, for the boundary that waits for it; one past the effects of the reach is
that of the route a `send` waits for. -/
def execProbeAnswer (s : State) : Res :=
  match s.arg with
  | .probeAnswer t n i p a =>
    let c := s.ctx t
    if c.epoch ≠ n || c.status = .free then .next s
    else
      (match c.status with
       | .running (.route b va) =>
         if i = c.buf.length then .next (s.routeAnswer t b va a) else .next (s.setCtx t (c.setProbe i p a.state))
       | _ => .next ((s.setCtx t (c.setProbe i p a.state)).commitStep t))
  | _ => .next s

/-! ## Pre-emption (R197, R198) -/

/-- Whether a boundary waits only for room, before anything is released (R197). -/
def State.waitsForRoom (s : State) (t : ThreadId) : Bool :=
  (s.ctx t).answered && (s.ctx t).badProbe.isNone && !s.commitRoom t

/-- Whether a pending pre-emption takes effect now, and discards (R197, R248): a READY context whose instruction has retired, a fence
or a drain, a boundary that waits for room. -/
def State.preemptNow (s : State) (t : ThreadId) : Bool :=
  let c := s.ctx t
  !c.shield &&
  (match c.status with
   | .ready => decide (c.nextIssue ≤ s.cycle)
   | .running (.fence _) => true
   | .running .drain => true
   | .running (.commit _) => s.waitsForRoom t
   | _ => false)

/-- R197: a pre-emption takes effect at the first allowed point, or stays pending. Where its discard ends in REENTRY_EXHAUSTED, no
instruction has raised that, and h4 is 0 (R205). -/
def execPreemption (s : State) : Res :=
  match s.arg with
  | .preemption t =>
    let c := s.ctx t
    if c.status = .free then .next s
    else if s.preemptNow t then
      .next (s.discard t 0 (fun s => s.onCtx t (fun c =>
        { c with status := .suspended, shield := true, preempted := true, preemptPending := false })))
    else
      (match c.status with
       | .suspended =>
         if c.shield then .next (s.setCtx t { c with preemptPending := !c.preempted })
         else .next (s.setCtx t { c with preempted := true, preemptPending := false })
       | _ => .next (s.setCtx t { c with preemptPending := true }))
  | _ => .next s

/-- R197: a pre-emption ends; the context is READY unless a page fault still holds it. -/
def execPreemptionEnd (s : State) : Res :=
  match s.arg with
  | .preemptionEnd t =>
    let c := { s.ctx t with preemptPending := false, preempted := false }
    .next (s.setCtx t (if c.status = .suspended && !c.faulted then { c with status := .ready } else c))
  | _ => .next s

/-- R276: a resume message reaches the suspended thread or stalled unit, once every effect the resolving thread released
has been performed. -/
def execFaultResume (s : State) : Res :=
  match s.arg with
  | .faultResume d =>
    let owed (e : CoreId × Core) : Bool := e.2.resumes.any (fun r => r.2.contains d && e.2.drained r.1)
    (match s.cores.find? owed with
     | none => .next s
     | some e =>
       let k := { e.2 with resumes := (e.2.resumes.map (fun r =>
         if e.2.drained r.1 then (r.1, r.2.filter (· ≠ d)) else r)).filter (fun r => r.2 ≠ []) }
       let s := s.setCore e.1 k
       (match d with
        | .thread t n =>
          let c := s.ctx t
          if c.serial = n && c.faulted then
            let c := { c with faulted := false }
            .next (s.setCtx t (if c.preempted then c else { c with status := .ready }))
          else .next s
        | d => .next (s.resumeEngine d)))
  | _ => .next s

end Sys2Proof.Machine
end

