-- ==== Sys2Proof/Machine/XlateEv.lean ====
section
/-! DEFINITION. Translation (R265 to R279): stations, walks, shootdowns. -/

namespace Sys2Proof.Machine

open Sys2Proof

/-- A translation station. -/
def State.station (s : State) (n : Nat) : Station := tget s.stations {} n

/-- Sets a station. -/
def State.setStation (s : State) (n : Nat) (x : Station) : State := { s with stations := tput s.stations n x }

/-- The bytes a page of a size code covers (R268): 64 KiB, 64 MiB, 64 GiB. -/
def pageBytes (size : Nat) : Nat := 2 ^ (16 + 10 * size)

/-- Whether a cached entry translates an address. -/
def XEntry.covers (e : XEntry) (sid va : Nat) : Bool :=
  e.sid = sid && e.base ≤ va && va < e.base + pageBytes e.size

/-- The answer a leaf gives an access (R274), from the second row of its table on. -/
def leafAnswer (e : Word) (size va : Nat) (acc : Acc) : XAns :=
  let comp := bitsN e 3 3 = 1
  let write := match acc with | .write => true | .queue => true | _ => false
  let only := match acc with | .queue => true | .route => true | _ => false
  if bitsN e 4 4 = 1 then .access
  else if write && bitsN e 1 1 = 0 then .access
  else if only && comp then .access
  else
    let p := bitsN e 51 12 * 4096 + va % pageBytes size
    .ok (if comp then .comp p else .hbm p)

/-- The form of a valid entry at a level (R269). -/
def entryForm (part : Part) (e : Word) (level : Nat) : Bool :=
  let leaf := bitsN e 2 2 = 1
  let comp := bitsN e 3 3 = 1
  let frame := bitsN e 51 12 * 4096
  bitsN e 11 6 = 0 && bitsN e 63 52 = 0 &&
  (if leaf then
     level ≠ 1 && frame % pageBytes (4 - level) = 0 &&
     decide (frame < (if comp then 2 ^ 48 else 2 ^ (38 + (part.dies - 1)))) &&
     (bitsN e 5 5 = 0 || bitsN e 4 4 = 1)
   else
     level ≠ 4 && bitsN e 1 1 = 0 && !comp && bitsN e 5 4 = 0 && decide (frame < 2 ^ (38 + (part.dies - 1))))

/-- The index a level takes from a virtual address (R268). -/
def levelIndex (va level : Nat) : Nat :=
  match level with
  | 1 => va / 2 ^ 46 % 2048
  | 2 => va / 2 ^ 36 % 1024
  | 3 => va / 2 ^ 26 % 1024
  | _ => va / 2 ^ 16 % 1024

/-- The leaf of a virtual address, by the page tables as they stand and a view of their entries (R268 to R270): the entry, its page size code and
its place. -/
def State.leafBy (s : State) (view : Word → Word) (va : Nat) : Nat → Nat → Nat → Option (Word × Nat × Nat)
  | 0, _, _ => none
  | fuel + 1, level, table =>
    let p := table + 8 * levelIndex va level
    let e : Word := view (BitVec.ofNat 64 (natOf (s.bytes (.hbm p) 8)))
    if bitsN e 0 0 = 0 || !entryForm s.part e level then none
    else if bitsN e 2 2 = 1 then some (e, 4 - level, p)
    else s.leafBy view va fuel (level + 1) (bitsN e 51 12 * 4096)

/-- Where a virtual address of a SID lies: what a lockkeeper reads by. -/
def State.walkVa (s : State) (sid va : Nat) : Option (Word × Nat × Nat) := s.leafBy id va 4 1 (s.job sid).root

/-- A leaf without its quarantine and scrub bits, which software may have set although it must not (R275); other entries as they are. -/
def unscrubbed (e : Word) : Word := if bitsN e 2 2 = 1 then e &&& ~~~(fld 3 4) else e

/-- The HBM frame a virtual address is mapped to, whatever its leaf's quarantine and scrub bits. -/
def State.vaFrame (s : State) (sid va : Nat) : Option Nat :=
  match s.leafBy unscrubbed va 4 1 (s.job sid).root with
  | some (e, size, _) => (match leafAnswer e size va .read with | .ok (.hbm p) => some p | _ => none)
  | none => none

/-- The place of a virtual address, where its leaf lets it be read. -/
def State.vaLoc (s : State) (sid va : Nat) : Option Loc :=
  match s.walkVa sid va with
  | some (e, size, _) => (match leafAnswer e size va .read with | .ok l => some l | _ => none)
  | none => none

/-- The address and the operation a thread's wait asks for at its home (R222, R231), if it is still the one that asked. -/
def Ctx.asked (c : Ctx) (w : Await) (piece : Nat) : Option (Word × MemOp) :=
  match c.awaiting w with
  | none => none
  | some l =>
    match l.kind with
    | .push _ _ _ => some (l.addr, .pushReserve)
    | .pop _ _ _ => some (l.addr, .popReserve)
    | _ => (l.pieces[piece]?).map (fun p => (p.addr, .load p.len))

/-- The translation of a counter's route is answered (R145): its barge is checked and sent, or its setter's edge hears of it. -/
def State.fireAnswer (s : State) (c : CoreId) (num : Nat) (a : XAns) : State :=
  let k := s.core c
  match k.fired.find? (fun e => e.num = num) with
  | none => s
  | some e =>
    let s := s.setCore c { k with fired := k.fired.filter (fun x => x.num ≠ num) }
    let fault (x : Cause) : State := s.counterFault e.barge.origin x (some e.off)
    match a with
    | .ok l =>
      (match l.home with
       | .core d => if ctlForm s e.barge.sid 1 false e.barge.ctl then s.sendTo c e.barge (.core d) none else fault .illegalForm
       | _ => s)
    | .nack => fault .pageFault
    | .access => fault .access

/-- Sends a translated request on, or its failure back, to whoever asked (R274). -/
def State.xlateAnswer (s : State) (r : XReq) (a : XAns) : State :=
  let wait (t : ThreadId) (w : Await) (i : Nat) (ev : MemReq → Ev) : State :=
    match a, (s.ctx t).asked w i with
    | .ok l, some (addr, op) =>
      s.post (accessChan t (s.ctx t).serial l.home) (ev { asker := r.asker, sid := r.sid, loc := l, addr := addr, op := op })
    | .ok _, none => s
    | .nack, _ => s.post .none (.loadReply t w i .nack)
    | .access, _ => s.post .none (.loadReply t w i (.fault .access))
  match r.asker with
  | .load t w i => wait t w i .loadPerform
  | .reserve t w => wait t w 0 .queueReserve
  | .probe t n e p => s.post .none (.probeAnswer t n e p a)
  | .route t n => s.post .none (.probeAnswer t n (s.ctx t).buf.length 0 a)
  | .counter c n => s.fireAnswer c n a
  | _ => s.xlateEngine r a

/-- The bits below which the level a walk reads next may map addresses as one page (R268); level 1 maps none, and is taken with
level 2. -/
def Walk.span (w : Walk) : Nat := 16 + 10 * (4 - max 2 w.level)

/-- Whether a miss belongs to a walk (R271): it may be to the page the walk is for. -/
def Walk.shares (w : Walk) (sid va : Nat) : Bool := w.sid = sid && w.va / 2 ^ w.span = va / 2 ^ w.span

/-- Starts a walk, or lets a request wait in the miss table, or answers it with a retry (R271, R272). -/
def State.miss (s : State) (n : Nat) (r : XReq) : State :=
  let st := s.station n
  match st.walks.find? (fun w => w.shares r.sid r.va) with
  | some x =>
    s.setStation n { st with walks := st.walks.map (fun w => if w.id = x.id then { w with waiters := w.waiters ++ [r] } else w) }
  | none =>
  if st.walks.length < 64 then
    s.setStation n { st with walks := st.walks ++ [⟨st.nextId, r.sid, r.va, 1, (s.job r.sid).root, [r]⟩],
                             nextId := st.nextId + 1, misses := st.misses + 1 }
  else if st.waitq.length < 1024 then s.setStation n { st with waitq := st.waitq ++ [r] }
  else (s.setStation n { st with retries := st.retries + 1 }).post .none (.missRetry n r) 64

/-- A station takes a request: a hit is answered at once, whatever misses are outstanding (R272). -/
def State.translate (s : State) (n : Nat) (r : XReq) : State :=
  match (s.station n).cache.find? (fun e => e.covers r.sid r.va) with
  | some e => s.xlateAnswer r (leafAnswer e.entry e.size r.va r.acc)
  | none => s.miss n r

/-- R271: a station takes a translation request. -/
def execTranslation (s : State) : Res :=
  match s.arg with
  | .translation n r => .next (s.translate n r)
  | _ => .next s

/-- R272: a miss answered with a retry is reissued. -/
def execMissRetry (s : State) : Res :=
  match s.arg with
  | .missRetry n r => .next (s.translate n r)
  | _ => .next s

/-- Takes the misses that wait for a walk, in order (R272): each is answered, joins a walk, starts one, or waits on. -/
def State.takeWaiting (s : State) (n : Nat) : State :=
  (s.station n).waitq.foldl (fun s r => s.translate n r) (s.setStation n { s.station n with waitq := [] })

/-- A walk ends with a result for its waiters; waiting misses take its place (R272). -/
def State.walkEnd (s : State) (n : Nat) (w : Walk) (f : State → XReq → State) : State :=
  let st := s.station n
  (w.waiters.foldl f (s.setStation n { st with walks := st.walks.filter (fun x => x.id ≠ w.id) })).takeWaiting n

/-- A walk goes on to the next level, whose entries map smaller pages: misses outside the page that it now may end in are taken anew
(R271). -/
def State.walkOn (s : State) (n : Nat) (w : Walk) (table : Nat) : State :=
  let st := s.station n
  let x := { w with level := w.level + 1, table := table }
  let s := s.setStation n { st with walks := st.walks.map (fun y =>
    if y.id = w.id then { x with waiters := w.waiters.filter (fun r => x.shares r.sid r.va) } else y) }
  (w.waiters.filter (fun r => !x.shares r.sid r.va)).foldl (fun s r => s.translate n r) s

/-- R270: a walk reads the entry of its next level at its home. Its end answers the translation: NACK for an invalid or
malformed entry, else by the leaf, which is cached. An uncorrectable entry is an error not pinned to a unit (R463). -/
def execPageWalk (s : State) : Res :=
  match s.arg with
  | .pageWalk n id =>
    (match (s.station n).walks.find? (fun w => w.id = id) with
     | none => .next s
     | some w =>
       let l : Loc := .hbm (w.table + 8 * levelIndex w.va w.level)
       if s.poisoned l 8 then
         .next ((s.walkEnd n w (fun s _ => s)).post .none (.unpinnedError (n / 32) (.carries w.sid) (some l.key)))
       else
         let e : Word := BitVec.ofNat 64 (natOf (s.bytes l 8))
         if bitsN e 0 0 = 0 || !entryForm s.part e w.level then .next (s.walkEnd n w (fun s r => s.xlateAnswer r .nack))
         else if bitsN e 2 2 = 1 then
           let size := 4 - w.level
           let st := s.station n
           let x : XEntry := ⟨w.sid, w.va / pageBytes size * pageBytes size, size, e⟩
           let cache := (if 4096 ≤ st.cache.length then st.cache.drop 1 else st.cache) ++ [x]
           .next ((s.setStation n { st with cache := cache }).walkEnd n w
             (fun s r => s.xlateAnswer r (leafAnswer e size r.va r.acc)))
         else .next (s.walkOn n w (bitsN e 51 12 * 4096)))
  | _ => .next s

/-! ## Shootdown (R278, R279) -/

/-- Stations of a die (R5). -/
def stationsOf (die : Nat) : List Nat := (List.range 32).map (fun i => 32 * die + i)

/-- The dies that hold a hive of a SID. -/
def State.diesOf (s : State) (sid : Nat) : List Nat :=
  [0, 1].filter (fun d => (s.job sid).hives.any (fun h => h.die = d))

/-- Whether a page of 64 KiB lies among the pages a shootdown names. -/
def shotPage (all : Bool) (va size page64 : Nat) : Bool :=
  all || page64 * 65536 / pageBytes size = va / pageBytes size

/-- The page a probe's answer is about: that of a buffered effect, or of the route a `send` waits for. -/
def Ctx.probeOf (c : Ctx) (eff page : Nat) : Option Probe :=
  match c.buf[eff]?, c.status with
  | some b, _ => b.probes[page]?
  | none, .running (.route _ va) => some { va := va, acc := .route }
  | none, _ => none

/-- An answer of a probe that is on its way becomes the question again where it was found with an entry the shootdown drops (R279). -/
def State.reprobe (s : State) (sid : Nat) (gone : Nat → Bool) (p : Pend) : Pend :=
  match p.ev with
  | .probeAnswer t n i j _ =>
    let c := s.ctx t
    (match c.probeOf i j with
     | some q =>
       if c.sid = sid && c.epoch = n && gone q.va then
         let ask : Asker := match c.buf[i]? with | some _ => .probe t n i j | none => .route t n
         ⟨.none, s.cycle, .translation (stationOf t.core) ⟨ask, sid, q.va, q.acc⟩⟩
       else p
     | none => p)
  | _ => p

/-- Recorded answers of probes become stale, and are asked again (R279). -/
def State.restale (s : State) (sid : Nat) (gone : Nat → Bool) : State :=
  s.ctxs.foldl (fun s e =>
    let old := e.2.buf
    let new := old.map (fun b => { b with probes := b.probes.map (fun p =>
      if p.ans ≠ .waiting && gone p.va then { p with ans := .waiting } else p) })
    if e.2.sid ≠ sid || e.2.status = .free then s
    else
      (List.range old.length).foldl (fun s i =>
        match old[i]? with
        | some b =>
          (List.range b.probes.length).foldl (fun s j =>
            match b.probes[j]? with
            | some p =>
              if p.ans ≠ .waiting && gone p.va then
                s.post .none (.translation (stationOf e.1.core) ⟨.probe e.1 e.2.epoch i j, sid, p.va, p.acc⟩)
              else s
            | none => s) s
        | none => s) (s.setCtx e.1 { e.2 with buf := new })) s

/-- Accesses that are translated and have not been sent are translated again (R279): those of memory nodes, of windows and of remote
operations, which wait for others before them. -/
def State.retranslate (s : State) (sid : Nat) (gone : Nat → Bool) : State :=
  let s := s.planes.foldl (fun s e =>
    match (e.2.inst.bind s.inst).map Inst.sid with
    | some k =>
      if k ≠ sid then s
      else
        e.2.accs.foldl (fun s a =>
          match a.st with
          | .ready _ =>
            if bitsN a.addr 63 62 = 2 && gone (bitsN a.addr 56 0) then
              (s.onPlane e.1 (fun p => { p with accs := p.accs.map (fun b => if b.seq = a.seq then { b with st := .asked } else b) })).post
                .none (.translation (stationOf e.1.elem.tile.core)
                  ⟨.rule ⟨e.1, a.slot⟩ a.seq, sid, bitsN a.addr 56 0, match a.op with | .load _ => .read | _ => .write⟩)
            else s
          | _ => s) s
    | none => s) s
  let s := s.winReqs.foldl (fun s e =>
    let r := e.2.req
    let id := winId r.addr
    let va := (s.win r.sid id).base + r.off
    if r.sid = sid && !e.2.sent && e.2.loc.isSome && gone va then
      { s with winReqs := tput s.winReqs e.1 { e.2 with loc := none } }.post .none
        (.translation (stationOf (winHome id)) ⟨.window e.1, sid, va, match r.op with | .load _ => .read | _ => .write⟩)
    else s) s
  s.rslots.foldl (fun s e =>
    if e.2.sid ≠ sid then s
    else
      e.2.fly.foldl (fun s p =>
        p.locs.foldl (fun s x =>
          let b := e.2.block (pieceKey p.idx x.1)
          if bitsN b.1 63 62 = 2 && gone (bitsN b.1 56 0) then
            (s.onPiece e.1.1 e.1.2 p.idx (fun p => { p with locs := p.locs.filter (fun y => y.1 ≠ x.1) })).post .none
              (.translation (stationOf e.1.1)
                ⟨.piece e.1.1 e.1.2 (pieceKey p.idx x.1), sid, bitsN b.1 56 0, if b.2.2 then .write else .read⟩)
          else s) s) s) s

/-- Steps 1 to 3 of R279 for pages of a SID: cached entries go, walks start again, probe answers that have not been
committed become stale and are asked again, and so are translations no access has been released with. What was released with the old
translation is noted (step 4). -/
def State.shoot (s : State) (sid : Nat) (va : Word) (size : Nat) (all host : Bool) : State :=
  let v := bitsN va 56 0
  let gone (x : Nat) : Bool := shotPage all v size (x / 65536)
  let hit (e : XEntry) : Bool :=
    e.sid = sid && (all || (e.base < (v / pageBytes size + 1) * pageBytes size && v / pageBytes size * pageBytes size < e.base + pageBytes e.size))
  let waits := s.cores.flatMap (fun e =>
    ((e.2.outs.filter (fun o => o.sid = sid && o.pages.any (shotPage all v size))).map (fun o => (e.1, o.eff))) ++
    ((e.2.relq.filter (fun r => r.sid = sid && r.buf.pages.any (shotPage all v size))).map (fun r => (e.1, r.eff))))
  let s := (s.diesOf sid).foldl (fun s d => (stationsOf d).foldl (fun s n =>
    let st := s.station n
    if st.cache = [] && st.walks = [] then s
    else
      s.setStation n { st with
        cache := st.cache.filter (fun e => !hit e),
        walks := st.walks.map (fun w =>
          let n := max w.span (16 + 10 * size)
          if w.sid = sid && (all || w.va / 2 ^ n = v / 2 ^ n) then { w with level := 1, table := (s.job sid).root } else w) }) s) s
  let s := { s with pending := s.pending.map (s.reprobe sid gone) }
  let s := (s.restale sid gone).retranslate sid gone
  let id := s.nextSerial
  { s with shoots := tput s.shoots id ⟨sid, va, all, size, waits, host, s.cycle⟩, nextSerial := id + 1 }

/-- Whether an in-flight step accesses memory with a translation of a SID made before a cycle. -/
def State.oldAccess (s : State) (p : Pend) (sid cycle : Nat) : Bool :=
  p.due ≤ cycle &&
  (match p.ev with
   | .loadPerform r => r.sid = sid
   | .storePerform r => r.sid = sid
   | .atomicPerform r => r.sid = sid
   | .joinPerform r => r.sid = sid
   | .queueReserve r => r.sid = sid
   | .queueSettle r => r.sid = sid
   | .ratomPerform n => (match tfind s.winReqs n with | some u => u.req.sid = sid | none => false)
   | _ => false)

/-- Whether step 4 of R279 has ended: what was released with the old translation is performed. -/
def State.shotReady (s : State) (x : Shoot) : Bool :=
  x.waits.all (fun w =>
    !(s.core w.1).outs.any (fun o => o.eff = w.2) && !(s.core w.1).relq.any (fun r => r.eff = w.2)) &&
  !s.pending.any (fun p => s.oldAccess p x.sid x.born)

end Sys2Proof.Machine
end

