-- ==== Sys2Proof/Machine/ThreadEv.lean ====
section
/-! DEFINITION. The two steps a fetch can end in without an instruction (R37, R44, R51). -/

namespace Sys2Proof.Machine

open Sys2Proof

/-- R44, R51: the current thread's word has no opcode valid in a thread. -/
def execIllegalOp (s : State) : Res :=
  match s.arg with
  | .illegalOp w => .next (s.stop s.curT ⟨.illegalOp, none⟩ w)
  | _ => .next s

/-- R37: the current thread fetches where its handler has no code. -/
def execFetchBounds (s : State) : Res :=
  .next (s.endThread s.curT .bounds (s.ctx s.curT).pc 0)

end Sys2Proof.Machine
end

