-- ==== Sys2Proof/Machine/RemoteEv.lean ====
section
/-! DEFINITION. Remote attempts: answers, resends, giving up, the exactly-once table (R427, R432 to R434). -/

namespace Sys2Proof.Machine

open Sys2Proof

/-- The asker takes the end of an operation at a window (R427, R433): a handler store that failed is reported, and is then
performed; the others take their answer. -/
def State.winEnd (s : State) (a : WinAttempt) (x : Ans) : State :=
  match a.req.asker, x with
  | .effect c rel, .fault e => (s.report a.origin e 7 a.req.addr).performed c rel
  | ask, x => s.answerTo ask x

/-- Records the resends of a piece for its completion (R435). -/
def State.noteRetries (s : State) (r : WinReq) : State :=
  match r.asker with
  | .piece c n _ => s.onRop c n (fun o => { o with retries := max o.retries r.attempt })
  | _ => s

/-- Whether an operation is a handler's or an element's window store (R434). -/
def WinReq.store (r : WinReq) : Bool := r.once && (match r.op with | .store _ _ => true | _ => false)

/-- An attempt has ended without an answer (R433): it is resent, with later unanswered stores to that node after it (R434), or
the operation gives up with LINK_TIMEOUT, and reports once. Later unanswered loads of a store's thread or rule are sent again behind it
too, and their earlier answers count no more: so the order of R241 and R249 holds for windows (R434, log 130). -/
def State.winRetry (s : State) (key : CoreId × Nat × Nat) : State :=
  match tfind s.wreqs key with
  | none => s
  | some a =>
    let k := a.req.attempt + 1
    let s := s.noteRetries { a.req with attempt := if k ≤ a.nretry then k else a.req.attempt }
    if a.nretry < k then
      let s := { s with wreqs := tdel s.wreqs key }
      let s := match a.req.asker with | .piece _ _ _ => s.report a.origin .linkTimeout 7 a.req.addr | _ => s
      s.winEnd a (.fault .linkTimeout)
    else
      let r := { a.req with attempt := k }
      let later (x : WinAttempt) : Bool :=
        a.num < x.num && bitsN x.req.addr 61 41 = bitsN r.addr 61 41 && x.req.core = r.core && a.req.store &&
        (x.req.store || x.req.sameAgent r)
      let again (x : WinAttempt) : WinAttempt :=
        if later x && !x.req.store then { x with req := { x.req with copy := x.req.copy + 1 } } else x
      let t := (tput s.wreqs key { a with req := r, due := s.cycle + a.rtimeout * 2 ^ min k 8 }).map (fun e => (e.1, again e.2))
      let resend := (t.filter (fun e => later e.2)).map (fun e => e.2.req)
      (r :: resend).foldl State.winAttempt { s with wreqs := t }

/-- R433, R434: an answer reaches the requester. One to an operation that has been answered, or to a load that has been sent again
behind a store, is discarded; BUSY ends the attempt; another ends the operation, and a release follows where it is performed once. -/
def execRemoteAnswer (s : State) : Res :=
  match s.arg with
  | .remoteAnswer r x =>
    let key := (r.core, r.slot, r.seq)
    (match tfind s.wreqs key with
     | none => .next s
     | some a =>
       if a.req.asker ≠ r.asker || a.req.copy ≠ r.copy then .next s
       else
         match x with
         | .refused => if a.req.attempt = r.attempt then .next (s.winRetry key) else .next s
         | x =>
           let s := { s with wreqs := tdel s.wreqs key }
           let node := bitsN r.addr 61 41
           let s :=
             if !r.once then s
             else if node = s.node then s.post .none (.requestIdRelease s.node r.core r.slot r.seq)
             else s.toNet node (some r.sid) (.release s.node r.core r.slot r.seq)
           .next (s.winEnd a x))
  | _ => .next s

/-- R433: an attempt's answer has not come in its time. -/
def execRemoteAttemptTimeout (s : State) : Res :=
  match s.arg with
  | .remoteAttemptTimeout c slot seq _ k =>
    (match tfind s.wreqs (c, slot, seq) with
     | some a => if a.req.attempt = k && a.due ≤ s.cycle then .next (s.winRetry (c, slot, seq)) else .next s
     | none => .next s)
  | _ => .next s

/-- R432: a window's home performs a `ratom`, and answers with the old value. -/
def execRatomPerform (s : State) : Res :=
  match s.arg with
  | .ratomPerform n =>
    (match tfind s.winReqs n with
     | some u =>
       (match u.loc with
        | some l => .next (s.perform { asker := .window n, sid := u.req.sid, loc := l, addr := u.req.addr, op := u.req.op })
        | none => .next s)
     | none => .next s)
  | _ => .next s

/-- Frees an entry of the exactly-once table. -/
def State.onceFree (s : State) (node : Nat) (c : CoreId) (slot seq : Nat) : State :=
  { s with once := s.once.filter (fun e => !(e.req.node = node && e.req.core = c && e.req.slot = slot && e.req.seq = seq)) }

/-- R434: the requester's release arrives. -/
def execRequestIdRelease (s : State) : Res :=
  match s.arg with
  | .requestIdRelease node c slot seq => .next (s.onceFree node c slot seq)
  | _ => .next s

/-- R434: 2^30 cycles after the first arrival an entry is freed. -/
def execRequestIdExpiry (s : State) : Res :=
  match s.arg with
  | .requestIdExpiry node c slot seq =>
    if s.once.any (fun e => e.req.node = node && e.req.core = c && e.req.slot = slot && e.req.seq = seq && e.born + 2 ^ 30 ≤ s.cycle)
    then .next (s.onceFree node c slot seq) else .next s
  | _ => .next s

end Sys2Proof.Machine
end

