-- ==== Sys2Proof/Machine/Trust.lean ====
section
/-! DEFINITION. Attestation (R455 to R460), the plans of collective groups (R450, R452), `cjoin` and `cstat`. -/

namespace Sys2Proof.Machine

open Sys2Proof

/-! ## Switches (R456, R458, R460) -/

def State.switch (s : State) (p : Nat) : Switch := tget s.switches {} p
def State.setSwitch (s : State) (p : Nat) (x : Switch) : State := { s with switches := tput s.switches p x }

/-- Measurements that match a policy (R458). -/
def Policy.admits (p : Policy) (m : List (Nat × BitVec 384)) : Bool :=
  p.entries.all (fun e => m.any (fun x => x.1 = e.1)) &&
  m.all (fun x => !p.entries.any (fun e => e.1 = x.1) || p.entries.any (fun e => e = x))

/-- A plane's switch counts as measured for a job (R456). -/
def State.measured (s : State) (sid p : Nat) : Bool :=
  s.linkUp p && (s.switch p).passed && (s.job sid).policy.admits (s.switch p).measured

/-- The kind of a management message: SPDM in the clear 0, in a session 1, Kelmel's own 2 (R459, log 145). -/
def MgmtBody.kind : MgmtBody → Nat
  | .spdm step => if step = 12 then 1 else 0
  | .refuse _ => 0
  | .lms _ _ => 2
  | _ => 1

/-- The number `Config.mgmtLen` knows a management message by. -/
def MgmtBody.code : MgmtBody → Nat
  | .spdm step => step
  | .refuse step => 16 + step
  | .lms which _ => 32 + which
  | .install _ _ => 48
  | .remove _ => 49
  | .register _ _ => 50

/-- The head of a management message on a link (R459): 1 to 4,096 bytes. -/
def MgmtBody.head (b : MgmtBody) (link : Nat) : MgmtHead :=
  ⟨1 + Config.mgmtLen b.code % 4096, b.kind, Config.mgmtSlot link % 8⟩

/-- The flits of a management message (R459): 28 bytes in the first, 32 in each that follows. -/
def MgmtHead.flits (h : MgmtHead) : Nat := 1 + (h.len - 28 + 31) / 32

/-- Sends a management message over a link: the flits of its class wait for no data (R456, R459). -/
def State.mgmt (s : State) (n : Nat) (b : MgmtBody) : State := s.linkGive n (.mgmt (b.head n) b) (b.head n).flits

/-- Cycles of 100 ms (R13, R456). -/
def spdmWait : Nat := 125000000

/-- Sends the request of a step of R456: an LMS exchange names its transcript and carries its digest (R457). -/
def State.spdmAsk (s : State) (p step tries : Nat) : State :=
  let w := { s.switch p with step := step, tries := tries, due := s.cycle + spdmWait }
  (s.setSwitch p w).mgmt p (if step = 7 then .lms 0 w.td else if step = 9 then .lms 1 w.td else .spdm step)

/-- Attestation begins when an in-rack link goes UP (R456). -/
def State.attest (s : State) (p : Nat) : State := (s.setSwitch p {}).spdmAsk p 1 0

/-- The owner is told that a switch is refused (R456). -/
def State.switchRefused (s : State) (p reason : Nat) : State := s.eventOwner (linkDie p) 0x00F [fld p 0 ||| fld reason 8]

/-- A step fails: the switch is refused (R456). -/
def State.refuseSwitch (s : State) (p reason : Nat) : State :=
  (s.setSwitch p { s.switch p with step := 0, passed := false, reason := reason }).switchRefused p reason

/-- Switches that passed but match no policy are reported with reason 7 (R456, R458, log 142). -/
def State.policyRefuses (s : State) (l : List Policy) (p : Nat) : State :=
  if (s.switch p).passed && l.any (fun x => !x.admits (s.switch p).measured) then s.switchRefused p 7 else s

/-! ## The owner's path (R483) -/

/-- Whether the owner's path is UP (R483): link 24 for the companion; for a fabric manager its plane's link and the session there. -/
def State.pathUp (s : State) : Bool :=
  if s.ctl.owner = 1 then s.linkUp 24 else if s.ctl.owner = 3 then s.linkUp s.ctl.plane && (s.switch s.ctl.plane).passed else true

/-- Notes since when the owner's path has been DOWN. -/
def State.timePath (s : State) : State :=
  if s.pathUp then s.onCtl (fun c => { c with lostAt := none })
  else s.onCtl (fun c => { c with lostAt := c.lostAt.or (some s.cycle) })

/-! ## Plans (R450, R452) -/

/-- The node of every rank, once each. -/
def Group.nodes (g : Group) : List Nat := (g.table.map Prod.fst).eraseDups

/-- Planes whose link is UP on every rank's device (R450). -/
def State.usablePlanes (s : State) (g : Group) : List Nat :=
  (List.range 18).filter (fun p => g.nodes.all (fun n => if n = s.node then s.linkUp p else Config.peerPlane n p s.cycle))

/-- Planes whose switch combines (R450): all ranks in one rack, not all here, the plane measured on every rank's device. -/
def State.switchPlanes (s : State) (sid : Nat) (g : Group) : List Nat :=
  if g.nodes.all (· = s.node) || !g.rack then []
  else
    (s.usablePlanes g).filter (fun p => !g.refused.contains p &&
      g.nodes.all (fun n => if n = s.node then s.measured sid p else Config.peerTrust n p sid s.cycle))

/-- Registers a group at a plane's switch, the job's key ahead of its first one (R450, R460). -/
def State.registerAt (s : State) (sid group p : Nat) : State :=
  let w := s.switch p
  if w.groups.contains (sid, group) then s
  else
    let s := if w.groups.any (fun x => x.1 = sid) then s else s.mgmt p (.install sid (s.job sid).key)
    (s.setSwitch p { w with groups := w.groups ++ [(sid, group)] }).mgmt p (.register sid group)

/-- Registers a group at the switches of a plan. The answer has the planes whose installation is not yet acknowledged (R460). -/
def State.register (s : State) (sid group : Nat) (ps : List Nat) : State × List Nat :=
  (ps.foldl (fun s p => s.registerAt sid group p) s, ps.filter (fun p => !(s.switch p).keys.contains sid))

/-- Sets the plan of a bound group again, and sends what has no result under it (R452). -/
def State.replanGroup (s : State) (k : Nat × Nat × Nat) : State :=
  match tfind s.groups k with
  | some g =>
    if g.st ≠ 3 then s
    else
      let g' := { g with usable := s.usablePlanes g, switches := s.switchPlanes k.1 g }
      let s := (s.register k.1 k.2.1 g'.switches).1
      ({ s with groups := tput s.groups k g' }.replane k.1 k.2.1 g').collResend g.inst g.node
  | none => s

/-- Sets the plan of each bound group again that another rank's device no longer allows (R452): a link of its, or its trust in a
switch, has changed. -/
def State.replanPeers (s : State) : State :=
  s.groups.foldl (fun s e =>
    if e.2.st = 3 && (s.usablePlanes e.2 ≠ e.2.usable || s.switchPlanes e.1.1 e.2 ≠ e.2.switches) then s.replanGroup e.1 else s) s

/-- Sets the plans of every bound group again, where a plane of theirs changed (R452). -/
def State.replan (s : State) (p : Nat) : State :=
  s.groups.foldl (fun s e => if e.2.usable.contains p || (s.usablePlanes e.2).contains p then s.replanGroup e.1 else s) s

/-- The highest version both ends have (R455), as ten times its number. -/
def SpdmMsg.version (m : SpdmMsg) : Option Nat :=
  if m.versions.contains 13 then some 13 else if m.versions.contains 12 then some 12 else none

/-- The reason a peer's message is refused for, 0 for none (R454 to R457): no common version, a capability or an algorithm missing, a
chain that does not verify or ends at no trust anchor of the device's policy (log 142), a signature that verifies over another transcript
than the one this end has, or none. `td` is the digest of the transcript an LMS exchange is about. -/
def State.spdmReason (s : State) (td : BitVec 384) (m : SpdmMsg) : Nat :=
  match m.step with
  | 1 => if m.version.isSome then 0 else 1
  | 2 => if [SpdmCap.cert, .chal, .measSig, .keyEx, .encrypt, .mac].all m.caps.contains then 0 else 2
  | 3 => if [SpdmAlg.ecdsaP384, .sha384, .ecdheP384, .aes256gcm, .dmtfMeas].all m.algs.contains then 0 else 3
  | 5 => if m.chain && s.policy.anchors.contains m.anchor then 0 else 4
  | 6 => if m.ecdsa = some m.transcript then 0 else 5
  | 7 => if m.lms = some td then 0 else 6
  | 8 => if m.ecdsa = some m.transcript then 0 else 5
  | 9 => if m.lms = some td then 0 else 6
  | 10 => if m.ecdsa = some m.transcript then 0 else 5
  | _ => 0

/-- What a device keeps of a message of a switch: the version, the transcript an LMS exchange follows for, the measurements. -/
def Switch.learn (w : Switch) (m : SpdmMsg) : Switch :=
  match m.step with
  | 1 => { w with version := m.version.getD 0 }
  | 6 => { w with td := m.transcript }
  | 8 => { w with td := m.transcript, measured := m.measured }
  | _ => w

/-- The policies a switch is judged by when its attestation ends: that of the device, and those of the jobs that run (R458, log 142). -/
def State.policies (s : State) : List Policy := s.policy :: s.jobs.map (fun e => e.2.policy)

/-- A switch's session ends while its link stays UP (R452, log 146): its keys and groups go, and plans are set again. -/
def State.endSession (s : State) (p : Nat) : State := ((s.setSwitch p {}).replan p).timePath

/-- A switch's message (R456): the next step, the end of attestation, a refusal, or the end of its session. -/
def State.spdmJudge (s : State) (m : SpdmMsg) : State :=
  let w := s.switch m.plane
  if 18 ≤ m.plane then s
  else if m.step = 12 then (if w.passed then s.endSession m.plane else s)
  else if w.step = 0 || w.step ≠ m.step then s
  else if s.spdmReason w.td m ≠ 0 then s.refuseSwitch m.plane (s.spdmReason w.td m)
  else
    let w := w.learn m
    let s := s.setSwitch m.plane w
    if m.step < 11 then s.spdmAsk m.plane (m.step + 1) 0
    else (((s.setSwitch m.plane { w with step := 0, passed := true }).policyRefuses s.policies m.plane).replan m.plane).timePath

/-- R456: a switch's response arrives in management flits (R459). -/
def execSpdmResponse (s : State) : Res :=
  match s.arg with
  | .spdmResponse m rx => .next (s.managed rx (fun s => s.spdmJudge m))
  | _ => .next s

/-- R456: no response in 100 ms: sent again, up to three times, then refused with reason timeout. -/
def execSpdmTimeout (s : State) : Res :=
  match s.arg with
  | .spdmTimeout p =>
    let w := s.switch p
    if w.step = 0 || s.cycle < w.due then .next s
    else if w.tries < 3 then .next (s.spdmAsk p w.step (w.tries + 1))
    else .next (s.refuseSwitch p 8)
  | _ => .next s

/-- The step a requester's session has reached after a request of R455, none where the request is refused: GET_VERSION begins, capabilities and
algorithms follow in order, then KEY_EXCHANGE and FINISH; the others come between (log 147). A lockkeeper proves itself at FINISH as this one
does (mutual authentication). -/
def State.sessionStep (s : State) (node at_ : Nat) (m : SpdmMsg) : Option Nat :=
  let auth : Bool := node = s.node || (m.chain && s.policy.anchors.contains m.anchor && m.ecdsa = some m.transcript)
  match m.step with
  | 1 => some 1
  | 2 => if at_ = 1 && s.spdmReason 0 m = 0 then some 2 else none
  | 3 => if at_ = 2 && s.spdmReason 0 m = 0 then some 3 else none
  | 10 => if 3 ≤ at_ then some 10 else none
  | 11 => if at_ = 10 && auth then some 11 else none
  | 12 => if at_ = 11 then some 0 else none
  | c => if 3 ≤ at_ && c ≤ 8 && c ≠ 7 then some at_ else none

/-- A request of the companion (node this one) or of another lockkeeper is answered (R455): FINISH opens a session, END_SESSION ends it, and what
comes out of order or is not supported fails. -/
def State.spdmServe (s : State) (node : Nat) (m : SpdmMsg) : State :=
  let link := if node = s.node then 24 else (s.hop node).getD 24
  match s.sessionStep node (tget s.spdm 0 node) m with
  | none => ({ s with spdm := tdel s.spdm node } : State).mgmt link (.refuse m.step)
  | some k =>
    let open_ := s.sessions.filter (· ≠ node)
    let s : State := { s with spdm := tput s.spdm node k }
    let s : State := if m.step = 11 then { s with sessions := open_ ++ [node] } else if m.step = 12 then { s with sessions := open_ } else s
    s.mgmt link (.spdm m.step)

/-- R455: a request arrives in management flits. -/
def execSpdmRequest (s : State) : Res :=
  match s.arg with
  | .spdmRequest node m rx => .next (s.managed rx (fun s => s.spdmServe node m))
  | _ => .next s

/-- The record of a policy (R458): none where it is malformed. -/
def Policy.read (l : List Byte) : Option Policy :=
  let a := recN l 8 2
  let e := recN l 10 2
  let es := (List.range e).map (fun i => (l.drop (0x40 + 48 * a + 64 * i)).take 64)
  if recN l 0 4 = 0x504F4C59 && recN l 4 2 = 1 && recN l 6 2 = 0 && 1 ≤ a && a ≤ 16 && e ≤ 256 && recN l 12 4 = 0 &&
     ((l.drop 0x10).take 48).all (· = 0) && l.length = 0x40 + 48 * a + 64 * e &&
     es.all (fun x => 1 ≤ recN x 0 1 && recN x 0 1 ≤ 254 && ((x.drop 1).take 15).all (· = 0)) then
    some { anchors := (List.range a).map (fun i => BitVec.ofNat 384 (recN l (0x40 + 48 * i) 48)),
           entries := es.map (fun x => (recN x 0 1, BitVec.ofNat 384 (recN x 16 48))) }
  else none

/-- The longest record of R458. -/
def policyMax : Nat := 0x40 + 48 * 16 + 64 * 256

/-- R458: sets the policy of the jobs launched after it. -/
def execPolicy (s : State) : Res :=
  match s.arg with
  | .policy _ a n =>
    .next (s.byLock 0 (fun s =>
      let p := if a.toNat % 64 = 0 && bitsN a 63 52 = 0 && n.toNat ≤ policyMax then Policy.read (s.bytes (.comp a.toNat) n.toNat) else none
      match p with
      | some p => ((List.range 18).foldl (fun (s : State) n => s.policyRefuses [p] n) ({ s with policy := p } : State)).hostNext
      | none => (s.eventOwner 0 0x002 [refusedWord .illegalForm 3]).hostNext))
  | _ => .next s

/-! ## cjoin (R448 to R451) -/

/-- The fields of a group record (R448), as words. -/
def cGroup (w : List Word) : Nat := bitsN (w.getD 0 0) 15 0
def cN (w : List Word) : Nat := bitsN (w.getD 0 0) 31 16
def cRank (w : List Word) : Nat := bitsN (w.getD 0 0) 47 32
def cPlace (w : List Word) : Word := BitVec.ofNat 64 (bitsN (w.getD 1 0) 22 0)
def cTable (w : List Word) : Word := w.getD 2 0
def cTag (w : List Word) : Nat := bitsN (w.getD 3 0) 39 0
def cKeyNode (w : List Word) : Nat := bitsN (w.getD 4 0) 31 0

/-- The limits of R448 (log 35: ILLEGAL_FORM for each). -/
def cjoinForm (w : List Word) : Bool :=
  cGroup w < 4096 && 1 ≤ cN w && cN w ≤ 4096 && cRank w < cN w && bitsN (w.getD 0 0) 63 48 = 0 && bitsN (w.getD 1 0) 63 23 = 0 &&
  bitsN (cTable w) 63 57 = 0x40 && bitsN (cTable w) 5 0 = 0 && bitsN (cTable w) 56 0 + 16 * cN w ≤ 2 ^ 57 &&
  bitsN (w.getD 3 0) 63 40 = 0 && cKeyNode w < 2 ^ 21 && cKeyNode w % 256 < 144 && bitsN (w.getD 4 0) 63 32 = 0 &&
  (w.drop 5).all (· = 0)

/-- R449: asks the die's lockkeeper to reserve a group rank, and waits as in a load wait. -/
def execCjoin (a d : BitVec 5) (t : BitVec 4) (s : State) : Res :=
  threadInstr (.cjoin a d t) t (fun s th => do
    let ea ← rd s th a
    let r ← readRecord s th ea 64 64
    if r = [] then .ok (s.consumePoison th (some ea) (encode (.cjoin a d t)))
    else
      let w := (List.range 8).map (fun i => recW r (8 * i))
      if !cjoinForm w then .error ⟨.illegalForm, none⟩
      placeCheck s (s.ctx th).sid (cPlace w)
      let c := s.ctx th
      let g : CollOp := { die := th.core.die, release := false, args := w, thread := th, serial := c.serial, sid := c.sid,
                          origin := s.originOf th, ask := c.awaits }
      let ps := probesOf (.global (bitsN (cTable w) 56 0)) (16 * cN w) .read
      let s := s.onCtx th (fun c =>
        { c with status := .loadWait,
                 loadWait := some { kind := .reserve d.toNat, addr := ea, pieces := [], eff := some (.cjoin g), probes := ps } })
      .ok (s.post .none (.cjoinReserve g))) s

/-- The key of a group's slot. -/
def CollOp.key (g : CollOp) : Nat × Nat × Nat := (g.sid, cGroup g.args, cRank g.args)

/-- R449: a lockkeeper takes a reservation for one rank of a group. -/
def execCjoinReserve (s : State) : Res :=
  match s.arg with
  | .cjoinReserve g =>
    .next (s.byLock g.die (fun s =>
      if ((s.ctx g.thread).awaiting g.ask).isNone then s
      else if thas s.groups g.key || 64 ≤ (s.groups.filter (fun e => e.2.die = g.die)).length then
        s.post .none (.loadReply g.thread g.ask 0 .refused)
      else
        let x : Group := { die := g.die, by_ := g.thread, n := cN g.args, tag := cTag g.args,
                           nretry := s.nretry g.thread.core g.sid, rtimeout := s.rtimeout g.thread.core g.sid }
        { s with groups := tput s.groups g.key x }.post .none (.loadReply g.thread g.ask 0 (.reserved (.comp 0) 0))))
  | _ => .next s

/-- Ends a join with a status (R449 to R451): unless it is bound, its slot is released and its node forgets what has come for it. -/
def State.joinEnd (s : State) (k : Nat × Nat × Nat) (status : Nat) : State :=
  match tfind s.groups k with
  | none => s
  | some g =>
    let mask (l : List Nat) : Nat := l.foldl (fun m p => m + 2 ^ p) 0
    let w1 := if status = 0 then fld (mask g.switches) 0 ||| fld (mask g.usable) 32 else 0
    let s := if status = 0 then s else
      { s with groups := tdel s.groups k, colls := s.colls.map (fun e =>
          if 2 ≤ g.st && e.1 = (g.inst, g.node) then (e.1, { e.2 with parts := [], res := [], lens := [] }) else e) }
    s.post .none (.completionArrival g.by_.core (remoteDone 0xB8 0 status g.tag w1 k.1)) 1

/-- Reads n bytes of a SID's global space in pieces of one page; none where a page cannot be read. -/
def State.vaBytes (s : State) (sid va n : Nat) : Option (List Byte) :=
  ((pagesOf va n).mapM (fun p =>
    let len := min (va + n) ((p / 65536 + 1) * 65536) - p
    (s.vaLoc sid p).map (fun l => s.bytes l len))).map List.flatten

/-- The entries of a rank table: node and place of each rank; none where one is malformed (R448). -/
def readTable (l : List Byte) (n : Nat) : Option (List (Nat × Nat)) :=
  (List.range n).mapM (fun i =>
    let w := recW l (16 * i)
    if bitsN w 31 21 = 0 && bitsN w 63 55 = 0 && recN l (16 * i + 8) 8 = 0 && bitsN w 7 0 < 144 then
      some (bitsN w 20 0, bitsN w 54 32)
    else none)

/-- The ratio of an operator for n ranks (R440). -/
def collRatio (op n : Nat) : Nat × Nat := match op with | 1 => (n, 1) | 2 => (1, n) | _ => (1, 1)

/-- What this device's lockkeepers answer about the ranks of a group here (R450): the rank that is named, and every other that its rank table
places here, must have joined with the asker's digest. One that is still joining counts as bound, or no two ranks could (log 36). -/
def State.peerAns (s : State) (m : PathMsg) : PathAns :=
  if !thas s.jobs m.sid then .otherSid
  else
    match tfind s.groups (m.sid, m.group, m.peer) with
    | none => .notYet
    | some g =>
      let ranks := (List.range g.n).filter (fun r => g.nodeId r = s.node && !(m.node = s.node && r = m.rank))
      if g.st < 2 then .notYet
      else if g.digest ≠ m.digest then .differs
      else if ranks.all (fun r => match tfind s.groups (m.sid, m.group, r) with | some x => 2 ≤ x.st && x.digest = m.digest | none => false)
        then .bound
      else .notYet

/-- The ranks a join asks about, one for each device that holds another rank (R450): the lowest there (log 158). -/
def askedRanks (t : List (Nat × Nat)) (rank : Nat) : List Nat :=
  let others := (List.range t.length).filter (· ≠ rank)
  others.filter (fun r => others.find? (fun q => t[q]?.map Prod.fst = t[r]?.map Prod.fst) = some r)

/-- Binds a group rank whose peers are counted and whose keys are installed (R450, R451). -/
def State.bindGroup (s : State) (k : Nat × Nat × Nat) : State :=
  match tfind s.groups k with
  | none => s
  | some g =>
    match s.coll g.inst g.node with
    | none => s.joinEnd k Cause.illegalForm.code
    | some c =>
      let s := { s with groups := tput s.groups k { g with st := 3 } }
      let s := s.setColl g.inst g.node { c with rank := some k.2.2 }
      (s.joinEnd k 0).collBound k

/-- Every peer is counted: the plan is set, its switches are given the key and the group, and the group is bound once each
installation has been acknowledged (R450, R460). -/
def State.planGroup (s : State) (k : Nat × Nat × Nat) : State :=
  match tfind s.groups k with
  | none => s
  | some g =>
    if g.st ≠ 2 || !g.peers.all (fun p => p.2 = .counted) then s
    else
      let g := { g with usable := s.usablePlanes g }
      if g.rack && g.usable = [] then s.joinEnd k Cause.linkTimeout.code
      else
        let g := { g with switches := s.switchPlanes k.1 g }
        let r := s.register k.1 k.2.1 g.switches
        let s := { r.1 with groups := tput r.1.groups k { g with keys := r.2 } }
        if r.2 = [] then s.bindGroup k else s

/-- What a peer answers: counted, asked again later, or the end of the join (R450). -/
def State.peerGot (s : State) (k : Nat × Nat × Nat) (peer : Nat) (a : PathAns) : State :=
  match tfind s.groups k with
  | none => s
  | some g =>
    let put (p : Peer) : State := { s with groups := tput s.groups k { g with peers := tput g.peers peer p } }
    match a with
    | .bound => (put .counted).planGroup k
    | .notYet => put (.notYet (s.cycle + g.rtimeout))
    | .differs => s.joinEnd k Cause.illegalForm.code
    | .otherSid => s.joinEnd k Cause.remoteViolation.code
    | .noDevice => s.joinEnd k Cause.remoteViolation.code

/-- Asks about a peer for the first or a further time (R450). -/
def State.askPeer (s : State) (k : Nat × Nat × Nat) (peer attempt : Nat) : State :=
  match tfind s.groups k with
  | none => s
  | some g =>
    let m : PathMsg := ⟨s.node, k.1, k.2.1, k.2.2, peer, g.digest⟩
    let n := g.nodeId peer
    if n = s.node then s.peerGot k peer (s.peerAns m)
    else
      { s with groups := tput s.groups k { g with peers := tput g.peers peer (.asked attempt (s.cycle + g.rtimeout * 2 ^ min attempt 8)) } }.toNet
        n (some k.1) (.path m)

/-- R449: the lockkeeper checks a released `cjoin`; then the path checks begin (R450). -/
def execCjoinCheck (s : State) : Res :=
  match s.arg with
  | .cjoinCheck g =>
    .next (s.byLock g.die (fun s =>
      let s := s.performed g.origin.core g.rel
      let k := g.key
      let n := cN g.args
      let i := s.placeInst g.sid (cPlace g.args)
      let st := s.instSt i
      let node := (s.colls.find? (fun e => e.1.1 = i && e.2.group = cGroup g.args && e.2.rank.isNone)).map (fun e => (e.1.2, e.2))
      let bytes := s.vaBytes g.sid (bitsN (cTable g.args) 56 0) (16 * n)
      match tfind s.groups k, node, bytes.bind (fun l => (readTable l n).map (fun t => (l, t))) with
      | none, _, _ => s
      | some x, some (m, c), some (l, t) =>
        if (st ≠ some .shadow && st ≠ some .active) || t[cRank g.args]? ≠ some (s.node, (cPlace g.args).toNat) ||
           (c.p, c.q) ≠ collRatio c.op n || cKeyNode g.args ≠ (s.job g.sid).span.lead then s.joinEnd k Cause.illegalForm.code
        else if s.part ≠ .hz960 && t.any (fun e => e.1 / 256 ≠ s.node / 256) then s.joinEnd k Cause.unavailable.code
        else if t.any (fun e => !(s.job g.sid).members.contains e.1) then s.joinEnd k Cause.remoteViolation.code
        else
          let digest := Config.sha384 (l ++ bytesOf 1 c.op ++ bytesOf 1 c.fmt ++ bytesOf 2 c.p ++ bytesOf 2 c.q)
          let peers := askedRanks t (cRank g.args)
          let s := { s with groups := tput s.groups k { x with st := 2, inst := i, node := m, table := t, digest := digest,
                                                               peers := peers.map (fun p => (p, Peer.notYet s.cycle)) } }
          (peers.foldl (fun s p => s.askPeer k p 0) s).planGroup k
      | some _, _, _ => s.joinEnd k Cause.illegalForm.code))
  | _ => .next s

/-- R450: another rank's lockkeeper asks about a rank of this device. -/
def execPathCheck (s : State) : Res :=
  match s.arg with
  | .pathCheck m => .next (s.byLock 0 (fun s => s.toNet m.node (some m.sid) (.pathAns m (s.peerAns m))))
  | _ => .next s

/-- Whether a join still asks about a peer. -/
def Group.asks (g : Group) (peer : Nat) : Bool :=
  g.st = 2 && (match tfind g.peers peer with | some (.asked _ _) => true | _ => false)

/-- R450: a peer's answer arrives. -/
def execPathCheckAnswer (s : State) : Res :=
  match s.arg with
  | .pathCheckAnswer m a =>
    (match tfind s.groups (m.sid, m.group, m.rank) with
     | some g => .next (s.byLock g.die (fun s => if g.asks m.peer then s.peerGot (m.sid, m.group, m.rank) m.peer a else s))
     | none => .next s)
  | _ => .next s

/-- R450: peers that had not joined are asked again after RTIMEOUT. -/
def execPathCheckReask (s : State) : Res :=
  match s.arg with
  | .pathCheckReask sid group rank =>
    (match tfind s.groups (sid, group, rank) with
     | some g =>
       .next (g.peers.foldl (fun s p =>
         match p.2 with
         | .notYet due => if due ≤ s.cycle then s.askPeer (sid, group, rank) p.1 0 else s
         | _ => s) s)
     | none => .next s)
  | _ => .next s

/-- R450: no answer in the timing of R433: asked again, or LINK_TIMEOUT. -/
def execPathCheckTimeout (s : State) : Res :=
  match s.arg with
  | .pathCheckTimeout sid group rank =>
    let k := (sid, group, rank)
    (match tfind s.groups k with
     | some g =>
       let late := g.peers.filterMap (fun p => match p.2 with
         | .asked n due => if due ≤ s.cycle then some (p.1, n) else none
         | _ => none)
       if late.any (fun p => g.nretry ≤ p.2) then .next (s.joinEnd k Cause.linkTimeout.code)
       else .next (late.foldl (fun s p => s.askPeer k p.1 (p.2 + 1)) s)
     | none => .next s)
  | _ => .next s

/-- R450, R460: a switch acknowledges the job's key, which every group of the job that needs it there waits for. -/
def execKeyInstallAck (s : State) : Res :=
  match s.arg with
  | .keyInstallAck p sid _ rx =>
    .next (s.managed rx (fun s =>
      let w := s.switch p
      let s := if w.keys.contains sid then s else s.setSwitch p { w with keys := w.keys ++ [sid] }
      s.groups.foldl (fun (s : State) e =>
        if e.1.1 = sid && e.2.st = 2 && e.2.keys.contains p then
          let g : Group := { e.2 with keys := e.2.keys.filter (· ≠ p) }
          let s : State := { s with groups := tput s.groups e.1 g }
          if g.keys = [] then s.bindGroup e.1 else s
        else s) s))
  | _ => .next s

/-- A group goes on without a switch that refuses it (R452, R462): a bound one is planned again; one that joins no longer waits for that
switch. -/
def State.dropSwitch (s : State) (k : Nat × Nat × Nat) (g : Group) (p : Nat) : State :=
  let g := { g with refused := g.refused ++ [p] }
  let w := s.switch p
  let s := s.setSwitch p { w with groups := w.groups.filter (· ≠ (k.1, k.2.1)) }
  if g.st = 3 then ({ s with groups := tput s.groups k g } : State).replanGroup k
  else
    let g := { g with switches := g.switches.filter (· ≠ p), keys := g.keys.filter (· ≠ p) }
    let s : State := { s with groups := tput s.groups k g }
    if g.keys = [] then s.bindGroup k else s

/-- R452, R462: a switch answers a reduction request, or refuses a group or a key, with an error: the group goes on without it. -/
def execSwitchErrorAnswer (s : State) : Res :=
  match s.arg with
  | .switchErrorAnswer p sid group rx =>
    .next (s.received (some rx) rx.flits (fun s => s.groups.foldl (fun s e =>
      if e.1.1 = sid && e.1.2.1 = group && e.2.switches.contains p then s.dropSwitch e.1 e.2 p else s) s))
  | _ => .next s

/-- The keys of a job leave the switches when it ends here (R460). -/
def State.removeKeys (s : State) (sid : Nat) : State :=
  s.switches.foldl (fun s e =>
    let w := e.2
    let s := s.setSwitch e.1 { w with keys := w.keys.filter (· ≠ sid), groups := w.groups.filter (fun g => g.1 ≠ sid) }
    if w.keys.contains sid || w.groups.any (fun g => g.1 = sid) then s.mgmt e.1 (.remove sid) else s) s

/-! ## cstat (R454) -/

/-- R454: reads collective state. Bits that the selected read does not use must be zero (log 143). -/
def execCstat (a d : BitVec 5) (t : BitVec 4) (s : State) : Res :=
  threadInstr (.cstat a d t) t (fun s th => do
    let q ← rd s th a
    let sid := (s.ctx th).sid
    let put (v : Word) : Except Stop State := .ok (s.onCtx th (fun c => c.wr d v))
    let bad : Except Stop State := .error ⟨.illegalForm, none⟩
    let group := bitsN q 15 4
    let mine := s.groups.filter (fun e => e.1.1 = sid && e.1.2.1 = group)
    let bound := mine.filter (fun e => e.2.st = 3)
    let low (l : List ((Nat × Nat × Nat) × Group)) : Option ((Nat × Nat × Nat) × Group) :=
      l.foldl (fun b e => match b with | some x => if e.1.2.2 < x.1.2.2 then some e else some x | none => some e) none
    let pick := if bitsN q 40 40 = 1 then mine.find? (fun e => e.1.2.2 = bitsN q 59 48)
                else match low bound with | some e => some e | none => low mine
    let n := match low mine with | some e => e.2.n | none => 4096
    let mask (l : List Nat) : Nat := l.foldl (fun m p => m + 2 ^ p) 0
    if bitsN q 63 60 ≠ 0 || bitsN q 47 41 ≠ 0 || bitsN q 39 37 ≠ 0 || bitsN q 31 28 ≠ 0 || 2 < bitsN q 3 0 ||
       (bitsN q 3 0 ≠ 1 && bitsN q 27 16 ≠ 0) || (bitsN q 3 0 ≠ 2 && bitsN q 36 32 ≠ 0) ||
       ((bitsN q 40 40 = 0 || bitsN q 3 0 = 2) && bitsN q 59 48 ≠ 0) || (bitsN q 3 0 = 2 && bitsN q 40 40 ≠ 0) || n ≤ bitsN q 27 16 || n ≤ bitsN q 59 48 || 17 < bitsN q 36 32 then bad
    else
      match bitsN q 3 0, pick with
      | 0, some (k, g) => put (fld g.st 0 ||| fld (g.n % 4096) 4 ||| fld k.2.2 16 ||| fld (g.epochs % 2 ^ 32) 32)
      | 1, some (k, g) =>
        let peer := bitsN q 27 16
        if g.st ≠ 3 || peer = k.2.2 then put 0
        else
          let node := g.nodeId peer
          let cls := if node = s.node then 0 else if node / 256 ≠ s.node / 256 then 2 else if g.usable = [] then 3 else 1
          put (fld (mask g.switches) 0 ||| fld (mask g.usable) 32 ||| fld cls 56)
      | 2, some (_, g) =>
        if g.st ≠ 3 then put 0
        else
          let p := bitsN q 36 32
          let w := s.switch p
          let r : Nat × Nat :=
            if !s.linkUp p then (3, 0)
            else if w.passed then (if s.measured sid p then (1, 0) else (2, 7))
            else if w.reason ≠ 0 then (2, w.reason) else (0, 0)
          put (fld r.1 0 ||| fld r.2 8 ||| fld (if w.keys.contains sid then 1 else 0) 16)
      | _, _ => put 0) s

end Sys2Proof.Machine
end

