-- ==== Sys2Proof/Machine/Loader.lean ====
section
/-! DEFINITION. The loader's checks of a manifest's handler and graph images (R33, R46 to R49, R64 to R68, R208, R285,
R298 to R311, R317, R319, R330, R337 to R340, R385 to R388, R441 to R445). -/

namespace Sys2Proof.Machine

open Sys2Proof

/-- A check: it passes, or refuses the launch with a cause (R24). -/
abbrev Chk := Except Cause Unit

/-- Requires a condition. -/
def need (b : Bool) (x : Cause) : Chk := if b then .ok () else .error x

/-- Requires a form. -/
def form (b : Bool) : Chk := need b .illegalForm

/-- Checks every member of a list, in order. -/
def each {α : Type} (f : α → Chk) : List α → Chk
  | [] => .ok ()
  | x :: r => do f x; each f r

/-- No two members are equal. -/
def distinct {α : Type} [DecidableEq α] : List α → Bool
  | [] => true
  | x :: r => !r.contains x && distinct r

/-- A section of n records lies inside a length, at a multiple of 64 (R22, R64, R65). -/
def sectionOk (off n size len : Nat) : Bool := off % 64 = 0 && off + n * size ≤ len

/-- The images of a section, one after another, each padded to a multiple of 64 bytes (R63, log 40). -/
def imagesAt (m : List Byte) (lenOff : Nat) : Nat → Nat → Option (List (List Byte))
  | 0, _ => some []
  | n + 1, off =>
    let len := recN m (off + lenOff) 4
    if off % 64 = 0 && 64 ≤ len && off + len ≤ m.length then
      (imagesAt m lenOff n (off + (len + 63) / 64 * 64)).map (fun r => (m.drop off).take len :: r)
    else none

/-! ## Handler images (R64) -/

/-- The header of a handler image. -/
def handlerLayout (b : List Byte) : Bool :=
  recN b 0 4 = 0x484C444E && recN b 4 2 = 1 && recN b 6 2 ≤ 4095 && recN b 8 1 ≤ 6 && recN b 9 1 ≤ 7 &&
  1 ≤ recN b 0x0C 4 && recN b 0x0C 4 ≤ 16384 && recN b 0x10 2 ≤ 1024 && recN b 0x12 2 = 0 &&
  recN b 0x14 4 < recN b 0x0C 4 && recN b 0x18 4 ≤ 262144 && recN b 0x18 4 % 8 = 0 && recN b 0x1C 4 % 8 = 0 &&
  recN b 0x1C 4 + recN b 0x18 4 ≤ 262144 && sectionOk (recN b 0x20 4) (recN b 0x0C 4) 4 b.length &&
  sectionOk (recN b 0x24 4) (recN b 0x10 2) 8 b.length && sectionOk (recN b 0x28 4) (recN b 0x18 4) 1 b.length &&
  recN b 0x30 16 = 0

/-- A handler as its image gives it. -/
def handlerOf (b : List Byte) : Handler :=
  { rank := recN b 8 1, units := recN b 9 1, edge := recN b 0x0A 2, entry := recN b 0x14 4,
    code := (List.range (recN b 0x0C 4)).map (fun i => BitVec.ofNat 32 (recN b (recN b 0x20 4 + 4 * i) 4)),
    lits := (List.range (recN b 0x10 2)).map (fun i => BitVec.ofNat 64 (recN b (recN b 0x24 4 + 8 * i) 8)) }

/-- The literal ports that the source fields of a thread word name (R38, R49). -/
def litPorts (w : BitVec 32) : List Nat :=
  let op := bitsN w 31 24
  let bare : List Nat := [0x01, 0x02, 0x03, 0x04, 0x06, 0x07, 0x08, 0x09, 0x0A, 0x27, 0x29, 0x40, 0x41, 0x42, 0x43, 0x48,
    0x4B, 0x4D, 0x50, 0x51, 0x52, 0x53, 0x89, 0x8A, 0x8B, 0xA1, 0xA3, 0xA4, 0xA5]
  let two : Bool := (0x10 ≤ op && op ≤ 0x1F) || (0x2A ≤ op && op ≤ 0x2D) || (0x32 ≤ op && op ≤ 0x35) ||
    (0x38 ≤ op && op ≤ 0x3D) || op = 0x60 || op = 0x61 || (0x68 ≤ op && op ≤ 0x71) || (0x78 ≤ op && op ≤ 0x7C) || op = 0x88 ||
    [0xA9, 0xAA, 0xAC, 0xAD, 0xAE].contains op
  ((if bare.contains op then [] else [bitsN w 23 19]) ++ (if two then [bitsN w 18 14] else []) ++
   (if (0x5C ≤ op && op ≤ 0x5F) || op = 0x61 then [bitsN w 13 9] else []) ++ (if op = 0x6F then [bitsN w 8 4] else [])).filterMap
    (fun p => if 16 ≤ p then some (p - 16) else none)

/-- Branches stay inside the code, and literal ports inside the table (R33, R49). A word that is no instruction is data here. -/
def codeOk (h : Handler) : Bool :=
  h.code.zipIdx.all (fun e =>
    (readThread e.1).isNone ||
    ((litPorts e.1).all (· < h.lits.length) &&
     (!(0x48 ≤ bitsN e.1 31 24 && bitsN e.1 31 24 ≤ 0x4D && bitsN e.1 31 24 ≠ 0x4C) ||
      (let t : Int := (e.2 : Int) + (BitVec.ofNat 15 (bitsN e.1 18 4)).toInt
       0 ≤ t && t < (h.code.length : Int)))))

/-- A fault edge (R208): the lockkeeper, or a loaded handler of higher rank. -/
def edgeOk (hs : Tbl Nat Handler) (rank edge : Nat) : Bool :=
  edge = 0xFFFF || (match tfind hs edge with | some h => rank < h.rank | none => false)

/-- Two byte ranges, as start and length, share a byte. -/
def overlap (a b : Nat × Nat) : Bool := a.1 < b.1 + b.2 && b.1 < a.1 + a.2 && a.2 ≠ 0 && b.2 ≠ 0

/-- No two ranges of a list share a byte. -/
def disjoint : List (Nat × Nat) → Bool
  | [] => true
  | x :: r => !r.any (overlap x) && disjoint r

/-- Step 5 of R23: the handler images, each by itself, then together. -/
def checkHandlers (part : Part) (imgs : List (List Byte)) : Except Cause (Tbl Nat Handler) := do
  each (fun b => do
    form (handlerLayout b)
    need (recN b 9 1 &&& part.caps = recN b 9 1) .unavailable
    form (codeOk (handlerOf b))) imgs
  let hs := imgs.map (fun b => (recN b 6 2, handlerOf b))
  form (distinct (hs.map Prod.fst))
  form (disjoint (imgs.map (fun b => (recN b 0x1C 4, recN b 0x18 4))))
  each (fun h => need (edgeOk hs h.2.rank h.2.edge) .rankCycle) hs
  .ok hs

/-! ## Rules (R46 to R48, R298 to R311, R330, R338, R340, R445) -/

/-- The input channels a rule reads through its ports. -/
def ruleChans (w : BitVec 32) : List Nat :=
  let op := bitsN w 31 24
  let a : Bool := op ≠ 0x01 && op ≠ 0x08 && op ≠ 0xEB
  let b : Bool := [0xC1, 0xC2, 0xC4, 0xC5, 0xC7, 0xE5, 0xE6, 0xE9, 0xED, 0xEE].contains op ||
    (0xD0 ≤ op && op ≤ 0xDF && op ≠ 0xDD && op ≠ 0xDE)
  let k := bitsN w 18 14 * 32 + bitsN w 8 4
  ((if a then [bitsN w 23 19] else []) ++ (if b then [bitsN w 18 14] else []) ++
   (if op = 0xC3 then [k % 8, k / 8 % 8] else [])).filter (· ≤ 7)

/-- The output channels a rule pushes to. -/
def rulePushes (w : BitVec 32) : List Nat := ((tagPorts w).map BitVec.toNat).filter (· ≤ 7)

/-- A mask of channels. -/
def chanMask (l : List Nat) : Nat := l.foldl (fun m c => m ||| 2 ^ c) 0

/-- What R46 to R48 and the instructions ask of a rule whose word is well formed. -/
def ruleOk (w t : BitVec 32) : Bool :=
  let op := bitsN w 31 24
  let ready := trReady t
  let pop := trPop t
  let fmt := bitsN t 28 25
  let reads := chanMask (ruleChans w)
  let whole : Bool := ready = reads && pop = reads
  pop &&& ready = pop && bitsN t 23 20 &&& bitsN t 19 16 = bitsN t 23 20 && fmt ≤ 9 &&
  (!trEos t || ready ≠ 0 || (op = 0xEB && bitsN w 18 14 ≤ 3)) && reads &&& ready = reads && distinct (rulePushes w) &&
  (if op = 0xC3 then whole
   else if op = 0xC4 then whole && !trEos t
   else if op = 0xC6 || op = 0xE7 then !(tagPorts w).contains 8
   else if op = 0xC8 then !trEos t && reads &&& pop = reads
   else if op = 0xCB then !trEos t
   else if op = 0xD9 || op = 0xDA then 5 ≤ fmt
   else if op = 0xE0 then bitsN t 30 29 = 0
   else if 0xE1 ≤ op && op ≤ 0xE4 then fmt ≤ 4
   else if op = 0xED then whole && fmt ≠ 9
   else if op = 0xEE then whole && tagPorts w ≠ [8, 8]
   else if op = 0xF0 then reads &&& pop = reads && tagPorts w ≠ [8, 8]
   else true)

/-- A rule word and its trigger (R34, R40, R51). -/
def ruleCheck (r : BitVec 32 × BitVec 32) : Chk :=
  match decodeElement r.1 with
  | .ok _ => form (ruleOk r.1 r.2)
  | .error .illegalOp => .error .illegalOp
  | .error .illegalPort => .error .illegalPort
  | .error .illegalForm => .error .illegalForm

/-! ## Graph images (R65 to R68, R386) -/

/-- The used rules of an element record (R48). -/
def usedRules (r : List Byte) : List (BitVec 32 × BitVec 32) := (recRules r).filter (fun x => x.1 ≠ 0 || x.2 ≠ 0)

/-- An element record (R66). -/
def elemLayout (r : List Byte) : Bool :=
  recN r 4 1 ≤ 3 && recN r 5 1 ≤ 16 && recN r 6 1 ≤ 15 && recN r 7 1 ≤ 63 && recN r 8 8 = 0 &&
  ((recRules r).drop (recN r 5 1)).all (fun x => x.1 = 0 && x.2 = 0)

/-- A wire record (R67). -/
def wireLayout (r : List Byte) : Bool :=
  recN r 8 1 ≤ 7 && recN r 9 1 ≤ 7 && recN r 0x0A 1 ≤ 1 && recN r 0x0B 1 ≤ 5 && recN r 0x0C 4 = 0 &&
  (if recN r 0x0A 1 = 1 then recN r 0x0B 1 ≤ 2 || recN r 0x0B 1 = 5 else recN r 0x10 16 = 0)

/-- The layouts of R65 to R68 and R441. -/
def graphLayout (b : List Byte) : Bool :=
  recN b 0 4 = 0x474C444E && recN b 4 2 = 1 && recN b 6 1 ≤ 6 && recN b 7 1 ≤ 7 && 1 ≤ recN b 0x0A 1 && recN b 0x0A 1 ≤ 32 &&
  1 ≤ recN b 0x0B 1 && recN b 0x0B 1 ≤ 32 && 1 ≤ recN b 0x0C 2 && recN b 0x0C 2 ≤ 16384 && recN b 0x34 12 = 0 &&
  sectionOk (recN b 0x18 4) (recN b 0x0C 2) 192 b.length && sectionOk (recN b 0x1C 4) (recN b 0x0E 2) 32 b.length &&
  sectionOk (recN b 0x20 4) (recN b 0x10 2) 32 b.length && sectionOk (recN b 0x24 4) (recN b 0x12 2) 16 b.length &&
  sectionOk (recN b 0x28 4) (recN b 0x14 2) 8 b.length && sectionOk (recN b 0x2C 4) (recN b 0x16 2) 64 b.length &&
  (imgElems b).all elemLayout && distinct ((imgElems b).map (fun r => (recN r 0 2, recN r 2 2))) &&
  (imgElems b).all (fun r => recN r 4 1 = recN ((imgElems b).headD []) 4 1) && (imgWires b).all wireLayout &&
  (imgStores b).all (fun r => recN r 4 1 ≤ 3 && recN r 5 1 ≤ 2 && recN r 6 2 = 0 && recN r 0x14 12 = 0 &&
    recN r 8 4 + recN r 0x0C 4 * recN r 0x10 4 ≤ 524288) &&
  (imgChecks b).all (fun r => recN r 0x0C 4 = 0) &&
  (imgIsects b).all (fun r => recN r 4 1 ≤ 7 && recN r 5 1 ≤ 7 && recN r 6 2 = 0)

/-- An element position inside the region, at a tile of the kind asked for (R61). -/
def posOk (b : List Byte) (x y : Nat) (compute : Bool) : Bool :=
  x < 4 * recN b 0x0A 1 && y < 4 * recN b 0x0B 1 && isCompute (y / 4 % 4 * 4 + x / 4 % 4) = compute

/-- The elements an image has records of. -/
def elemSet (b : List Byte) : List (Nat × Nat) := (imgElems b).map (fun r => (recN r 0 2, recN r 2 2))

/-- The ends of wires, and of collective records, at output channels and at input channels. -/
def wireOuts (b : List Byte) : List (Nat × Nat × Nat) := (imgWires b).map (fun r => (recN r 0 2, recN r 2 2, recN r 8 1))
def wireIns (b : List Byte) : List (Nat × Nat × Nat) := (imgWires b).map (fun r => (recN r 4 2, recN r 6 2, recN r 9 1))
def collIns (b : List Byte) : List (Nat × Nat × Nat) := (imgColls b).map (fun r => (recN r 4 2, recN r 6 2, recN r 0x0C 1))
def collOuts (b : List Byte) : List (Nat × Nat × Nat) := (imgColls b).map (fun r => (recN r 8 2, recN r 0x0A 2, recN r 0x0D 1))


/-- Positions and wires (R61, R285, R442). A channel of a ready mask is read. -/
def wiringOk (b : List Byte) : Bool :=
  (elemSet b).all (fun e => posOk b e.1 e.2 true) &&
  (imgStores b).all (fun r => posOk b (recN r 0 2) (recN r 2 2) false) &&
  (imgChecks b).all (fun r => posOk b (recN r 2 1) (recN r 3 1) false) &&
  distinct (wireOuts b ++ collIns b) && distinct (wireIns b ++ collOuts b) &&
  (wireOuts b ++ wireIns b ++ collIns b ++ collOuts b).all (fun e => (elemSet b).contains (e.1, e.2.1)) &&
  (imgElems b).all (fun r =>
    let x := recN r 0 2
    let y := recN r 2 2
    (usedRules r).all (fun q =>
      let op := bitsN q.1 31 24
      (maskList (trReady q.2)).all (fun c =>
        if op = 0xF0 && c = bitsN q.1 23 19 then (collOuts b).contains (x, y, c) else (wireIns b).contains (x, y, c)) &&
      (rulePushes q.1).all (fun c =>
        if op = 0xEF then (collIns b).contains (x, y, c) else (wireOuts b).contains (x, y, c)) &&
      (op ≠ 0xEF || bitsN q.1 13 9 ≤ 7)))

/-- Store records (R317): limits of each mode, one record a generator, no overlap in a tile. -/
def storesOk (b : List Byte) : Bool :=
  (imgStores b).all (fun r =>
    let size := recN r 0x0C 4
    let count := recN r 0x10 4
    recN r 8 4 % 16 = 0 && size % 16 = 0 &&
    (match recN r 5 1 with
     | 0 => 16 ≤ size && size ≤ 65536 && 1 ≤ count && count ≤ 64
     | 1 => size = 16 && 2 ≤ count && count ≤ 32768
     | _ => 16 ≤ size && size ≤ 65536 && 2 ≤ count && count ≤ 64)) &&
  distinct ((imgStores b).map (fun r => (recN r 0 2 / 4, recN r 2 2 / 4, recN r 4 1))) &&
  disjoint ((imgStores b).map (fun r => ((recN r 2 2 / 4 * 32 + recN r 0 2 / 4) * 524288 + recN r 8 4, recN r 0x0C 4 * recN r 0x10 4)))

/-- A generator as a rule at an element names it: the paired store tile's place in the region, and its number (R7, R319). -/
def genNamed (x y g : Nat) : Nat × Nat × Nat := ((x / 4) ^^^ 1, y / 4, g)

/-- The generators an image has records of. -/
def genSet (b : List Byte) : List (Nat × Nat × Nat) := (imgStores b).map (fun r => (recN r 0 2 / 4, recN r 2 2 / 4, recN r 4 1))

/-- The rules that read or write generators: the generator, the element, eos. -/
def genUses (b : List Byte) (reads : Bool) : List ((Nat × Nat × Nat) × (Nat × Nat) × Bool) :=
  (imgElems b).flatMap (fun r => (usedRules r).filterMap (fun q =>
    let g := bitsN q.1 18 14
    if g ≤ 3 && (if reads then ruleReads q.1 g else ruleWrites q.1 g) then
      some (genNamed (recN r 0 2) (recN r 2 2) g, (recN r 0 2, recN r 2 2), trEos q.2)
    else none))

/-- Who shares a generator (R319, R330): one `sst`; one reading `sld`, or a pair in one plane with eos 0 and 1. -/
def sharingOk (b : List Byte) : Bool :=
  (genUses b true ++ genUses b false).all (fun u => (genSet b).contains u.1) &&
  distinct ((genUses b false).map Prod.fst) &&
  (genSet b).all (fun g =>
    match (genUses b true).filter (fun u => u.1 = g) with
    | [] => true
    | [_] => true
    | [u, v] => u.2.1 = v.2.1 && u.2.2 ≠ v.2.2
    | _ => false)

/-- Checkpoint records (R337). -/
def checksOk (b : List Byte) : Bool :=
  (imgChecks b).all (fun r => recN r 4 4 % 16 = 0 && recN r 8 4 % 16 = 0 && 16 ≤ recN r 8 4 && recN r 4 4 + recN r 8 4 ≤ 524288)

/-- Intersection records (R339). -/
def isectsOk (b : List Byte) : Bool :=
  distinct ((imgIsects b).flatMap (fun r => [(recN r 0 2, recN r 2 2, recN r 4 1), (recN r 0 2, recN r 2 2, recN r 5 1)])) &&
  (imgIsects b).all (fun r =>
    let m := recN r 4 1
    let n := recN r 5 1
    (imgElems b).any (fun e =>
      recN e 0 2 = recN r 0 2 && recN e 2 2 = recN r 2 2 &&
      (let own (w : BitVec 32) : Bool := bitsN w 31 24 = 0xEE && bitsN w 23 19 = m && bitsN w 18 14 = n
       (usedRules e).any (fun q => own q.1) &&
       (usedRules e).all (fun q => own q.1 || bitsN q.1 31 24 = 0xC8 ||
         !(ruleChans q.1 ++ maskList (trReady q.2)).any (fun c => c = m || c = n)))))

/-- Collective records (R441). -/
def collsOk (b : List Byte) : Bool :=
  (imgColls b).all (fun r =>
    recN r 0 1 ≤ 4 && recN r 1 1 ≤ 9 && recN r 2 2 ≤ 4095 && recN r 0x0C 1 ≤ 7 && recN r 0x0D 1 ≤ 7 && recN r 0x0E 2 = 0 &&
    1 ≤ recN r 0x10 2 && recN r 0x10 2 ≤ 4096 && 1 ≤ recN r 0x12 2 && recN r 0x12 2 ≤ 4096 &&
    Nat.gcd (recN r 0x10 2) (recN r 0x12 2) = 1 && recN r 0x14 44 = 0)

/-! ## The graph test (R387) -/

/-- A node of the test: an element, or a generator. -/
inductive LNode where
  | elem (x y : Nat)
  | gen (g : Nat × Nat × Nat)
  deriving DecidableEq, Repr

/-- The nodes of an image. -/
def liveNodes (b : List Byte) : List LNode := (elemSet b).map (fun e => .elem e.1 e.2) ++ (genSet b).map .gen

/-- The edges: from, to, and whether an initial token stands on it. -/
def liveEdges (b : List Byte) : List (LNode × LNode × Bool) :=
  ((imgWires b).map (fun r => (LNode.elem (recN r 0 2) (recN r 2 2), LNode.elem (recN r 4 2) (recN r 6 2), decide (recN r 0x0A 1 = 1)))) ++
  ((genUses b false).map (fun u => (LNode.elem u.2.1.1 u.2.1.2, LNode.gen u.1, false))) ++
  ((genUses b true).map (fun u => (LNode.gen u.1, LNode.elem u.2.1.1 u.2.1.2, false)))

/-- Takes away nodes that no edge enters, round after round: what stays lies on or behind a cycle. -/
def peel (es : List (LNode × LNode × Bool)) : Nat → List LNode → List LNode
  | 0, ns => ns
  | k + 1, ns => peel es k (ns.filter (fun n => es.any (fun e => e.2.1 = n && ns.contains e.1)))

/-- What a set of nodes reaches in k rounds. -/
def spread (es : List (LNode × LNode × Bool)) : Nat → List LNode → List LNode
  | 0, ns => ns
  | k + 1, ns => spread es k (ns ++ ((es.filter (fun e => ns.contains e.1 && !ns.contains e.2.1)).map (fun e => e.2.1)).eraseDups)

/-- R387: no cycle without an initial token, none through a generator, every node reached from a source. -/
def liveOk (b : List Byte) : Bool :=
  let ns := liveNodes b
  let es := liveEdges b
  let k := ns.length
  peel (es.filter (fun e => !e.2.2)) k ns = [] &&
  (genSet b).all (fun g => !(spread es k ((es.filter (fun e => e.1 = .gen g)).map (fun e => e.2.1))).contains (.gen g)) &&
  (let r := spread es k (ns.filter (fun n => !es.any (fun e => e.2.1 = n)))
   ns.all (fun n => r.contains n))

/-- The checks of R386 for one image, in the order of its table. -/
def checkGraph (part : Part) (hs : Tbl Nat Handler) (b : List Byte) : Chk := do
  form (graphLayout b)
  need (recN b 7 1 &&& part.caps = recN b 7 1) .unavailable
  each (fun r => do
    each ruleCheck (usedRules r)
    form (((usedRules r).filter (fun q => bitsN q.1 31 24 = 0xC7)).length ≤ 1 &&
          ((usedRules r).filter (fun q => bitsN q.1 31 24 = 0xED)).length ≤ 1)) (imgElems b)
  form (wiringOk b)
  form (storesOk b && sharingOk b && checksOk b && isectsOk b && collsOk b)
  need (edgeOk hs (recN b 6 1) (recN b 8 2)) .rankCycle
  need (liveOk b) .liveness

end Sys2Proof.Machine
end

