-- ==== Sys2Proof/Machine/NetEv.lean ====
section
/-! DEFINITION. Links and routers in motion (R417 to R422, R461). -/

namespace Sys2Proof.Machine

open Sys2Proof

/-- Sends what links can take now, and lets collective nodes that waited for their egress queues take their tokens (R444). -/
def State.netGo (s : State) : State :=
  s.netPump.colls.foldl (fun s e => if e.2.wait.isSome then s.collTake e.1.1 e.1.2 else s) s.netPump

/-- Kept packets whose route differs from what it was are sent again, in their order (R417, R422). -/
def State.reroute (s before : State) : State :=
  { s with flows := s.flows.map (fun e =>
      if s.hop e.1.1 = before.hop e.1.1 then e
      else (e.1, { e.2 with kept := e.2.kept.map (fun k => { k with sent := false }) })) }

/-- Cycles of 1 ms and 1 s (R13). -/
def ms : Nat := 1250000
def second : Nat := 1250000000

/-- What a link forgets when its training ends or it goes DOWN: the flits of both ends of its two directions (R418, R420). -/
def Link.fresh (l : Link) (st : Nat) : Link :=
  { l with st := st, buf := [], tries := 0, change := none, again := none, held := 0, queue := [], mq := [], seq := 0, rseq := 0, rpart := 0 }

/-- A link goes DOWN (R420): its replay buffer is discarded, routes change, the owner is told, plans are set again; a switch
session ends, and the owner's path is timed (R483). -/
def State.linkLost (s : State) (n : Nat) : State :=
  let l := s.link n
  let lost := ((l.buf ++ l.queue).filterMap (fun o => match o.msg with | .coll b _ => some b | _ => none)).eraseDups
  let s1 := s.setLink n { l.fresh 0 with downs := l.downs + 1, train := s.cycle + ms }
  let s1 := s1.reroute s
  let s1 := if n < 18 then s1.setSwitch n {} else s1
  let s1 := s1.eventOwner (linkDie n) 0x00D [fld n 0, s1.linkWord n]
  let s1 := s1.timePath
  (lost.foldl State.collAgain (if n < 18 then s1.replan n else s1)).netGo

/-- A link trains (R420): it is UP, knows its peer, and routes change; an in-rack link's switch is attested (R456). -/
def State.linkBack (s : State) (n peer : Nat) : State :=
  let l := s.link n
  let s1 := s.setLink n { l.fresh 2 with peer := if n = 24 then 0 else peer }
  let s1 := s1.reroute s
  let s1 := s1.eventOwner (linkDie n) 0x00E [fld n 0, s1.linkWord n]
  let s1 := if n < 18 then (s1.attest n).replan n else s1
  s1.timePath.netGo

/-- How many of a link's unacknowledged flits precede one. -/
def Link.before (l : Link) (q : BitVec 12) : Nat := (q - (l.seq - BitVec.ofNat 12 l.unacked)).toNat

/-- Sends the flits of the replay buffer again, from one onward (R418). -/
def State.replayFrom (s : State) (n : Nat) (q : BitVec 12) : State :=
  let l := s.link n
  { s with netOut := s.netOut ++ (dropFlits l.buf (l.before q)).map (fun o => { o with again := true }) }

/-- R418: a replay request: the flit and those after it are sent again, after a change of lanes if one goes on (R419); the sixteenth
replay of one flit takes the link DOWN (R420). -/
def execReplayRequest (s : State) : Res :=
  match s.arg with
  | .replayRequest n seq =>
    let l := s.link n
    let q := BitVec.ofNat 12 seq
    if !s.linkUp n || l.unacked - l.held ≤ l.before q then .next s
    else
      let tries := if 0 < l.tries && l.tryOf = q then l.tries + 1 else 1
      let l := { l with replays := l.replays + 1, tries := tries, tryOf := q }
      if 16 ≤ tries then .next ((s.setLink n l).linkLost n)
      else if l.change.isSome then .next (s.setLink n { l with again := some q })
      else .next ((s.setLink n l).replayFrom n q)
  | _ => .next s

/-- R418: the peer acknowledges the oldest flits of a link. -/
def execLinkFlitAck (s : State) : Res :=
  match s.arg with
  | .linkFlitAck n k =>
    let l := s.link n
    if s.linkUp n && 0 < k && k ≤ l.unacked - l.held then .next (s.setLink n { l with buf := dropFlits l.buf k, tries := 0 }).netGo else .next s
  | _ => .next s

/-- R419: a lane is blamed for 64 failures within 2^24 flits: the spare takes its place, or the link goes DOWN where the spare is in
use. -/
def execLaneSpare (s : State) : Res :=
  match s.arg with
  | .laneSpare n lane =>
    let l := s.link n
    if !s.linkUp n || 8 ≤ lane || !l.blamed lane then .next s
    else if l.spared then .next (s.linkLost n)
    else
      .next ((s.setLink n { l with spared := true, lane := lane, change := some (s.cycle + 12500),
                                   blame := l.blame.filter (fun b => b.1 ≠ lane) }).eventOwner (linkDie n) 0x00C
        [fld n 0 ||| fld lane 8])
  | _ => .next s

/-- Sends the flits of the replay buffer that a change of lanes has held up (R419). -/
def State.sendHeld (s : State) (n k : Nat) : State :=
  let l := s.link n
  { s with netOut := s.netOut ++ dropFlits l.buf (l.unacked - k) }

/-- R419: the change of a lane ends, and flits cross the link again. -/
def execLaneSpareDone (s : State) : Res :=
  match s.arg with
  | .laneSpareDone n =>
    let l := s.link n
    if l.change.isSome then
      let s := s.setLink n { l with change := none, again := none, held := 0 }
      .next (match l.again with | some q => s.replayFrom n q | none => s.sendHeld n l.held).netGo
    else .next s
  | _ => .next s

/-- R420: the receiver loses lock, or the peer is removed. -/
def execLinkDown (s : State) : Res :=
  match s.arg with
  | .linkDown n => if s.linkUp n then .next (s.linkLost n) else .next s
  | _ => .next s

/-- R420: an attempt to train, once a millisecond while the link is DOWN and off is 0: the link is TRAINING (R421), and then UP or DOWN
again as the attempt ends. -/
def execLinkTrain (s : State) : Res :=
  match s.arg with
  | .linkTrain n ok peer =>
    let l := s.link n
    if linkAbsent s.part n || 24 < n || l.st = 2 || l.off then .next s
    else if l.st = 1 then .next (if ok then s.linkBack n peer else s.setLink n { l with st := 0 })
    else if s.cycle < l.train then .next s
    else .next (s.setLink n { l with st := 1, train := s.cycle + ms })
  | _ => .next s

/-- Sends a router's acknowledgement toward the source (R417). -/
def State.sendAck (s : State) (via : Option Nat) (ring : Option RingPos) (src dst vnet prio seq : Nat) : State :=
  match s.route via ring src dst with
  | some (n, r) => s.linkGive n (.ack src dst vnet prio seq r) 1
  | none => s

/-- A packet has come over a link (R417, R461). It is forwarded, or accepted if it is the next of its flow and its seal verifies;
anything else of the ordered class is discarded, and the last one accepted is acknowledged again. -/
def State.packetCame (s : State) (link : Nat) (p : NetPkt) (ok : Bool) : State :=
  if p.dst ≠ s.node then s.pumpWait ⟨p, some link⟩
  else
    let sealed_ := match p.sid with | some k => thas s.jobs k | none => false
    if sealed_ && !ok then
      let k := p.sid.getD 0
      let s := { s with viols := tput s.viols k (tget s.viols 0 k + 1) }
      match p.body with
      | .window r =>
        let w := s.win k (winId r.addr)
        if w.st = 2 || w.st = 3 then s.setWin k (winId r.addr) { w with viol := w.viol + 1 } else s
      | _ => s
    else if !p.ordered then s.deliver link p
    else
      let f := (p.src, p.vnet, p.prio)
      let want := tget s.accepts 0 f
      if p.seq = want then
        let s := { s with accepts := tput s.accepts f (want + 1) }
        ((s.countNet p.sid false).deliver link p).sendAck none none s.node p.src p.vnet p.prio p.seq
      else if want = 0 then s
      else s.sendAck none none s.node p.src p.vnet p.prio (want - 1)

/-- R417, R461: a packet's flits arrive over a link; the packet itself once all have (R418). -/
def execRouterAccept (s : State) : Res :=
  match s.arg with
  | .routerAccept rx p ok =>
    .next (s.received (some rx) (linkFlits p.framed p.body.flits) (fun s => s.packetCame rx.link p ok))
  | _ => .next s

/-- A router's acknowledgement frees what it covers, or passes through (R417). `src` is the router that accepted. -/
def State.ackCame (s : State) (link : Nat) (ring : Option RingPos) (src dst vnet prio seq : Nat) : State :=
  if dst ≠ s.node then s.sendAck (some link) ring src dst vnet prio seq
  else
    let k := (src, vnet, prio)
    let f := tget s.flows {} k
    let g : Flow := { f with kept := f.kept.filter (fun x => seq < x.pkt.seq) }
    ({ s with flows := tput s.flows k g } : State).netGo

/-- R417: a router's acknowledgement arrives over a link. -/
def execRouterAck (s : State) : Res :=
  match s.arg with
  | .routerAck rx src dst vnet prio seq ring =>
    .next (s.received (some rx) 1 (fun s => s.ackCame rx.link ring src dst vnet prio seq))
  | _ => .next s

/-- Whether a flow's oldest packet has waited 65,536 cycles for its acknowledgement (R417). -/
def State.resendDue (s : State) (k : Nat × Nat × Nat) : Bool :=
  match (tget s.flows {} k).kept with
  | x :: _ => x.sent && x.at_ + 65536 ≤ s.cycle
  | [] => false

/-- R417: every unacknowledged packet of a flow is sent again, in its order. -/
def execRouterResend (s : State) : Res :=
  match s.arg with
  | .routerResend dst vnet prio =>
    let k := (dst, vnet, prio)
    if s.resendDue k then
      let f := tget s.flows {} k
      let g : Flow := { f with kept := f.kept.map (fun x => { x with sent := false }) }
      .next ({ s with flows := tput s.flows k g } : State).netGo
    else .next s
  | _ => .next s

end Sys2Proof.Machine
end

