-- ==== Sys2Proof/Machine/Launch.lean ====
section
/-! DEFINITION. Launching a job (R21 to R24, R27): the manifest, the span, the initial barges. -/

namespace Sys2Proof.Machine

open Sys2Proof

/-- Why a launch is refused: the cause the manual gives, or none where it gives none (a free value, log 41). -/
abbrev Why := Option Cause

/-- A check of the loader as a step of a launch. -/
def Chk.step {α : Type} (c : Except Cause α) : Except Why α :=
  match c with
  | .ok x => .ok x
  | .error x => .error (some x)

/-- Requires a form of the manifest. -/
def formed (b : Bool) : Except Why Unit := if b then .ok () else .error (some .illegalForm)

/-! ## The manifest (R22, R27) -/

def mHives (m : List Byte) : Nat := recN m 8 2
def mSpan (m : List Byte) : Word := BitVec.ofNat 64 (recN m 0x38 8)
def mSid (m : List Byte) : Nat := bitsN (mSpan m) 15 0
def mDevices (m : List Byte) : Nat := bitsN (mSpan m) 27 16
def mLead (m : List Byte) : Nat := bitsN (mSpan m) 48 28

/-- The span word (R27). -/
def spanOk (node : Nat) (m : List Byte) : Bool :=
  bitsN (mSpan m) 63 49 = 0 &&
  (if mSid m = 0 then mDevices m ≤ 1 else 1 ≤ mDevices m) &&
  (if 1 < mDevices m then nodePos (mLead m) < 144 else mLead m = node || mLead m = 0)

/-- The header (R22), against the manifest's length. -/
def manifestHead (part : Part) (m : List Byte) : Bool :=
  recN m 0 4 = 0x4C454B4D && recN m 4 2 = 1 && recN m 6 2 = 0 && 1 ≤ mHives m && mHives m ≤ 64 * part.dies &&
  1 ≤ recN m 0x0A 1 && recN m 0x0A 1 ≤ 3 && recN m 0x0C 4 = 0 && recN m 0x10 8 % 4096 = 0 &&
  recN m 0x18 4 % 64 = 0 && 1 ≤ recN m 0x1C 4 && recN m 0x1C 4 ≤ 4096 && recN m 0x20 4 % 64 = 0 && recN m 0x24 4 ≤ 16384 &&
  sectionOk (recN m 0x28 4) (recN m 0x2C 4) 16 m.length && recN m 0x2C 4 ≤ 65536 &&
  sectionOk (recN m 0x30 4) (recN m 0x34 4) 64 m.length && 1 ≤ recN m 0x34 4 && recN m 0x34 4 ≤ 65536

/-- Words of a section. -/
def recWord (m : List Byte) (off : Nat) : Word := BitVec.ofNat 64 (recN m off 8)

/-- What a launch installs: the SID, the job, counter settings, and data for every core's local memory. -/
structure Plan where
  sid : Nat
  job : Job
  sets : List (CoreId × Word)
  data : List (Nat × List Byte)
  deriving DecidableEq, Repr

/-- Whether a hive can be allotted (R267): ONLINE, held by no SID, and not the end of a move. -/
def State.hiveFree (s : State) (h : HiveId) : Bool :=
  tget s.hiveSt 0 h = 0 && !s.jobs.any (fun j => j.2.hives.contains h) && !s.moves.any (fun m => m.2.dest = h)

/-- The free hives in ascending index, die 0 first (R23). -/
def State.freeHives (s : State) : List HiveId :=
  ((List.range (64 * s.part.dies)).map (fun n => HiveId.mk (n / 64) (n % 64))).filter s.hiveFree

/-- What a fault of an initial barge or of a counter the manifest set is reported as: of the lockkeeper, at rank 7 (R108, R209). -/
def lockOrigin (node : Nat) (c : CoreId) (sid : Nat) (tag : BitVec 40) : Origin :=
  { core := c, sid := sid, edge := 0xFFFF, rank := 7, image := 0, slot := 0, tag := tag.toNat, ident := lockWord node 0 }

/-- The core a counter setting names, and its operand (R22, R144): a handler core of a hive of the job. -/
def setting (s : State) (hives : List HiveId) (r op : Word) : Except Why (CoreId × Word) := do
  formed (bitsN r 63 62 = 0 && bitsN r 30 30 = 0 && routeForm r && routeNode r = s.node && csetForm op)
  if s.part.dies ≤ bitsN r 40 40 then .error (some .unavailable)
  match routeCore r with
  | .hc d h m => if hives.contains ⟨d, h⟩ then .ok (.hc d h m, op) else .error (some .remoteViolation)
  | .ec _ _ => .error (some .illegalForm)

/-- The checks of steps 1 to 7 of R23, in their order, and what they lead to. Where no SID is free for a span word whose sid is 0, and where
too few hives are free, the manual gives no cause (log 41). -/
def State.plan_ (s : State) (route ctl p0 p1 p2 : Word) : Except Why Plan := do
  formed (hostRoute s.node route && ctlPrio ctl = 1 && ctlCount ctl = 3 && bitsN ctl 45 40 = 0)
  formed (bitsN p2 63 2 = 0 && p0.toNat % 64 = 0 && 64 ≤ p1.toNat)
  let m := s.bytes (.comp p0.toNat) p1.toNat
  formed (manifestHead s.part m)
  let his := imagesAt m 0x2C (recN m 0x1C 4) (recN m 0x18 4)
  let gis := imagesAt m 0x30 (recN m 0x24 4) (recN m 0x20 4)
  formed (his.isSome && gis.isSome && spanOk s.node m)
  let his := his.getD []
  let gis := gis.getD []
  let sid ← (if mSid m ≠ 0 then
      (if thas s.jobs (mSid m) then .error (some Cause.busy) else .ok (mSid m))
    else
      match (List.range 65535).find? (fun n => !thas s.jobs (n + 1)) with
      | some n => .ok (n + 1)
      | none => .error none : Except Why Nat)
  let hives := s.freeHives.take (mHives m)
  if hives.length < mHives m then .error none
  let hs ← Chk.step (checkHandlers s.part his)
  Chk.step (each (checkGraph s.part hs) gis)
  let sets ← (List.range (recN m 0x2C 4)).mapM (fun i =>
    setting s hives (recWord m (recN m 0x28 4 + 16 * i)) (recWord m (recN m 0x28 4 + 16 * i + 8)))
  let h0 := hives.headD ⟨0, 0⟩
  let tag : BitVec 40 := BitVec.ofNat 40 (bitsN ctl 39 0)
  let starts := (List.range (recN m 0x34 4)).map (fun i =>
    let off := recN m 0x30 4 + 64 * i
    let c := recWord m (off + 8)
    let b : Barge := { route := recWord m off, ctl := c, payload := (List.range (ctlCount c)).map (fun k => recWord m (off + 16 + 8 * k)),
                       src := lockWord s.node 0, sid := sid, origin := some (lockOrigin s.node (.hc h0.die h0.hive 0) sid tag) }
    b)
  let section_ := ((m.drop (recN m 0x18 4)).take ((his.map (fun b => (b.length + 63) / 64 * 64)).sum))
  let sp : Span := { devices := max 1 (mDevices m), lead := if mDevices m ≤ 1 then s.node else mLead m, digest := Config.sha384 section_ }
  let j : Job :=
    { handlers := hs, graphs := gis, hives := hives, root := recN m 0x10 8, tag := tag, basin := bitsN p2 1 0, dom := recN m 0x0A 1,
      reachlim := if recN m 0x0B 1 = 0 then 16 else recN m 0x0B 1, members := [], span := sp, state := .launching, start := starts,
      policy := s.policy }
  .ok { sid := sid, job := j, sets := sets,
        data := his.map (fun b => (recN b 0x1C 4, (b.drop (recN b 0x28 4)).take (recN b 0x18 4))) }

/-! ## Installing and undoing -/

/-- Clears the memories of a hive's 16 tiles (R218). -/
def State.zeroHive (s : State) (h : HiveId) : State :=
  let lo := (Loc.tile ⟨h.die, h.hive, 0⟩ 0).key
  let hi := lo + 2 ^ 34
  { s with mem := memClear s.mem lo hi, poison := s.poison.filter (fun q => q < lo || hi ≤ q) }

/-- The handler cores of a hive. -/
def HiveId.cores (h : HiveId) : List CoreId := (List.range 8).map (CoreId.hc h.die h.hive)

/-- A hive as a new holder finds it (R23, R116, R437, R438): memories zero, basins, counters and queues empty, SPILLCNT, NRETRY and
RTIMEOUT at their reset values. STALEDROP and message numbers go on. -/
def State.freshHive (s : State) (h : HiveId) : State :=
  h.cores.foldl (fun s c =>
    let k := s.core c
    s.setCore c { nextId := k.nextId, nextRel := k.nextRel, stale := k.stale }) (s.zeroHive h)

/-- Steps 2 to 7 of R23. An edge core's NRETRY and RTIMEOUT of the SID reset (R438). -/
def State.install (s : State) (p : Plan) : State :=
  let s := p.job.hives.foldl State.freshHive s
  let s := { s with cores := s.cores.map (fun e =>
    match e.1 with
    | .ec _ _ => (e.1, { e.2 with nretry := tdel e.2.nretry p.sid, rtimeout := tdel e.2.rtimeout p.sid })
    | _ => e) }
  let s := p.job.hives.foldl (fun s h => h.cores.foldl (fun s c =>
    match c.tile? with
    | some t => p.data.foldl (fun s d => s.store (.tile t d.1) d.2) s
    | none => s) s) s
  let s := p.sets.foldl (fun (s : State) e =>
    let op := e.2
    let x : Counter :=
      { target := bitsN op 31 12, barrier := bitsN op 8 8 = 1, action := bitsN op 7 6, arg := op.extractLsb' 32 32,
        origin := some (lockOrigin s.node e.1 p.sid 0), phase := bitsN op 9 9 }
    s.setCore e.1 { s.core e.1 with counters := tput (s.core e.1).counters (bitsN op 5 0) x }) s
  s.setJob p.sid p.job

/-- The code of a refusal's cause: a free value where the manual gives none. -/
def State.whyCode (s : State) (w : Why) : State × Nat :=
  match w with
  | some c => (s, c.code)
  | none => (s.draw, Config.freeNat s.free % 256)

/-- A REFUSED event for a launch, to its host basin, with its tag; then the lockkeeper takes the next host barge (R24, R478). -/
def State.refused (s : State) (basin tag : Nat) (w : Why) : State :=
  let r := s.whyCode w
  (r.1.basinPut basin (eventWords r.1.node 0 0x002 tag [fld r.2 0])).hostNext

/-- R24: a launch that has been installed is undone, and refused. -/
def State.unlaunch (s : State) (sid : Nat) (w : Why) : State :=
  let j := s.job sid
  let s := j.hives.foldl State.freshHive s
  ({ s with jobs := tdel s.jobs sid } : State).refused j.basin j.tag.toNat w

/-! ## Initial barges -/

/-- Where an initial barge goes. A lockkeeper has no local memory, and reads page tables itself; route mode 0b11 names a handler
core of the job, a free value. -/
def State.startDest (s : State) (sid : Nat) (b : Barge) : Except Why Dest :=
  let mode := bitsN b.route 63 62
  if mode = 1 && bitsN b.route 61 60 = 0 then .error (some .addrForm)
  else
    match checkBarge s (.hc 0 0 0) 0 sid b.route b.ctl with
    | .error e => .error (some e.cause)
    | .ok (.global va) =>
      if !ctlForm s sid 1 false b.ctl then .error (some .illegalForm)
      else
        (match s.walkVa sid va with
         | some (e, size, _) =>
           (match leafAnswer e size va .route with
            | .ok l => (match l.home with | .core c => .ok (.core c) | _ => .error (some .access))
            | .nack => .error (some .pageFault)
            | .access => .error (some .access))
         | none => .error (some .pageFault))
    | .ok d => .ok d

/-- Sends an initial barge (step 9 of R23). -/
def State.inject (s : State) (b : Barge) (d : Dest) : State :=
  match d with
  | .core c => s.sendLock 0 c b
  | .node _ c => s.sendLock 0 c b
  | .any =>
    let hs := (s.job b.sid).hives
    let n := Config.freeNat s.free % (8 * hs.length)
    let h := (hs[n / 8]?).getD ⟨0, 0⟩
    s.draw.sendLock 0 (.hc h.die h.hive (n % 8)) b
  | .lock n die => if n = s.node then s.post .none (.jobEnd die b.sid none) else s.toNet n (some b.sid) (.jobBarge die b)
  | .global _ => s

/-- Steps 9 and 10 of R23, once the member table and the key are there. -/
def State.started (s : State) (sid : Nat) : State :=
  let j := s.job sid
  match j.start.mapM (fun b => (s.startDest sid b).map (fun d => (b, d))) with
  | .error w => s.unlaunch sid w
  | .ok l =>
    let s := s.setJob sid { j with state := .running, start := [], span := { j.span with deadline := none } }
    ((l.foldl (fun s e => s.inject e.1 e.2) s).eventJob 0 0x001 sid [fld sid 0]).hostNext

/-! ## The span (R27) -/

/-- The lead's answer to every member once the count is reached. -/
def State.spanCount (s : State) (sid : Nat) : State :=
  let j := s.job sid
  if j.span.lead ≠ s.node || j.span.joined.length < j.span.devices then s
  else
    let ms := sortKey id j.span.joined
    let key := Config.sessionKey s.free
    let s := s.draw.setJob sid { j with members := ms, key := key }
    (ms.foldl (fun s n => if n = s.node then s else s.toNet n none (.spanAnswer sid ms key true)) s).started sid

/-- Whether a launch waits in step 8. -/
def State.spanning (s : State) (sid : Nat) : Bool :=
  thas s.jobs sid && (s.job sid).state = .launching

/-- The lead counts a member of the job it launches, or refuses one whose SID, devices field or digest differs. -/
def State.takeJoin (s : State) (sid : Nat) (m : SpanMsg) : State :=
  let j := s.job sid
  if m.sid = sid && j.span.lead = s.node && j.span.devices = m.devices && j.span.digest = m.digest then
    if j.span.joined.contains m.node then s
    else s.setJob sid { j with span := { j.span with joined := j.span.joined ++ [m.node] } }
  else s.toNet m.node none (.spanAnswer m.sid [] 0 false)

/-- A member sends SPAN_JOIN over its session with the lead, and waits 10 s. -/
def State.sendJoin (s : State) (sid : Nat) : State :=
  let j := s.job sid
  let s := s.setJob sid { j with span := { j.span with deadline := some (s.cycle + 10 * second), asking := true } }
  s.toNet j.span.lead none (.spanJoin sid j.span.devices s.node j.span.digest)

/-- A member's request of a step of its session with the lead (R455): the messages of R456 but for the switch's own, and FINISH. -/
def State.sessionAsk (s : State) (sid step : Nat) : State :=
  let j := s.job sid
  let s := s.setJob sid { j with span := { j.span with session := step } }
  match s.hop j.span.lead with
  | some n => s.mgmt n (.spdm step)
  | none => s

/-- The step after one of a session with the lead, none after FINISH. -/
def sessionNext (step : Nat) : Option Nat :=
  match step with
  | 5 => some 10
  | 11 => none
  | k => some (k + 1)

/-- Step 8 of R23. A session that does not come about within 10 s leaves the span unformed, as a table that does not come does (R24,
log 131). -/
def State.formSpan (s : State) (sid : Nat) : State :=
  let j := s.job sid
  if j.span.devices = 1 then (s.draw.setJob sid { j with members := [s.node], key := Config.sessionKey s.free }).started sid
  else if j.span.lead = s.node then
    let early := s.ctl.joins.filter (fun e => s.cycle < e.2 + 10 * second)
    let s := s.onCtl (fun c => { c with joins := [] })
    let s := s.setJob sid { j with span := { j.span with joined := [s.node], deadline := some (s.cycle + 10 * second) } }
    (early.foldl (fun s e => s.takeJoin sid e.1) s).spanCount sid
  else if s.sessions.contains j.span.lead then s.sendJoin sid
  else
    let s := s.setJob sid { j with span := { j.span with deadline := some (s.cycle + 10 * second) } }
    s.sessionAsk sid 1

/-- R21 to R24: die 0's lockkeeper takes a LAUNCH barge. Where the job holds hives of die 1, that die's lockkeeper loads its images at
die 0's instruction (R12): the launch waits while it restarts. A device that has tripped launches nothing (R494). -/
def execLaunch (s : State) : Res :=
  match s.arg with
  | .launch route ctl p0 p1 p2 =>
    .next (s.byLock 0 (fun s =>
      if s.ctl.trip then s else
      match s.plan_ route ctl p0 p1 p2 with
      | .error w => s.refused (bitsN p2 1 0) (bitsN ctl 39 0) w
      | .ok p => s.byLock (if p.job.hives.any (fun h => h.die = 1) then 1 else 0) (fun s => (s.install p).formSpan p.sid)))
  | _ => .next s

/-- R455: the lead's lockkeeper answers a step of a member's session: the next one, or the session is open and SPAN_JOIN goes, or the response
fails as that of a switch does (R456), and the span cannot be formed. -/
def execLeadSessionResponse (s : State) : Res :=
  match s.arg with
  | .leadSessionResponse sid m =>
    .next (s.byLock 0 (fun s =>
      let sp := (s.job sid).span
      if !s.spanning sid || sp.lead = s.node || sp.asking || m.step ≠ sp.session then s
      else if s.spdmReason 0 m ≠ 0 then s.unlaunch sid none
      else
        match sessionNext m.step with
        | some k => s.sessionAsk sid k
        | none => ({ s with sessions := s.sessions ++ [sp.lead] } : State).sendJoin sid))
  | _ => .next s

/-- The job whose launch waits in step 8 with this device as its lead (R27). One launch is under way at a time (R478). -/
def State.leading (s : State) : Option Nat :=
  (s.jobs.find? (fun e => e.2.state = .launching && e.2.span.lead = s.node)).map Prod.fst

/-- R27: the lead counts a member, or refuses it. A SPAN_JOIN that comes before the lead's own launch of the SID is kept for it. -/
def execSpanJoin (s : State) : Res :=
  match s.arg with
  | .spanJoin m =>
    .next (s.byLock 0 (fun s =>
      match s.leading with
      | some sid => (s.takeJoin sid m).spanCount sid
      | none =>
        if thas s.jobs m.sid then s.toNet m.node none (.spanAnswer m.sid [] 0 false)
        else s.onCtl (fun c => { c with joins := c.joins.filter (fun e => e.1.sid ≠ m.sid || e.1.node ≠ m.node) ++ [(m, s.cycle)] })))
  | _ => .next s

/-- R27: a member receives the table and the key, or its refusal. -/
def execSpanAnswer (s : State) : Res :=
  match s.arg with
  | .spanAnswer sid ms key ok =>
    .next (s.byLock 0 (fun s =>
      if !s.spanning sid || (s.job sid).span.lead = s.node then s
      else if ok then (s.setJob sid { s.job sid with members := ms, key := key }).started sid
      else s.unlaunch sid (some .illegalForm)))
  | _ => .next s

/-- Whether the 10 s of R27 have run out. -/
def State.spanLate (s : State) (sid : Nat) : Bool :=
  s.spanning sid && (match (s.job sid).span.deadline with | some d => d ≤ s.cycle | none => false)

/-- R27: no table within 10 s of SPAN_JOIN. -/
def execSpanJoinTimeout (s : State) : Res :=
  match s.arg with
  | .spanJoinTimeout sid =>
    .next (s.byLock 0 (fun s =>
      if s.spanLate sid && (s.job sid).span.lead ≠ s.node then s.unlaunch sid (some .linkTimeout) else s))
  | _ => .next s

/-- R27: the lead's count is not reached within 10 s: it refuses itself and every member it has counted. -/
def execSpanLeadTimeout (s : State) : Res :=
  match s.arg with
  | .spanLeadTimeout sid =>
    .next (s.byLock 0 (fun s =>
      let sp := (s.job sid).span
      if s.spanLate sid && sp.lead = s.node then
        (sp.joined.foldl (fun s n => if n = s.node then s else s.toNet n none (.spanAnswer sid [] 0 false)) s).unlaunch sid
          (some .linkTimeout)
      else s))
  | _ => .next s

end Sys2Proof.Machine
end

