-- ==== Sys2Proof/Machine/JobEnd.lean ====
section
/-! DEFINITION. How a job ends (R25, R26, R28, R409 to R411, R472, R473): whose a step is, completion and deadlock, the
reports of a spanning job, what is freed. -/

namespace Sys2Proof.Machine

open Sys2Proof

/-! ## Whose a step is (R410) -/

/-- The SID whose hive a core is, or that an edge core's next release is of. -/
def State.coreSid (s : State) (c : CoreId) : Option Nat :=
  match c.hive? with
  | some h => s.sidOf h
  | none => ((s.core c).relq.head?).map Released.sid

/-- The SID that holds a tile's hive. -/
def State.tileSid (s : State) (t : TileId) : Option Nat := s.sidOf ⟨t.die, t.hive⟩

/-- The SID of a plane's or an instance's job. -/
def State.instSid (s : State) (i : InstId) : Option Nat := (s.inst i).map Inst.sid
def State.planeSid (s : State) (p : PlaneId) : Option Nat := (s.plane p).inst.bind s.instSid

/-- The SID a message on a link is of. -/
def LinkMsg.sid : LinkMsg → Option Nat
  | .pkt p _ => p.sid
  | .coll b _ => some b.collSid
  | .mgmt _ (.install sid _) => some sid
  | .mgmt _ (.remove sid) => some sid
  | .mgmt _ (.register sid _) => some sid
  | _ => none

/-- The SID of the oldest packet a flow keeps. -/
def State.flowSid (s : State) (k : Nat × Nat × Nat) : Option Nat := ((tget s.flows {} k).kept.head?).bind (fun x => x.pkt.sid)

/-- The SID of the oldest flit a link has unacknowledged. -/
def State.linkSid (s : State) (n : Nat) : Option Nat := ((s.link n).buf.head?).bind (fun o => o.msg.sid)

/-- The SID of an entry of the exactly-once table. -/
def State.onceSid (s : State) (node : Nat) (c : CoreId) (slot seq : Nat) : Option Nat :=
  (s.once.find? (fun o => o.req.node = node && o.req.core = c && o.req.slot = slot && o.req.seq = seq)).map (fun o => o.req.sid)

/-- The SID a step acts for; none for the machine's own work. -/
def State.evSid (s : State) : Ev → Option Nat
  | .bargeArrival _ _ it => some it.load.sid
  | .busyReply src id => (s.sendRec src id).map (fun r => r.item.load.sid)
  | .bargeResend src id => (s.sendRec src id).map (fun r => r.item.load.sid)
  | .remoteReject src id _ => (s.sendRec src id).map (fun r => r.item.load.sid)
  | .promotion c p => ((s.core c).basin.find? (fun e => e.prio = p)).map (fun e => e.load.sid)
  | .faultRedelivery c => ((((s.core c).basin ++ (s.core c).faults).find? (fun e => e.prio = 0)).map (fun e => e.load.sid))
  | .dispatch c => match c.hive? with | some h => s.sidOf h | none => (s.nextItem c).map (fun e => e.load.sid)
  | .deposit _ d => some d.sid
  | .heldDepositApply t => some (s.ctx t).sid
  | .loadReply t _ _ _ => some (s.ctx t).sid
  | .completionArrival _ x => some x.sid
  | .stealRequest a _ => s.coreSid a
  | .stealVictim _ a => s.coreSid a
  | .stealAnswer a _ => s.coreSid a
  | .joinPerform r => some r.sid
  | .loadPerform r => some r.sid
  | .storePerform r => some r.sid
  | .atomicPerform r => some r.sid
  | .queueReserve r => some r.sid
  | .queueSettle r => some r.sid
  | .counterArrival c _ => s.coreSid c
  | .counterCarryFire c _ => s.coreSid c
  | .commit t => some (s.ctx t).sid
  | .effectRelease c => s.coreSid c
  | .probeAnswer t _ _ _ _ => some (s.ctx t).sid
  | .preemption t => some (s.ctx t).sid
  | .preemptionEnd t => some (s.ctx t).sid
  | .rank7Fault _ b => some b.sid
  | .storeAck c rel => ((s.core c).outs.find? (fun o => o.rel = rel)).map Out.sid
  | .pushSend c => s.coreSid c
  | .migrShip t => some (s.ctx t).sid
  | .fenceDone t => some (s.ctx t).sid
  | .drainDone t => some (s.ctx t).sid
  | .translation _ r => some r.sid
  | .missRetry _ r => some r.sid
  | .pageWalk n id => ((s.station n).walks.find? (fun w => w.id = id)).map Walk.sid
  | .tokenArrival a _ => s.planeSid a.dst
  | .arcAck a => s.planeSid a.dst
  | .planeSwitch t => s.tileSid t
  | .memNodeCompletion r _ _ => s.planeSid r.plane
  | .writePortToken g => s.tileSid g.tile
  | .bufferReopen g => s.tileSid g.tile
  | .passStart g => s.tileSid g.tile
  | .towpathStart g => s.tileSid g.tile
  | .towpathStop g => s.tileSid g.tile
  | .freedSlotNotice n => s.tileSid n.gen.tile
  | .jointBarrier h => s.sidOf h
  | .opHeadCheck h => s.sidOf h
  | .opStart h => s.sidOf h
  | .blockStart h => s.sidOf h
  | .blockEnd h => s.sidOf h
  | .opComplete h => s.sidOf h
  | .sliceStart h _ => s.sidOf h
  | .jdrainComplete h _ => s.sidOf h
  | .partialCombine h _ => s.sidOf h
  | .haulStart c => s.coreSid c
  | .haulAccessAnswer c _ _ _ => s.coreSid c
  | .haulComplete c _ => s.coreSid c
  | .haulCancel c _ _ => s.coreSid c
  | .hslotPerform _ _ o _ => some o.sid
  | .graphReserve g => some g.origin.sid
  | .gloadPerform g => some g.origin.sid
  | .gswapPerform g => some g.origin.sid
  | .gmarkPerform g => some g.origin.sid
  | .gsavePerform g => some g.origin.sid
  | .grestPerform g => some g.origin.sid
  | .gloadDone i => s.instSid i
  | .reconfPass i _ => s.instSid i
  | .swapEnd i => s.instSid i
  | .nodeRecord i _ => s.instSid i
  | .cutComplete i => s.instSid i
  | .gsaveDone i => s.instSid i
  | .grestDone i => ((tfind s.saves i).map (fun v => v.op.origin.sid))
  | .gctxPerform t _ _ _ => s.tileSid t
  | .windowReserve g => some g.sid
  | .wclosePerform g => some g.sid
  | .windowPieceCheck r => some r.sid
  | .windowFreed sid _ => some sid
  | .ratomPerform n => (tfind s.winReqs n).map (fun w => w.req.sid)
  | .remoteAnswer r _ => some r.sid
  | .remoteAttemptTimeout c slot seq _ _ => (tfind s.wreqs (c, slot, seq)).map (fun a => a.req.sid)
  | .requestIdRelease n c slot seq => s.onceSid n c slot seq
  | .requestIdExpiry n c slot seq => s.onceSid n c slot seq
  | .cjoinReserve g => some g.sid
  | .cjoinCheck g => some g.sid
  | .pathCheck m => some m.sid
  | .pathCheckAnswer m _ => some m.sid
  | .pathCheckReask sid _ _ => some sid
  | .pathCheckTimeout sid _ _ => some sid
  | .keyInstallAck _ sid _ _ => some sid
  | .switchErrorAnswer _ sid _ _ => some sid
  | .contributionArrival m _ => some m.sid
  | .resultArrival m _ => some m.sid
  | .elementError e => s.tileSid e.tile
  | .routerAccept _ p _ => p.sid
  | .routerAck _ src _ vnet prio _ _ => s.flowSid (src, vnet, prio)
  | .routerResend dst vnet prio => s.flowSid (dst, vnet, prio)
  | .replayRequest n _ => s.linkSid n
  | .linkFlitAck n _ => s.linkSid n
  | _ => none

/-! ## Completion and idleness (R25, R410) -/

/-- Whether a core holds anything of a SID that R25 counts. -/
def Core.busyFor (k : Core) (sid : Nat) : Bool :=
  k.basin.any (fun e => e.load.sid = sid) || k.spill.any (fun e => e.load.sid = sid) || k.faults.any (fun e => e.load.sid = sid) ||
  k.lane.any (fun d => d.sid = sid) || k.comps.any (fun e => e.comp.sid = sid) || k.stolen.any (fun b => b.sid = sid)

/-- The completion condition of R25 on this device; a generator's ports are arcs (R315), and a joint array with work left keeps the SID
from being complete, so that a stalled one is a deadlock (R353; log 134). -/
def State.jobQuiet (s : State) (sid : Nat) : Bool :=
  !s.joints.any (fun e => s.sidOf e.1 = some sid && (e.2.ops ≠ [] || e.2.runs ≠ [] || e.2.queues.any (fun q => q.2 ≠ []))) &&
  !s.ctxs.any (fun e => e.2.sid = sid && e.2.status ≠ .free) && !s.cores.any (fun e => e.2.busyFor sid) &&
  !s.hauls.any (fun e => e.2.sid = sid && (match tget s.tags TagState.free e.1 with | .queued => true | .running => true | _ => false)) &&
  !s.insts.any (fun e => e.2.sid = sid &&
    (s.arcMoving e.1 || (s.instGens e.1).any (fun g => (s.gen g).wport.isSome || (s.gen g).rport.isSome) || (s.instPlanes e.1).any (fun p => (s.plane p).latch ≠ [] || (s.plane p).outs ≠ [] || (s.plane p).held ≠ [])))

/-- A member's die 0 has no route to its lead (R28). -/
def State.leadLost (s : State) (j : Job) : Bool :=
  1 < j.span.devices && j.span.lead ≠ s.node && (s.hop j.span.lead).isNone

/-- What the detectors note after each step (R410): since when a job has been complete, when it last acted, since when its lead
has been out of reach. `act` is the SID the step acted for. -/
def State.observe (s : State) (act : Option Nat) : State :=
  { s with jobs := s.jobs.map (fun e =>
      let j := e.2
      if j.state ≠ .running then e
      else
        let since (b : Bool) (o : Option Nat) : Option Nat := if b then some (o.getD s.cycle) else none
        (e.1, { j with
          quietSince := since (s.jobQuiet e.1) j.quietSince,
          idleSince := if act = some e.1 then some s.cycle else some (j.idleSince.getD s.cycle),
          span := { j.span with routeLostAt := since (s.leadLost j) j.span.routeLostAt } })) }

/-- Complete for 4,096 cycles, and idle for 2^24 without being complete (R410). -/
def State.completeNow (s : State) (sid : Nat) : Bool :=
  (s.job sid).state = .running && (match (s.job sid).quietSince with | some c => c + 4096 ≤ s.cycle | none => false)
def State.idleNow (s : State) (sid : Nat) : Bool :=
  (s.job sid).state = .running && (match (s.job sid).idleSince with | some c => c + 2 ^ 24 ≤ s.cycle | none => false)

/-! ## What is freed (R25, R473) -/

/-- The completions a core owes a SID (R134): queued, on their way, or of operations under way. -/
def State.owedBy (s : State) (c : CoreId) (sid : Nat) : Nat :=
  let k := s.core c
  let g (o : GraphOp) : Bool := o.origin.core = c && o.origin.sid = sid && o.op < 256
  let waves := s.insts.flatMap (fun e => e.2.waitq ++ (match e.2.wave with | some w => w.op :: w.joined | none => []))
  let saves := s.saves.flatMap (fun e => e.2.op :: e.2.waitq)
  let sent := s.pending.filter (fun p => match p.ev with
    | .completionArrival d x => d = c && x.sid = sid
    | .gloadPerform o => g o
    | .gswapPerform o => g o
    | .gmarkPerform o => g o
    | .gsavePerform o => g o
    | .grestPerform o => g o
    | .wclosePerform w => w.origin.core = c && w.sid = sid
    | .cjoinCheck w => w.origin.core = c && w.sid = sid
    | _ => false)
  (k.comps.filter (fun e => e.comp.sid = sid)).length + (k.relq.filter (fun r => r.sid = sid && r.buf.eff.completes)).length +
  ((waves ++ saves).filter g).length + sent.length + (s.rslots.filter (fun e => e.1.1 = c && e.2.sid = sid)).length +
  (s.groups.filter (fun e => e.1.1 = sid && e.2.by_.core = c && e.2.st = 2)).length +
  (s.wins.filter (fun e => e.1.1 = sid && (match e.2.closing with | some w => w.origin.core = c | none => false))).length

/-- A core without what a SID has in it. -/
def State.purgeCore (s : State) (sid : Nat) (c : CoreId) (k : Core) : Core :=
  let mine (l : Load) : Bool := l.sid ≠ sid
  { k with
    basin := k.basin.filter (fun e => mine e.load), spill := k.spill.filter (fun e => mine e.load),
    faults := k.faults.filter (fun e => mine e.load), lane := k.lane.filter (fun d => d.sid ≠ sid),
    comps := k.comps.filter (fun e => e.comp.sid ≠ sid), owed := k.owed - s.owedBy c sid,
    deque := k.deque.filter (fun e => e.barge.sid ≠ sid), steal := if s.coreSid c = some sid && c.isHandler then none else k.steal,
    counters := k.counters.filter (fun e => (e.2.origin.map Origin.sid) ≠ some sid), sends := k.sends.filter (fun e => mine e.2.item.load),
    relq := k.relq.filter (fun r => r.sid ≠ sid), outs := k.outs.filter (fun o => o.sid ≠ sid),
    stolen := k.stolen.filter (fun b => b.sid ≠ sid), fired := k.fired.filter (fun e => e.barge.sid ≠ sid) }

/-- Gives back the queue places that dropped reaches had reserved (R231). -/
def State.giveBack (s : State) (r : Released) : State :=
  let op : Option (Word × Loc × MemOp) :=
    match r.buf.eff with
    | .pushDrop a l => some (a, l, .pushRelease)
    | .popDrop a l => some (a, l, .popRelease)
    | _ => none
  match op with
  | some (a, l, o) => s.settleAt { asker := .none, sid := r.sid, loc := l, addr := a, op := o }
  | none => s

/-- The steps in flight without those of a SID. -/
def State.dropPending (s : State) (sid : Nat) : State :=
  { s with pending := s.pending.filter (fun p => s.evSid p.ev ≠ some sid) }

/-- What a die ends of a SID (R473 step 8): threads, instances and hauls. -/
def State.tally (s : State) (sid die : Nat) : Nat × Nat × Nat :=
  ((s.ctxs.filter (fun e => e.2.sid = sid && e.2.status ≠ .free && e.1.core.die = die)).length,
   (s.insts.filter (fun e => e.2.sid = sid && e.1.die = die)).length,
   (s.hauls.filter (fun e => e.2.sid = sid && e.1.1.die = die)).length)

/-- The stations of a die that have anything. -/
def State.stationsAt (s : State) (die : Nat) : List Nat := (s.stations.map Prod.fst).filter (fun n => n / 32 = die)

/-- Steps 1 to 4 of R473 on one die, and the freeing of R25: threads without a commit, instances, hauls without a completion, joint
queues, groups, windows, remote slots and exactly-once entries; what is in flight is dropped (step 5). Misses of other SIDs take the places of its walks
(R272). -/
def State.purgeDie (s : State) (sid die : Nat) : State :=
  let s := s.dropPending sid
  let s := s.ctxs.foldl (fun s e =>
    if e.2.sid = sid && e.2.status ≠ .free && e.1.core.die = die then (s.dropReach e.1).freeCtx e.1 else s) s
  let s := (s.cores.flatMap (fun e => if e.1.die = die then e.2.relq.filter (fun r => r.sid = sid) else [])).foldl State.giveBack s
  let s : State := { s with cores := s.cores.map (fun e => if e.1.die = die then (e.1, s.purgeCore sid e.1 e.2) else e) }
  let s := s.insts.foldl (fun (s : State) e =>
    if e.2.sid = sid && e.1.die = die then { s with saves := tdel s.saves e.1 }.dropInst e.1 else s) s
  let mine (c : CoreId) : Bool := c.die = die && (match c.hive? with | some h => s.sidOf h = some sid | none => false)
  let hive (h : HiveId) : Bool := h.die = die && s.sidOf h = some sid
  let s : State :=
    { s with
      dropped := s.dropped.filter (fun d => !(d.sid = sid && d.core.die = die)),
      tags := s.tags.filter (fun e => !mine e.1.1), hauls := s.hauls.filter (fun e => !(e.2.sid = sid && e.1.1.die = die)),
      joints := s.joints.filter (fun e => !hive e.1), slices := s.slices.filter (fun e => !hive e.1.1),
      tiles := s.tiles.map (fun e => if hive ⟨e.1.die, e.1.hive⟩ then (e.1, { spare := e.2.spare }) else e),
      groups := s.groups.filter (fun e => !(e.1.1 = sid && e.2.die = die)),
      rslots := s.rslots.filter (fun e => !(e.2.sid = sid && e.1.1.die = die)),
      wreqs := s.wreqs.filter (fun e => !(e.2.req.sid = sid && e.1.1.die = die)),
      lockSends := s.lockSends.filter (fun e => !(e.1.1 = die && e.2.item.load.sid = sid)),
      egress := s.egress.map (fun e => if e.1.1 = die then (e.1, e.2.without (fun x => x.body.collSid = sid)) else e),
      stations := s.stations.map (fun e => if e.1 / 32 = die then
        (e.1, { e.2 with cache := e.2.cache.filter (fun x => x.sid ≠ sid), walks := e.2.walks.filter (fun w => w.sid ≠ sid),
                         waitq := e.2.waitq.filter (fun r => r.sid ≠ sid) }) else e) }
  let s : State :=
    if die = 0 then
      { s with wins := s.wins.filter (fun e => e.1.1 ≠ sid), winReqs := s.winReqs.filter (fun e => e.2.req.sid ≠ sid),
               once := s.once.filter (fun o => o.req.sid ≠ sid) }
    else s
  (s.stationsAt die).foldl State.takeWaiting (s.dropPending sid)

/-- A hive event (R479). -/
def State.hiveEvent (s : State) (h : HiveId) (old new status : Nat) : State :=
  s.eventOwner 0 0x011 [fld (64 * h.die + h.hive) 0 ||| fld old 8 ||| fld new 10 ||| fld status 12]

/-- A device that has tripped is at rest once its last job has gone (R494). -/
def State.halt (s : State) : State :=
  if s.ctl.trip && s.jobs = [] then { s with readyAt := none, stopped := true } else s

/-- The job is over (R25): its hives return to the free pool, whose memories are zeroed before the next allotment (R218), its keys leave the
switches (R460), the SID retires (R265), ENDED is sent. A move it had under way ends with its hive FENCED (R491). -/
def State.retire (s : State) (sid way : Nat) : State :=
  let j := s.job sid
  let s := s.eventJob 0 0x003 sid [fld sid 0 ||| fld way 16]
  let s := s.removeKeys sid
  let s := s.moves.foldl (fun (s : State) e =>
    if e.2.sid = sid then { s with hiveSt := tput s.hiveSt e.1 1, moves := tdel s.moves e.1 }.hiveEvent e.1 0 1 0 else s) s
  let s : State :=
    { s with jobs := tdel s.jobs sid, frames := s.frames.filter (fun e => e.1.1 ≠ sid), viols := tdel s.viols sid }
  (if s.ctl.hostKill = some sid then (s.onCtl (fun c => { c with hostKill := none })).hostNext else s).halt

/-! ## JOB_END (R25, R26, R28) -/

/-- The accesses of a job that have begun and not ended (R25, R26). A collective that nothing has reached for 2^24 cycles since JOB_END lacks a
rank that had not begun, and is let go (log 148). -/
def State.teardownReady (s : State) (sid : Nat) : Bool :=
  (match (s.job sid).state with | .ending _ => true | _ => false) &&
  !s.cores.any (fun e => e.2.relq.any (fun r => r.sid = sid) || e.2.outs.any (fun o => o.sid = sid)) &&
  !s.pending.any (fun p => match p.ev with
    | .storePerform r => r.sid = sid
    | .atomicPerform r => r.sid = sid
    | .joinPerform r => r.sid = sid
    | .queueSettle r => r.sid = sid
    | _ => false) &&
  !s.hauls.any (fun e => e.2.sid = sid && tget s.tags TagState.free e.1 = .running) &&
  !s.rslots.any (fun e => e.2.sid = sid && e.2.started) && !s.wreqs.any (fun e => e.2.req.sid = sid) &&
  !s.winReqs.any (fun e => e.2.req.sid = sid) &&
  !s.saves.any (fun e => e.2.op.origin.sid = sid) &&
  !s.colls.any (fun e => s.instSid e.1.1 = some sid && e.2.kept ≠ [] &&
    s.cycle < max e.2.last ((s.job sid).idleSince.getD 0) + 2 ^ 24)

/-- No further barge is dispatched and no transfer begins; a job that is ending already goes on as it was (R25, R26). -/
def State.endJob (s : State) (sid way : Nat) : State :=
  if thas s.jobs sid && (s.job sid).state = .running then s.setJob sid { s.job sid with state := .ending way, idleSince := some s.cycle } else s

/-- The lead ends a job on every member (R28). -/
def State.endSpan (s : State) (sid way : Nat) : State :=
  if (s.job sid).state ≠ .running then s
  else (((s.job sid).members.filter (· ≠ s.node)).foldl (fun s n => s.toNet n (some sid) (.spanEnd sid way)) s).endJob sid way

/-- The JOB_END a member's lockkeeper passes to the lead's (R28). -/
def State.passOn (s : State) (lead sid : Nat) : Barge :=
  { route := lockWord lead 0, ctl := fld 1 51 ||| fld 1 49, payload := [], src := lockWord s.node 0, sid := sid, origin := none }

/-- R25, R28: a JOB_END reaches a lockkeeper. Die 1 passes it to die 0, a member to the lead; `way` marks the lead's own order. -/
def execJobEnd (s : State) : Res :=
  match s.arg with
  | .jobEnd die sid way =>
    .next (s.byLock die (fun s =>
      let sp := (s.job sid).span
      if !thas s.jobs sid then s
      else if die ≠ 0 then s.post .none (.jobEnd 0 sid way)
      else
        match way with
        | some w => s.endJob sid w
        | none =>
          if sp.lead ≠ s.node then s.toNet sp.lead (some sid) (.jobBarge 0 (s.passOn sp.lead sid))
          else s.endSpan sid 0))
  | _ => .next s

/-- A die's part in a teardown is done; with the last one the job is over. -/
def State.dieEnded (s : State) (die sid way : Nat) : State :=
  let s := s.purgeDie sid die
  let left := (s.job sid).killDies.filter (· ≠ die)
  let s := s.setJob sid { s.job sid with killDies := left }
  if left = [] then s.retire sid way else s

/-- R25: every committed effect is performed: the job's remaining state is freed, without faults, by the lockkeeper of each die on its
own die: die 1's when die 0's instructs it (R12). -/
def execJobEndTeardown (s : State) : Res :=
  match s.arg with
  | .jobEndTeardown die sid =>
    .next (s.byLock die (fun s =>
      let j := s.job sid
      match j.state with
      | .ending way =>
        if die = 0 && j.killDies = [] then
          if !s.teardownReady sid then s
          else
            let ds := List.range s.part.dies
            ((ds.drop 1).foldl (fun s d => s.post .none (.jobEndTeardown d sid)) (s.setJob sid { j with killDies := ds })).dieEnded 0 sid way
        else if j.killDies.contains die then s.dieEnded die sid way
        else s
      | _ => s))
  | _ => .next s

/-! ## Killing (R472, R473) -/

/-- The replies a load wait still awaits (R126): its pieces', or the one answer of another request. -/
def LoadWait.need (l : LoadWait) : Nat := if l.pieces = [] then 1 else (l.pieces.filter (fun p => p.got.isNone)).length

/-- The places a deadlock report names on a die, each with its order (R410, R411): blocked planes and generators, counters with
arrivals, threads, hauls. -/
def State.deadRecords (s : State) (sid die : Nat) : List Word :=
  let held (h : HiveId) : Bool := h.die = die && s.sidOf h = some sid
  let place (c : CoreId) : Word :=
    match c with
    | .hc d h m => tileBits ⟨d, h, computeTile m⟩
    | .ec d e => fld d 40 ||| fld e 31 ||| fld 1 60
  let fabric := s.insts.flatMap (fun e => if e.2.sid = sid && e.1.die = die then s.instRecords e.1 else [])
  let counters := s.cores.flatMap (fun e =>
    match e.1.hive? with
    | some h =>
      if held h then
        e.2.counters.filterMap (fun x =>
          if x.2.count = 0 && x.2.next = 0 then none
          else
            let w : Word := fld 2 61 ||| place e.1 ||| fld x.1 0 ||| fld (x.2.count % 2 ^ 20) 6 ||| fld (x.2.next % 2 ^ 20) 41
            some (2 * 2 ^ 61 + bitsN (place e.1) 40 30 * 64 + x.1, w))
      else []
    | none => [])
  let threads := s.ctxs.filterMap (fun e =>
    if e.2.sid = sid && e.2.status ≠ .free && e.1.core.die = die then
      let st : Nat × Nat :=
        match e.2.status with
        | .free => (0, 0)
        | .ready => (1, 0)
        | .running _ => (2, 0)
        | .loadWait => (if e.2.preemptPending then 6 else 3, (e.2.loadWait.map LoadWait.need).getD 0)
        | .parkWait n => (if e.2.preemptPending then 6 else 3, n)
        | .mwait => (if e.2.preemptPending then 7 else 4, 0)
        | .suspended => (5, 0)
      some (3 * 2 ^ 61 + bitsN (place e.1.core) 60 60 * 2 ^ 50 + bitsN (place e.1.core) 40 30 * 16 + e.1.slot,
        fld 3 61 ||| place e.1.core ||| fld e.1.slot 0 ||| fld st.1 4 ||| fld (min 4095 st.2) 8)
    else none)
  let hauls := s.hauls.filterMap (fun e =>
    if e.2.sid = sid && e.1.1.die = die then
      some (4 * 2 ^ 61 + bitsN (place e.1.1) 40 30 * 2048 + e.1.2,
        fld 4 61 ||| place e.1.1 ||| fld e.1.2 0 ||| fld (bitsN (hstatWord s e.1.1 e.1.2) 2 0) 11)
    else none)
  ((sortKey Prod.fst (fabric.map (fun w => (w.toNat, w)) ++ counters ++ threads ++ hauls)).map Prod.snd).take 64

/-- DEADLOCK events, one for each record (R410, R479). -/
def State.deadEvents (s : State) (sid : Nat) : State :=
  (s.diesOf sid).foldl (fun s d =>
    let rs := s.deadRecords sid d
    rs.zipIdx.foldl (fun s r => s.eventJob d 0x006 sid [fld sid 0 ||| fld r.2 16 ||| fld rs.length 24, r.1]) s) s

/-- Whether a kill takes effect on a job: one that runs, or whose launch waits in step 8 (R472, log 149). -/
def Job.mortal (j : Job) : Bool := j.state = .running || j.state = .launching

/-- The kill of a SID on this device (R473): die 0's lockkeeper sends it to each die. A job that is ending or killed already goes on
as it was. With the end of one that was launching its LAUNCH is over (log 149). -/
def State.killNow (s : State) (sid : Nat) (x : Cause) : State :=
  if !thas s.jobs sid || !(s.job sid).mortal then s
  else
    let s := if x = .deadlock then s.deadEvents sid else s
    let s := if (s.job sid).state = .launching then s.onCtl (fun c => { c with hostKill := some sid }) else s
    let ds := List.range s.part.dies
    let s := s.setJob sid { s.job sid with state := .killed x, killDies := ds }
    ds.foldl (fun s d => s.post .none (.dieKill d sid x)) s

/-- The same of a kill of R472, which is counted (R466). -/
def State.killHere (s : State) (sid : Nat) (x : Cause) : State :=
  if !thas s.jobs sid || !(s.job sid).mortal then s
  else (s.onCtl (fun c => { c with kills := c.kills + 1 })).killNow sid x

/-- The members a lead tells of a kill: those of the table, or those it has counted (R28). -/
def Job.others (j : Job) (node : Nat) : List Nat := (j.members ++ j.span.joined).eraseDups.filter (· ≠ node)

/-- A kill at the lead reaches every member (R28). -/
def State.killSpan (s : State) (sid : Nat) (x : Cause) : State :=
  if !(s.job sid).mortal then s
  else (((s.job sid).others s.node).foldl (fun s n => s.toNet n (some sid) (.spanKill sid x)) s).killHere sid x

/-- A lockkeeper of this device kills a SID (R472): a member passes the kill to its lead (R28); one whose launch has not formed the span yet
kills its own share (log 149). -/
def State.kill (s : State) (sid : Nat) (x : Cause) : State :=
  if !thas s.jobs sid || !(s.job sid).mortal then s
  else if (s.job sid).span.lead ≠ s.node then
    let s' := s.toNet (s.job sid).span.lead (some sid) (.spanKill sid x)
    if (s.job sid).state = .launching then s'.killHere sid x else s'
  else s.killSpan sid x

/-- A die's lockkeeper wants a SID killed (R472): die 0's does it, die 1's asks die 0's (R12). -/
def State.wantKill (s : State) (die sid : Nat) (x : Cause) : State :=
  if die = 0 then s.kill sid x else s.post .none (.dieKill 0 sid x)

/-- The cause of a code (R206). -/
def Cause.ofCode (n : Nat) : Cause :=
  ([Cause.illegalOp, .illegalForm, .illegalPort, .unavailable, .addrForm, .align, .bounds, .pageFault, .access, .remoteViolation,
    .reachLong, .reachEffects, .reachIllegal, .reentryExhausted, .basinFull, .badDeposit, .barrierOverrun, .gangMismatch, .jaMismatch,
    .bitmapLen, .strayToken, .liveness, .rankCycle, .deadlock, .copyAddrOvf, .linkTimeout, .part, .twinMismatch, .poison, .elementFail,
    .killed, .trapSw, .full, .busy].find? (fun c => c.code = n)).getD .killed

/-- The page of the granule a POISON fault at rank 7 names goes with the kill it causes (R473 step 6). -/
def State.blameFrame (s : State) (b : Barge) : State :=
  let at_ := b.payload.getD 2 0
  if bitsN (b.payload.headD 0) 7 0 = Cause.poison.code && bitsN at_ 63 62 = 2 && (s.job b.sid).mortal then
    match s.vaFrame b.sid (bitsN at_ 56 0) with
    | some p => s.setJob b.sid { s.job b.sid with frame := some p }
    | none => s
  else s

/-- R209: a fault at rank 7: a FAULT event, then the kill. -/
def execRank7Fault (s : State) : Res :=
  match s.arg with
  | .rank7Fault die b =>
    .next (s.byLock die (fun s =>
      if !s.alive b.sid then s
      else ((s.eventJob die 0x004 b.sid b.payload).blameFrame b).wantKill die b.sid (Cause.ofCode (bitsN (b.payload.headD 0) 7 0))))
  | _ => .next s

/-- R28: a kill at the lead, or the lead's order at a member. -/
def execSpanKill (s : State) : Res :=
  match s.arg with
  | .spanKill sid x =>
    .next (s.byLock 0 (fun s =>
      if !thas s.jobs sid then s else if (s.job sid).span.lead = s.node then s.killSpan sid x else s.killHere sid x))
  | _ => .next s

/-- Whether the 10 s without a route to the lead have passed (R28). -/
def State.leadGone (s : State) (sid : Nat) : Bool :=
  thas s.jobs sid && (match (s.job sid).span.routeLostAt with | some c => c + 10 * second ≤ s.cycle | none => false)

/-- R28: a member without a route to its lead kills its own share. -/
def execLeadUnreachable (s : State) : Res :=
  match s.arg with
  | .leadUnreachable sid => .next (s.byLock 0 (fun s => if s.leadGone sid then s.killHere sid .linkTimeout else s))
  | _ => .next s

/-- R472: the owner's KILL barge. Its event is the ENDED of the job; a SID without a job has none, and the next host barge is
taken. -/
def execKill (s : State) : Res :=
  match s.arg with
  | .kill _ p0 =>
    .next (s.byLock 0 (fun s =>
      let sid := bitsN p0 15 0
      if thas s.jobs sid then (s.onCtl (fun c => { c with hostKill := some sid })).kill sid .killed
      else s.hostNext))
  | _ => .next s

/-- The SIDs an error that is not pinned to a unit is of (R472): the one it carries; where that cannot be read, every SID the structure serves:
those of the device for a Turso-link agent, those with hives on its die for an edge core. -/
def State.servedBy (s : State) (die : Nat) : Hit → List Nat
  | .carries sid => [sid]
  | .turso => s.jobs.map Prod.fst
  | .edge _ => (s.jobs.filter (fun e => e.2.hives.any (fun h => h.die = die))).map Prod.fst

/-- R463, R472: an uncorrectable error that is not pinned to a unit: the SIDs it carries or serves are killed; the frame it lies in is
quarantined. -/
def execUnpinnedError (s : State) : Res :=
  match s.arg with
  | .unpinnedError die hit frame =>
    .next (s.byLock die (fun s =>
      let s := s.onCtl (fun c => { c with uncorr := min 0xFFFF (c.uncorr + 1) })
      (s.servedBy die hit).foldl (fun s k =>
        let s := if thas s.jobs k && (s.job k).mortal then s.setJob k { s.job k with frame := frame } else s
        s.wantKill die k .killed) s))
  | _ => .next s

/-- R473: a die's lockkeeper takes a kill: steps 1 to 5. One that reaches die 0's for a job that runs is what die 1's asks for (R12). -/
def execDieKill (s : State) : Res :=
  match s.arg with
  | .dieKill die sid x =>
    .next (s.byLock die (fun s =>
      let j := s.job sid
      if thas s.jobs sid && j.killDies.contains die && !thas j.counts die then
        let s := s.setJob sid { j with counts := tput j.counts die (s.tally sid die) }
        (s.purgeDie sid die).post .none (.killDrainDone die sid)
      else if die = 0 then s.kill sid x
      else s))
  | _ => .next s

/-! ## Quarantine and scrub (R275, R473) -/

/-- The leaves of a page table that map a physical frame of HBM, whatever software has set in them (R275): the leaf's place, its page size code
and a virtual address. -/
def State.leavesOf (s : State) (frame : Nat) : Nat → Nat → Nat → Nat → List (Nat × Nat × Nat)
  | 0, _, _, _ => []
  | fuel + 1, level, table, va =>
    let n := if level = 1 then 2048 else if level = 4 then 1024 else 1024
    (List.range n).flatMap (fun k =>
      let p := table + 8 * k
      let e : Word := unscrubbed (BitVec.ofNat 64 (natOf (s.bytes (.hbm p) 8)))
      let size := 4 - level
      let va' := va + k * pageBytes size
      if bitsN e 0 0 = 0 || !entryForm s.part e level then []
      else if bitsN e 2 2 = 1 then
        (if bitsN e 3 3 = 0 && (bitsN e 51 12 * 4096) / pageBytes size = frame / pageBytes size then [(p, size, va')] else [])
      else s.leavesOf frame fuel (level + 1) (bitsN e 51 12 * 4096) va')

/-- Sets bits of a leaf at its home, and shoots its page down (R220, R275, R278). -/
def State.setLeaf (s : State) (sid p size va : Nat) (f : Word → Word) : State :=
  let e : Word := BitVec.ofNat 64 (natOf (s.bytes (.hbm p) 8))
  ((s.recall (.hbm p) 8 false).store (.hbm p) (bytesOf 8 (f e).toNat)).shoot sid (BitVec.ofNat 64 va) size false false

/-- Step 6 of R473: a page is quarantined, then scrubbed; the companion's copies of its lines are recalled (R220). -/
def State.scrubPage (s : State) (die sid p size va : Nat) : State :=
  let e : Word := BitVec.ofNat 64 (natOf (s.bytes (.hbm p) 8))
  let frame := bitsN e 51 12 * 4096
  let s := s.setLeaf sid p size va (fun e => e ||| fld 1 4)
  let s := s.eventJob die 0x00A sid [fld sid 0, fld frame 0, fld size 0]
  let s := s.setLeaf sid p size va (fun e => e ||| fld 1 5)
  let lo := (Loc.hbm frame).key
  let s : State := { s with snoop := s.snoop.map (fun x => (x.1, x.2.filter (fun n => n < frame / 64 || (frame + pageBytes size) / 64 ≤ n))),
                            mem := memClear s.mem lo (lo + pageBytes size),
                            poison := s.poison.filter (fun q => q < lo || lo + pageBytes size ≤ q),
                            scrubs := s.scrubs ++ [⟨sid, va, p, size⟩] }
  s.post .none (.scrubDone sid va)

/-- Steps 7 and 8 of R473 on a die; after the last one the job is over. -/
def State.dieKilled (s : State) (die sid : Nat) : State :=
  let j := s.job sid
  let n := tget j.counts (0, 0, 0) die
  let code := match j.state with | .killed x => x.code | _ => Cause.killed.code
  let s := (j.hives.filter (fun h => h.die = die)).foldl State.zeroHive s
  let s := s.eventJob die 0x007 sid [fld sid 0 ||| fld code 16 ||| fld die 24, fld n.1 0 ||| fld n.2.1 32, fld n.2.2 0]
  let left := j.killDies.filter (· ≠ die)
  let s := s.setJob sid { j with killDies := left }
  if left = [] then s.retire sid 2 else s

/-- R473: no released effect of the SID is in flight. The pages of the granule that caused the kill are quarantined and scrubbed
first, up to the SHOT of each change of a leaf; then the die's memories are zeroed and KILLED is sent. -/
def execKillDrainDone (s : State) : Res :=
  match s.arg with
  | .killDrainDone die sid =>
    .next (s.byLock die (fun s =>
      let j := s.job sid
      if !thas s.jobs sid || !j.killDies.contains die || !thas j.counts die || s.scrubs.any (fun x => x.sid = sid) ||
         s.shoots.any (fun x => x.2.sid = sid && !x.2.host) then s
      else
        match j.frame with
        | some f =>
          let ls := s.leavesOf f 4 1 j.root 0
          let s := s.setJob sid { j with frame := none }
          if ls = [] then s.dieKilled die sid
          else (ls.foldl (fun s l => s.scrubPage die sid l.1 l.2.1 l.2.2) s).post .none (.killDrainDone die sid) 1
        | none => s.dieKilled die sid))
  | _ => .next s

/-- R275: the frame is zero-filled: both bits are cleared. -/
def execScrubDone (s : State) : Res :=
  match s.arg with
  | .scrubDone sid va =>
    .next (s.byLock 0 (fun s =>
      match s.scrubs.find? (fun x => x.sid = sid && x.va = va) with
      | none => s
      | some x =>
        let e : Word := BitVec.ofNat 64 (natOf (s.bytes (.hbm x.leaf) 8))
        let s : State := { s with scrubs := s.scrubs.filter (· ≠ x) }
        let s := s.setLeaf sid x.leaf x.size va (fun e => e &&& ~~~(fld 3 4))
        s.eventJob 0 0x00B sid [fld sid 0, fld (bitsN e 51 12 * 4096) 0, fld x.size 0]))
  | _ => .next s

/-! ## Detection, and the lead's rounds (R28, R410) -/

/-- A member's report. -/
def State.spanReport (s : State) (sid : Nat) (round : Option Nat) : SpanReport :=
  let sp := (s.job sid).span
  ⟨sid, s.node, s.completeNow sid, s.idleNow sid, sp.sent, sp.received, round⟩

/-- Sends a report to the lead. -/
def State.sendReport (s : State) (sid : Nat) (round : Option Nat) : State :=
  let r := s.spanReport sid round
  let j := s.job sid
  let s := s.setJob sid { j with span := { j.span with quiet := r.quiet, idle := r.idle } }
  if j.span.lead = s.node then s.post .none (if r.quiet then .quietReport r else .activeReport r)
  else s.toNet j.span.lead none (.report r)

/-- R410: a job on this device alone is complete, and ends as at JOB_END; a device of a spanning job tells its lead when it comes to
meet the condition or stops (R28). -/
def execCompletionDetect (s : State) : Res :=
  match s.arg with
  | .completionDetect sid =>
    .next (s.byLock 0 (fun s =>
      let sp := (s.job sid).span
      if (s.job sid).state ≠ .running then s
      else if sp.devices ≤ 1 then (if s.completeNow sid then s.endJob sid 1 else s)
      else if sp.quiet ≠ s.completeNow sid then s.sendReport sid none else s))
  | _ => .next s

/-- R410: a job on this device alone is deadlocked and killed; a device of a spanning job tells its lead that it is idle (R28). -/
def execDeadlockDetect (s : State) : Res :=
  match s.arg with
  | .deadlockDetect sid =>
    .next (s.byLock 0 (fun s =>
      let j := s.job sid
      if j.state ≠ .running then s
      else if j.span.devices ≤ 1 then (if s.idleNow sid && j.quietSince.isNone then s.kill sid .deadlock else s)
      else if j.span.idle ≠ s.idleNow sid then s.sendReport sid none else s))
  | _ => .next s

/-- The lead asks every member for a fresh report. -/
def State.askRound (s : State) (sid : Nat) : State :=
  let j := s.job sid
  let n := j.span.round + 1
  let s := s.setJob sid { j with span := { j.span with round := n, asked := true, answers := [] } }
  j.members.foldl (fun s m =>
    if m = s.node then s.post .none (.freshReportRequest sid n) else s.toNet m none (.reportAsk sid n)) s

/-- The lead takes a report (R28): with every latest report QUIET, or every member idle, it starts a round; two successive rounds that
agree end the job, or kill it as deadlocked. -/
def State.takeReport (s : State) (r : SpanReport) : State :=
  let j := s.job r.sid
  if !thas s.jobs r.sid || j.state ≠ .running || j.span.lead ≠ s.node then s
  else
    let sp := { j.span with
      reports := tput j.span.reports r.node r,
      answers := if j.span.asked && r.round = some j.span.round then tput j.span.answers r.node r else j.span.answers }
    let s := s.setJob r.sid { j with span := sp }
    let all (t : Tbl Nat SpanReport) (p : SpanReport → Bool) : Bool :=
      j.members.all (fun m => match tfind t m with | some x => p x | none => false)
    let calm : Bool := all sp.reports SpanReport.quiet || all sp.reports SpanReport.idle
    if !sp.asked then (if calm then s.askRound r.sid else s)
    else if !all sp.answers (fun _ => true) then s
    else
      let out := (sp.answers.map (fun e => e.2.sent)).sum
      let inn := (sp.answers.map (fun e => e.2.received)).sum
      let quiet := all sp.answers SpanReport.quiet
      let good := (quiet || all sp.answers SpanReport.idle) && out = inn
      let s := s.setJob r.sid { j with span := { sp with asked := false, lastSum := if good then some (out, inn) else none, lastQuiet := quiet } }
      if good && sp.lastSum = some (out, inn) && sp.lastQuiet = quiet then
        (if quiet then s.endSpan r.sid 1 else s.killSpan r.sid .deadlock)
      else if calm then s.askRound r.sid
      else s

/-- R28: a QUIET report. -/
def execQuietReport (s : State) : Res :=
  match s.arg with
  | .quietReport r => .next (s.byLock 0 (fun s => s.takeReport r))
  | _ => .next s

/-- R28: an ACTIVE report. -/
def execActiveReport (s : State) : Res :=
  match s.arg with
  | .activeReport r => .next (s.byLock 0 (fun s => s.takeReport r))
  | _ => .next s

/-- R28: a member answers the lead with a fresh report. -/
def execFreshReportRequest (s : State) : Res :=
  match s.arg with
  | .freshReportRequest sid n =>
    .next (s.byLock 0 (fun s => if thas s.jobs sid && (s.job sid).state = .running then s.sendReport sid (some n) else s))
  | _ => .next s

/-! ## Shootdown (R278, R279) -/

/-- R278: a SHOOTDOWN barge. One for a SID that no job of the device uses acts on no die, and its SHOT goes to host basin 0 (log 49). -/
def execShootdown (s : State) : Res :=
  match s.arg with
  | .shootdown _ p0 p1 =>
    .next (s.byLock 0 (fun s =>
      if bitsN p0 63 18 ≠ 0 || bitsN p1 63 57 ≠ 0 then (s.eventOwner 0 0x002 [refusedWord .illegalForm 2]).hostNext
      else s.shoot (bitsN p0 15 0) p1 (min 2 (bitsN p0 17 16)) (bitsN p0 17 16 = 3) true))
  | _ => .next s

/-- R279: accesses released with the old translation are performed: SHOT. With the service of a host barge the lockkeeper takes the next one; after
a change of a leaf of its own (R275) the kill that asked for it goes on. -/
def execShot (s : State) : Res :=
  match s.arg with
  | .shot id =>
    .next (s.byLock 0 (fun s =>
      match tfind s.shoots id with
      | none => s
      | some x =>
        if !s.shotReady x then s
        else
          let s : State := { s with shoots := tdel s.shoots id }
          let s := s.eventJob 0 0x005 x.sid [fld x.sid 0, x.va]
          if x.host then s.hostNext else (s.job x.sid).killDies.foldl (fun s d => s.post .none (.killDrainDone d x.sid)) s))
  | _ => .next s

end Sys2Proof.Machine
end

