-- ==== Sys2Proof/Machine/Reliab.lean ====
section
/-! DEFINITION. Element containment (R467 to R469), twins (R470), a lockkeeper's own memory and its restart (R474, R488,
R489). -/

namespace Sys2Proof.Machine

open Sys2Proof

/-! ## Elements -/

/-- An uncorrectable error is counted (R466). -/
def State.countUncorr (s : State) : State := s.onCtl (fun c => { c with uncorr := min 0xFFFF (c.uncorr + 1) })

/-- A detected error in what a thread holds, or in a word or literal it fetches (R195, R201, R463, R465): the instruction that is next
meets it. The first one of a reach discards it, a second one raises POISON. -/
def State.upsetThread (s : State) (t : ThreadId) : State :=
  let c := s.ctx t
  let w := (s.codeWord c.sid c.pc).getD 0
  if c.status ≠ .ready then s
  else if c.poisoned then s.countUncorr.stop t ⟨.poison, none⟩ w
  else s.countUncorr.discard t w (fun s => s.onCtx t (fun c => { c with poisoned := true, status := .ready }))

/-- An error comes to light (R463, R466). A corrected one is counted and has no other effect. An uncorrectable one is counted, and
poisons the granule or the accumulator value it lies in, or is a detected error of the thread. Companion memory is outside the
device and its codes. -/
def State.upset (s : State) : Upset → State
  | .corrected => s.onCtl (fun c => { c with corr := min 0xFFFF (c.corr + 1) })
  | .granule (.comp _) => s
  | .granule l => { s with poison := s.poison ++ (granules l 1).filter (fun q => !s.poison.contains q) }.countUncorr
  | .value h m b i =>
    let x := s.slice h m b
    if 8 ≤ m || 2 ≤ b || 8192 ≤ i || x.bad.contains i then s else (s.setSlice h m b { x with bad := x.bad ++ [i] }).countUncorr
  | .thread t => s.upsetThread t

/-- The place of ELEMENT_SPARED and ELEMENT_FAIL (R479). -/
def elemWord (e : ElemId) (sid : Nat) : Word :=
  fld e.tile.die 40 ||| fld e.tile.hive 34 ||| fld e.tile.tile 30 ||| fld e.elem 26 ||| fld sid 0

/-- An event about an element: to the job that holds its hive, or to the owner (R475). -/
def State.elemEvent (s : State) (e : ElemId) (code : Nat) (ps : List Word) : State :=
  match s.tileSid e.tile with
  | some sid => s.eventJob e.tile.die code sid (elemWord e sid :: ps)
  | none => s.eventOwner e.tile.die code (elemWord e 0 :: ps)

/-- The instances that have a plane on an element, each with its plane's number. -/
def State.elemInsts (s : State) (e : ElemId) : List (InstId × Nat) :=
  (List.range 4).filterMap (fun p => (s.plane ⟨e, p⟩).inst.map (fun i => (i, p)))

/-- R469: the spare is in use: the element is held for good, ELEMENT_FAIL reaches each instance's fault edge, and an event is sent.
The manual gives no rule slot and no h2 for this fault: free values. -/
def State.elementFail (s : State) (e : ElemId) : State :=
  let l := s.elemInsts e
  let s := s.setElem e { s.elem e with dead := true }
  let s := s.onCtl (fun c => { c with fails := c.fails + 1 })
  let s := l.foldl (fun s x =>
    let o := s.instOrigin x.1 e.tile
    (s.deliverFault o (faultWord .elementFail 1 x.2 0 0 0 o.rank false) (planeWord ⟨e, x.2⟩ (Config.freeNat s.free % 16))
      (Config.freeWord s.free) 0 none).draw) s
  s.elemEvent e 0x009 [fld l.length 0]

/-- Cycles a hold for a move to the spare lasts at most (R469). -/
def spareHold : Nat := 4096

/-- How long a replay takes (R468): the window's firings and the failing one, one a cycle; the manual gives no other length (log 62). -/
def State.replayCycles (s : State) (e : ElemId) : Nat :=
  ((List.range 4).map (fun p => (s.plane ⟨e, p⟩).window.length)).foldl max 0 + 2

/-- R467 to R469: an element error. The firing that meets it is squashed, and the element held; at the end of the hold the windows of its planes
are replayed, and the failing firing runs (R468). A second error within a millisecond moves the planes to the spare, or fails the element. -/
def execElementError (s : State) : Res :=
  match s.arg with
  | .elementError e =>
    let x := s.elem e
    if x.dead || s.cycle < x.heldTo || 16 ≤ e.elem || !isCompute e.tile.tile then .next s
    else
      let s := s.countUncorr
      let t := s.tile e.tile
      let met := t.chosen.find? (fun r => r.plane.elem = e)
      let s := s.setTile e.tile { t with chosen := t.chosen.filter (fun r => r.plane.elem ≠ e), skipped := t.skipped.filter (fun r => r.plane.elem ≠ e) }
      let x := { x with lastErr := some s.cycle, replay := true, retry := (match met with | some r => some r | none => x.retry) }
      let soon : Bool := match (s.elem e).lastErr with | some c => s.cycle ≤ c + ms | none => false
      if soon then
        (if t.spare.isNone then .next ((s.setElem e { x with heldTo := s.cycle + spareHold }).post .none (.spareMove e))
         else .next ((s.setElem e x).elementFail e))
      else .next (s.setElem e { x with heldTo := s.cycle + s.replayCycles e })
  | _ => .next s

/-- R469: the planes stand on the spare, with the state after the replay, the image's rule slots and literals and the element's index
and arcs: the hold ends. The spare may have been taken for another element in between. -/
def execSpareMove (s : State) : Res :=
  match s.arg with
  | .spareMove e =>
    .next (s.byLock e.tile.die (fun s =>
      let x := s.elem e
      let t := s.tile e.tile
      if x.dead || t.spare = some e.elem || (x.lastErr.map (· + spareHold)) ≠ some x.heldTo then s
      else if t.spare.isSome then s.elementFail e
      else
        let s := s.setTile e.tile { t with spare := some e.elem }
        let s := s.setElem e { x with heldTo := s.cycle }
        let s := s.onCtl (fun c => { c with spares := c.spares + 1 })
        s.elemEvent e 0x008 []))
  | _ => .next s

/-! ## Twins -/

/-- The instance a place of TWIN names (R470). -/
def State.twinInst (s : State) (sid w : Nat) : Option InstId :=
  let h := s.redirect sid ⟨bitsN (fld w 0) 22 22, bitsN (fld w 0) 21 16⟩
  let i : InstId := ⟨h.die, h.hive, bitsN (fld w 0) 15 14⟩
  match s.inst i with
  | some x => if x.sid = sid && x.image = bitsN (fld w 0) 13 0 then some i else none
  | none => none

/-- Whether two instances of a job may be armed (R470): both SHADOW or ACTIVE, one image, no tile shared, neither armed. -/
def State.twinOk (s : State) (a b : InstId) : Bool :=
  match s.inst a, s.inst b with
  | some x, some y =>
    let live (z : InstState) : Bool := z = .shadow || z = .active
    let armed (i : InstId) : Bool := s.twins.any (fun w => w.a = i || w.b = i)
    live x.st && live y.st && x.image = y.image && x.sid = y.sid &&
    !(s.instPlanes a).any (fun p => (s.instPlanes b).any (fun q => p.elem.tile = q.elem.tile)) && !armed a && !armed b
  | _, _ => false

/-- R470: the owner arms a twin pair. The manual gives no cause for a refusal: a free value. -/
def execTwin (s : State) : Res :=
  match s.arg with
  | .twin _ p0 p1 =>
    .next (s.byLock 0 (fun s =>
      let sid := bitsN p0 15 0
      let no (s : State) (w : Why) : State :=
        let r := s.whyCode w
        (r.1.eventOwner 0 0x002 [fld r.2 0 ||| fld 4 16]).hostNext
      if bitsN p0 63 16 ≠ 0 || bitsN p1 31 23 ≠ 0 || bitsN p1 63 55 ≠ 0 then no s (some .illegalForm)
      else
        match s.twinInst sid (bitsN p1 22 0), s.twinInst sid (bitsN p1 54 32) with
        | some a, some b => if s.twinOk a b then ({ s with twins := s.twins ++ [{ a := a, b := b }] } : State).hostNext else no s none
        | _, _ => no s none))
  | _ => .next s

/-! ## A lockkeeper's restart -/

/-- A lockkeeper restarts (R488): what it has to do waits. -/
def State.restartLock (s : State) (die : Nat) : State :=
  if s.part.dies ≤ die then s
  else s.onCtl (fun c => { c with restarts := c.restarts + 1, down := if c.down.contains die then c.down else c.down ++ [die] })

/-- R474: an uncorrectable error in a lockkeeper's own memory: every SID that holds hives on its die is killed, and it restarts. -/
def execLockkeeperMemoryError (s : State) : Res :=
  match s.arg with
  | .lockkeeperMemoryError die =>
    if s.part.dies ≤ die then .next s
    else
      let sids := s.jobs.filterMap (fun e => if e.2.hives.any (fun h => h.die = die) then some e.1 else none)
      .next ((sids.foldl (fun s k => s.wantKill die k .killed) s.countUncorr).restartLock die)
  | _ => .next s

/-- DCR_FW_VERSION (R487). -/
def State.fwWord (s : State) : Word :=
  fld s.ctl.fwVersion 0 ||| fld s.ctl.fwOther 24 ||| fld s.ctl.fwSecver 48 ||| fld (if s.ctl.fwStaged then 1 else 0) 56 |||
  fld s.ctl.fwActive 57

/-- A FIRMWARE event, which ends its service (R489). -/
def State.firmware (s : State) (status : Nat) : State := (s.eventOwner 0 0x014 [fld status 0, s.fwWord]).hostNext

/-- The slots change places. -/
def Ctl.swapSlots (c : Ctl) : Ctl :=
  { c with fwActive := 1 - c.fwActive, slot := 1 - c.slot, fwVersion := c.fwOther, fwOther := c.fwVersion,
           fwSecver := c.fwOtherSec, fwOtherSec := c.fwSecver, fwSig := c.fwOtherSig, fwOtherSig := c.fwSig }

/-- R488, R489: a restart ends, and what waited goes on. The first start of an activated image succeeds or fails, a free value; after a
failure the other slot is active again. -/
def execLockkeeperRestartDone (s : State) : Res :=
  match s.arg with
  | .lockkeeperRestartDone die =>
    if !s.restarting die then .next s
    else
      let s := s.onCtl (fun c => { c with down := c.down.filter (· ≠ die) })
      if s.ctl.fwGo && s.ctl.down = [] then
        let good : Bool := Config.freeNat s.free % 2 = 0
        let s := s.draw.onCtl (fun c => { c with fwGo := false })
        if good then .next (s.firmware 0) else .next ((s.onCtl Ctl.swapSlots).firmware 5)
      else .next s
  | _ => .next s

end Sys2Proof.Machine
end

