-- ==== Sys2Proof/Machine/Rename.lean ====
section
/-! DEFINITION. Renaming a hive in everything the machine holds of it (R491): every name of a core, tile, plane, generator, instance or
hive that lies in the old hive becomes the one in the new hive. What another node keeps, and packets on their way to or from it, keep the
old name, which is redirected when it is used; so do the words of a program. -/

namespace Sys2Proof.Machine

open Sys2Proof

/-- The old hive, the new one, and this device's node (a core of another node with the same name is not meant). -/
structure Ren where
  node : Nat
  old : HiveId
  new : HiveId
  deriving DecidableEq, Repr

def HiveId.mv (r : Ren) (h : HiveId) : HiveId := if h = r.old then r.new else h

def CoreId.mv (r : Ren) : CoreId → CoreId
  | .hc d h m => let x := HiveId.mv r ⟨d, h⟩; .hc x.die x.hive m
  | .ec d e => .ec d e

def ThreadId.mv (r : Ren) (x : ThreadId) : ThreadId :=
  { x with core := x.core.mv r }

def TileId.mv (r : Ren) (t : TileId) : TileId := let x := HiveId.mv r ⟨t.die, t.hive⟩; { t with die := x.die, hive := x.hive }

def ElemId.mv (r : Ren) (x : ElemId) : ElemId :=
  { x with tile := x.tile.mv r }

def PlaneId.mv (r : Ren) (x : PlaneId) : PlaneId :=
  { x with elem := x.elem.mv r }

def RuleId.mv (r : Ren) (x : RuleId) : RuleId :=
  { x with plane := x.plane.mv r }

def GenId.mv (r : Ren) (x : GenId) : GenId :=
  { x with tile := x.tile.mv r }

def InstId.mv (r : Ren) (t : InstId) : InstId := let x := HiveId.mv r ⟨t.die, t.hive⟩; { t with die := x.die, hive := x.hive }

def NodeId.mv (r : Ren) : NodeId → NodeId
  | .plane a0 => .plane (a0.mv r)
  | .gen a0 => .gen (a0.mv r)
  | .coll a0 a1 => .coll (a0.mv r) a1

def Loc.mv (r : Ren) : Loc → Loc
  | .tile a0 a1 => .tile (a0.mv r) a1
  | x => x

def Home.mv (r : Ren) : Home → Home
  | .core a0 => .core (a0.mv r)
  | x => x

def Dest.mv (r : Ren) : Dest → Dest
  | .core a0 => .core (a0.mv r)
  | x => x

def Sender.mv (r : Ren) : Sender → Sender
  | .core a0 => .core (a0.mv r)
  | x => x

def ArcId.mv (r : Ren) (x : ArcId) : ArcId :=
  { x with dst := x.dst.mv r }

def Origin.mv (r : Ren) (x : Origin) : Origin :=
  { x with core := x.core.mv r }

def Suspended.mv (r : Ren) : Suspended → Suspended
  | .thread a0 a1 => .thread (a0.mv r) a1
  | .rule a0 a1 => .rule (a0.mv r) a1
  | .haul a0 a1 a2 => .haul (a0.mv r) a1 a2
  | .piece a0 a1 a2 => .piece (a0.mv r) a1 a2
  | .save a0 a1 => .save (a0.mv r) a1

def Barge.mv (r : Ren) (x : Barge) : Barge :=
  { x with origin := x.origin.map (Origin.mv r), duty := x.duty.map (Suspended.mv r) }

def Packet.mv (r : Ren) (x : Packet) : Packet :=
  { x with duties := x.duties.map (Suspended.mv r), origin := x.origin.mv r }

def Load.mv (r : Ren) : Load → Load
  | .barge a0 => .barge (a0.mv r)
  | .packet a0 => .packet (a0.mv r)

def Item.mv (r : Ren) (x : Item) : Item :=
  { x with load := x.load.mv r }

def Arrival.mv (r : Ren) (x : Arrival) : Arrival :=
  { x with src := if x.node.isNone then x.src.map (CoreId.mv r) else x.src, origin := x.origin.map (Origin.mv r) }

def Asker.mv (r : Ren) : Asker → Asker
  | .load a0 a1 a2 => .load (a0.mv r) a1 a2
  | .probe a0 a1 a2 a3 => .probe (a0.mv r) a1 a2 a3
  | .route a0 a1 => .route (a0.mv r) a1
  | .reserve a0 a1 => .reserve (a0.mv r) a1
  | .effect a0 a1 => .effect (a0.mv r) a1
  | .rule a0 a1 => .rule (a0.mv r) a1
  | .haul a0 a1 a2 => .haul (a0.mv r) a1 a2
  | .piece a0 a1 a2 => .piece (a0.mv r) a1 a2
  | .counter a0 a1 => .counter (a0.mv r) a1
  | .save a0 a1 => .save (a0.mv r) a1
  | .joint a0 a1 => .joint (a0.mv r) a1
  | x => x

def XReq.mv (r : Ren) (x : XReq) : XReq :=
  { x with asker := x.asker.mv r }

def XAns.mv (r : Ren) : XAns → XAns
  | .ok a0 => .ok (a0.mv r)
  | x => x

def MemReq.mv (r : Ren) (x : MemReq) : MemReq :=
  { x with
    asker := x.asker.mv r,
    loc := x.loc.mv r,
    dep := x.dep.map (fun e => (e.1.mv r, e.2)),
    origin := x.origin.map (Origin.mv r) }

def Ans.mv (r : Ren) : Ans → Ans
  | .reserved a0 a1 => .reserved (a0.mv r) a1
  | x => x

def Notice.mv (r : Ren) (x : Notice) : Notice :=
  { x with gen := x.gen.mv r }

def WinOp.mv (r : Ren) (x : WinOp) : WinOp :=
  { x with thread := x.thread.mv r, origin := x.origin.mv r }

def CollOp.mv (r : Ren) (x : CollOp) : CollOp :=
  { x with thread := x.thread.mv r, origin := x.origin.mv r }

def GraphOp.mv (r : Ren) (x : GraphOp) : GraphOp :=
  { x with thread := x.thread.mv r, origin := x.origin.mv r }

def WinReq.mv (r : Ren) (x : WinReq) : WinReq :=
  if x.node = r.node then { x with core := x.core.mv r, asker := x.asker.mv r } else x

def Ev.mv (r : Ren) : Ev → Ev
  | .bargeArrival a0 a1 a2 => .bargeArrival (a0.mv r) (a1.mv r) (a2.mv r)
  | .busyReply a0 a1 => .busyReply (a0.mv r) a1
  | .bargeResend a0 a1 => .bargeResend (a0.mv r) a1
  | .remoteReject a0 a1 a2 => .remoteReject (a0.mv r) a1 (a2.map (fun e => (e.1.mv r, e.2)))
  | .promotion a0 a1 => .promotion (a0.mv r) a1
  | .faultRedelivery a0 => .faultRedelivery (a0.mv r)
  | .dispatch a0 => .dispatch (a0.mv r)
  | .deposit a0 a1 => .deposit (a0.mv r) a1
  | .heldDepositApply a0 => .heldDepositApply (a0.mv r)
  | .loadReply a0 a1 a2 a3 => .loadReply (a0.mv r) a1 a2 (a3.mv r)
  | .completionArrival a0 a1 => .completionArrival (a0.mv r) a1
  | .stealRequest a0 a1 => .stealRequest (a0.mv r) (a1.mv r)
  | .stealVictim a0 a1 => .stealVictim (a0.mv r) (a1.mv r)
  | .stealAnswer a0 a1 => .stealAnswer (a0.mv r) (a1.map (Barge.mv r))
  | .joinPerform a0 => .joinPerform (a0.mv r)
  | .counterArrival a0 a1 => .counterArrival (a0.mv r) (a1.mv r)
  | .counterCarryFire a0 a1 => .counterCarryFire (a0.mv r) a1
  | .commit a0 => .commit (a0.mv r)
  | .effectRelease a0 => .effectRelease (a0.mv r)
  | .probeAnswer a0 a1 a2 a3 a4 => .probeAnswer (a0.mv r) a1 a2 a3 (a4.mv r)
  | .preemption a0 => .preemption (a0.mv r)
  | .preemptionEnd a0 => .preemptionEnd (a0.mv r)
  | .rank7Fault a0 a1 => .rank7Fault a0 (a1.mv r)
  | .faultResume a0 => .faultResume (a0.mv r)
  | .loadPerform a0 => .loadPerform (a0.mv r)
  | .storePerform a0 => .storePerform (a0.mv r)
  | .storeAck a0 a1 => .storeAck (a0.mv r) a1
  | .atomicPerform a0 => .atomicPerform (a0.mv r)
  | .queueReserve a0 => .queueReserve (a0.mv r)
  | .queueSettle a0 => .queueSettle (a0.mv r)
  | .pushSend a0 => .pushSend (a0.mv r)
  | .migrShip a0 => .migrShip (a0.mv r)
  | .fenceDone a0 => .fenceDone (a0.mv r)
  | .drainDone a0 => .drainDone (a0.mv r)
  | .translation a0 a1 => .translation a0 (a1.mv r)
  | .missRetry a0 a1 => .missRetry a0 (a1.mv r)
  | .tokenArrival a0 a1 => .tokenArrival (a0.mv r) a1
  | .arcAck a0 => .arcAck (a0.mv r)
  | .planeSwitch a0 => .planeSwitch (a0.mv r)
  | .memNodeCompletion a0 a1 a2 => .memNodeCompletion (a0.mv r) a1 (a2.mv r)
  | .writePortToken a0 => .writePortToken (a0.mv r)
  | .bufferReopen a0 => .bufferReopen (a0.mv r)
  | .passStart a0 => .passStart (a0.mv r)
  | .towpathStart a0 => .towpathStart (a0.mv r)
  | .towpathStop a0 => .towpathStop (a0.mv r)
  | .freedSlotNotice a0 => .freedSlotNotice (a0.mv r)
  | .jointBarrier a0 => .jointBarrier (a0.mv r)
  | .opHeadCheck a0 => .opHeadCheck (a0.mv r)
  | .opStart a0 => .opStart (a0.mv r)
  | .blockStart a0 => .blockStart (a0.mv r)
  | .opComplete a0 => .opComplete (a0.mv r)
  | .sliceStart a0 a1 => .sliceStart (a0.mv r) a1
  | .jdrainComplete a0 a1 => .jdrainComplete (a0.mv r) a1
  | .partialCombine a0 a1 => .partialCombine (a0.mv r) a1
  | .haulStart a0 => .haulStart (a0.mv r)
  | .haulAccessAnswer a0 a1 a2 a3 => .haulAccessAnswer (a0.mv r) a1 a2 (a3.mv r)
  | .haulComplete a0 a1 => .haulComplete (a0.mv r) a1
  | .haulCancel a0 a1 a2 => .haulCancel (a0.mv r) a1 a2
  | .hslotPerform a0 a1 a2 a3 => .hslotPerform (a0.mv r) a1 (a2.mv r) a3
  | .graphReserve a0 => .graphReserve (a0.mv r)
  | .gloadPerform a0 => .gloadPerform (a0.mv r)
  | .gloadDone a0 => .gloadDone (a0.mv r)
  | .gswapPerform a0 => .gswapPerform (a0.mv r)
  | .reconfPass a0 a1 => .reconfPass (a0.mv r) (a1.mv r)
  | .swapEnd a0 => .swapEnd (a0.mv r)
  | .gmarkPerform a0 => .gmarkPerform (a0.mv r)
  | .nodeRecord a0 a1 => .nodeRecord (a0.mv r) (a1.mv r)
  | .cutComplete a0 => .cutComplete (a0.mv r)
  | .gsavePerform a0 => .gsavePerform (a0.mv r)
  | .gsaveDone a0 => .gsaveDone (a0.mv r)
  | .grestPerform a0 => .grestPerform (a0.mv r)
  | .grestDone a0 => .grestDone (a0.mv r)
  | .gctxPerform a0 a1 a2 a3 => .gctxPerform (a0.mv r) a1 (a2.mv r) a3
  | .windowReserve a0 => .windowReserve (a0.mv r)
  | .windowPieceCheck a0 => .windowPieceCheck (a0.mv r)
  | .wclosePerform a0 => .wclosePerform (a0.mv r)
  | .remoteAnswer a0 a1 => .remoteAnswer (a0.mv r) (a1.mv r)
  | .remoteAttemptTimeout a0 a1 a2 a3 a4 => .remoteAttemptTimeout (a0.mv r) a1 a2 a3 a4
  | .requestIdRelease a0 a1 a2 a3 => .requestIdRelease a0 (if a0 = r.node then a1.mv r else a1) a2 a3
  | .requestIdExpiry a0 a1 a2 a3 => .requestIdExpiry a0 (if a0 = r.node then a1.mv r else a1) a2 a3
  | .cjoinReserve a0 => .cjoinReserve (a0.mv r)
  | .cjoinCheck a0 => .cjoinCheck (a0.mv r)
  | .elementError a0 => .elementError (a0.mv r)
  | .spareMove a0 => .spareMove (a0.mv r)
  | .elementSelfTest a0 => .elementSelfTest (a0.map (ElemId.mv r))
  | .blockEnd a0 => .blockEnd (a0.mv r)
  | x => x

def ProbeState.mv (r : Ren) : ProbeState → ProbeState
  | .ok a0 => .ok (a0.mv r)
  | x => x

def Probe.mv (r : Ren) (x : Probe) : Probe :=
  { x with ans := x.ans.mv r }

def Eff.mv (r : Ren) : Eff → Eff
  | .send a0 a1 => .send (a0.mv r) (a1.mv r)
  | .count a0 a1 a2 => .count (a0.mv r) a1 a2
  | .spawn a0 => .spawn (a0.mv r)
  | .push a0 a1 a2 a3 => .push a0 a1 a2 (a3.mv r)
  | .pop a0 a1 => .pop a0 (a1.mv r)
  | .pushDrop a0 a1 => .pushDrop a0 (a1.mv r)
  | .popDrop a0 a1 => .popDrop a0 (a1.mv r)
  | .graph a0 => .graph (a0.mv r)
  | .gctx a0 a1 => .gctx (a0.mv r) a1
  | .wopen a0 => .wopen (a0.mv r)
  | .wclose a0 => .wclose (a0.mv r)
  | .cjoin a0 => .cjoin (a0.mv r)
  | x => x

def LoadWait.mv (r : Ren) (x : LoadWait) : LoadWait :=
  { x with eff := x.eff.map (Eff.mv r), probes := x.probes.map (Probe.mv r) }

def Buffered.mv (r : Ren) (x : Buffered) : Buffered :=
  { x with eff := x.eff.mv r, probes := x.probes.map (Probe.mv r) }

def Wait.mv (r : Ren) : Wait → Wait
  | .route a0 a1 => .route (a0.mv r) a1
  | x => x

def Status.mv (r : Ren) : Status → Status
  | .running a0 => .running (a0.mv r)
  | x => x

def Ctx.mv (r : Ren) (x : Ctx) : Ctx :=
  { x with
    status := x.status.mv r,
    buf := x.buf.map (Buffered.mv r),
    loadWait := x.loadWait.map (LoadWait.mv r),
    shipTo := x.shipTo.map (CoreId.mv r),
    duties := x.duties.map (Suspended.mv r) }

def Slot.mv (r : Ren) (x : Slot) : Slot :=
  { x with load := x.load.mv r }

def DqEntry.mv (r : Ren) (x : DqEntry) : DqEntry :=
  { x with barge := x.barge.mv r }

def Counter.mv (r : Ren) (x : Counter) : Counter :=
  { x with origin := x.origin.map (Origin.mv r) }

def SendRec.mv (r : Ren) (x : SendRec) : SendRec :=
  { x with item := x.item.mv r, dst := x.dst.mv r }

def Released.mv (r : Ren) (x : Released) : Released :=
  { x with origin := x.origin.mv r, buf := x.buf.mv r }

def Out.mv (r : Ren) (x : Out) : Out :=
  { x with home := x.home.mv r }

def Firing.mv (r : Ren) (x : Firing) : Firing :=
  { x with barge := x.barge.mv r }

def Core.mv (r : Ren) (x : Core) : Core :=
  { x with
    basin := x.basin.map (Slot.mv r),
    spill := x.spill.map (Slot.mv r),
    faults := x.faults.map (Slot.mv r),
    deque := x.deque.map (DqEntry.mv r),
    counters := x.counters.map (fun e => (e.1, e.2.mv r)),
    sends := x.sends.map (fun e => (e.1, e.2.mv r)),
    relq := x.relq.map (Released.mv r),
    outs := x.outs.map (Out.mv r),
    resumes := x.resumes.map (fun e => (e.1, e.2.map (Suspended.mv r))),
    stolen := x.stolen.map (Barge.mv r),
    fired := x.fired.map (Firing.mv r) }

def Job.mv (r : Ren) (x : Job) : Job :=
  { x with hives := x.hives.map (HiveId.mv r), start := x.start.map (Barge.mv r) }

def Walk.mv (r : Ren) (x : Walk) : Walk :=
  { x with waiters := x.waiters.map (XReq.mv r) }

def Station.mv (r : Ren) (x : Station) : Station :=
  { x with walks := x.walks.map (Walk.mv r), waitq := x.waitq.map (XReq.mv r) }

def Shoot.mv (r : Ren) (x : Shoot) : Shoot :=
  { x with waits := x.waits.map (fun e => (e.1.mv r, e.2)) }

def WinAttempt.mv (r : Ren) (x : WinAttempt) : WinAttempt :=
  { x with req := x.req.mv r, origin := x.origin.mv r }

def NodeSt.mv (r : Ren) : NodeSt → NodeSt
  | .ready a0 => .ready (a0.mv r)
  | x => x

def NodeAcc.mv (r : Ren) (x : NodeAcc) : NodeAcc :=
  { x with st := x.st.mv r }

def Wire.mv (r : Ren) : Wire → Wire
  | .arc a0 a1 => .arc (a0.mv r) a1
  | .coll a0 a1 => .coll (a0.mv r) a1

def Engine.mv (r : Ren) : Engine → Engine
  | .haul a0 a1 => .haul (a0.mv r) a1
  | .array a0 => .array (a0.mv r)

def GenCfg.mv (r : Ren) (x : GenCfg) : GenCfg :=
  { x with inst := x.inst.mv r }

def Gen.mv (r : Ren) (x : Gen) : Gen :=
  { x with
    cfg := x.cfg.map (GenCfg.mv r),
    pend := x.pend.map (GenCfg.mv r),
    prod := x.prod.map (Engine.mv r),
    cons := x.cons.map (Engine.mv r) }

def Plane.mv (r : Ren) (x : Plane) : Plane :=
  { x with
    inst := x.inst.map (InstId.mv r),
    src := x.src.map (fun e => (e.1, e.2.mv r)),
    dst := x.dst.map (fun e => (e.1, e.2.mv r)),
    accs := x.accs.map (NodeAcc.mv r),
    window := x.window.map (fun w => { w with gen := w.gen.mv r }) }

def Tile.mv (r : Ren) (x : Tile) : Tile :=
  { x with chosen := x.chosen.map (RuleId.mv r), skipped := x.skipped.map (RuleId.mv r) }

def JEntry.mv (r : Ren) (x : JEntry) : JEntry :=
  { x with eff := x.eff.mv r, origin := x.origin.mv r }

def Op.mv (r : Ren) (x : Op) : Op :=
  { x with origins := x.origins.map (Origin.mv r) }

def JRun.mv (r : Ren) (x : JRun) : JRun :=
  { x with entry := x.entry.mv r }

def Joint.mv (r : Ren) (x : Joint) : Joint :=
  { x with
    queues := x.queues.map (fun e => (e.1, e.2.map (JEntry.mv r))),
    runs := x.runs.map (fun e => (e.1, e.2.mv r)),
    ops := x.ops.map (Op.mv r),
    notes := x.notes.map (fun e => (e.1.mv r, e.2)),
    partials := x.partials.map (GenId.mv r),
    part := x.part.map (fun e => ((e.1.1.mv r, e.1.2), e.2)) }

def HEnd.mv (r : Ren) : HEnd → HEnd
  | .ring a0 => .ring (a0.mv r)
  | x => x

def Leg.mv (r : Ren) (x : Leg) : Leg :=
  { x with src := x.src.mv r, dst := x.dst.mv r }

def Haul.mv (r : Ren) (x : Haul) : Haul :=
  { x with origin := x.origin.mv r, legs := x.legs.map (Leg.mv r) }

def Stray.mv (r : Ren) (x : Stray) : Stray :=
  { x with tile := x.tile.mv r }

def GenSnap.mv (r : Ren) (x : GenSnap) : GenSnap :=
  { x with gen := x.gen.mv r, x := x.x.mv r }

def Wave.mv (r : Ren) (x : Wave) : Wave :=
  { x with
    op := x.op.mv r,
    new := x.new.map (InstId.mv r),
    passed := x.passed.map (NodeId.mv r),
    sent := x.sent.map (NodeId.mv r),
    strays := x.strays.map (Stray.mv r),
    joined := x.joined.map (GraphOp.mv r),
    snaps := x.snaps.map (GenSnap.mv r) }

def Save.mv (r : Ren) (x : Save) : Save :=
  { x with op := x.op.mv r, waitq := x.waitq.map (GraphOp.mv r) }

def Inst.mv (r : Ren) (x : Inst) : Inst :=
  { x with waitq := x.waitq.map (GraphOp.mv r), wave := x.wave.map (Wave.mv r) }

def Twin.mv (r : Ren) (x : Twin) : Twin :=
  { x with a := x.a.mv r, b := x.b.mv r }

def CollNode.mv (r : Ren) (x : CollNode) : CollNode :=
  { x with inp := x.inp.mv r, out := x.out.mv r }

def Group.mv (r : Ren) (x : Group) : Group :=
  { x with by_ := x.by_.mv r, inst := x.inst.mv r }

def Win.mv (r : Ren) (x : Win) : Win :=
  { x with origin := x.origin.map (Origin.mv r), closing := x.closing.map (WinOp.mv r) }

def WinUnder.mv (r : Ren) (x : WinUnder) : WinUnder :=
  { x with req := x.req.mv r, loc := x.loc.map (Loc.mv r) }

def Once.mv (r : Ren) (x : Once) : Once :=
  { x with req := x.req.mv r, res := x.res.map (Ans.mv r), waits := x.waits.map (WinReq.mv r) }

def RPiece.mv (r : Ren) (x : RPiece) : RPiece :=
  { x with locs := x.locs.map (fun e => (e.1, e.2.mv r)) }

def RemoteOp.mv (r : Ren) (x : RemoteOp) : RemoteOp :=
  { x with origin := x.origin.mv r, fly := x.fly.map (RPiece.mv r) }

def Ctl.mv (r : Ren) (x : Ctl) : Ctl :=
  { x with held := x.held.map (fun e => (e.1, e.2.mv r)) }

def Chan.mv (r : Ren) : Chan → Chan
  | .access a0 a1 a2 => .access (a0.mv r) a1 (a2.mv r)
  | .barge a0 a1 a2 => .barge (a0.mv r) (a1.mv r) a2
  | .node a0 a1 => .node (a0.mv r) (a1.mv r)
  | .notice a0 => .notice (a0.mv r)
  | .arc a0 => .arc (a0.mv r)
  | .window a0 a1 a2 a3 a4 =>
    if a0 = r.node then .window a0 (a1.mv r) a2 (a3.map (RuleId.mv r)) (a4.mv r) else .window a0 a1 a2 a3 (a4.mv r)
  | x => x

def Pend.mv (r : Ren) (x : Pend) : Pend :=
  { x with chan := x.chan.mv r, ev := x.ev.mv r }

/-- The whole state, renamed. -/
def State.mv (r : Ren) (s : State) : State :=
  { s with
    pending := s.pending.map (Pend.mv r),
    curT := s.curT.mv r,
    curR := s.curR.mv r,
    arg := s.arg.mv r,
    ctxs := s.ctxs.map (fun e => (e.1.mv r, e.2.mv r)),
    cores := s.cores.map (fun e => (e.1.mv r, e.2.mv r)),
    jobs := s.jobs.map (fun e => (e.1, e.2.mv r)),
    stations := s.stations.map (fun e => (e.1, e.2.mv r)),
    shoots := s.shoots.map (fun e => (e.1, e.2.mv r)),
    tags := s.tags.map (fun e => ((e.1.1.mv r, e.1.2), e.2)),
    wreqs := s.wreqs.map (fun e => ((e.1.1.mv r, e.1.2), e.2.mv r)),
    wseq := s.wseq.map (fun e => ((e.1.1.mv r, e.1.2), e.2)),
    lockSends := s.lockSends.map (fun e => (e.1, e.2.mv r)),
    planes := s.planes.map (fun e => (e.1.mv r, e.2.mv r)),
    tiles := s.tiles.map (fun e => (e.1.mv r, e.2.mv r)),
    gens := s.gens.map (fun e => (e.1.mv r, e.2.mv r)),
    slices := s.slices.map (fun e => ((e.1.1.mv r, e.1.2), e.2)),
    joints := s.joints.map (fun e => (e.1.mv r, e.2.mv r)),
    hauls := s.hauls.map (fun e => ((e.1.1.mv r, e.1.2), e.2.mv r)),
    insts := s.insts.map (fun e => (e.1.mv r, e.2.mv r)),
    saves := s.saves.map (fun e => (e.1.mv r, e.2.mv r)),
    twins := s.twins.map (Twin.mv r),
    colls := s.colls.map (fun e => ((e.1.1.mv r, e.1.2), e.2.mv r)),
    groups := s.groups.map (fun e => (e.1, e.2.mv r)),
    wins := s.wins.map (fun e => (e.1, e.2.mv r)),
    winReqs := s.winReqs.map (fun e => (e.1, e.2.mv r)),
    once := s.once.map (Once.mv r),
    rslots := s.rslots.map (fun e => ((e.1.1.mv r, e.1.2), e.2.mv r)),
    dropped := s.dropped.map (fun d => { d with core := d.core.mv r }),
    ctl := s.ctl.mv r }

end Sys2Proof.Machine
end

