-- ==== Sys2Proof/Machine/Move.lean ====
section
/-! DEFINITION. Hives in service (R267, R490, R491): the move of a held hive, tests, repair. -/

namespace Sys2Proof.Machine

open Sys2Proof

/-- The hive of an index of R267. -/
def hiveAt (n : Nat) : HiveId := ⟨n / 64, n % 64⟩

def State.hiveState (s : State) (h : HiveId) : Nat := tget s.hiveSt 0 h
def State.setHive (s : State) (h : HiveId) (v : Nat) : State := { s with hiveSt := tput s.hiveSt h v }

/-- Whether a tile lies in a hive. -/
def HiveId.hasTile (h : HiveId) (t : TileId) : Bool := t.die = h.die && t.hive = h.hive

/-- The instances with a plane in a hive. -/
def State.hiveInsts (s : State) (h : HiveId) : List (InstId × Inst) :=
  s.insts.filter (fun e => (s.instPlanes e.1).any (fun p => h.hasTile p.elem.tile))

/-- The contexts in use of a hive's cores. -/
def State.hiveCtxs (s : State) (h : HiveId) : List (ThreadId × Ctx) :=
  s.ctxs.filter (fun e => e.1.core.hive? = some h && e.2.status ≠ .free)

/-- The immediate cut the lockkeeper gives an instance (R491 step 2): no thread waits for it. -/
def State.cutNow (s : State) (i : InstId) (x : Inst) : State :=
  let o := s.instOrigin i ⟨i.die, i.hive, 0⟩
  let w : Word := fld i.die 22 ||| fld i.hive 16 ||| fld i.plane 14 ||| fld x.image 0
  let g : GraphOp := { op := 0x1AA, place := w, other := none, arg := 0xFFFF, thread := ⟨o.core, 0⟩, serial := 0, origin := o }
  match execGmarkPerform { s with arg := .gmarkPerform g } with
  | .next t => { t with arg := s.arg }
  | _ => s

/-- Cuts the ACTIVE instances of a hive that is moved, and remembers them. -/
def State.cutMoving (s : State) (h : HiveId) : State :=
  match tfind s.moves h with
  | none => s
  | some m =>
    let l := (s.hiveInsts h).filter (fun e => e.2.st = .active)
    let s : State := { s with moves := tput s.moves h { m with insts := (m.insts ++ l.map Prod.fst).eraseDups } }
    l.foldl (fun s e => s.cutNow e.1 e.2) s

/-- Steps 1 and 2 of R491: the target is the lowest free ONLINE hive, on the same die first. -/
def State.startMove (s : State) (h : HiveId) (sid : Nat) : State :=
  let free := s.freeHives
  match (free.filter (fun x => x.die = h.die) ++ free).head? with
  | none => s.hiveEvent h 0 0 3
  | some d =>
    let ts := (s.hiveCtxs h).map Prod.fst
    let s : State := { s with moves := tput s.moves h ⟨d, sid, ts, []⟩ }
    (ts.foldl (fun s t => s.post .none (.preemption t)) s).cutMoving h

/-- A thread of a moved hive is out of the way: pre-empted, or waiting for something while its pre-emption is pending (R197). -/
def Ctx.still (c : Ctx) : Bool :=
  match c.status with
  | .free => true
  | .suspended => true
  | .parkWait _ => c.preemptPending
  | .mwait => c.preemptPending
  | _ => false

/-- Whether step 3 of R491 is over: threads out of the way, instances cut, the op, hauls and remote operations complete. -/
def State.moveReady (s : State) (h : HiveId) : Bool :=
  let mine (c : CoreId) : Bool := c.hive? = some h
  thas s.moves h && (s.hiveCtxs h).all (fun e => e.2.still) &&
  (s.hiveInsts h).all (fun e => e.2.st = .cut || e.2.st = .shadow || e.2.st = .reserved) &&
  (s.joint h).runs = [] && (s.joint h).ops.all (fun o => !o.started) &&
  !s.tags.any (fun e => mine e.1.1 && e.2 = .running) && !s.rslots.any (fun e => mine e.1.1) && !s.wreqs.any (fun e => mine e.1.1)

/-- The copy of step 4 and the names of step 5: the target's memories and tables hold what the old hive's held. The spare of a tile is
not part of the hive's state. -/
def State.copyHive (s : State) (h d : HiveId) : State :=
  let lo := (Loc.tile ⟨h.die, h.hive, 0⟩ 0).key
  let dst := (Loc.tile ⟨d.die, d.hive, 0⟩ 0).key
  let n := 2 ^ 34
  let cells := s.mem.filter (fun c => lo ≤ c.1 && c.1 < lo + n)
  let bad := s.poison.filter (fun q => lo ≤ q && q < lo + n)
  let clear (p : List Nat) : List Nat := p.filter (fun q => !(lo ≤ q && q < lo + n) && !(dst ≤ q && q < dst + n))
  let spares := s.tiles.filterMap (fun e =>
    if h.hasTile e.1 || d.hasTile e.1 then e.2.spare.map (fun x => (e.1, x)) else none)
  let s : State :=
    { s with
      mem := cells.foldl (fun m c => memSet m (c.1 - lo + dst) c.2) (memClear (memClear s.mem lo (lo + n)) dst (dst + n)),
      poison := clear s.poison ++ bad.map (fun q => q - lo + dst),
      cores := s.cores.filter (fun e => e.1.hive? ≠ some d), ctxs := s.ctxs.filter (fun e => e.1.core.hive? ≠ some d),
      tags := s.tags.filter (fun e => e.1.1.hive? ≠ some d), wseq := s.wseq.filter (fun e => e.1.1.hive? ≠ some d),
      tiles := s.tiles.filter (fun e => !d.hasTile e.1), gens := s.gens.filter (fun e => !d.hasTile e.1.tile),
      planes := s.planes.filter (fun e => !d.hasTile e.1.elem.tile),
      slices := s.slices.filter (fun e => e.1.1 ≠ d), joints := s.joints.filter (fun e => e.1 ≠ d) }
  let s := s.mv ⟨s.node, h, d⟩
  let s : State :=
    { s with tiles := s.tiles.map (fun e => if h.hasTile e.1 || d.hasTile e.1 then (e.1, { e.2 with spare := none }) else e) }
  let s := spares.foldl (fun s e => s.setTile e.1 { s.tile e.1 with spare := some e.2 }) s
  { s with colls := s.colls.map (fun e => (e.1, { e.2 with gw := (gatewayOf e.2.inp.elem.tile).2 })) }

/-- R491: the redirection of the SID: the old hive, and every hive it had left before that led to the old one. -/
def Job.movedTo (j : Job) (h d : HiveId) : Job :=
  { j with moved := tput (tdel (j.moved.map (fun e => if e.2 = h then (e.1, d) else e)) d) h d }

/-- R491: a move is over: the copy, the redirection, the cuts restored and the pre-emptions ended. Until step 3 is over it only cuts
the instances that have become ACTIVE since. -/
def execHiveMoveDone (s : State) : Res :=
  match s.arg with
  | .hiveMoveDone h =>
    .next (s.byLock 0 (fun s =>
      match tfind s.moves h with
      | none => s
      | some m =>
        if !s.moveReady h then s.cutMoving h
        else
          let r : Ren := ⟨s.node, h, m.dest⟩
          let s : State := { s with moves := tdel s.moves h }
          let s := s.copyHive h m.dest
          let s := s.setJob m.sid ((s.job m.sid).movedTo h m.dest)
          let s := s.setHive h 1
          let s := (m.insts.map (InstId.mv r)).foldl (fun s i =>
            match s.inst i with
            | some x => if x.st = .cut then s.resumeCut i x else s
            | none => s) s
          let s := (m.threads.map (ThreadId.mv r)).foldl (fun s t => s.post .none (.preemptionEnd t)) s
          s.hiveEvent h 0 1 0))
  | _ => .next s

end Sys2Proof.Machine
end

