-- ==== Sys2Proof/Machine/Device.lean ====
section
/-! DEFINITION. Start-up (R485, R486), the device control registers (R466, R480 to R495), service of hives, firmware, power and
temperature. -/

namespace Sys2Proof.Machine

open Sys2Proof

/-! ## Start-up (R485) -/

/-- The machine as power-good leaves it: as after reset, but for what is not the device's own or is not volatile: the time and the free
values drawn, the board's node identifier, what left the device, memories (cleared in step 3), the flash. -/
def State.powerOn (s : State) : State :=
  { State.reset with
    part := s.part, node := s.node, cycle := s.cycle, mem := s.mem, poison := s.poison, free := s.free, plan := s.plan,
    netOut := s.netOut, dcrOut := s.dcrOut, pending := [],
    ctl := { fwActive := s.ctl.fwActive, fwSecver := s.ctl.fwSecver, fwOther := s.ctl.fwOther, fwOtherSec := s.ctl.fwOtherSec,
             fwVersion := s.ctl.fwVersion, fwSig := s.ctl.fwSig, fwOtherSig := s.ctl.fwOtherSig, slot := s.ctl.fwActive, pwrFloor := s.ctl.pwrFloor, pwrResp := s.ctl.pwrResp, phase := 1 } }

/-- A step of start-up that fails stops it. -/
def State.startFail (s : State) (code : Nat) : State := s.onCtl (fun c => { c with failed := true, fail := code })

/-- A step of start-up is over. -/
def State.startNext (s : State) (n : Nat) : State := s.onCtl (fun c => { c with phase := n })

/-- Whether a step of start-up is in progress. -/
def State.starting (s : State) (n : Nat) : Bool := s.ctl.phase = n && !s.ctl.failed && s.readyAt.isNone && !s.stopped

/-- The three checks of R486 on an image: 0 passed, 1 a signature, 2 the security version (the status codes of R479). -/
def FwSig.check (x : FwSig) (secver : Nat) : Nat :=
  if x.ecdsa ≠ some x.digest || x.lms ≠ some x.digest then 1 else if secver < Config.fwMinSec then 2 else 0

/-- R485, R486: power-good, and step 1: the active slot's image is tried first, then the other one's. -/
def execPowerGood (s : State) : Res :=
  match s.arg with
  | .powerGood =>
    let s := s.powerOn
    if s.ctl.fwSig.check s.ctl.fwSecver = 0 then .next (s.startNext 2)
    else if s.ctl.fwOtherSig.check s.ctl.fwOtherSec = 0 then .next ((s.onCtl Ctl.swapSlots).startNext 2)
    else .next (s.startFail 1)
  | _ => .next s

/-- R485: step 2. -/
def execCalibrate (s : State) : Res :=
  match s.arg with
  | .calibrate node fail =>
    if !s.starting 2 then .next s
    else if fail = 2 || fail = 3 || fail = 5 then .next (s.startFail fail)
    else .next (({ s with node := node % 2 ^ 21 } : State).startNext 3)
  | _ => .next s

/-- R485: step 3. Companion memory is not the device's. -/
def execMemoryZeroInit (s : State) : Res :=
  match s.arg with
  | .memoryZeroInit ok =>
    if !s.starting 3 then .next s
    else if !ok then .next (s.startFail 4)
    else
      let lo := (Loc.comp 0).key
      let hi := lo + 2 ^ 52
      .next (({ s with mem := s.mem.filter (fun c => lo ≤ c.1 && c.1 < hi), poison := [] } : State).startNext 4)
  | _ => .next s

/-- R485: step 4: the first failing element of a tile stands on its spare; a second one fences the hive. -/
def State.selfTest (s : State) (e : ElemId) : State :=
  if !isCompute e.tile.tile || 16 ≤ e.elem || 16 ≤ e.tile.tile || 64 ≤ e.tile.hive || s.part.dies ≤ e.tile.die then s
  else
    let t := s.tile e.tile
    match t.spare with
    | none => s.setTile e.tile { t with spare := some e.elem }
    | some x =>
      if x = e.elem then s
      else (s.setElem e { s.elem e with dead := true }).setHive ⟨e.tile.die, e.tile.hive⟩ 1

/-- R485: step 4. -/
def execElementSelfTest (s : State) : Res :=
  match s.arg with
  | .elementSelfTest l => if s.starting 4 then .next ((l.foldl State.selfTest s).startNext 5) else .next s
  | _ => .next s

/-- Whether a hive has a tile with two elements that fail (R485 step 4). -/
def State.spoiled (s : State) (h : HiveId) : Bool := s.elems.any (fun e => e.2.dead && h.hasTile e.1.tile)

/-- R485: step 5: ready is set, CLK starts, and hives that start FENCED for their elements are told. -/
def execReady (s : State) : Res :=
  match s.arg with
  | .ready =>
    if s.starting 5 then
      .next (s.hiveSt.foldl (fun s e => if e.2 = 1 && s.spoiled e.1 then s.hiveEvent e.1 1 1 2 else s) { s with readyAt := some s.cycle })
    else .next s
  | _ => .next s

/-! ## Who may access (R481) -/

/-- Whether an access of a master reaches the DCRs: from the end of step 1; from the companion by the aperture it has while link 24 is UP (R476), and
from a fabric manager whose plane's switch is measured. With no job named, the device's policy judges. -/
def State.dcrReaches (s : State) (m p : Nat) : Bool :=
  2 ≤ s.ctl.phase &&
  ((m = 1 && s.linkUp 24) || m = 2 || (m = 3 && p < 18 && s.linkUp p && (s.switch p).passed && s.policy.admits (s.switch p).measured))

/-- Whether a master is the owner. -/
def State.owns (s : State) (m p : Nat) : Bool :=
  s.dcrReaches m p && s.ctl.owner = m && (m ≠ 3 || s.ctl.plane = p)

/-- A write of a master that reaches the DCRs; it waits while die 0's lockkeeper restarts (R488). -/
def State.dcr (s : State) (m p : Nat) (f : State → State) : State :=
  s.byLock 0 (fun s => if s.dcrReaches m p then f s else s)

/-- A write that only the owner may do. -/
def State.byOwner (s : State) (m p : Nat) (f : State → State) : State :=
  s.byLock 0 (fun s => if s.owns m p then f s else s)

/-! ## Ownership (R482, R483) -/

/-- OWNER (R479). -/
def State.ownerEvent (s : State) (old cause : Nat) : State :=
  s.eventOwner 0 0x010 [fld s.ctl.owner 0 ||| fld old 2 ||| fld cause 4]

/-- The owner changes: a handover that was pending is over, and the new owner's path is timed. -/
def State.setOwner (s : State) (m p cause : Nat) : State :=
  let old := s.ctl.owner
  ((s.onCtl (fun c => { c with owner := m, plane := if m = 3 then p else 0, pending := 0, handDue := none, lostAt := none })).timePath).ownerEvent
    old cause

/-- A write of DCR_CLAIM. -/
def State.claimDcr (s : State) (m p : Nat) (v : Word) : State :=
  if v ≠ 1 then s
  else if s.ctl.owner = 0 then s.setOwner m p 0
  else if s.ctl.pending = m && (match s.ctl.handDue with | some c => s.cycle < c | none => false) then s.setOwner m p 1
  else s

/-- R482, R483: a write of DCR_CLAIM claims, or confirms a handover. -/
def execClaimWrite (s : State) : Res :=
  match s.arg with
  | .claimWrite m p v => .next (s.dcr m p (fun s => s.claimDcr m p v))
  | _ => .next s

/-- The owner's write of DCR_HANDOVER. -/
def State.handoverDcr (s : State) (v : Word) : State :=
  if bitsN v 63 2 ≠ 0 || v.toNat = s.ctl.owner then s
  else if v = 0 then (s.onCtl (fun c => { c with handover := 0 })).setOwner 0 0 3
  else s.onCtl (fun c => { c with handover := v, pending := v.toNat, handDue := some (s.cycle + second) })

/-- R483: the owner relinquishes. -/
def execRelinquish (s : State) : Res :=
  match s.arg with
  | .relinquish m p => .next (s.byOwner m p (fun s => s.handoverDcr 0))
  | _ => .next s

/-- R483: the owner names a successor. -/
def execHandover (s : State) : Res :=
  match s.arg with
  | .handover m p v => .next (s.byOwner m p (fun s => s.handoverDcr v))
  | _ => .next s

/-- Whether a handover has waited for its second. -/
def State.handoverLate (s : State) : Bool :=
  s.ctl.pending ≠ 0 && (match s.ctl.handDue with | some c => c ≤ s.cycle | none => false)

/-- R483: no claim confirms a handover in time. -/
def execHandoverTimeout (s : State) : Res :=
  match s.arg with
  | .handoverTimeout =>
    .next (s.byLock 0 (fun s =>
      if s.handoverLate then (s.onCtl (fun c => { c with pending := 0, handDue := none })).ownerEvent s.ctl.owner 2 else s))
  | _ => .next s

/-- Whether the owner's path has been DOWN for its second. -/
def State.pathLost (s : State) : Bool :=
  s.ctl.owner ≠ 0 && (match s.ctl.lostAt with | some c => c + second ≤ s.cycle | none => false)

/-- R483: the owner's path stays DOWN. -/
def execOwnerPathLost (s : State) : Res :=
  match s.arg with
  | .ownerPathLost => .next (s.byLock 0 (fun s => if s.pathLost then s.setOwner 0 0 4 else s))
  | _ => .next s

/-! ## Power and temperature (R492 to R494) -/

/-- A flag as a number. -/
def b2n (b : Bool) : Nat := if b then 1 else 0

/-- DCR_PWR_EVENT and DCR_THERM. -/
def State.pwrEventWord (s : State) : Word :=
  fld (b2n s.ctl.pwrLimiting) 0 ||| fld s.ctl.pwrHits.toNat 1 ||| fld s.ctl.pwrWrites.toNat 16
def State.thermWord (s : State) : Word :=
  fld s.ctl.temp0 0 ||| fld s.ctl.temp1 8 ||| fld s.ctl.hbmTemp 16 ||| fld s.ctl.limit 24 ||| fld (b2n s.ctl.throttling) 32 |||
  fld (b2n s.ctl.trip) 33

/-- A write of DCR_PWR_CAP: the owner any value from 300 to 1,600, a RACK master one below the cap. -/
def State.capDcr (s : State) (m p : Nat) (v : Word) : State :=
  let w := v.toNat
  let own := s.owns m p
  let rack := bitsN (BitVec.ofNat 64 s.ctl.rack) (m - 1) (m - 1) = 1 && w < s.ctl.pwrCap
  if w < 300 || 1600 < w || !(own || rack) then s
  else
    let s := s.onCtl (fun c =>
      { c with pwrCap := w, pwrWrites := c.pwrWrites + 1,
               pwrHits := c.pwrHits ||| (if w < c.pwrFloor then 2 else 0) ||| (if own then 0 else 8) })
    s.eventOwner 0 0x012 [s.pwrEventWord, fld s.ctl.pwrCap 0, s.ctl.pwrNow]

/-- R492, R493: a write of DCR_PWR_CAP. -/
def execPowerCap (s : State) : Res :=
  match s.arg with
  | .powerCap m p v => .next (s.dcr m p (fun s => s.capDcr m p v))
  | _ => .next s

/-- The owner's write of DCR_PWR_EVENT. -/
def State.pwrEventDcr (s : State) (v : Word) : State :=
  if bitsN v 15 5 ≠ 0 || bitsN v 63 32 ≠ 0 then s
  else s.onCtl (fun c => { c with pwrHits := c.pwrHits &&& ~~~(v.extractLsb' 1 4) })

/-- R493: ones clear sticky bits. -/
def execPowerEventClear (s : State) : Res :=
  match s.arg with
  | .powerEventClear m p v => .next (s.byOwner m p (fun s => s.pwrEventDcr v))
  | _ => .next s

/-- DCR_PWR_NOW's throttle level: a free value, 0 only where nothing throttles. -/
def State.throttle (s : State) : State :=
  let level := if s.ctl.pwrLimiting || s.ctl.throttling then 1 + Config.freeNat s.free % 255 else 0
  s.draw.onCtl (fun c => { c with pwrNow := (c.pwrNow &&& ~~~(fld 255 32)) ||| fld level 32 })

/-- R493: the measured power reaches the cap or falls back from it. The peak is a free value, no less than an average of the last second. -/
def execCapReached (s : State) : Res :=
  match s.arg with
  | .capReached now =>
    let avg := min now 0xFFFF
    let hot := decide (s.ctl.pwrCap ≤ avg)
    let log := s.ctl.pwrLog.filter (fun e => s.cycle < e.1 + second) ++ [(s.cycle, avg)]
    let peak := max ((log.map Prod.snd).foldl max 0) (Config.freeNat s.free % 2 ^ 16)
    .next (s.draw.onCtl (fun c =>
      { c with pwrNow := fld avg 0 ||| fld peak 16, pwrLog := log, pwrLimiting := hot,
               pwrHits := c.pwrHits ||| (if hot then 1 else 0) })).throttle
  | _ => .next s

/-- The owner's write of DCR_THERM. -/
def State.thermDcr (s : State) (v : Word) : State :=
  let l := bitsN v 31 24
  if bitsN v 63 34 ≠ 0 || l < 60 || 105 < l then s else s.onCtl (fun c => { c with limit := l })

/-- R494: the owner sets the limit. -/
def execThermalLimit (s : State) : Res :=
  match s.arg with
  | .thermalLimit m p v => .next (s.byOwner m p (fun s => s.thermDcr v))
  | _ => .next s

/-- A temperature is measured: of die 0, die 1, or (2) the hottest stack. -/
def Ctl.heat (c : Ctl) (die t : Nat) : Ctl :=
  let t := min t 255
  match die with
  | 0 => { c with temp0 := t }
  | 1 => { c with temp1 := t }
  | _ => { c with hbmTemp := t }

/-- The hottest part. -/
def Ctl.hottest (c : Ctl) : Nat := max c.temp0 (max c.temp1 c.hbmTemp)

/-- A temperature is measured: throttling begins above the limit and ends below it. -/
def State.heated (s : State) (die t : Nat) : State :=
  let c := s.ctl.heat die t
  let hot := decide (c.limit < c.hottest)
  ({ s with ctl := { c with throttling := hot, pwrHits := c.pwrHits ||| (if hot then 4 else 0) } } : State).throttle

/-- A job is killed (R494): the other devices of a spanning job are told. It is no kill of R472, and is not counted as one (R466). -/
def State.killAll (s : State) (sid : Nat) : State :=
  let j := s.job sid
  if !j.mortal then s
  else
    let to_ := if j.span.lead ≠ s.node then [j.span.lead] else j.others s.node
    (to_.foldl (fun s n => s.toNet n (some sid) (.spanKill sid .killed)) s).killNow sid .killed

/-- R494: a die reaches 110 °C: ready is cleared, and every SID is killed under R473, by a lockkeeper that restarts once it has done so (R488); with
the end of the last one the device is at rest. -/
def State.trip_ (s : State) (die t : Nat) : State :=
  let s := s.heated die t
  if s.ctl.trip then s
  else
    let s := s.onCtl (fun c => { c with trip := true })
    let s := s.eventOwner 0 0x013 [s.thermWord]
    s.byLock 0 (fun s => ((s.jobs.map Prod.fst).foldl State.killAll s).halt)

/-- R493, R494: a temperature crosses the limit, up or down: THERMAL; a die that reaches 110 °C trips. -/
def execThermalCrossing (s : State) : Res :=
  match s.arg with
  | .thermalCrossing die t =>
    if die = 1 && s.part.dies = 1 then .next s
    else if die ≤ 1 && 110 ≤ t then .next (s.trip_ die t)
    else
      let s' := s.heated die t
      .next (if s'.ctl.throttling = s.ctl.throttling then s' else s'.eventOwner 0 0x013 [s'.thermWord])
  | _ => .next s

/-- R494: a die reaches 110 °C. -/
def execThermalTrip (s : State) : Res :=
  match s.arg with
  | .thermalTrip die t => if t < 110 || s.part.dies ≤ die then .next s else .next (s.trip_ die t)
  | _ => .next s

/-! ## RAS and host basins (R466, R480) -/

/-- DCR_RAS. -/
def State.rasWord (s : State) : Word :=
  fld s.ctl.corr 0 ||| fld s.ctl.uncorr 16 ||| fld s.ctl.kills.toNat 32 ||| fld s.ctl.fails.toNat 40 ||| fld s.ctl.spares.toNat 48

/-- A write of DCR_RAS: a one in any bit of a field clears it. -/
def State.rasDcr (s : State) (v : Word) : State :=
  s.onCtl (fun c => { c with uncorr := if bitsN v 31 16 ≠ 0 then 0 else c.uncorr, corr := if bitsN v 15 0 ≠ 0 then 0 else c.corr })

/-- R466: the owner clears error counts. -/
def execRasClear (s : State) : Res :=
  match s.arg with
  | .rasClear m p v => .next (s.byOwner m p (fun s => s.rasDcr v))
  | _ => .next s

/-- DCR_HB_BASE and DCR_HB_PTR. -/
def HostBasin.baseWord (b : HostBasin) : Word := fld b.size 0 ||| fld b.base 0 ||| fld b.lost 52
def HostBasin.ptrWord (b : HostBasin) : Word := fld b.head 0 ||| fld b.tail 32

/-- The companion's write of DCR_HB_BASE. -/
def State.basinDcr (s : State) (m n : Nat) (v : Word) : State :=
  if m ≠ 1 || 4 ≤ n || bitsN v 5 4 ≠ 0 || 12 < bitsN v 3 0 then s
  else
    (s.setHostBasin n { s.hostBasin n with base := bitsN v 51 6 * 64, size := bitsN v 3 0, head := 0, tail := 0 }).basinPump

/-- The companion's write of DCR_HB_PTR. -/
def State.headDcr (s : State) (m n : Nat) (v : Word) : State :=
  if m ≠ 1 || 4 ≤ n then s
  else (s.setHostBasin n { s.hostBasin n with head := bitsN v 31 0 }).basinPump

/-- R480: a basin is set; held events are written to it. -/
def execHostBasinBase (s : State) : Res :=
  match s.arg with
  | .hostBasinBase m p n v => .next (s.dcr m p (fun s => s.basinDcr m n v))
  | _ => .next s

/-- R480: the companion has consumed entries. -/
def execHostBasinHead (s : State) : Res :=
  match s.arg with
  | .hostBasinHead m p n v => .next (s.dcr m p (fun s => s.headDcr m n v))
  | _ => .next s

/-! ## Hives in service (R490) -/

/-- A request of the owner's write to DCR_HIVE_STATE: the transition of R490, or a refusal. -/
def State.hiveDcr (s : State) (n v : Nat) : State :=
  let h := hiveAt n
  let st := s.hiveState h
  if 64 * s.part.dies ≤ n then s
  else
    match st, v with
    | 0, 1 =>
      if thas s.moves h then s.hiveEvent h st st 1
      else
        match s.sidOf h with
        | some sid => s.startMove h sid
        | none => if s.moves.any (fun m => m.2.dest = h) then s.hiveEvent h st st 1 else (s.setHive h 1).hiveEvent h 0 1 0
    | 1, 2 => s.setHive h 2
    | 1, 3 => s.setHive h 3
    | 1, 0 => ((s.zeroHive h).setHive h 0).hiveEvent h 1 0 0
    | _, _ => s.hiveEvent h st st 1

/-- R490, R491: FENCED is written. -/
def execHiveFence (s : State) : Res :=
  match s.arg with
  | .hiveFence m p n => .next (s.byOwner m p (fun s => s.hiveDcr n 1))
  | _ => .next s

/-- R490: TESTING is written. -/
def execHiveTest (s : State) : Res :=
  match s.arg with
  | .hiveTest m p n => .next (s.byOwner m p (fun s => s.hiveDcr n 2))
  | _ => .next s

/-- R490: a self-test ends: FENCED, with status 0 or 2. -/
def execHiveTestDone (s : State) : Res :=
  match s.arg with
  | .hiveTestDone n st =>
    .next (s.byLock 0 (fun s =>
      if s.hiveState (hiveAt n) = 2 then (s.setHive (hiveAt n) 1).hiveEvent (hiveAt n) 1 1 (if st = 0 then 0 else 2) else s))
  | _ => .next s

/-- The retest of an element under repair: one that passes is whole again, and the spare that stood for it is freed (R490). -/
def State.retest (s : State) (e : ElemId) : State :=
  let passes := Config.freeNat s.free % 2 = 0
  let x := s.tile e.tile
  let s := s.draw
  if !passes then s
  else
    let s := if (s.elem e).dead then s.setElem e { s.elem e with dead := false } else s
    if x.spare = some e.elem then s.setTile e.tile { x with spare := none } else s

/-- A repair ends: each element is retested, then the hive is FENCED (R490). -/
def State.repaired (s : State) (h : HiveId) : State :=
  let tiles := ((List.range 16).filter isCompute).map (fun t => TileId.mk h.die h.hive t)
  ((tiles.foldl (fun s t => t.elems.foldl State.retest s) s).setHive h 1).hiveEvent h 1 1 0

/-- R490: REPAIRING is written. Named with no master (0), the step is the end of the repair that is in progress. -/
def execHiveRepair (s : State) : Res :=
  match s.arg with
  | .hiveRepair m p n =>
    if m = 0 then
      .next (s.byLock 0 (fun s => if n < 64 * s.part.dies && s.hiveState (hiveAt n) = 3 then s.repaired (hiveAt n) else s))
    else .next (s.byOwner m p (fun s => s.hiveDcr n 3))
  | _ => .next s

/-- R490: ONLINE is written. -/
def execHiveOnline (s : State) : Res :=
  match s.arg with
  | .hiveOnline m p n => .next (s.byOwner m p (fun s => s.hiveDcr n 0))
  | _ => .next s

/-- DCR_HIVE_STATE (R267). -/
def State.hiveWord (s : State) (n : Nat) : Word :=
  if 64 * s.part.dies ≤ n then 0
  else
    match s.sidOf (hiveAt n) with
    | some sid => fld (s.hiveState (hiveAt n)) 0 ||| fld 1 2 ||| fld sid 16
    | none => fld (s.hiveState (hiveAt n)) 0

/-! ## Links (R421) -/

/-- The owner's write of a link's off bit: set, it holds the link DOWN. -/
def State.linkDcr (s : State) (n : Nat) (off : Bool) : State :=
  if 24 < n || linkAbsent s.part n then s
  else
    let l := s.link n
    let s' := s.setLink n { l with off := off, st := if off && l.st = 1 then 0 else l.st }
    if off && s.linkUp n then s'.linkLost n else s'

/-- R421: the owner sets or clears a link's off bit. -/
def execLinkOff (s : State) : Res :=
  match s.arg with
  | .linkOff m p n off => .next (s.byOwner m p (fun s => s.linkDcr n off))
  | _ => .next s

/-! ## Firmware (R486 to R489) -/

/-- A firmware service refused (R478): with cause ACCESS where the companion is not the owner, with ILLEGAL_FORM where it is malformed. -/
def State.fwRefused (s : State) (service : Nat) (c : Cause) : State := (s.eventOwner 0 0x002 [refusedWord c service]).hostNext

/-- The image of FW_STAGE as R486 checks it: one that cannot be read, with link 24 DOWN, is a read fault (log 12). -/
def State.fwJudge (s : State) (img : List Byte) : Nat :=
  if !s.linkUp 24 then 3 else FwSig.check ⟨Config.sha384 img, Config.fwEcdsa img, Config.fwLms img⟩ (Config.fwSecver img % 256)

/-- R489: an image is verified, and written to the inactive slot if it passes. -/
def execFwStage (s : State) : Res :=
  match s.arg with
  | .fwStage _ a n =>
    .next (s.byLock 0 (fun s =>
      if s.ctl.owner ≠ 1 then s.fwRefused 6 .access
      else if a.toNat % 4096 ≠ 0 || bitsN a 63 52 ≠ 0 || 2 ^ 24 < n.toNat then s.fwRefused 6 .illegalForm
      else
        let img := s.bytes (.comp a.toNat) n.toNat
        if s.fwJudge img = 0 then
          (s.onCtl (fun c => { c with fwStaged := true, fwOther := Config.fwVersion img % 2 ^ 24, fwOtherSec := Config.fwSecver img % 256,
                                      fwOtherSig := ⟨Config.sha384 img, Config.fwEcdsa img, Config.fwLms img⟩ })).firmware 0
        else s.firmware (s.fwJudge img)))
  | _ => .next s

/-- R489: the staged slot becomes the active one, and both lockkeepers restart. -/
def execFwActivate (s : State) : Res :=
  match s.arg with
  | .fwActivate _ =>
    .next (s.byLock 0 (fun s =>
      if s.ctl.owner ≠ 1 then s.fwRefused 7 .access
      else if !s.ctl.fwStaged then s.firmware 4
      else
        let s := s.onCtl (fun c => { c.swapSlots with fwStaged := false, fwGo := true })
        (List.range s.part.dies).foldl State.restartLock s))
  | _ => .next s

/-! ## The map (R495) -/

/-- DCR_ID, DCR_STATUS and DCR_OWNER. -/
def Part.code : Part → Nat
  | .hz960 => 0x960
  | .hz940 => 0x940
  | .hz480 => 0x480
def State.statusWord (s : State) : Word :=
  fld (b2n s.isReady) 0 ||| fld s.ctl.phase 1 ||| fld (b2n s.ctl.failed) 4 ||| fld s.ctl.fail 8 ||| fld s.ctl.slot 16 |||
  fld (b2n (s.ctl.down ≠ [])) 17 ||| fld s.ctl.restarts.toNat 24 ||| fld s.ctl.early 32
def State.ownerWord (s : State) : Word :=
  fld s.ctl.owner 0 ||| fld s.ctl.plane 2 ||| fld s.ctl.pending 8 ||| fld s.ctl.rack 10

/-- DCR_XLT_STAT (R273). -/
def State.xltWord (s : State) (n : Nat) : Word :=
  let x := s.station n
  fld x.walks.length 0 ||| fld x.retries.toNat 16 ||| fld x.misses.toNat 32

/-- What an aligned 8-byte read of the DCR space returns (R476, R495). -/
def State.dcrRead (s : State) (off : Nat) : Word :=
  if off % 8 ≠ 0 then 0
  else if 0x1000 ≤ off && off < 0x1400 then s.hiveWord ((off - 0x1000) / 8)
  else if 0x2000 ≤ off && off < 0x20C8 then s.linkWord ((off - 0x2000) / 8)
  else if 0x4000 ≤ off && off < 0x4200 then s.xltWord ((off - 0x4000) / 8)
  else if 0x400 ≤ off && off < 0x440 then
    (if off % 16 = 0 then (s.hostBasin ((off - 0x400) / 16)).baseWord else (s.hostBasin ((off - 0x400) / 16)).ptrWord)
  else
    match off with
    | 0x000 => fld 0x4B44 0 ||| fld s.part.code 16
    | 0x008 => BitVec.ofNat 64 s.part.caps
    | 0x010 => s.statusWord
    | 0x020 => s.ownerWord
    | 0x028 => s.ctl.handover
    | 0x100 => fld s.ctl.pwrCap 0
    | 0x108 => s.ctl.pwrNow
    | 0x110 => fld s.ctl.pwrFloor 0
    | 0x118 => fld s.ctl.pwrResp 0
    | 0x120 => s.pwrEventWord
    | 0x200 => s.thermWord
    | 0x300 => s.rasWord
    | 0x3000 => s.fwWord
    | _ => 0

/-- The owner's write of DCR_OWNER: the RACK roles. -/
def State.rackDcr (s : State) (v : Word) : State :=
  if bitsN v 63 13 ≠ 0 || bitsN v 7 7 ≠ 0 then s else s.onCtl (fun c => { c with rack := bitsN v 12 10 })

/-- A write of a master, by offset (R481, R495). -/
def State.dcrWrite (s : State) (r : DcrReq) : State :=
  let own (f : State → State) : State := if s.owns r.master r.plane then f s else s
  if r.off % 8 ≠ 0 then s
  else if 0x1000 ≤ r.off && r.off < 0x1400 then
    own (fun s => if bitsN r.val 63 32 ≠ 0 || bitsN r.val 15 3 ≠ 0 then s else s.hiveDcr ((r.off - 0x1000) / 8) (bitsN r.val 1 0))
  else if 0x2000 ≤ r.off && r.off < 0x20C8 then
    own (fun s => if bitsN r.val 42 40 ≠ 0 || bitsN r.val 15 12 ≠ 0 || bitsN r.val 6 3 ≠ 0 then s
                  else s.linkDcr ((r.off - 0x2000) / 8) (bitsN r.val 2 2 = 1))
  else if 0x400 ≤ r.off && r.off < 0x440 then
    (if r.off % 16 = 0 then s.basinDcr r.master ((r.off - 0x400) / 16) r.val else s.headDcr r.master ((r.off - 0x400) / 16) r.val)
  else
    match r.off with
    | 0x018 => s.claimDcr r.master r.plane r.val
    | 0x020 => own (fun s => s.rackDcr r.val)
    | 0x028 => own (fun s => s.handoverDcr r.val)
    | 0x100 => s.capDcr r.master r.plane r.val
    | 0x120 => own (fun s => s.pwrEventDcr r.val)
    | 0x200 => own (fun s => s.thermDcr r.val)
    | 0x300 => own (fun s => s.rasDcr r.val)
    | _ => s

/-- A master reads a DCR (R476, R481): only an aligned access of 8 bytes sees its value. The answer goes to the master. -/
def State.dcrAnswer (s : State) (r : DcrReq) : State :=
  { s with dcrOut := s.dcrOut ++ [(r, if r.size = 8 then s.dcrRead r.off else 0)] }

/-- R481, R485, R488, R495: a master's access to a DCR: a write, or a read, which is answered in its turn. -/
def execDcrWrite (s : State) : Res :=
  match s.arg with
  | .dcrWrite r =>
    .next (s.dcr r.master r.plane (fun s => if r.read then s.dcrAnswer r else if r.size = 8 then s.dcrWrite r else s))
  | _ => .next s

end Sys2Proof.Machine
end

