-- ==== Sys2Proof/Machine/ElemArith.lean ====
section
/-! DEFINITION. Lane arithmetic, functions and conversions of an element (R307 to R311, R92 to R95). -/

namespace Sys2Proof.Machine

open Sys2Proof

/-- Lane by lane, with the flags of every lane set in the plane (R88). -/
def lanes2 (p : Plane) (f : NFmt) (g : Nat → Nat → Nat → Nat × BitVec 7) (x y : Token) : Fired :=
  let ls := (List.range f.lanes).map (fun i => g (lane f x.data i) (lane f y.data i) (lane f p.acc i))
  one { p with flags := ls.foldl (fun m l => m ||| l.2) p.flags } { x with data := ofLanes f.bits (ls.map Prod.fst) }

/-- A two-source arithmetic instruction (R307): the float lanes' operation and the integer lanes' exact one, clamped
(R89). -/
def laneArith (i : Instr) (a b : BitVec 5) (g : FFmt → Mode → Nat → Nat → Nat → Nat × BitVec 7)
    (h : Int → Int → Int → Int) (s : State) : Res :=
  stdFire i (some a) (some b) (fun p _ t x y =>
    let f := trFmt t
    lanes2 p f (fun u v c =>
      match f with
      | .flt k => g k (trMode t) u v c
      | .int k => k.clamp (h (k.decode u) (k.decode v) (k.decode c))) x y) s

/-- A two-source instruction without flags (R307). -/
def laneLogic (i : Instr) (a b : BitVec 5) (g : NFmt → Nat → Nat → Nat) (s : State) : Res :=
  stdFire i (some a) (some b) (fun p _ t x y =>
    let f := trFmt t
    lanes2 p f (fun u v _ => (g f u v, 0)) x y) s

/-- R307: a + b. -/
def execVadd (a b d e : BitVec 5) (t : BitVec 4) (s : State) : Res :=
  laneArith (.vadd a b d e t) a b (fun k m u v _ => k.add m u v) (fun u v _ => u + v) s

/-- R307: a − b. -/
def execVsub (a b d e : BitVec 5) (t : BitVec 4) (s : State) : Res :=
  laneArith (.vsub a b d e t) a b (fun k m u v _ => k.sub m u v) (fun u v _ => u - v) s

/-- R307: a · b. -/
def execVmul (a b d e : BitVec 5) (t : BitVec 4) (s : State) : Res :=
  laneArith (.vmul a b d e t) a b (fun k m u v _ => k.mul m u v) (fun u v _ => u * v) s

/-- R307: a · b + acc, rounded once. -/
def execVfma (a b d e : BitVec 5) (t : BitVec 4) (s : State) : Res :=
  laneArith (.vfma a b d e t) a b (fun k m u v c => k.fma m u v c) (fun u v c => u * v + c) s

/-- R307, R93: the larger. -/
def execVmax (a b d e : BitVec 5) (t : BitVec 4) (s : State) : Res :=
  laneLogic (.vmax a b d e t) a b (fun f u v =>
    match f with
    | .flt k => k.vmax u v
    | .int k => if k.decode u < k.decode v then v else u) s

/-- R307, R93: the smaller. -/
def execVmin (a b d e : BitVec 5) (t : BitVec 4) (s : State) : Res :=
  laneLogic (.vmin a b d e t) a b (fun f u v =>
    match f with
    | .flt k => k.vmin u v
    | .int k => if k.decode v < k.decode u then v else u) s

/-- A bitwise instruction (R307). -/
def laneBits (i : Instr) (a b : BitVec 5) (g : BitVec 128 → BitVec 128 → BitVec 128) (s : State) : Res :=
  stdFire i (some a) (some b) (fun p _ _ x y => one p { x with data := g x.data y.data }) s

/-- R307: AND. -/
def execVand (a b d e : BitVec 5) (t : BitVec 4) (s : State) : Res :=
  laneBits (.vand a b d e t) a b (fun x y => x &&& y) s

/-- R307: OR. -/
def execVor (a b d e : BitVec 5) (t : BitVec 4) (s : State) : Res :=
  laneBits (.vor a b d e t) a b (fun x y => x ||| y) s

/-- R307: XOR. -/
def execVxor (a b d e : BitVec 5) (t : BitVec 4) (s : State) : Res :=
  laneBits (.vxor a b d e t) a b (fun x y => x ^^^ y) s

/-- R307: left shift; a count of the lane width or more gives 0. -/
def execVshl (a b d e : BitVec 5) (t : BitVec 4) (s : State) : Res :=
  laneLogic (.vshl a b d e t) a b (fun f u v => if f.bits ≤ v then 0 else u * 2 ^ v % 2 ^ f.bits) s

/-- R307: right shift, filling with the sign bit, zeros for UINT8. -/
def execVshr (a b d e : BitVec 5) (t : BitVec 4) (s : State) : Res :=
  laneLogic (.vshr a b d e t) a b (fun f u v =>
    match f with
    | .int k => k.code (k.decode u / 2 ^ (min v 64))
    | .flt _ => 0) s

/-- All ones in a lane, or 0. -/
def laneBool (f : NFmt) (b : Bool) : Nat := if b then 2 ^ f.bits - 1 else 0

/-- R307, R93: equality. -/
def execVcmpEq (a b d e : BitVec 5) (t : BitVec 4) (s : State) : Res :=
  laneLogic (.vcmpEq a b d e t) a b (fun f u v =>
    laneBool f (match f with
      | .flt k => (k.decode u).eq (k.decode v)
      | .int _ => u = v)) s

/-- R307, R93: less than. -/
def execVcmpLt (a b d e : BitVec 5) (t : BitVec 4) (s : State) : Res :=
  laneLogic (.vcmpLt a b d e t) a b (fun f u v =>
    laneBool f (match f with
      | .flt k => (k.decode u).lt (k.decode v)
      | .int k => k.decode u < k.decode v)) s

/-- R307: the absolute value; a NaN gives the canonical NaN. -/
def execVabs (a d e : BitVec 5) (t : BitVec 4) (s : State) : Res :=
  stdFire (.vabs a d e t) (some a) none (fun p _ t x _ =>
    let f := trFmt t
    lanes2 p f (fun u _ _ =>
      match f with
      | .flt k => (if k.decode u = .nan then k.nan else u % 2 ^ (k.bits - 1), 0)
      | .int k => k.clamp (k.decode u).natAbs) x {}) s

/-! ## Sums (R95) -/

/-- The width of an integer sum. -/
def sumFmt (k : IFmt) : IFmt := if k.width ≤ 16 then ⟨32, true⟩ else ⟨64, true⟩

/-- A float sum in FP32 from left to right: values a lane gives, then each step's operation. -/
def fsum (l : List (Val × Val)) (first : Val × Val → Nat × BitVec 7) (next : Nat → Val × Val → Nat × BitVec 7) : Nat × BitVec 7 :=
  match l with
  | [] => (0, 0)
  | x :: r => r.foldl (fun acc y => let z := next acc.1 y; (z.1, acc.2 ||| z.2)) (first x)

/-- The result token of a sum: FP32, or the integer sum's code, in the low bits (R307). -/
def sumOut (p : Plane) (x : Token) (r : Nat × BitVec 7) : Fired :=
  one { p with flags := p.flags ||| r.2 } { x with data := BitVec.ofNat 128 r.1 }

/-- An integer sum, clamped at each step. -/
def isum (k : IFmt) (l : List Int) : Nat × BitVec 7 :=
  let f := sumFmt k
  match l with
  | [] => (0, 0)
  | x :: r => r.foldl (fun acc y => let z := f.clamp (f.decode acc.1 + y); (z.1, acc.2 ||| z.2)) (f.clamp x)

/-- R307, R95: the sum of the lanes. -/
def execVred (a d e : BitVec 5) (t : BitVec 4) (s : State) : Res :=
  stdFire (.vred a d e t) (some a) none (fun p _ t x _ =>
    match trFmt t with
    | .flt k =>
      let l := (lanesOf (.flt k) x.data).map (fun u => (k.decode u, k.decode u))
      sumOut p x (fsum l (fun v => fp32.ofVal .rne false v.1) (fun acc v =>
        let z := (fp32.decode acc).add .rne v.1
        let o := fp32.ofVal .rne false z.1
        (o.1, z.2 ||| o.2)))
    | .int k => sumOut p x (isum k ((lanesOf (.int k) x.data).map k.decode))) s

/-- R307, R95: the sum of products. -/
def execVdot (a b d e : BitVec 5) (t : BitVec 4) (s : State) : Res :=
  stdFire (.vdot a b d e t) (some a) (some b) (fun p _ t x y =>
    match trFmt t with
    | .flt k =>
      let l := ((lanesOf (.flt k) x.data).zip (lanesOf (.flt k) y.data)).map (fun u => (k.decode u.1, k.decode u.2))
      sumOut p x (fsum l
        (fun v => let z := v.1.mul v.2; let o := fp32.ofVal .rne false z.1; (o.1, z.2 ||| o.2))
        (fun acc v =>
          let z := Val.fma .rne v.1 v.2 (fp32.decode acc)
          let o := fp32.ofVal .rne false z.1
          (o.1, z.2 ||| o.2)))
    | .int k =>
      sumOut p x (isum k (((lanesOf (.int k) x.data).zip (lanesOf (.int k) y.data)).map (fun u => k.decode u.1 * k.decode u.2)))) s

/-- R311, R95: running sums carried from lane 0 of acc; every lane of acc takes the last. -/
def execVscan (a d e : BitVec 5) (t : BitVec 4) (s : State) : Res :=
  stdFire (.vscan a d e t) (some a) none (fun p _ t x _ =>
    let f := trFmt t
    let step (acc u : Nat) : Nat × BitVec 7 :=
      match f with
      | .flt k => k.add .rne acc u
      | .int k => k.clamp (k.decode acc + k.decode u)
    let r := (lanesOf f x.data).foldl (fun (st : List Nat × Nat × BitVec 7) u =>
      let z := step st.2.1 u
      (st.1 ++ [z.1], z.1, st.2.2 ||| z.2)) ([], lane f p.acc 0, (0 : BitVec 7))
    let o : Token := { x with data := ofLanes f.bits r.1 }
    { p := { p with flags := p.flags ||| r.2.2 }, x := o, y := o,
      acc := some (ofLanes f.bits (List.replicate f.lanes r.2.1)) }) s

/-! ## Conversions and functions (R308, R309, R310) -/

/-- The target of a conversion and the width its elements are packed at (R308). -/
def cvtTarget (n : Nat) : NFmt × Nat :=
  match n with
  | 10 => (.flt e2m3, 6)
  | 11 => (.flt e3m2, 6)
  | 12 => (.flt e2m1, 4)
  | n => (laneFmt n, (laneFmt n).bits)

/-- One draw of a plane's generator (R79): the new g, and r. -/
def srDraw (g : BitVec 32) : BitVec 32 × Nat :=
  let g := g ^^^ (g <<< 13)
  let g := g ^^^ (g >>> 17)
  let g := g ^^^ (g <<< 5)
  (g, bitsN g 31 16)

/-- R308: converts lanes; under SR each lane whose source or target is a float format draws once. -/
def execVcvt (a : BitVec 5) (k : BitVec 10) (d : BitVec 5) (t : BitVec 4) (s : State) : Res :=
  stdFire (.vcvt a k d t) (some a) none (fun p _ t x _ =>
    let f := trFmt t
    let tn := k.toNat % 16
    let md := Mode.ofCode (k.toNat / 16 % 8)
    let sat := k.toNat / 128 % 2 = 1 || 10 ≤ tn
    let tgt := cvtTarget tn
    let n := if tn ≤ 9 then min f.lanes tgt.1.lanes else f.lanes
    let ints := match f, tgt.1 with | .int _, .int _ => true | _, _ => false
    let r := ((lanesOf f x.data).take n).foldl (fun (st : List Nat × BitVec 32 × BitVec 7) u =>
      let dr := if md = .sr && !ints then srDraw st.2.1 else (st.2.1, 0)
      let z := convert f tgt.1 md sat u dr.2
      (st.1 ++ [z.1], dr.1, st.2.2 ||| z.2)) ([], p.g, (0 : BitVec 7))
    one { p with g := r.2.1, flags := p.flags ||| r.2.2 } { x with data := ofLanes tgt.2 r.1 }) s

/-- A function of one source (R309). The loader admits float formats only. -/
def laneFun (i : Instr) (a : BitVec 5) (g : FFmt → Mode → Nat → Nat × BitVec 7) (s : State) : Res :=
  stdFire i (some a) none (fun p _ t x _ =>
    let f := trFmt t
    lanes2 p f (fun u _ _ =>
      match f with
      | .flt k => g k (trMode t) u
      | .int _ => (0, 0)) x {}) s

/-- R309: 1/a. -/
def execVrcp (a d e : BitVec 5) (t : BitVec 4) (s : State) : Res :=
  laneFun (.vrcp a d e t) a FFmt.rcp s

/-- R309: 1/√a. -/
def execVrsq (a d e : BitVec 5) (t : BitVec 4) (s : State) : Res :=
  laneFun (.vrsq a d e t) a FFmt.rsq s

/-- R309: 2^a. -/
def execVexp2 (a d e : BitVec 5) (t : BitVec 4) (s : State) : Res :=
  laneFun (.vexp2 a d e t) a FFmt.exp2 s

/-- R309: log2 a. -/
def execVlog2 (a d e : BitVec 5) (t : BitVec 4) (s : State) : Res :=
  laneFun (.vlog2 a d e t) a FFmt.log2 s

/-- R310: lanes by index. -/
def execVperm (a b d e : BitVec 5) (t : BitVec 4) (s : State) : Res :=
  stdFire (.vperm a b d e t) (some a) (some b) (fun p _ t x y =>
    let f := trFmt t
    one p { x with data := ofLanes f.bits ((lanesOf f y.data).map (fun j => if j < f.lanes then lane f x.data j else 0)) }) s

/-- R310: one lane everywhere. -/
def execVbcast (a b d e : BitVec 5) (t : BitVec 4) (s : State) : Res :=
  stdFire (.vbcast a b d e t) (some a) (some b) (fun p _ t x y =>
    let f := trFmt t
    let j := lane f y.data 0
    one p { x with data := ofLanes f.bits (List.replicate f.lanes (if j < f.lanes then lane f x.data j else 0)) }) s

end Sys2Proof.Machine
end

