-- ==== Sys2Proof/Machine/ElemMem.lean ====
section
/-! DEFINITION. Memory, store-tile, sparse and collective instructions of an element (R330 to R340, R444, R445). -/

namespace Sys2Proof.Machine

open Sys2Proof

/-! ## Memory nodes (R333 to R336) -/

/-- A firing of a memory node: its sources, the access it issues, whose completion carries the poison of both (R464), and of an exit what
the twins compare (R471): the data and the kind that it sends to memory, not the address, which differs between the copies. -/
def memFire (i : Instr) (a : BitVec 5) (b : Option (BitVec 5)) (exit : Option (Token → Token → BitVec 128 × Kind))
    (f : Token → Token → Nat × MemOp) (s : State) : Res :=
  elemInstr i (fun s r _ t =>
    let p := s.plane r.plane
    let src := p.two r.plane.plane (trFmt t) (some a) b
    let x := f src.1 src.2.1
    s.nodeIssue r (src.1.data.extractLsb' 0 64) x.1 x.2 { src.1 with poison := src.1.poison || src.2.1.poison } (fun s =>
      let s := s.firedOnce r true
      match exit with
      | some sent => s.twinExit r [sent src.1 src.2.1]
      | none => s)) s

/-- R334: loads 16 bytes. -/
def execMld (a d e : BitVec 5) (t : BitVec 4) (s : State) : Res :=
  memFire (.mld a d e t) a none none (fun _ _ => (16, .load 16)) s

/-- R335: stores the bytes the skip mask leaves. -/
def execMst (a b d e : BitVec 5) (t : BitVec 4) (s : State) : Res :=
  memFire (.mst a b d e t) a (some b) (some (fun _ y => (y.data, y.kind))) (fun x y =>
    (16, .store ((List.range 16).map (fun i =>
      if x.data.getLsbD (64 + i) then none else some (y.data.extractLsb' (8 * i) 8))) y.poison)) s

/-- The operations of `matom` (R336). -/
def matomOp : Nat → AtomOp
  | 0 => .add | 1 => .and | 2 => .or | 3 => .xor | 4 => .max | 5 => .min | 6 => .xchg | 7 => .fadd | _ => .badd

/-- R336: an atomic at the home. -/
def execMatom (a : BitVec 5) (k : BitVec 10) (d : BitVec 5) (t : BitVec 4) (s : State) : Res :=
  memFire (.matom a k d t) a none (some (fun x _ => ((x.data.extractLsb' 64 64).setWidth 128, x.kind))) (fun x _ =>
    let op := matomOp k.toNat
    let n := if op = .fadd then 4 else 8
    (n, .atomic op (x.data.extractLsb' 64 64) 0)) s

/-! ## Store-tile streams (R330, R332) -/

/-- R330: the next token of a generator's read stream, or its status. -/
def execSld (g d e : BitVec 5) (t : BitVec 4) (s : State) : Res :=
  elemInstr (.sld g d e t) (fun s r w t =>
    let s := s.firedOnce r false
    let id : GenId := ⟨r.plane.elem.tile.pair, g.toNat % 4⟩
    let x := s.gen id
    let tok : Token :=
      if g.toNat ≤ 3 then (match x.rport with | some l => l.tok | none => {}) else { data := x.status }
    let s := (tagWrites w tok tok).foldl (fun s q => s.putPort r.plane q.1 q.2) s
    let s := s.onPlane r.plane (qAction w (laneTest (trFmt t) tok.data))
    let s := (maskList (trPop t)).foldl (fun s c => s.popCh r.plane c) s
    if g.toNat ≤ 3 then (s.onGen id (fun x => { x with rport := none })).genPump id else s) s

/-- R332: gives a token to a generator's write port. -/
def execSst (a g : BitVec 5) (t : BitVec 4) (s : State) : Res :=
  elemInstr (.sst a g t) (fun s r w t =>
    let s := s.firedOnce r false
    let p := s.plane r.plane
    let src := p.two r.plane.plane (trFmt t) (some a) none
    let s := s.onPlane r.plane (fun p => qAction w (laneTest (trFmt t) src.1.data) { p with sp := src.2.2 })
    let s := s.twinExit r [(src.1.data, src.1.kind)]
    let s := s.onGen ⟨r.plane.elem.tile.pair, g.toNat⟩ (fun x => { x with wport := some src.1 })
    (maskList (trPop t)).foldl (fun s c => s.popCh r.plane c) s) s

/-! ## Bitmap sparsity (R338, R340) -/

/-- Bits of a bitmap at or above a place, lowest first. -/
def nextBit (m : BitVec 128) (from_ : Nat) : Nat :=
  ((List.range 128).find? (fun i => from_ ≤ i && m.getLsbD i)).getD 128

/-- The BITMAP_LEN fault of a `bmexp` rule (R338), after which it is unready until the plane is reloaded. -/
def State.bitmapLen (s : State) (r : RuleId) (pop emitted : Nat) : State :=
  let b := (s.plane r.plane).bm
  (s.onPlane r.plane (fun p => { p with bm := { p.bm with phase := 4 } })).ruleFault r .bitmapLen
    (fld b.n 0 ||| fld pop 8 ||| fld emitted 16 ||| fld b.base 32) none

/-- R338: one firing of `bmexp`, by its phase. -/
def execBmexp (a b d e : BitVec 5) (t : BitVec 4) (s : State) : Res :=
  elemInstr (.bmexp a b d e t) (fun s r w t =>
    let s := s.firedOnce r false
    let p := s.plane r.plane
    let f := trFmt t
    let tok (x : BitVec 5) : Token := match tfind p.latch x.toNat with | some l => l.tok | none => {}
    let pops := s.popsOf r
    let setBm (s : State) (m : BmState) : State := s.onPlane r.plane (fun p => { p with bm := m })
    let push (s : State) (x : Token) : State := (tagWrites w x x).foldl (fun s q => s.putPort r.plane q.1 q.2) s
    let popAll (s : State) : State := pops.foldl (fun s c => s.popCh r.plane c) s
    let m := p.bm
    let x := tok a
    let y := tok b
    match m.phase with
    | 0 =>
      if x.kind = .eos then popAll (push s { kind := .eos, poison := x.poison || y.poison })
      else popAll (setBm s { phase := 1, n := bitsN x.data 7 0, base := bitsN x.data 63 32, bad := x.poison })
    | 1 =>
      if x.kind = .eos then s.bitmapLen r 0xFF 0
      else if x.data.cpop.toNat ≠ m.n then s.bitmapLen r x.data.cpop.toNat 0
      else popAll (setBm s { m with phase := if m.n = 0 then 3 else 2, bitmap := x.data, bit := 0, lane := 0, out := 0, bad := m.bad || x.poison })
    | 2 =>
      if y.kind = .eos then s.bitmapLen r m.bitmap.cpop.toNat m.out
      else
        let j := nextBit m.bitmap m.bit
        let o : Token := { data := BitVec.ofNat 128 ((m.base + j) % 2 ^ 32 * 2 ^ 96 + lane f y.data m.lane),
                           poison := m.bad || y.poison }
        let last := m.out + 1 = m.n
        let m' : BmState :=
          if last then { m with phase := 3, bit := j + 1, lane := 0, out := m.out + 1 }
          else { m with bit := j + 1, lane := (m.lane + 1) % f.vals, out := m.out + 1 }
        let rest := (List.range f.vals).filter (fun i => m.lane < i)
        let skip : BitVec 7 := if last && rest.any (fun i => laneNonFinite f (lane f y.data i)) then flagSkipnf else 0
        let s := (setBm s m').onPlane r.plane (fun p => { p with flags := p.flags ||| skip })
        popAll (push s o)
    | _ => push (setBm s {}) { kind := .eof, poison := m.bad }) s

/-- R340: consumes one matched pair. -/
def execIsect (a b d e : BitVec 5) (t : BitVec 4) (s : State) : Res :=
  elemInstr (.isect a b d e t) (fun s r w t =>
    let s := s.firedOnce r false
    let p := s.plane r.plane
    let src := p.two r.plane.plane (trFmt t) (some a) (some b)
    let bad := src.1.poison || src.2.1.poison
    let s := (tagWrites w { src.1 with poison := bad } { src.2.1 with poison := bad }).foldl
      (fun s q => s.putPort r.plane q.1 q.2) s
    (maskList (trPop t)).foldl (fun s c => s.popCh r.plane c) s) s

/-! ## Collective nodes (R444, R445) -/

/-- R444: gives one token to a collective node. -/
def execXsend (a d : BitVec 5) (s : State) : Res :=
  elemInstr (.xsend a d) (fun s r _ t =>
    let s := s.firedOnce r true
    let p := s.plane r.plane
    let src := p.two r.plane.plane (trFmt t) (some a) none
    let s := s.onPlane r.plane (fun p => { p with sp := src.2.2 })
    let s := s.twinExit r [(src.1.data, src.1.kind)]
    (maskList (trPop t)).foldl (fun s c => s.popCh r.plane c) (s.putPort r.plane d src.1)) s

/-- R445: takes one token from a collective node; the second result is the source rank its latch keeps. -/
def execXrecv (a d e : BitVec 5) (t : BitVec 4) (s : State) : Res :=
  stdFire (.xrecv a d e t) (some a) none (fun p _ _ x _ =>
    { p := p, x := x, y := { data := BitVec.ofNat 128 (tget p.rank 0xFFFF a.toNat) } }) s

end Sys2Proof.Machine
end

