-- ==== Sys2Proof/Machine/ElemStream.lean ====
section
/-! DEFINITION. The stream instructions of an element (R178, R181, R296 to R306). -/

namespace Sys2Proof.Machine

open Sys2Proof

/-- R178 in an element: a zero result. -/
def execNopElement (d e : BitVec 5) (t : BitVec 4) (s : State) : Res :=
  stdFire (.nopElement d e t) none none (fun p _ _ _ _ => one p {}) s

/-- R181 in an element: the plane's flags as they were before the firing, which selector 1 clears, or g. -/
def execStatElement (k : BitVec 10) (d : BitVec 5) (t : BitVec 4) (s : State) : Res :=
  stdFire (.statElement k d t) none none (fun p _ _ _ _ =>
    if k = 2 then one p { data := p.g.setWidth 128 }
    else one (if k = 1 then { p with flags := 0 } else p) { data := p.flags.setWidth 128 }) s

/-- R296: copies a token. -/
def execMov (a d e : BitVec 5) (t : BitVec 4) (s : State) : Res :=
  stdFire (.mov a d e t) (some a) none (fun p _ _ x _ => one p x) s

/-- R297: chooses a source by q. -/
def execPick (a b d e : BitVec 5) (t : BitVec 4) (s : State) : Res :=
  stdFire (.pick a b d e t) (some a) (some b) (fun p _ _ x y => one p (if p.q.getLsbD e.toNat then x else y)) s

/-- R298: sends the token down the output the control selects. -/
def execSteer (a b d e : BitVec 5) (s : State) : Res :=
  stdFire (.steer a b d e) (some a) (some b) (fun p _ t x y =>
    { p := p, x := x, y := x, writes := some [(if laneTest (trFmt t) y.data then d else e, x)] }) s

/-- R299: takes from the channel the control stream names. -/
def execMerge (a : BitVec 5) (k : BitVec 10) (d : BitVec 5) (t : BitVec 4) (s : State) : Res :=
  stdFire (.merge a k d t) (some a) none (fun p _ t c _ =>
    let n := mergeSel p (trFmt t) a k
    let x : Token := match tfind p.latch n with | some l => l.tok | none => {}
    let x := { x with poison := x.poison || c.poison }
    { p := p, x := x, y := x, pops := some [a.toNat, n] }) s

/-- R300: takes the token that became a head first. -/
def execMergeu (a b d : BitVec 5) (t : BitVec 4) (s : State) : Res :=
  elemInstr (.mergeu a b d t) (fun s r w _ =>
    let s := s.firedOnce r false
    let p := s.plane r.plane
    match mergeuSel p s.cycle a b with
    | some n =>
      let x : Token := match tfind p.latch n with | some l => l.tok | none => {}
      let f := match s.rule r with | some (_, t) => trFmt t | none => laneFmt 0
      let s := (tagWrites w x x).foldl (fun s q => s.putPort r.plane q.1 q.2) s
      (s.onPlane r.plane (qAction w (laneTest f x.data))).popCh r.plane n
    | none => s) s

/-- R301: lets a token through only under a condition. -/
def execGuard (a b d : BitVec 5) (s : State) : Res :=
  stdFire (.guard a b d) (some a) (some b) (fun p _ t x y =>
    { p := p, x := x, y := x, writes := some (if laneTest (trFmt t) y.data then [(d, x)] else []) }) s

/-- R302, R90: gives acc, and steps it lane by lane; integer lanes wrap without a flag. -/
def execGen (a d e : BitVec 5) (t : BitVec 4) (s : State) : Res :=
  stdFire (.gen a d e t) (some a) none (fun p _ t x _ =>
    let f := trFmt t
    let ls := (List.range f.lanes).map (fun i =>
      let u := lane f p.acc i
      let v := lane f x.data i
      match f with
      | .flt g => g.add (trMode t) u v
      | .int g => ((u + v) % 2 ^ g.width, (0 : BitVec 7)))
    let r : Token := { data := p.acc }
    { p := { p with flags := ls.foldl (fun m l => m ||| l.2) p.flags }, x := r, y := r,
      acc := some (ofLanes f.bits (ls.map Prod.fst)) }) s

/-- R303: pushes one token as often as the count says, then pops. -/
def execRep (a b d e : BitVec 5) (t : BitVec 4) (s : State) : Res :=
  stdFire (.rep a b d e t) (some a) (some b) (fun p _ _ x y =>
    let n := max 1 (bitsN y.data 31 0)
    if n ≤ p.rc + 1 then { p := { p with rc := 0 }, x := x, y := x }
    else { p := { p with rc := p.rc + 1 }, x := x, y := x, pops := some [] }) s

/-- R304: consumes a head of any kind. -/
def execDrop (a : BitVec 5) (t : BitVec 4) (s : State) : Res :=
  stdFire (.drop a t) (some a) none (fun p _ _ x _ => one p x) s

/-- R305: relabels as EOS. -/
def execEos (a d e : BitVec 5) (t : BitVec 4) (s : State) : Res :=
  stdFire (.eos a d e t) (some a) none (fun p _ _ x _ => one p { x with kind := .eos }) s

/-- R305: relabels as CTRL. -/
def execCtl (a d e : BitVec 5) (t : BitVec 4) (s : State) : Res :=
  stdFire (.ctl a d e t) (some a) none (fun p _ _ x _ => one p { x with kind := .ctrl }) s

/-- R306: joins tokens of any kind and gives SA's data as DATA. -/
def execSync (a d e : BitVec 5) (t : BitVec 4) (s : State) : Res :=
  stdFire (.sync a d e t) (some a) none (fun p _ _ x _ => one p { x with kind := .data }) s

end Sys2Proof.Machine
end

