-- ==== Sys2Proof/Machine/Dispatch.lean ====
section
/-! DEFINITION. One arm for each row of the opcode table. -/

namespace Sys2Proof.Machine

open Sys2Proof

def exec (i : Instr) (s : State) : Host.Outcome State Fault Refusal :=
  match i with
  | .nop t => Sys2Proof.Machine.execNop t s
  | .nopElement d e t => Sys2Proof.Machine.execNopElement d e t s
  | .done t => Sys2Proof.Machine.execDone t s
  | .trap k t => Sys2Proof.Machine.execTrap k t s
  | .csrr k d t => Sys2Proof.Machine.execCsrr k d t s
  | .csrw a k t => Sys2Proof.Machine.execCsrw a k t s
  | .yield t => Sys2Proof.Machine.execYield t s
  | .brk k t => Sys2Proof.Machine.execBrk k t s
  | .stat k d t => Sys2Proof.Machine.execStat k d t s
  | .statElement k d t => Sys2Proof.Machine.execStatElement k d t s
  | .clk d t => Sys2Proof.Machine.execClk d t s
  | .id d k t => Sys2Proof.Machine.execId d k t s
  | .add a b d t => Sys2Proof.Machine.execAdd a b d t s
  | .sub a b d t => Sys2Proof.Machine.execSub a b d t s
  | .mul a b d t => Sys2Proof.Machine.execMul a b d t s
  | .mulh a b d t => Sys2Proof.Machine.execMulh a b d t s
  | .mulhu a b d t => Sys2Proof.Machine.execMulhu a b d t s
  | .div a b d t => Sys2Proof.Machine.execDiv a b d t s
  | .divu a b d t => Sys2Proof.Machine.execDivu a b d t s
  | .rem a b d t => Sys2Proof.Machine.execRem a b d t s
  | .remu a b d t => Sys2Proof.Machine.execRemu a b d t s
  | .and a b d t => Sys2Proof.Machine.execAnd a b d t s
  | .or a b d t => Sys2Proof.Machine.execOr a b d t s
  | .xor a b d t => Sys2Proof.Machine.execXor a b d t s
  | .shl a b d t => Sys2Proof.Machine.execShl a b d t s
  | .shr a b d t => Sys2Proof.Machine.execShr a b d t s
  | .sar a b d t => Sys2Proof.Machine.execSar a b d t s
  | .andn a b d t => Sys2Proof.Machine.execAndn a b d t s
  | .addk a k d t => Sys2Proof.Machine.execAddk a k d t s
  | .andk a k d t => Sys2Proof.Machine.execAndk a k d t s
  | .ork a k d t => Sys2Proof.Machine.execOrk a k d t s
  | .xork a k d t => Sys2Proof.Machine.execXork a k d t s
  | .shlk a k d t => Sys2Proof.Machine.execShlk a k d t s
  | .shrk a k d t => Sys2Proof.Machine.execShrk a k d t s
  | .sark a k d t => Sys2Proof.Machine.execSark a k d t s
  | .ldk k d t => Sys2Proof.Machine.execLdk k d t s
  | .ldkh a k d t => Sys2Proof.Machine.execLdkh a k d t s
  | .ldl k d t => Sys2Proof.Machine.execLdl k d t s
  | .min a b d t => Sys2Proof.Machine.execMin a b d t s
  | .max a b d t => Sys2Proof.Machine.execMax a b d t s
  | .minu a b d t => Sys2Proof.Machine.execMinu a b d t s
  | .maxu a b d t => Sys2Proof.Machine.execMaxu a b d t s
  | .clz a d t => Sys2Proof.Machine.execClz a d t s
  | .popc a d t => Sys2Proof.Machine.execPopc a d t s
  | .sext a k d t => Sys2Proof.Machine.execSext a k d t s
  | .zext a k d t => Sys2Proof.Machine.execZext a k d t s
  | .sel a b d e t => Sys2Proof.Machine.execSel a b d e t s
  | .mac a b d t => Sys2Proof.Machine.execMac a b d t s
  | .adds a b d t => Sys2Proof.Machine.execAdds a b d t s
  | .subs a b d t => Sys2Proof.Machine.execSubs a b d t s
  | .cmpEq a b d e t => Sys2Proof.Machine.execCmpEq a b d e t s
  | .cmpNe a b d e t => Sys2Proof.Machine.execCmpNe a b d e t s
  | .cmpLt a b d e t => Sys2Proof.Machine.execCmpLt a b d e t s
  | .cmpLtu a b d e t => Sys2Proof.Machine.execCmpLtu a b d e t s
  | .cmpLe a b d e t => Sys2Proof.Machine.execCmpLe a b d e t s
  | .cmpLeu a b d e t => Sys2Proof.Machine.execCmpLeu a b d e t s
  | .cmpkEq a k d t => Sys2Proof.Machine.execCmpkEq a k d t s
  | .cmpkLt a k d t => Sys2Proof.Machine.execCmpkLt a k d t s
  | .pand a b d v t => Sys2Proof.Machine.execPand a b d v t s
  | .por a b d v t => Sys2Proof.Machine.execPor a b d v t s
  | .pxor a b d v t => Sys2Proof.Machine.execPxor a b d v t s
  | .pget a d t => Sys2Proof.Machine.execPget a d t s
  | .pset a d t => Sys2Proof.Machine.execPset a d t s
  | .br o t => Sys2Proof.Machine.execBr o t s
  | .brz a o t => Sys2Proof.Machine.execBrz a o t s
  | .brnz a o t => Sys2Proof.Machine.execBrnz a o t s
  | .jl o t => Sys2Proof.Machine.execJl o t s
  | .jr a t => Sys2Proof.Machine.execJr a t s
  | .loop a o t => Sys2Proof.Machine.execLoop a o t s
  | .reach k t => Sys2Proof.Machine.execReach k t s
  | .fence k t => Sys2Proof.Machine.execFence k t s
  | .drain t => Sys2Proof.Machine.execDrain t s
  | .retry t => Sys2Proof.Machine.execRetry t s
  | .ldB a k d t => Sys2Proof.Machine.execLdB a k d t s
  | .ldH a k d t => Sys2Proof.Machine.execLdH a k d t s
  | .ldW a k d t => Sys2Proof.Machine.execLdW a k d t s
  | .ldD a k d t => Sys2Proof.Machine.execLdD a k d t s
  | .stB a k x t => Sys2Proof.Machine.execStB a k x t s
  | .stH a k x t => Sys2Proof.Machine.execStH a k x t s
  | .stW a k x t => Sys2Proof.Machine.execStW a k x t s
  | .stD a k x t => Sys2Proof.Machine.execStD a k x t s
  | .ldx a b d e t => Sys2Proof.Machine.execLdx a b d e t s
  | .stx a b x e t => Sys2Proof.Machine.execStx a b x e t s
  | .ldV a d e t => Sys2Proof.Machine.execLdV a d e t s
  | .stV a x e t => Sys2Proof.Machine.execStV a x e t s
  | .atomAdd a b d t => Sys2Proof.Machine.execAtomAdd a b d t s
  | .atomAnd a b d t => Sys2Proof.Machine.execAtomAnd a b d t s
  | .atomOr a b d t => Sys2Proof.Machine.execAtomOr a b d t s
  | .atomXor a b d t => Sys2Proof.Machine.execAtomXor a b d t s
  | .atomMax a b d t => Sys2Proof.Machine.execAtomMax a b d t s
  | .atomMin a b d t => Sys2Proof.Machine.execAtomMin a b d t s
  | .atomXchg a b d t => Sys2Proof.Machine.execAtomXchg a b d t s
  | .atomCas a b d c t => Sys2Proof.Machine.execAtomCas a b d c t s
  | .atomFadd a b d t => Sys2Proof.Machine.execAtomFadd a b d t s
  | .atomBadd a b d t => Sys2Proof.Machine.execAtomBadd a b d t s
  | .pushCore a b d t => Sys2Proof.Machine.execPushCore a b d t s
  | .pushHive a b d t => Sys2Proof.Machine.execPushHive a b d t s
  | .pushDie a b d t => Sys2Proof.Machine.execPushDie a b d t s
  | .pushDev a b d t => Sys2Proof.Machine.execPushDev a b d t s
  | .pushSys a b d t => Sys2Proof.Machine.execPushSys a b d t s
  | .popCore a d e t => Sys2Proof.Machine.execPopCore a d e t s
  | .popHive a d e t => Sys2Proof.Machine.execPopHive a d e t s
  | .popDie a d e t => Sys2Proof.Machine.execPopDie a d e t s
  | .popDev a d e t => Sys2Proof.Machine.execPopDev a d e t s
  | .popSys a d e t => Sys2Proof.Machine.execPopSys a d e t s
  | .send a b d e t => Sys2Proof.Machine.execSend a b d e t s
  | .park k t => Sys2Proof.Machine.execPark k t s
  | .waitm t => Sys2Proof.Machine.execWaitm t s
  | .getm d e t => Sys2Proof.Machine.execGetm d e t s
  | .spawn a b d e t => Sys2Proof.Machine.execSpawn a b d e t s
  | .join a d t => Sys2Proof.Machine.execJoin a d t s
  | .migr a t => Sys2Proof.Machine.execMigr a t s
  | .count a k t => Sys2Proof.Machine.execCount a k t s
  | .cset a d t => Sys2Proof.Machine.execCset a d t s
  | .haul a d t => Sys2Proof.Machine.execHaul a d t s
  | .haulX a d t => Sys2Proof.Machine.execHaulX a d t s
  | .hcancel a t => Sys2Proof.Machine.execHcancel a t s
  | .hslot a t => Sys2Proof.Machine.execHslot a t s
  | .hstat a d t => Sys2Proof.Machine.execHstat a d t s
  | .gang a t => Sys2Proof.Machine.execGang a t s
  | .jzero e t => Sys2Proof.Machine.execJzero e t s
  | .jdrain a e t => Sys2Proof.Machine.execJdrain a e t s
  | .jdrainO g k b t => Sys2Proof.Machine.execJdrainO g k b t s
  | .jstat d e t => Sys2Proof.Machine.execJstat d e t s
  | .jred d t => Sys2Proof.Machine.execJred d t s
  | .gload a d t => Sys2Proof.Machine.execGload a d t s
  | .gswap a b t => Sys2Proof.Machine.execGswap a b t s
  | .gmark a b t => Sys2Proof.Machine.execGmark a b t s
  | .gquiet a d t => Sys2Proof.Machine.execGquiet a d t s
  | .gctx a b t => Sys2Proof.Machine.execGctx a b t s
  | .gsave a b t => Sys2Proof.Machine.execGsave a b t s
  | .grest a b t => Sys2Proof.Machine.execGrest a b t s
  | .wopen a d t => Sys2Proof.Machine.execWopen a d t s
  | .wclose a t => Sys2Proof.Machine.execWclose a t s
  | .rget a d t => Sys2Proof.Machine.execRget a d t s
  | .rput a d t => Sys2Proof.Machine.execRput a d t s
  | .ratom a d t => Sys2Proof.Machine.execRatom a d t s
  | .nstat a d t => Sys2Proof.Machine.execNstat a d t s
  | .cjoin a d t => Sys2Proof.Machine.execCjoin a d t s
  | .cstat a d t => Sys2Proof.Machine.execCstat a d t s
  | .mov a d e t => Sys2Proof.Machine.execMov a d e t s
  | .pick a b d e t => Sys2Proof.Machine.execPick a b d e t s
  | .steer a b d e => Sys2Proof.Machine.execSteer a b d e s
  | .merge a k d t => Sys2Proof.Machine.execMerge a k d t s
  | .mergeu a b d t => Sys2Proof.Machine.execMergeu a b d t s
  | .guard a b d => Sys2Proof.Machine.execGuard a b d s
  | .gen a d e t => Sys2Proof.Machine.execGen a d e t s
  | .rep a b d e t => Sys2Proof.Machine.execRep a b d e t s
  | .drop a t => Sys2Proof.Machine.execDrop a t s
  | .eos a d e t => Sys2Proof.Machine.execEos a d e t s
  | .ctl a d e t => Sys2Proof.Machine.execCtl a d e t s
  | .sync a d e t => Sys2Proof.Machine.execSync a d e t s
  | .vadd a b d e t => Sys2Proof.Machine.execVadd a b d e t s
  | .vsub a b d e t => Sys2Proof.Machine.execVsub a b d e t s
  | .vmul a b d e t => Sys2Proof.Machine.execVmul a b d e t s
  | .vfma a b d e t => Sys2Proof.Machine.execVfma a b d e t s
  | .vmax a b d e t => Sys2Proof.Machine.execVmax a b d e t s
  | .vmin a b d e t => Sys2Proof.Machine.execVmin a b d e t s
  | .vand a b d e t => Sys2Proof.Machine.execVand a b d e t s
  | .vor a b d e t => Sys2Proof.Machine.execVor a b d e t s
  | .vxor a b d e t => Sys2Proof.Machine.execVxor a b d e t s
  | .vshl a b d e t => Sys2Proof.Machine.execVshl a b d e t s
  | .vshr a b d e t => Sys2Proof.Machine.execVshr a b d e t s
  | .vcmpEq a b d e t => Sys2Proof.Machine.execVcmpEq a b d e t s
  | .vcmpLt a b d e t => Sys2Proof.Machine.execVcmpLt a b d e t s
  | .vabs a d e t => Sys2Proof.Machine.execVabs a d e t s
  | .vred a d e t => Sys2Proof.Machine.execVred a d e t s
  | .vdot a b d e t => Sys2Proof.Machine.execVdot a b d e t s
  | .vcvt a k d t => Sys2Proof.Machine.execVcvt a k d t s
  | .vrcp a d e t => Sys2Proof.Machine.execVrcp a d e t s
  | .vrsq a d e t => Sys2Proof.Machine.execVrsq a d e t s
  | .vexp2 a d e t => Sys2Proof.Machine.execVexp2 a d e t s
  | .vlog2 a d e t => Sys2Proof.Machine.execVlog2 a d e t s
  | .vperm a b d e t => Sys2Proof.Machine.execVperm a b d e t s
  | .vbcast a b d e t => Sys2Proof.Machine.execVbcast a b d e t s
  | .vscan a d e t => Sys2Proof.Machine.execVscan a d e t s
  | .mld a d e t => Sys2Proof.Machine.execMld a d e t s
  | .mst a b d e t => Sys2Proof.Machine.execMst a b d e t s
  | .matom a k d t => Sys2Proof.Machine.execMatom a k d t s
  | .sld x d e t => Sys2Proof.Machine.execSld x d e t s
  | .sst a g t => Sys2Proof.Machine.execSst a g t s
  | .bmexp a b d e t => Sys2Proof.Machine.execBmexp a b d e t s
  | .isect a b d e t => Sys2Proof.Machine.execIsect a b d e t s
  | .xsend a d => Sys2Proof.Machine.execXsend a d s
  | .xrecv a d e t => Sys2Proof.Machine.execXrecv a d e t s
  | .illegalOp => Sys2Proof.Machine.execIllegalOp s
  | .fetchBounds => Sys2Proof.Machine.execFetchBounds s
  | .launch => Sys2Proof.Machine.execLaunch s
  | .spanJoin => Sys2Proof.Machine.execSpanJoin s
  | .spanAnswer => Sys2Proof.Machine.execSpanAnswer s
  | .spanJoinTimeout => Sys2Proof.Machine.execSpanJoinTimeout s
  | .spanLeadTimeout => Sys2Proof.Machine.execSpanLeadTimeout s
  | .jobEnd => Sys2Proof.Machine.execJobEnd s
  | .jobEndTeardown => Sys2Proof.Machine.execJobEndTeardown s
  | .completionDetect => Sys2Proof.Machine.execCompletionDetect s
  | .deadlockDetect => Sys2Proof.Machine.execDeadlockDetect s
  | .quietReport => Sys2Proof.Machine.execQuietReport s
  | .activeReport => Sys2Proof.Machine.execActiveReport s
  | .freshReportRequest => Sys2Proof.Machine.execFreshReportRequest s
  | .leadUnreachable => Sys2Proof.Machine.execLeadUnreachable s
  | .spanKill => Sys2Proof.Machine.execSpanKill s
  | .bargeArrival => Sys2Proof.Machine.execBargeArrival s
  | .busyReply => Sys2Proof.Machine.execBusyReply s
  | .bargeResend => Sys2Proof.Machine.execBargeResend s
  | .remoteReject => Sys2Proof.Machine.execRemoteReject s
  | .promotion => Sys2Proof.Machine.execPromotion s
  | .faultRedelivery => Sys2Proof.Machine.execFaultRedelivery s
  | .dispatch => Sys2Proof.Machine.execDispatch s
  | .deposit => Sys2Proof.Machine.execDeposit s
  | .heldDepositApply => Sys2Proof.Machine.execHeldDepositApply s
  | .loadReply => Sys2Proof.Machine.execLoadReply s
  | .completionArrival => Sys2Proof.Machine.execCompletionArrival s
  | .stealRequest => Sys2Proof.Machine.execStealRequest s
  | .stealVictim => Sys2Proof.Machine.execStealVictim s
  | .stealAnswer => Sys2Proof.Machine.execStealAnswer s
  | .joinPerform => Sys2Proof.Machine.execJoinPerform s
  | .counterArrival => Sys2Proof.Machine.execCounterArrival s
  | .counterCarryFire => Sys2Proof.Machine.execCounterCarryFire s
  | .commit => Sys2Proof.Machine.execCommit s
  | .effectRelease => Sys2Proof.Machine.execEffectRelease s
  | .probeAnswer => Sys2Proof.Machine.execProbeAnswer s
  | .preemption => Sys2Proof.Machine.execPreemption s
  | .preemptionEnd => Sys2Proof.Machine.execPreemptionEnd s
  | .rank7Fault => Sys2Proof.Machine.execRank7Fault s
  | .faultResume => Sys2Proof.Machine.execFaultResume s
  | .loadPerform => Sys2Proof.Machine.execLoadPerform s
  | .storePerform => Sys2Proof.Machine.execStorePerform s
  | .storeAck => Sys2Proof.Machine.execStoreAck s
  | .atomicPerform => Sys2Proof.Machine.execAtomicPerform s
  | .queueReserve => Sys2Proof.Machine.execQueueReserve s
  | .queueSettle => Sys2Proof.Machine.execQueueSettle s
  | .snoopRecall => Sys2Proof.Machine.execSnoopRecall s
  | .companionRequest => Sys2Proof.Machine.execCompanionRequest s
  | .pushSend => Sys2Proof.Machine.execPushSend s
  | .migrShip => Sys2Proof.Machine.execMigrShip s
  | .fenceDone => Sys2Proof.Machine.execFenceDone s
  | .drainDone => Sys2Proof.Machine.execDrainDone s
  | .translation => Sys2Proof.Machine.execTranslation s
  | .pageWalk => Sys2Proof.Machine.execPageWalk s
  | .missRetry => Sys2Proof.Machine.execMissRetry s
  | .shootdown => Sys2Proof.Machine.execShootdown s
  | .shot => Sys2Proof.Machine.execShot s
  | .tokenArrival => Sys2Proof.Machine.execTokenArrival s
  | .arcAck => Sys2Proof.Machine.execArcAck s
  | .planeSwitch => Sys2Proof.Machine.execPlaneSwitch s
  | .memNodeCompletion => Sys2Proof.Machine.execMemNodeCompletion s
  | .writePortToken => Sys2Proof.Machine.execWritePortToken s
  | .bufferReopen => Sys2Proof.Machine.execBufferReopen s
  | .passStart => Sys2Proof.Machine.execPassStart s
  | .towpathStart => Sys2Proof.Machine.execTowpathStart s
  | .towpathStop => Sys2Proof.Machine.execTowpathStop s
  | .freedSlotNotice => Sys2Proof.Machine.execFreedSlotNotice s
  | .jointBarrier => Sys2Proof.Machine.execJointBarrier s
  | .opHeadCheck => Sys2Proof.Machine.execOpHeadCheck s
  | .opStart => Sys2Proof.Machine.execOpStart s
  | .blockStart => Sys2Proof.Machine.execBlockStart s
  | .opComplete => Sys2Proof.Machine.execOpComplete s
  | .sliceStart => Sys2Proof.Machine.execSliceStart s
  | .jdrainComplete => Sys2Proof.Machine.execJdrainComplete s
  | .partialCombine => Sys2Proof.Machine.execPartialCombine s
  | .haulStart => Sys2Proof.Machine.execHaulStart s
  | .haulAccessAnswer => Sys2Proof.Machine.execHaulAccessAnswer s
  | .haulComplete => Sys2Proof.Machine.execHaulComplete s
  | .haulCancel => Sys2Proof.Machine.execHaulCancel s
  | .hslotPerform => Sys2Proof.Machine.execHslotPerform s
  | .graphReserve => Sys2Proof.Machine.execGraphReserve s
  | .gloadPerform => Sys2Proof.Machine.execGloadPerform s
  | .gloadDone => Sys2Proof.Machine.execGloadDone s
  | .gswapPerform => Sys2Proof.Machine.execGswapPerform s
  | .reconfPass => Sys2Proof.Machine.execReconfPass s
  | .swapEnd => Sys2Proof.Machine.execSwapEnd s
  | .gmarkPerform => Sys2Proof.Machine.execGmarkPerform s
  | .nodeRecord => Sys2Proof.Machine.execNodeRecord s
  | .cutComplete => Sys2Proof.Machine.execCutComplete s
  | .gsavePerform => Sys2Proof.Machine.execGsavePerform s
  | .gsaveDone => Sys2Proof.Machine.execGsaveDone s
  | .grestPerform => Sys2Proof.Machine.execGrestPerform s
  | .grestDone => Sys2Proof.Machine.execGrestDone s
  | .gctxPerform => Sys2Proof.Machine.execGctxPerform s
  | .replayRequest => Sys2Proof.Machine.execReplayRequest s
  | .laneSpare => Sys2Proof.Machine.execLaneSpare s
  | .laneSpareDone => Sys2Proof.Machine.execLaneSpareDone s
  | .linkDown => Sys2Proof.Machine.execLinkDown s
  | .linkTrain => Sys2Proof.Machine.execLinkTrain s
  | .routerAccept => Sys2Proof.Machine.execRouterAccept s
  | .routerAck => Sys2Proof.Machine.execRouterAck s
  | .routerResend => Sys2Proof.Machine.execRouterResend s
  | .windowReserve => Sys2Proof.Machine.execWindowReserve s
  | .windowPieceCheck => Sys2Proof.Machine.execWindowPieceCheck s
  | .wclosePerform => Sys2Proof.Machine.execWclosePerform s
  | .windowFreed => Sys2Proof.Machine.execWindowFreed s
  | .ratomPerform => Sys2Proof.Machine.execRatomPerform s
  | .remoteAnswer => Sys2Proof.Machine.execRemoteAnswer s
  | .remoteAttemptTimeout => Sys2Proof.Machine.execRemoteAttemptTimeout s
  | .requestIdRelease => Sys2Proof.Machine.execRequestIdRelease s
  | .requestIdExpiry => Sys2Proof.Machine.execRequestIdExpiry s
  | .cjoinReserve => Sys2Proof.Machine.execCjoinReserve s
  | .cjoinCheck => Sys2Proof.Machine.execCjoinCheck s
  | .pathCheck => Sys2Proof.Machine.execPathCheck s
  | .pathCheckAnswer => Sys2Proof.Machine.execPathCheckAnswer s
  | .pathCheckReask => Sys2Proof.Machine.execPathCheckReask s
  | .keyInstallAck => Sys2Proof.Machine.execKeyInstallAck s
  | .contributionArrival => Sys2Proof.Machine.execContributionArrival s
  | .resultArrival => Sys2Proof.Machine.execResultArrival s
  | .spdmResponse => Sys2Proof.Machine.execSpdmResponse s
  | .spdmTimeout => Sys2Proof.Machine.execSpdmTimeout s
  | .spdmRequest => Sys2Proof.Machine.execSpdmRequest s
  | .policy => Sys2Proof.Machine.execPolicy s
  | .elementError => Sys2Proof.Machine.execElementError s
  | .spareMove => Sys2Proof.Machine.execSpareMove s
  | .twin => Sys2Proof.Machine.execTwin s
  | .kill => Sys2Proof.Machine.execKill s
  | .unpinnedError => Sys2Proof.Machine.execUnpinnedError s
  | .dieKill => Sys2Proof.Machine.execDieKill s
  | .killDrainDone => Sys2Proof.Machine.execKillDrainDone s
  | .scrubDone => Sys2Proof.Machine.execScrubDone s
  | .lockkeeperMemoryError => Sys2Proof.Machine.execLockkeeperMemoryError s
  | .lockkeeperRestartDone => Sys2Proof.Machine.execLockkeeperRestartDone s
  | .powerGood => Sys2Proof.Machine.execPowerGood s
  | .calibrate => Sys2Proof.Machine.execCalibrate s
  | .memoryZeroInit => Sys2Proof.Machine.execMemoryZeroInit s
  | .elementSelfTest => Sys2Proof.Machine.execElementSelfTest s
  | .ready => Sys2Proof.Machine.execReady s
  | .bargePortWrite => Sys2Proof.Machine.execBargePortWrite s
  | .unknownService => Sys2Proof.Machine.execUnknownService s
  | .claimWrite => Sys2Proof.Machine.execClaimWrite s
  | .relinquish => Sys2Proof.Machine.execRelinquish s
  | .handover => Sys2Proof.Machine.execHandover s
  | .handoverTimeout => Sys2Proof.Machine.execHandoverTimeout s
  | .ownerPathLost => Sys2Proof.Machine.execOwnerPathLost s
  | .hiveFence => Sys2Proof.Machine.execHiveFence s
  | .hiveMoveDone => Sys2Proof.Machine.execHiveMoveDone s
  | .hiveTest => Sys2Proof.Machine.execHiveTest s
  | .hiveTestDone => Sys2Proof.Machine.execHiveTestDone s
  | .hiveRepair => Sys2Proof.Machine.execHiveRepair s
  | .hiveOnline => Sys2Proof.Machine.execHiveOnline s
  | .linkOff => Sys2Proof.Machine.execLinkOff s
  | .rasClear => Sys2Proof.Machine.execRasClear s
  | .hostBasinBase => Sys2Proof.Machine.execHostBasinBase s
  | .hostBasinHead => Sys2Proof.Machine.execHostBasinHead s
  | .powerCap => Sys2Proof.Machine.execPowerCap s
  | .powerEventClear => Sys2Proof.Machine.execPowerEventClear s
  | .thermalLimit => Sys2Proof.Machine.execThermalLimit s
  | .dcrWrite => Sys2Proof.Machine.execDcrWrite s
  | .thermalCrossing => Sys2Proof.Machine.execThermalCrossing s
  | .thermalTrip => Sys2Proof.Machine.execThermalTrip s
  | .fwStage => Sys2Proof.Machine.execFwStage s
  | .fwActivate => Sys2Proof.Machine.execFwActivate s
  | .capReached => Sys2Proof.Machine.execCapReached s
  | .pathCheckTimeout => Sys2Proof.Machine.execPathCheckTimeout s
  | .linkFlitAck => Sys2Proof.Machine.execLinkFlitAck s
  | .blockEnd => Sys2Proof.Machine.execBlockEnd s
  | .leadSessionResponse => Sys2Proof.Machine.execLeadSessionResponse s
  | .switchErrorAnswer => Sys2Proof.Machine.execSwitchErrorAnswer s

end Sys2Proof.Machine
end

