-- ==== Sys2Proof/Machine/Sched.lean ====
section
/-! DEFINITION. What moves next (R120, R395, and the order of messages): the row of a step, the turns, and the turn a machine without a
plan takes. The manual fixes no order among agents beyond what its rules state, so every order of turns is a run. -/

namespace Sys2Proof.Machine

open Sys2Proof

/-! ## The rows -/

/-- The row of the opcode table a step belongs to. -/
def Ev.row : Ev → Instr
  | .illegalOp _ => .illegalOp
  | .fetchBounds => .fetchBounds
  | .launch _ _ _ _ _ => .launch
  | .spanJoin _ => .spanJoin
  | .spanAnswer _ _ _ _ => .spanAnswer
  | .spanJoinTimeout _ => .spanJoinTimeout
  | .spanLeadTimeout _ => .spanLeadTimeout
  | .jobEnd _ _ _ => .jobEnd
  | .jobEndTeardown _ _ => .jobEndTeardown
  | .completionDetect _ => .completionDetect
  | .deadlockDetect _ => .deadlockDetect
  | .quietReport _ => .quietReport
  | .activeReport _ => .activeReport
  | .freshReportRequest _ _ => .freshReportRequest
  | .leadUnreachable _ => .leadUnreachable
  | .spanKill _ _ => .spanKill
  | .bargeArrival _ _ _ => .bargeArrival
  | .busyReply _ _ => .busyReply
  | .bargeResend _ _ => .bargeResend
  | .remoteReject _ _ _ => .remoteReject
  | .promotion _ _ => .promotion
  | .faultRedelivery _ => .faultRedelivery
  | .dispatch _ => .dispatch
  | .deposit _ _ => .deposit
  | .heldDepositApply _ => .heldDepositApply
  | .loadReply _ _ _ _ => .loadReply
  | .completionArrival _ _ => .completionArrival
  | .stealRequest _ _ => .stealRequest
  | .stealVictim _ _ => .stealVictim
  | .stealAnswer _ _ => .stealAnswer
  | .joinPerform _ => .joinPerform
  | .counterArrival _ _ => .counterArrival
  | .counterCarryFire _ _ => .counterCarryFire
  | .commit _ => .commit
  | .effectRelease _ => .effectRelease
  | .probeAnswer _ _ _ _ _ => .probeAnswer
  | .preemption _ => .preemption
  | .preemptionEnd _ => .preemptionEnd
  | .rank7Fault _ _ => .rank7Fault
  | .faultResume _ => .faultResume
  | .loadPerform _ => .loadPerform
  | .storePerform _ => .storePerform
  | .storeAck _ _ => .storeAck
  | .atomicPerform _ => .atomicPerform
  | .queueReserve _ => .queueReserve
  | .queueSettle _ => .queueSettle
  | .snoopRecall _ _ _ _ => .snoopRecall
  | .companionRequest _ => .companionRequest
  | .pushSend _ => .pushSend
  | .migrShip _ => .migrShip
  | .fenceDone _ => .fenceDone
  | .drainDone _ => .drainDone
  | .translation _ _ => .translation
  | .pageWalk _ _ => .pageWalk
  | .missRetry _ _ => .missRetry
  | .shootdown _ _ _ => .shootdown
  | .shot _ => .shot
  | .tokenArrival _ _ => .tokenArrival
  | .arcAck _ => .arcAck
  | .planeSwitch _ => .planeSwitch
  | .memNodeCompletion _ _ _ => .memNodeCompletion
  | .writePortToken _ => .writePortToken
  | .bufferReopen _ => .bufferReopen
  | .passStart _ => .passStart
  | .towpathStart _ => .towpathStart
  | .towpathStop _ => .towpathStop
  | .freedSlotNotice _ => .freedSlotNotice
  | .jointBarrier _ => .jointBarrier
  | .opHeadCheck _ => .opHeadCheck
  | .opStart _ => .opStart
  | .blockStart _ => .blockStart
  | .opComplete _ => .opComplete
  | .sliceStart _ _ => .sliceStart
  | .jdrainComplete _ _ => .jdrainComplete
  | .partialCombine _ _ => .partialCombine
  | .haulStart _ => .haulStart
  | .haulAccessAnswer _ _ _ _ => .haulAccessAnswer
  | .haulComplete _ _ => .haulComplete
  | .haulCancel _ _ _ => .haulCancel
  | .hslotPerform _ _ _ _ => .hslotPerform
  | .graphReserve _ => .graphReserve
  | .gloadPerform _ => .gloadPerform
  | .gloadDone _ => .gloadDone
  | .gswapPerform _ => .gswapPerform
  | .reconfPass _ _ => .reconfPass
  | .swapEnd _ => .swapEnd
  | .gmarkPerform _ => .gmarkPerform
  | .nodeRecord _ _ => .nodeRecord
  | .cutComplete _ => .cutComplete
  | .gsavePerform _ => .gsavePerform
  | .gsaveDone _ => .gsaveDone
  | .grestPerform _ => .grestPerform
  | .grestDone _ => .grestDone
  | .gctxPerform _ _ _ _ => .gctxPerform
  | .replayRequest _ _ => .replayRequest
  | .laneSpare _ _ => .laneSpare
  | .laneSpareDone _ => .laneSpareDone
  | .linkDown _ => .linkDown
  | .linkTrain _ _ _ => .linkTrain
  | .routerAccept _ _ _ => .routerAccept
  | .routerAck _ _ _ _ _ _ _ => .routerAck
  | .routerResend _ _ _ => .routerResend
  | .windowReserve _ => .windowReserve
  | .windowPieceCheck _ => .windowPieceCheck
  | .wclosePerform _ => .wclosePerform
  | .windowFreed _ _ => .windowFreed
  | .ratomPerform _ => .ratomPerform
  | .remoteAnswer _ _ => .remoteAnswer
  | .remoteAttemptTimeout _ _ _ _ _ => .remoteAttemptTimeout
  | .requestIdRelease _ _ _ _ => .requestIdRelease
  | .requestIdExpiry _ _ _ _ => .requestIdExpiry
  | .cjoinReserve _ => .cjoinReserve
  | .cjoinCheck _ => .cjoinCheck
  | .pathCheck _ => .pathCheck
  | .pathCheckAnswer _ _ => .pathCheckAnswer
  | .pathCheckReask _ _ _ => .pathCheckReask
  | .keyInstallAck _ _ _ _ => .keyInstallAck
  | .contributionArrival _ _ => .contributionArrival
  | .resultArrival _ _ => .resultArrival
  | .spdmResponse _ _ => .spdmResponse
  | .spdmTimeout _ => .spdmTimeout
  | .spdmRequest _ _ _ => .spdmRequest
  | .policy _ _ _ => .policy
  | .elementError _ => .elementError
  | .spareMove _ => .spareMove
  | .twin _ _ _ => .twin
  | .kill _ _ => .kill
  | .unpinnedError _ _ _ => .unpinnedError
  | .dieKill _ _ _ => .dieKill
  | .killDrainDone _ _ => .killDrainDone
  | .scrubDone _ _ => .scrubDone
  | .lockkeeperMemoryError _ => .lockkeeperMemoryError
  | .lockkeeperRestartDone _ => .lockkeeperRestartDone
  | .powerGood => .powerGood
  | .calibrate _ _ => .calibrate
  | .memoryZeroInit _ => .memoryZeroInit
  | .elementSelfTest _ => .elementSelfTest
  | .ready => .ready
  | .bargePortWrite _ => .bargePortWrite
  | .unknownService _ _ => .unknownService
  | .claimWrite _ _ _ => .claimWrite
  | .relinquish _ _ => .relinquish
  | .handover _ _ _ => .handover
  | .handoverTimeout => .handoverTimeout
  | .ownerPathLost => .ownerPathLost
  | .hiveFence _ _ _ => .hiveFence
  | .hiveMoveDone _ => .hiveMoveDone
  | .hiveTest _ _ _ => .hiveTest
  | .hiveTestDone _ _ => .hiveTestDone
  | .hiveRepair _ _ _ => .hiveRepair
  | .hiveOnline _ _ _ => .hiveOnline
  | .linkOff _ _ _ _ => .linkOff
  | .rasClear _ _ _ => .rasClear
  | .hostBasinBase _ _ _ _ => .hostBasinBase
  | .hostBasinHead _ _ _ _ => .hostBasinHead
  | .powerCap _ _ _ => .powerCap
  | .powerEventClear _ _ _ => .powerEventClear
  | .thermalLimit _ _ _ => .thermalLimit
  | .dcrWrite _ => .dcrWrite
  | .thermalCrossing _ _ => .thermalCrossing
  | .thermalTrip _ _ => .thermalTrip
  | .fwStage _ _ _ => .fwStage
  | .fwActivate _ => .fwActivate
  | .capReached _ => .capReached
  | .pathCheckTimeout _ _ _ => .pathCheckTimeout
  | .linkFlitAck _ _ => .linkFlitAck
  | .blockEnd _ => .blockEnd
  | .leadSessionResponse _ _ => .leadSessionResponse
  | .switchErrorAnswer _ _ _ _ => .switchErrorAnswer

/-- Steps of the machine's surroundings: what a link, a switch, a master of the DCRs, the companion, the board or an error does. -/
def Ev.outside : Ev → Bool
  | .snoopRecall _ _ _ _ => true
  | .companionRequest _ => true
  | .replayRequest _ _ => true
  | .linkDown _ => true
  | .linkTrain _ _ _ => true
  | .routerAccept _ _ _ => true
  | .routerAck _ _ _ _ _ _ _ => true
  | .keyInstallAck _ _ _ _ => true
  | .contributionArrival _ rx => rx.isSome
  | .resultArrival _ rx => rx.isSome
  | .spdmResponse _ _ => true
  | .spdmRequest _ _ _ => true
  | .elementError _ => true
  | .unpinnedError _ _ _ => true
  | .lockkeeperMemoryError _ => true
  | .lockkeeperRestartDone _ => true
  | .powerGood => true
  | .calibrate _ _ => true
  | .memoryZeroInit _ => true
  | .elementSelfTest _ => true
  | .ready => true
  | .bargePortWrite _ => true
  | .claimWrite _ _ _ => true
  | .relinquish _ _ => true
  | .handover _ _ _ => true
  | .hiveFence _ _ _ => true
  | .hiveTest _ _ _ => true
  | .hiveTestDone _ _ => true
  | .hiveRepair _ _ _ => true
  | .hiveOnline _ _ _ => true
  | .linkOff _ _ _ _ => true
  | .rasClear _ _ _ => true
  | .hostBasinBase _ _ _ _ => true
  | .hostBasinHead _ _ _ _ => true
  | .powerCap _ _ _ => true
  | .powerEventClear _ _ _ => true
  | .thermalLimit _ _ _ => true
  | .dcrWrite _ => true
  | .thermalCrossing _ _ => true
  | .thermalTrip _ _ => true
  | .capReached _ => true
  | .linkFlitAck _ _ => true
  | .leadSessionResponse _ _ => true
  | .switchErrorAnswer _ _ _ _ => true
  | _ => false

/-- Steps the machine takes by itself; each does nothing where its condition does not hold. -/
def Ev.own : Ev → Bool
  | .spanJoinTimeout _ => true
  | .spanLeadTimeout _ => true
  | .jobEndTeardown _ _ => true
  | .completionDetect _ => true
  | .deadlockDetect _ => true
  | .leadUnreachable _ => true
  | .promotion _ _ => true
  | .faultRedelivery _ => true
  | .dispatch _ => true
  | .heldDepositApply _ => true
  | .stealRequest _ _ => true
  | .counterCarryFire _ _ => true
  | .commit _ => true
  | .effectRelease _ => true
  | .faultResume _ => true
  | .pushSend _ => true
  | .migrShip _ => true
  | .fenceDone _ => true
  | .drainDone _ => true
  | .pageWalk _ _ => true
  | .shot _ => true
  | .planeSwitch _ => true
  | .writePortToken _ => true
  | .bufferReopen _ => true
  | .passStart _ => true
  | .jointBarrier _ => true
  | .opHeadCheck _ => true
  | .opStart _ => true
  | .blockStart _ => true
  | .opComplete _ => true
  | .sliceStart _ _ => true
  | .jdrainComplete _ _ => true
  | .partialCombine _ _ => true
  | .haulStart _ => true
  | .haulComplete _ _ => true
  | .reconfPass _ _ => true
  | .swapEnd _ => true
  | .nodeRecord _ _ => true
  | .cutComplete _ => true
  | .gsaveDone _ => true
  | .grestDone _ => true
  | .laneSpare _ _ => true
  | .laneSpareDone _ => true
  | .routerResend _ _ _ => true
  | .remoteAttemptTimeout _ _ _ _ _ => true
  | .requestIdExpiry _ _ _ _ => true
  | .pathCheckReask _ _ _ => true
  | .spdmTimeout _ => true
  | .handoverTimeout => true
  | .ownerPathLost => true
  | .hiveMoveDone _ => true
  | .pathCheckTimeout _ _ _ => true
  | _ => false

/-- What may reach a device that has stopped (R494): power-good, accesses to the registers, barges that are dropped and counted (R477). -/
def Ev.whileStopped : Ev → Bool
  | .powerGood => true
  | .claimWrite _ _ _ => true
  | .relinquish _ _ => true
  | .handover _ _ _ => true
  | .rasClear _ _ _ => true
  | .hostBasinBase _ _ _ _ => true
  | .hostBasinHead _ _ _ _ => true
  | .powerCap _ _ _ => true
  | .powerEventClear _ _ _ => true
  | .thermalLimit _ _ _ => true
  | .hiveFence _ _ _ => true
  | .hiveTest _ _ _ => true
  | .hiveRepair _ _ _ => true
  | .hiveOnline _ _ _ => true
  | .linkOff _ _ _ _ => true
  | .dcrWrite _ => true
  | .bargePortWrite _ => true
  | _ => false

/-! ## Time -/

/-- A `yield` that has retired begins to wait for the contexts of its core that are READY then and wait out no `yield` of their own
(R122). -/
def State.yielded (s : State) (t : ThreadId) : State :=
  let c := s.ctx t
  let others := (List.range 16).filter (fun k =>
    let x := s.ctx ⟨t.core, k⟩
    k ≠ t.slot && x.status = .ready && x.nextIssue ≤ c.nextIssue && !x.yields && x.yieldFor = [])
  s.setCtx t { c with yields := false, yieldFor := others }

/-- Every `yield` that has retired. -/
def State.retireYields (s : State) : State :=
  (s.ctxs.filter (fun e => e.2.yields && e.2.nextIssue ≤ s.cycle)).foldl (fun s e => s.yielded e.1) s

/-- Cycles pass. The redelivery timer of R113 does not run on a die whose lockkeeper restarts (R488). -/
def State.advance (s : State) (n : Nat) : State :=
  let late (c : CoreId) (e : Slot) : Slot := if e.prio = 0 && s.ctl.down.contains c.die then { e with at_ := e.at_ + n } else e
  let s := if s.ctl.down = [] then s else
    { s with cores := s.cores.map (fun e =>
        (e.1, { e.2 with basin := e.2.basin.map (late e.1), faults := e.2.faults.map (late e.1) })) }
  { s with cycle := s.cycle + n }.retireYields

/-! ## A core's turn (R120, R122) -/

/-- A queue place that a dropped reach gives back (R231). -/
def Eff.givesBack : Eff → Bool
  | .pushDrop _ _ => true
  | .popDrop _ _ => true
  | _ => false

/-- Whether a context may issue now: READY, its last instruction retired, no pre-emption that takes it first (R197), no `yield` of its
own to wait out, and no queue place to give back that its discarded attempt had reserved, which goes before its next accesses (R193,
R231). A context that is no longer READY is not waited for (log 14). -/
def State.canIssue (s : State) (t : ThreadId) : Bool :=
  let c := s.ctx t
  c.status = .ready && c.nextIssue ≤ s.cycle && !(c.preemptPending && !c.shield) && !c.yields && c.yieldFor.all (fun k => (s.ctx ⟨t.core, k⟩).status ≠ .ready) &&
    !(s.core t.core).relq.any (fun r => r.serial = c.serial && r.buf.eff.givesBack)

/-- The context a core issues: the first after the last one that issued. -/
def State.issuer (s : State) (c : CoreId) : Option ThreadId :=
  let l := (s.core c).last
  (((List.range 16).map (fun k => ThreadId.mk c ((l + 1 + k) % 16))).find? s.canIssue)

/-- A context issues: it is the core's last, and no other one waits for it any more. -/
def State.issued (s : State) (t : ThreadId) : State :=
  let k := s.core t.core
  let s : State := { s with curT := t, ctxs := s.ctxs.map (fun e =>
    if e.1.core = t.core then (e.1, { e.2 with yieldFor := e.2.yieldFor.filter (· ≠ t.slot) }) else e) }
  s.setCore t.core { k with last := t.slot, lastIssue := some s.cycle }

/-- Fetch, decode and the instruction (R37, R44). -/
def State.runThread (s : State) (t : ThreadId) : Res :=
  let s := s.issued t
  let c := s.ctx t
  match s.codeWord c.sid c.pc with
  | none => exec .fetchBounds s
  | some w =>
    match decodeThread w with
    | .ok i => exec i s
    | .error .illegalOp => exec .illegalOp { s with arg := .illegalOp w }
    | .error .illegalPort => .next (s.stop t ⟨.illegalPort, none⟩ w)
    | .error .illegalForm => .next (s.stop t ⟨.illegalForm, none⟩ w)

/-- A core's turn: at most one instruction a cycle. -/
def State.issueTurn (s : State) (c : CoreId) : Res :=
  if (s.core c).lastIssue = some s.cycle then .next s
  else
    match s.issuer c with
    | some t => s.runThread t
    | none => .next s

/-! ## A tile's turn (R395, R529) -/

/-- The next of a cycle's firings; one that is not ready any more does not fire. -/
def State.fireNext (s : State) (t : TileId) : Res :=
  match (s.tile t).chosen with
  | [] => .next s
  | r :: rest =>
    let drop : Res := .next (s.setTile t { s.tile t with chosen := rest })
    match s.rule r with
    | some (w, _) =>
      if s.ready r then
        (match decodeElement w with
         | .ok i => exec i { s with curR := r }
         | .error _ => drop)
      else drop
    | none => drop

/-- A firing of a replay window again (R468): in a copy of the machine in which nothing but the plane's registers counts, with the tokens it popped
at their latches and the generator it read; the registers it leaves. -/
def State.refire (s : State) (pid : PlaneId) (w : WinFire) (c : PlaneCopy) : PlaneCopy :=
  let r : RuleId := ⟨pid, w.slot⟩
  let p := s.plane pid
  let p := { p.put c with latch := w.before.latch, rank := w.before.rank, outs := [], accs := [], stuck := [] }
  let s : State := { s.setPlane pid p with twins := [], curR := r, elems := tdel s.elems pid.elem }
  let s := s.setTile pid.elem.tile { s.tile pid.elem.tile with chosen := [r], skipped := if w.skipped then [r] else [] }
  let s := match s.sldGen r with
    | some g => s.setGen g w.gen
    | none => (List.range 4).foldl (fun s g => s.onGen ⟨pid.elem.tile.pair, g⟩ (fun x => { x with wport := none })) s
  match s.rule r with
  | some (i, _) =>
    (match decodeElement i with
     | .ok i => (match exec i s with | .next s' => (s'.plane pid).copy | _ => c)
     | .error _ => c)
  | none => c

/-- R468: the copy of a plane is restored, with g (R79), and the firings of its window run again; what they sent is not sent again. -/
def State.replayPlane (s : State) (pid : PlaneId) : State :=
  match (s.plane pid).window with
  | [] => s
  | w :: rest => s.onPlane pid (fun p => p.put ((w :: rest).foldl (fun c x => s.refire pid x c) w.before))

/-- The holds of a tile that end with a replay (R468, R469). -/
def State.replayTile (s : State) (t : TileId) : State :=
  t.elems.foldl (fun s e =>
    if (s.elem e).replay && !s.held e then
      (List.range 4).foldl (fun s p => s.replayPlane ⟨e, p⟩) (s.setElem e { s.elem e with replay := false })
    else s) s

/-- A tile's turn: it begins its cycle, and fires. -/
def State.fireTurn (s : State) (t : TileId) : Res :=
  (if (s.tile t).chosen = [] then (s.replayTile t).tileBegin t else s).fireNext t

/-- The firings of a tile's cycle that have not run yet run (R281, R529). -/
def State.fireRest (s : State) (t : TileId) : Nat → State
  | 0 => s
  | n + 1 => match s.fireNext t with | .next s => s.fireRest t n | _ => s

/-- Time passes: the firings chosen for a cycle run in it (R529). -/
def State.pass (s : State) (n : Nat) : State :=
  if n = 0 then s else (s.tiles.foldl (fun s e => s.fireRest e.1 e.2.chosen.length) s).advance n

/-! ## What is in flight -/

/-- Whether one entry in flight waits for an older one: they share a channel; of what other nodes sent, a port of the device (R416) or the
flow of a source (R415). -/
def Chan.clash : Chan → Chan → Bool
  | .none, _ => false
  | .port a f, .port b g => a = b || (f.isSome && f = g)
  | a, b => a = b

/-- The places, in the list of what is in flight, of what may be taken now: each that no older one of its channel precedes. -/
def takeable : List Chan → Nat → List Pend → List Nat
  | _, _, [] => []
  | seen, n, p :: rest =>
    if seen.any (fun c => c.clash p.chan) then takeable seen (n + 1) rest
    else n :: takeable (p.chan :: seen) (n + 1) rest

/-- The home a request of another node is for, and that node (R416). -/
def Ev.request : Ev → Option (Home × Nat)
  | .bargeArrival d (.node n) _ => some (.core d, n)
  | .counterArrival c a => a.node.map (fun n => (.core c, n))
  | .windowPieceCheck r => some (.core (winHome (winId r.addr)), r.node)
  | _ => none

/-- A request that has reached a home over a port in a cycle: none where a request of a higher node over another port has been performed there in that
cycle, so that this one is performed in the next (R416, log 117). -/
def State.netTie (s : State) (p : Pend) : Option NetTie :=
  match p.chan, p.ev.request with
  | .port link _, some (h, src) =>
    let at_ := max s.cycle p.due
    let late : Bool := s.ties.any (fun x => x.home = h && x.at_ = at_ && x.link ≠ link && src < x.src)
    some ⟨h, if late then at_ + 1 else at_, src, link⟩
  | _, _ => none

/-- The home of an operation at a window of this device: that of its translation, or the one it would have now; none where neither is known. -/
def State.farHome (s : State) (r : WinReq) : Option Home :=
  match (s.winReqs.find? (fun e => e.2.req.same r)).bind (fun e => e.2.loc) with
  | some l => some l.home
  | none => (s.vaLoc r.sid ((s.win r.sid (winId r.addr)).base + r.off)).map Loc.home

/-- Whether an operation may be for a home. -/
def State.mayReach (s : State) (r : WinReq) (h : Home) : Bool := match s.farHome r with | some k => k = h | none => true

/-- Whether an access is a store or an atomic of a thread, with the number of its release. -/
def Asker.rel? : Asker → Option Nat
  | .effect _ n => some n
  | _ => Option.none

/-- A thread's or a node's direct access waits for the operations it made before at windows of this device, where they are for the same home
(R241, R249). -/
def State.behindWindow (s : State) (p : Pend) : Bool :=
  let own (e : (CoreId × Nat × Nat) × WinAttempt) : Bool := bitsN e.2.req.addr 61 41 = s.node && !e.2.req.bulk
  match p.chan with
  | .access c serial h =>
    let me := match p.ev with
      | .loadPerform r => some r.asker
      | .storePerform r => some r.asker
      | .atomicPerform r => some r.asker
      | .joinPerform r => some r.asker
      | .queueReserve r => some r.asker
      | .queueSettle r => some r.asker
      | _ => none
    (match me with
     | none => false
     | some k => s.wreqs.any (fun e => own e && e.2.req.core = c && e.2.serial = serial && serial ≠ 0 && s.mayReach e.2.req h &&
        (match e.2.req.asker.rel? with | some m => (match k.rel? with | some n => m < n | none => true) | none => false)))
  | .node r h =>
    let seq := match p.ev with
      | .loadPerform q => q.asker
      | .storePerform q => q.asker
      | .atomicPerform q => q.asker
      | _ => .none
    (match seq with
     | .rule _ n => s.wreqs.any (fun e => own e && s.mayReach e.2.req h && (match e.2.req.asker with | .rule q m => q = r && m < n | _ => false))
     | _ => false)
  | _ => false

/-- An operation at a window of this device waits for the direct accesses its thread or node made before to the same home (R241, R249). -/
def State.behindDirect (s : State) (p : Pend) : Bool :=
  match p.ev with
  | .windowPieceCheck r =>
    r.node = s.node &&
    (match r.asker with
     | .rule q n => (s.plane q.plane).accs.any (fun a => a.slot = q.slot && a.seq < n && a.st = .sent && bitsN a.addr 63 62 ≠ 3 &&
         s.pending.any (fun x => match x.chan with | .node k h => k = q && s.mayReach r h | _ => false))
     | .effect c n => (s.core c).outs.any (fun o => o.rel < n && o.cls = .memory && o.serial = (tget (s.wreqs.map (fun e => (e.1, e.2.serial))) 0 (r.core, r.slot, r.seq)) &&
         o.home ≠ .away && s.mayReach r o.home)
     | .load t _ _ => (s.core t.core).outs.any (fun o => o.cls = .memory && o.serial = (s.ctx t).serial && o.home ≠ .away && s.mayReach r o.home)
     | _ => false)
  | _ => false

/-- The steps in flight that may be taken now, by their places: the first of each channel, none behind an access to the same home that goes
another way. -/
def State.open_ (s : State) : List Nat :=
  (takeable [] 0 s.pending).filter (fun n => match s.pending[n]? with
    | some p => !s.behindWindow p && !s.behindDirect p
    | none => false)

/-- Takes the n-th step in flight. -/
def State.takeAt (s : State) (n : Nat) : Res :=
  match s.pending[n]? with
  | some p =>
    (match s.netTie p with
     | some x =>
       exec p.ev.row { ({ s with pending := s.pending.eraseIdx n } : State).pass (x.at_ - s.cycle) with arg := p.ev, ties := s.ties.filter (fun y => y.at_ = x.at_) ++ [x] }
     | none => exec p.ev.row { ({ s with pending := s.pending.eraseIdx n } : State).pass (p.due - s.cycle) with arg := p.ev })
  | none => .next s

/-- Whether a step may begin by itself now: a pre-emption that is pending takes effect, a restart of a lockkeeper ends, and so on. -/
def State.mayAct (s : State) (e : Ev) : Bool :=
  e.outside || e.own || (match e with | .preemption t => (s.ctx t).preemptPending && s.preemptNow t | _ => false)

/-- The master whose access to a DCR a step is (R481). -/
def Ev.master : Ev → Option Nat
  | .claimWrite m _ _ => some m
  | .relinquish m _ => some m
  | .handover m _ _ => some m
  | .hiveFence m _ _ => some m
  | .hiveTest m _ _ => some m
  | .hiveRepair m _ _ => if m = 0 then none else some m
  | .hiveOnline m _ _ => some m
  | .linkOff m _ _ _ => some m
  | .rasClear m _ _ => some m
  | .hostBasinBase m _ _ _ => some m
  | .hostBasinHead m _ _ _ => some m
  | .powerCap m _ _ => some m
  | .powerEventClear m _ _ => some m
  | .thermalLimit m _ _ => some m
  | .dcrWrite r => some r.master
  | _ => none

/-- An access to a DCR arrives: behind one of a higher master in this cycle it arrives in the next (R481, log 117). -/
def State.dcrArrives (s : State) (e : Ev) : State :=
  match e.master with
  | none => s
  | some m =>
    let s := (match s.ctl.dcrAt with | some (c, k) => if c = s.cycle && m < k then s.pass 1 else s | none => s)
    s.onCtl (fun c => { c with dcrAt := some (s.cycle, m) })

/-- A step that is not a message happens. -/
def State.actTurn (s : State) (e : Ev) : Res :=
  if s.mayAct e then exec e.row { s.dcrArrives e with arg := e } else .next s

/-! ## The turns -/

/-- Whose SID a turn is about (R410). -/
def State.turnSid (s : State) : Turn → Option Nat
  | .issue c => (s.issuer c).map (fun t => (s.ctx t).sid)
  | .fire t => if (s.tile t).chosen ≠ [] || (List.range 4).any (s.eligible t) then s.tileSid t else none
  | .deliver k => (s.open_[k]?).bind (fun n => (s.pending[n]?).bind (fun p => s.evSid p.ev))
  | .act e => s.evSid e
  | .tick _ => none
  | .upset _ => none

/-- Takes a turn. -/
def State.takeTurn (s : State) : Turn → Res
  | .issue c => s.issueTurn c
  | .fire t => s.fireTurn t
  | .deliver k =>
    match s.open_[k]? with
    | some n => s.takeAt n
    | none => .next s
  | .act e => s.actTurn e
  | .tick n => .next (s.pass n).replanPeers
  | .upset u => .next (s.upset u)

/-- Whether a stopped device lets a turn happen (R494). -/
def Turn.whileStopped : Turn → Bool
  | .act e => e.whileStopped
  | _ => false

/-- Whether a turn did something: a step that finds its condition not met has not acted. -/
def State.acted (s : State) (t : Turn) (s' : State) : Bool :=
  match t with
  | .act e => s' ≠ { s with arg := e } && s' ≠ s
  | _ => true

/-- A turn, what a lockkeeper may now go on with (R488), and what the detectors note after it (R410). -/
def State.run (s : State) (t : Turn) : Res :=
  if s.stopped && !t.whileStopped then .fault .deviceStopped
  else
    match s.takeTurn t with
    | .next s' => .next (s'.relock.observe (if s.acted t s' then s.turnSid t else none))
    | .fault r => .fault r
    | .refused r => .refused r

/-! ## The turn of a machine without a plan -/

/-- The steps the machine might take by itself, in a fixed order. -/
def State.candidates (s : State) : List Ev :=
  (if s.readyAt.isNone then [.calibrate s.node 0, .memoryZeroInit true, .elementSelfTest [], .ready] else []) ++
  s.ctl.down.map Ev.lockkeeperRestartDone ++
  s.jobs.flatMap (fun e => [.jobEndTeardown 0 e.1, .completionDetect e.1, .deadlockDetect e.1, .leadUnreachable e.1, .spanJoinTimeout e.1,
    .spanLeadTimeout e.1]) ++
  s.ctxs.flatMap (fun e => [.commit e.1, .fenceDone e.1, .drainDone e.1, .migrShip e.1, .heldDepositApply e.1, .preemption e.1]) ++
  s.cores.flatMap (fun e =>
    [.effectRelease e.1, .pushSend e.1, .haulStart e.1, .promotion e.1 1, .promotion e.1 2, .promotion e.1 3, .faultRedelivery e.1,
     .dispatch e.1] ++ e.2.counters.map (fun x => .counterCarryFire e.1 x.1) ++ (e.2.resumes.flatMap Prod.snd).map Ev.faultResume) ++
  s.stations.flatMap (fun e => e.2.walks.map (fun w => .pageWalk e.1 w.id)) ++
  s.shoots.map (fun e => .shot e.1) ++
  s.gens.flatMap (fun e => [.passStart e.1, .writePortToken e.1, .bufferReopen e.1]) ++
  s.joints.flatMap (fun e => [.jointBarrier e.1, .opHeadCheck e.1, .opStart e.1, .blockStart e.1, .opComplete e.1] ++
    (List.range 8).flatMap (fun m => [.sliceStart e.1 m, .jdrainComplete e.1 m, .partialCombine e.1 m])) ++
  s.hauls.map (fun e => .haulComplete e.1.1 e.1.2) ++
  s.insts.flatMap (fun e => [.swapEnd e.1, .cutComplete e.1, .gsaveDone e.1] ++
    (if e.2.wave.isSome then (s.nodes e.1).flatMap (fun n => [.reconfPass e.1 n, .nodeRecord e.1 n]) else [])) ++
  s.saves.map (fun e => .grestDone e.1) ++
  s.links.flatMap (fun e => .laneSpareDone e.1 :: ((List.range 8).filter e.2.blamed).map (Ev.laneSpare e.1)) ++
  s.flows.map (fun e => .routerResend e.1.1 e.1.2.1 e.1.2.2) ++
  s.wreqs.map (fun e => .remoteAttemptTimeout e.1.1 e.1.2.1 e.1.2.2 0 e.2.req.attempt) ++
  s.once.map (fun o => .requestIdExpiry o.req.node o.req.core o.req.slot o.req.seq) ++
  s.groups.flatMap (fun e => [.pathCheckReask e.1.1 e.1.2.1 e.1.2.2, .pathCheckTimeout e.1.1 e.1.2.1 e.1.2.2]) ++
  s.switches.map (fun e => .spdmTimeout e.1) ++
  s.moves.map (fun e => .hiveMoveDone e.1) ++ [.handoverTimeout, .ownerPathLost]

/-- Whether a step would change the machine now. -/
def State.enabled (s : State) (e : Ev) : Bool :=
  s.mayAct e && (match exec e.row { s with arg := e } with
    | .next t => t ≠ { s with arg := e }
    | _ => true)

/-- The turn a machine takes when no plan says otherwise: what has arrived, then a step of its own, then the cores and the tiles that
have not moved in this cycle, an idle core's request for work, and the next cycle. -/
def State.defaultTurn (s : State) : Turn :=
  match s.open_.zipIdx.find? (fun x => match s.pending[x.1]? with | some p => p.due ≤ s.cycle | none => false) with
  | some x => .deliver x.2
  | none =>
    match s.candidates.find? s.enabled with
    | some e => .act e
    | none =>
      match ((s.ctxs.map (fun e => e.1.core)).find? (fun c => (s.core c).lastIssue ≠ some s.cycle && (s.issuer c).isSome)) with
      | some c => .issue c
      | none =>
        match ((s.planes.map (fun e => e.1.elem.tile)).find? (fun t => (s.tile t).chosen ≠ [] || (s.tile t).last ≠ some s.cycle)) with
        | some t => .fire t
        | none =>
          match (s.jobs.flatMap (fun j => j.2.hives.flatMap (fun h => h.cores.flatMap (fun a =>
              j.2.hives.flatMap (fun g => g.cores.filterMap (fun v =>
                if (s.core v).deque ≠ [] then some (Ev.stealRequest a v) else none)))))).find? s.enabled with
          | some e => .act e
          | none => .tick 1

/-- The next turn: of the plan, or the default one. -/
def State.nextTurn (s : State) : Turn × State :=
  match s.plan with
  | t :: rest => (t, { s with plan := rest })
  | [] => (s.defaultTurn, s)

/-! ## Placing an instruction where the next turn runs it -/

/-- The hive, the core and the thread a thread's word is placed for. -/
def slotThread : ThreadId := ⟨.hc 0 0 0, 0⟩

/-- A job that holds hive 0, whose handler 0 is one word. -/
def wordJob (w : BitVec 32) : Job :=
  { state := .running, hives := [⟨0, 0⟩], members := [0],
    handlers := [(0, { rank := 0, units := 0, edge := 0xFFFF, entry := 0, code := [w], lits := [] })] }

/-- A thread at a word. -/
def State.placeThread (s : State) (w : BitVec 32) : State :=
  { s with
    jobs := tput s.jobs 1 (wordJob w), ctxs := tput s.ctxs slotThread { status := .ready, sid := 1, nextIssue := s.cycle },
    cores := tput s.cores slotThread.core { s.core slotThread.core with last := 15, lastIssue := none },
    stopped := false, plan := [.issue slotThread.core] }

/-- The rule an element's word is placed in: rule slot 0 of plane 0 of element 0. -/
def slotRule : RuleId := ⟨⟨⟨⟨0, 0, computeTile 0⟩, 0⟩, 0⟩, 0⟩

/-- An ACTIVE instance whose element 0 has one rule, with a token in every latch and in every read port: its firing is the next one;
its g is that of region position (0, 0) in plane 0 (R79). -/
def State.placeRule (s : State) (w : BitVec 32) : State :=
  let p := slotRule.plane
  let t := p.elem.tile
  let i : InstId := ⟨0, 0, 0⟩
  let l : Latch := ⟨{}, 0⟩
  { s with
    jobs := tput s.jobs 1 (wordJob w), insts := tput s.insts i { st := .active, image := 0, sid := 1, origin := ⟨0, 0⟩, width := 4, height := 4 },
    planes := tput s.planes p { inst := some i, rules := [(w, 0)], g := 0x2545F491, latch := (List.range 8).map (fun c => (c, l)) },
    tiles := tput s.tiles t { s.tile t with chosen := [slotRule] },
    gens := (List.range 4).foldl (fun g k => tput g ⟨t.pair, k⟩ { tget g {} ⟨t.pair, k⟩ with rport := some l, wport := none }) s.gens,
    elems := tdel s.elems p.elem, stopped := false, plan := [.fire t] }

/-- The state in which the next turn runs an instruction's word. -/
def State.placeWord (s : State) (w : BitVec 32) : State :=
  match readThread w with
  | some i => if (decodeTableWord 32 w.toNat) = some i then s.placeThread w else s.placeRule w
  | none => s.placeRule w

end Sys2Proof.Machine
end

