-- ==== Sys2Proof/Machine/Step.lean ====
section
/-! DEFINITION. One step of the machine: the next turn; and the state in which the next step runs a given word. -/

namespace Sys2Proof.Machine

open Sys2Proof

/-- One step: the next turn of the plan, or the default one. -/
def step (s : State) : Host.Outcome State Fault Refusal := s.nextTurn.2.run s.nextTurn.1

/-- The state with an instruction placed so that the very next step runs it (log 8). -/
def State.withFetchWord (s : State) (_nbits w : Nat) : State := s.placeWord (BitVec.ofNat 32 w)

end Sys2Proof.Machine
end

