-- ==== Sys2Proof/Safety.lean ====
section
/-! DEFINITION. What counts as a safe run, and the words the statements are made of. -/

namespace Sys2Proof.Safety

open Sys2Proof Sys2Proof.Machine

/-! ## Runs -/

/-- A run of the machine: each state is a step's next state. -/
inductive Run : State → State → Prop where
  | refl (s : State) : Run s s
  | tail {s t u : State} : Run s t → step t = .next u → Run s u

/-- A step does not stop. -/
def Goes (s : State) : Prop := ∃ t, step s = .next t

/-- A device that has not stopped goes on (R494): nothing but a stopped device ends a run. -/
def Live (s : State) : Prop := s.stopped = false → Goes s

/-! ## Which words are whose (R50, R51) -/

/-- The TAG of a thread's word (R43); none for a rule's word and for a step without a word. -/
def threadTag : Instr → Option (BitVec 4)
  | .nop t => some t
  | .done t => some t
  | .trap _ t => some t
  | .csrr _ _ t => some t
  | .csrw _ _ t => some t
  | .yield t => some t
  | .brk _ t => some t
  | .stat _ _ t => some t
  | .clk _ t => some t
  | .id _ _ t => some t
  | .add _ _ _ t => some t
  | .sub _ _ _ t => some t
  | .mul _ _ _ t => some t
  | .mulh _ _ _ t => some t
  | .mulhu _ _ _ t => some t
  | .div _ _ _ t => some t
  | .divu _ _ _ t => some t
  | .rem _ _ _ t => some t
  | .remu _ _ _ t => some t
  | .and _ _ _ t => some t
  | .or _ _ _ t => some t
  | .xor _ _ _ t => some t
  | .shl _ _ _ t => some t
  | .shr _ _ _ t => some t
  | .sar _ _ _ t => some t
  | .andn _ _ _ t => some t
  | .addk _ _ _ t => some t
  | .andk _ _ _ t => some t
  | .ork _ _ _ t => some t
  | .xork _ _ _ t => some t
  | .shlk _ _ _ t => some t
  | .shrk _ _ _ t => some t
  | .sark _ _ _ t => some t
  | .ldk _ _ t => some t
  | .ldkh _ _ _ t => some t
  | .ldl _ _ t => some t
  | .min _ _ _ t => some t
  | .max _ _ _ t => some t
  | .minu _ _ _ t => some t
  | .maxu _ _ _ t => some t
  | .clz _ _ t => some t
  | .popc _ _ t => some t
  | .sext _ _ _ t => some t
  | .zext _ _ _ t => some t
  | .sel _ _ _ _ t => some t
  | .mac _ _ _ t => some t
  | .adds _ _ _ t => some t
  | .subs _ _ _ t => some t
  | .cmpEq _ _ _ _ t => some t
  | .cmpNe _ _ _ _ t => some t
  | .cmpLt _ _ _ _ t => some t
  | .cmpLtu _ _ _ _ t => some t
  | .cmpLe _ _ _ _ t => some t
  | .cmpLeu _ _ _ _ t => some t
  | .cmpkEq _ _ _ t => some t
  | .cmpkLt _ _ _ t => some t
  | .pand _ _ _ _ t => some t
  | .por _ _ _ _ t => some t
  | .pxor _ _ _ _ t => some t
  | .pget _ _ t => some t
  | .pset _ _ t => some t
  | .br _ t => some t
  | .brz _ _ t => some t
  | .brnz _ _ t => some t
  | .jl _ t => some t
  | .jr _ t => some t
  | .loop _ _ t => some t
  | .reach _ t => some t
  | .fence _ t => some t
  | .drain t => some t
  | .retry t => some t
  | .ldB _ _ _ t => some t
  | .ldH _ _ _ t => some t
  | .ldW _ _ _ t => some t
  | .ldD _ _ _ t => some t
  | .stB _ _ _ t => some t
  | .stH _ _ _ t => some t
  | .stW _ _ _ t => some t
  | .stD _ _ _ t => some t
  | .ldx _ _ _ _ t => some t
  | .stx _ _ _ _ t => some t
  | .ldV _ _ _ t => some t
  | .stV _ _ _ t => some t
  | .atomAdd _ _ _ t => some t
  | .atomAnd _ _ _ t => some t
  | .atomOr _ _ _ t => some t
  | .atomXor _ _ _ t => some t
  | .atomMax _ _ _ t => some t
  | .atomMin _ _ _ t => some t
  | .atomXchg _ _ _ t => some t
  | .atomCas _ _ _ _ t => some t
  | .atomFadd _ _ _ t => some t
  | .atomBadd _ _ _ t => some t
  | .pushCore _ _ _ t => some t
  | .pushHive _ _ _ t => some t
  | .pushDie _ _ _ t => some t
  | .pushDev _ _ _ t => some t
  | .pushSys _ _ _ t => some t
  | .popCore _ _ _ t => some t
  | .popHive _ _ _ t => some t
  | .popDie _ _ _ t => some t
  | .popDev _ _ _ t => some t
  | .popSys _ _ _ t => some t
  | .send _ _ _ _ t => some t
  | .park _ t => some t
  | .waitm t => some t
  | .getm _ _ t => some t
  | .spawn _ _ _ _ t => some t
  | .join _ _ t => some t
  | .migr _ t => some t
  | .count _ _ t => some t
  | .cset _ _ t => some t
  | .haul _ _ t => some t
  | .haulX _ _ t => some t
  | .hcancel _ t => some t
  | .hslot _ t => some t
  | .hstat _ _ t => some t
  | .gang _ t => some t
  | .jzero _ t => some t
  | .jdrain _ _ t => some t
  | .jdrainO _ _ _ t => some t
  | .jstat _ _ t => some t
  | .jred _ t => some t
  | .gload _ _ t => some t
  | .gswap _ _ t => some t
  | .gmark _ _ t => some t
  | .gquiet _ _ t => some t
  | .gctx _ _ t => some t
  | .gsave _ _ t => some t
  | .grest _ _ t => some t
  | .wopen _ _ t => some t
  | .wclose _ t => some t
  | .rget _ _ t => some t
  | .rput _ _ t => some t
  | .ratom _ _ t => some t
  | .nstat _ _ t => some t
  | .cjoin _ _ t => some t
  | .cstat _ _ t => some t
  | .nopElement _ _ _ | .statElement _ _ _ | .mov _ _ _ _ | .pick _ _ _ _ _ | .steer _ _ _ _ | .merge _ _ _ _ | .mergeu _ _ _ _
  | .guard _ _ _ | .gen _ _ _ _ | .rep _ _ _ _ _ | .drop _ _ | .eos _ _ _ _ | .ctl _ _ _ _ | .sync _ _ _ _ | .vadd _ _ _ _ _
  | .vsub _ _ _ _ _ | .vmul _ _ _ _ _ | .vfma _ _ _ _ _ | .vmax _ _ _ _ _ | .vmin _ _ _ _ _ | .vand _ _ _ _ _ | .vor _ _ _ _ _
  | .vxor _ _ _ _ _ | .vshl _ _ _ _ _ | .vshr _ _ _ _ _ | .vcmpEq _ _ _ _ _ | .vcmpLt _ _ _ _ _ | .vabs _ _ _ _ | .vred _ _ _ _
  | .vdot _ _ _ _ _ | .vcvt _ _ _ _ | .vrcp _ _ _ _ | .vrsq _ _ _ _ | .vexp2 _ _ _ _ | .vlog2 _ _ _ _ | .vperm _ _ _ _ _
  | .vbcast _ _ _ _ _ | .vscan _ _ _ _ | .mld _ _ _ _ | .mst _ _ _ _ _ | .matom _ _ _ _ | .sld _ _ _ _ | .sst _ _ _
  | .bmexp _ _ _ _ _ | .isect _ _ _ _ _ | .xsend _ _ | .xrecv _ _ _ _ | .illegalOp | .fetchBounds | .launch | .spanJoin
  | .spanAnswer | .spanJoinTimeout | .spanLeadTimeout | .jobEnd | .jobEndTeardown | .completionDetect | .deadlockDetect
  | .quietReport | .activeReport | .freshReportRequest | .leadUnreachable | .spanKill | .bargeArrival | .busyReply
  | .bargeResend | .remoteReject | .promotion | .faultRedelivery | .dispatch | .deposit | .heldDepositApply | .loadReply
  | .completionArrival | .stealRequest | .stealVictim | .stealAnswer | .joinPerform | .counterArrival | .counterCarryFire
  | .commit | .effectRelease | .probeAnswer | .preemption | .preemptionEnd | .rank7Fault | .faultResume | .loadPerform
  | .storePerform | .storeAck | .atomicPerform | .queueReserve | .queueSettle | .snoopRecall | .companionRequest | .pushSend
  | .migrShip | .fenceDone | .drainDone | .translation | .pageWalk | .missRetry | .shootdown | .shot | .tokenArrival | .arcAck
  | .planeSwitch | .memNodeCompletion | .writePortToken | .bufferReopen | .passStart | .towpathStart | .towpathStop
  | .freedSlotNotice | .jointBarrier | .opHeadCheck | .opStart | .blockStart | .opComplete | .sliceStart | .jdrainComplete
  | .partialCombine | .haulStart | .haulAccessAnswer | .haulComplete | .haulCancel | .hslotPerform | .graphReserve
  | .gloadPerform | .gloadDone | .gswapPerform | .reconfPass | .swapEnd | .gmarkPerform | .nodeRecord | .cutComplete
  | .gsavePerform | .gsaveDone | .grestPerform | .grestDone | .gctxPerform | .replayRequest | .laneSpare | .laneSpareDone
  | .linkDown | .linkTrain | .routerAccept | .routerAck | .routerResend | .windowReserve | .windowPieceCheck | .wclosePerform
  | .windowFreed | .ratomPerform | .remoteAnswer | .remoteAttemptTimeout | .requestIdRelease | .requestIdExpiry | .cjoinReserve
  | .cjoinCheck | .pathCheck | .pathCheckAnswer | .pathCheckReask | .keyInstallAck | .contributionArrival | .resultArrival
  | .spdmResponse | .spdmTimeout | .spdmRequest | .policy | .elementError | .spareMove | .twin | .kill | .unpinnedError
  | .dieKill | .killDrainDone | .scrubDone | .lockkeeperMemoryError | .lockkeeperRestartDone | .powerGood | .calibrate
  | .memoryZeroInit | .elementSelfTest | .ready | .bargePortWrite | .unknownService | .claimWrite | .relinquish | .handover
  | .handoverTimeout | .ownerPathLost | .hiveFence | .hiveMoveDone | .hiveTest | .hiveTestDone | .hiveRepair | .hiveOnline
  | .linkOff | .rasClear | .hostBasinBase | .hostBasinHead | .powerCap | .powerEventClear | .thermalLimit | .dcrWrite
  | .thermalCrossing | .thermalTrip | .fwStage | .fwActivate | .capReached | .pathCheckTimeout | .linkFlitAck | .blockEnd
  | .leadSessionResponse | .switchErrorAnswer => none

/-- Whether an instruction is a rule's word. -/
def ruleWord : Instr → Bool
  | .nop _ => false
  | .nopElement _ _ _ => true
  | .done _ | .trap _ _ | .csrr _ _ _ | .csrw _ _ _ | .yield _ | .brk _ _ | .stat _ _ _ => false
  | .statElement _ _ _ => true
  | .clk _ _ | .id _ _ _ | .add _ _ _ _ | .sub _ _ _ _ | .mul _ _ _ _ | .mulh _ _ _ _ | .mulhu _ _ _ _ | .div _ _ _ _
  | .divu _ _ _ _ | .rem _ _ _ _ | .remu _ _ _ _ | .and _ _ _ _ | .or _ _ _ _ | .xor _ _ _ _ | .shl _ _ _ _ | .shr _ _ _ _
  | .sar _ _ _ _ | .andn _ _ _ _ | .addk _ _ _ _ | .andk _ _ _ _ | .ork _ _ _ _ | .xork _ _ _ _ | .shlk _ _ _ _ | .shrk _ _ _ _
  | .sark _ _ _ _ | .ldk _ _ _ | .ldkh _ _ _ _ | .ldl _ _ _ | .min _ _ _ _ | .max _ _ _ _ | .minu _ _ _ _ | .maxu _ _ _ _
  | .clz _ _ _ | .popc _ _ _ | .sext _ _ _ _ | .zext _ _ _ _ | .sel _ _ _ _ _ | .mac _ _ _ _ | .adds _ _ _ _ | .subs _ _ _ _
  | .cmpEq _ _ _ _ _ | .cmpNe _ _ _ _ _ | .cmpLt _ _ _ _ _ | .cmpLtu _ _ _ _ _ | .cmpLe _ _ _ _ _ | .cmpLeu _ _ _ _ _
  | .cmpkEq _ _ _ _ | .cmpkLt _ _ _ _ | .pand _ _ _ _ _ | .por _ _ _ _ _ | .pxor _ _ _ _ _ | .pget _ _ _ | .pset _ _ _
  | .br _ _ | .brz _ _ _ | .brnz _ _ _ | .jl _ _ | .jr _ _ | .loop _ _ _ | .reach _ _ | .fence _ _ | .drain _ | .retry _
  | .ldB _ _ _ _ | .ldH _ _ _ _ | .ldW _ _ _ _ | .ldD _ _ _ _ | .stB _ _ _ _ | .stH _ _ _ _ | .stW _ _ _ _ | .stD _ _ _ _
  | .ldx _ _ _ _ _ | .stx _ _ _ _ _ | .ldV _ _ _ _ | .stV _ _ _ _ | .atomAdd _ _ _ _ | .atomAnd _ _ _ _ | .atomOr _ _ _ _
  | .atomXor _ _ _ _ | .atomMax _ _ _ _ | .atomMin _ _ _ _ | .atomXchg _ _ _ _ | .atomCas _ _ _ _ _ | .atomFadd _ _ _ _
  | .atomBadd _ _ _ _ | .pushCore _ _ _ _ | .pushHive _ _ _ _ | .pushDie _ _ _ _ | .pushDev _ _ _ _ | .pushSys _ _ _ _
  | .popCore _ _ _ _ | .popHive _ _ _ _ | .popDie _ _ _ _ | .popDev _ _ _ _ | .popSys _ _ _ _ | .send _ _ _ _ _ | .park _ _
  | .waitm _ | .getm _ _ _ | .spawn _ _ _ _ _ | .join _ _ _ | .migr _ _ | .count _ _ _ | .cset _ _ _ | .haul _ _ _
  | .haulX _ _ _ | .hcancel _ _ | .hslot _ _ | .hstat _ _ _ | .gang _ _ | .jzero _ _ | .jdrain _ _ _ | .jdrainO _ _ _ _
  | .jstat _ _ _ | .jred _ _ | .gload _ _ _ | .gswap _ _ _ | .gmark _ _ _ | .gquiet _ _ _ | .gctx _ _ _ | .gsave _ _ _
  | .grest _ _ _ | .wopen _ _ _ | .wclose _ _ | .rget _ _ _ | .rput _ _ _ | .ratom _ _ _ | .nstat _ _ _ | .cjoin _ _ _
  | .cstat _ _ _ => false
  | .mov _ _ _ _ | .pick _ _ _ _ _ | .steer _ _ _ _ | .merge _ _ _ _ | .mergeu _ _ _ _ | .guard _ _ _ | .gen _ _ _ _
  | .rep _ _ _ _ _ | .drop _ _ | .eos _ _ _ _ | .ctl _ _ _ _ | .sync _ _ _ _ | .vadd _ _ _ _ _ | .vsub _ _ _ _ _
  | .vmul _ _ _ _ _ | .vfma _ _ _ _ _ | .vmax _ _ _ _ _ | .vmin _ _ _ _ _ | .vand _ _ _ _ _ | .vor _ _ _ _ _ | .vxor _ _ _ _ _
  | .vshl _ _ _ _ _ | .vshr _ _ _ _ _ | .vcmpEq _ _ _ _ _ | .vcmpLt _ _ _ _ _ | .vabs _ _ _ _ | .vred _ _ _ _ | .vdot _ _ _ _ _
  | .vcvt _ _ _ _ | .vrcp _ _ _ _ | .vrsq _ _ _ _ | .vexp2 _ _ _ _ | .vlog2 _ _ _ _ | .vperm _ _ _ _ _ | .vbcast _ _ _ _ _
  | .vscan _ _ _ _ | .mld _ _ _ _ | .mst _ _ _ _ _ | .matom _ _ _ _ | .sld _ _ _ _ | .sst _ _ _ | .bmexp _ _ _ _ _
  | .isect _ _ _ _ _ | .xsend _ _ | .xrecv _ _ _ _ => true
  | .illegalOp | .fetchBounds | .launch | .spanJoin | .spanAnswer | .spanJoinTimeout | .spanLeadTimeout | .jobEnd
  | .jobEndTeardown | .completionDetect | .deadlockDetect | .quietReport | .activeReport | .freshReportRequest
  | .leadUnreachable | .spanKill | .bargeArrival | .busyReply | .bargeResend | .remoteReject | .promotion | .faultRedelivery
  | .dispatch | .deposit | .heldDepositApply | .loadReply | .completionArrival | .stealRequest | .stealVictim | .stealAnswer
  | .joinPerform | .counterArrival | .counterCarryFire | .commit | .effectRelease | .probeAnswer | .preemption | .preemptionEnd
  | .rank7Fault | .faultResume | .loadPerform | .storePerform | .storeAck | .atomicPerform | .queueReserve | .queueSettle
  | .snoopRecall | .companionRequest | .pushSend | .migrShip | .fenceDone | .drainDone | .translation | .pageWalk | .missRetry
  | .shootdown | .shot | .tokenArrival | .arcAck | .planeSwitch | .memNodeCompletion | .writePortToken | .bufferReopen
  | .passStart | .towpathStart | .towpathStop | .freedSlotNotice | .jointBarrier | .opHeadCheck | .opStart | .blockStart
  | .opComplete | .sliceStart | .jdrainComplete | .partialCombine | .haulStart | .haulAccessAnswer | .haulComplete
  | .haulCancel | .hslotPerform | .graphReserve | .gloadPerform | .gloadDone | .gswapPerform | .reconfPass | .swapEnd
  | .gmarkPerform | .nodeRecord | .cutComplete | .gsavePerform | .gsaveDone | .grestPerform | .grestDone | .gctxPerform
  | .replayRequest | .laneSpare | .laneSpareDone | .linkDown | .linkTrain | .routerAccept | .routerAck | .routerResend
  | .windowReserve | .windowPieceCheck | .wclosePerform | .windowFreed | .ratomPerform | .remoteAnswer | .remoteAttemptTimeout
  | .requestIdRelease | .requestIdExpiry | .cjoinReserve | .cjoinCheck | .pathCheck | .pathCheckAnswer | .pathCheckReask
  | .keyInstallAck | .contributionArrival | .resultArrival | .spdmResponse | .spdmTimeout | .spdmRequest | .policy
  | .elementError | .spareMove | .twin | .kill | .unpinnedError | .dieKill | .killDrainDone | .scrubDone
  | .lockkeeperMemoryError | .lockkeeperRestartDone | .powerGood | .calibrate | .memoryZeroInit | .elementSelfTest | .ready
  | .bargePortWrite | .unknownService | .claimWrite | .relinquish | .handover | .handoverTimeout | .ownerPathLost | .hiveFence
  | .hiveMoveDone | .hiveTest | .hiveTestDone | .hiveRepair | .hiveOnline | .linkOff | .rasClear | .hostBasinBase
  | .hostBasinHead | .powerCap | .powerEventClear | .thermalLimit | .dcrWrite | .thermalCrossing | .thermalTrip | .fwStage
  | .fwActivate | .capReached | .pathCheckTimeout | .linkFlitAck | .blockEnd | .leadSessionResponse | .switchErrorAnswer => false

/-! ## A thread's instruction -/

/-- The context of the current thread. -/
def cur (s : State) : Ctx := s.ctx s.curT

/-- The context in which the current thread's instruction acts: one more instruction executed (R184), the PC past the
word, the next issue six cycles on (R120). -/
def begun (s : State) : Ctx := (cur s).begin s.cycle

/-- An instruction of the current thread passes checks 2 and 3 of R44, its reach is not at its limit (R184), and its guard
holds (R43). -/
def Runs (s : State) (i : Instr) (g : BitVec 4) : Prop :=
  (cur s).status = .ready ∧ WellFormed.portsOk i = true ∧ WellFormed.rangesOk i = true ∧ (cur s).execs < 128 ∧
    (cur s).guard g = true

/-- A source port of the current thread reads a value (R38). -/
def Reads (s : State) (p : BitVec 5) (x : Word) : Prop := rd s s.curT p = .ok x

/-- The current thread's reach takes an effect, and asks for the translations the effect needs (R189, R190). -/
def buffering (s : State) (e : Eff) (ps : List Probe) : State :=
  (s.setCtx s.curT { begun s with buf := (begun s).buf ++ [⟨e, ps⟩] }).askProbes s.curT (begun s).buf.length

/-- A reach with no closing effect and fewer than 32 effects: it takes another one (R189, R191). -/
def Room (s : State) : Prop := (cur s).buf.all (fun b => !b.eff.closing) = true ∧ (cur s).buf.length < 32

/-- Each item a core's send unit keeps stands under its own number. -/
def Keyed (k : Core) : Prop := ∀ e ∈ k.sends, e.2.item.id = e.1

/-! ## A rule's firing -/

/-- The current rule fires an instruction under a trigger entry: the instruction is its word, the rule was chosen for this
cycle, and it is ready (R288, R529). -/
def Fires (s : State) (i : Instr) (t : BitVec 32) : Prop :=
  s.rule s.curR = some (encode i, t) ∧ (s.tile s.curR.plane.elem.tile).chosen.contains s.curR = true ∧ s.ready s.curR = true

/-- The state once the firing is counted (R290). -/
def counted (s : State) : State := s.firedOnce s.curR false

/-- The current rule's plane then. -/
def mine (s : State) : Plane := (counted s).plane s.curR.plane

/-- What the current rule's sources read (R41): the first token, the second, and sp after both. -/
def sources (s : State) (t : BitVec 32) (a b : Option (BitVec 5)) : Token × Token × Nat :=
  (mine s).two s.curR.plane.plane (trFmt t) a b

/-- Writes ports of a rule's plane in order. -/
def puts (s : State) (r : RuleId) (ws : List (BitVec 5 × Token)) : State := ws.foldl (fun s q => s.putPort r.plane q.1 q.2) s

/-- Pops channels of a rule's plane. -/
def popped (s : State) (r : RuleId) (cs : List Nat) : State := cs.foldl (fun s c => s.popCh r.plane c) s

/-- The end of a firing (R41, R45, R291): the writes, the q update by the result, the pops. -/
def landed (s : State) (r : RuleId) (i : Instr) (t : BitVec 32) (ws : List (BitVec 5 × Token)) (x : BitVec 128) (cs : List Nat) :
    State :=
  popped ((puts s r ws).onPlane r.plane (qAction (encode i) (laneTest (trFmt t) x))) r cs

/-- A firing of the current rule whose plane is p after its sources were read and whose one result is a token: the tag
action and the pop mask. -/
def yields (s : State) (i : Instr) (t : BitVec 32) (p : Plane) (v : Token) : State :=
  landed ((counted s).setPlane s.curR.plane p) s.curR i t (tagWrites (encode i) v v) v.data (maskList (trPop t))

end Sys2Proof.Safety
end

