-- ==== Sys2Proof/Certificates/Slice0/Obligations.lean ====
section
/-! DEFINITION. What is claimed of the machine: one proposition for each obligation. Named operations of the machine that an equation
cites are those of Sys2Proof/Machine; the words `Runs`, `Reads`, `Fires` and others are those of Sys2Proof/Safety.lean. -/

open Sys2Proof Sys2Proof.Machine Sys2Proof.Safety


/-- R38, R39, R49, R150, R151: what a thread's ports read, `self` and the handler's literals among them, and what a write to them
does; p0 stays 1. -/
def Obligations.PortsOfAThread : Prop :=
  ∀ (s : State) (p : BitVec 5) (v : Word),
    (p.toNat ≤ 9 → Reads s p ((cur s).regs.get p.toNat) ∧ ((cur s).wr p v).regs.get p.toNat = v ∧
      (∀ n, n ≤ 9 → n ≠ p.toNat → ((cur s).wr p v).regs.get n = (cur s).regs.get n) ∧ ((cur s).wr p v).pw = (cur s).pw) ∧
    (p.toNat = 10 → Reads s p 0 ∧ (cur s).wr p v = cur s) ∧
    (p.toNat = 11 → Reads s p (((cur s).pw ||| 1).setWidth 64) ∧ ((cur s).wr p v).pred 0 = true ∧
      (∀ n, 1 ≤ n → n ≤ 7 → ((cur s).wr p v).pred n = v.getLsbD n) ∧ ((cur s).wr p v).regs = (cur s).regs) ∧
    (p.toNat = 12 → Reads s p (identWord s.node s.curT.core s.curT.slot (cur s).sid)) ∧
    (16 ≤ p.toNat → ∀ (h : Handler) (x : Word), s.handler (cur s).sid (cur s).lit = some h →
      h.lits[p.toNat - 16]? = some x → Reads s p x)

/-- R161, R91, R89: the sixteen register forms, their results and flags; nothing else changes. R162, R166 to R169: extremes, bit
counts, extension, selection, multiply-accumulate, saturating sums. R163, R164, R165: the immediate forms and the constants; a
literal past the table raises BOUNDS (R151). -/
def Obligations.ScalarResults : Prop :=
  (∀ (s : State) (a b d : BitVec 5) (g : BitVec 4) (x y : Word), Reads s a x → Reads s b y →
    let put (v : Word) (f : BitVec 7) : State := s.setCtx s.curT (((begun s).wr d v).flag f)
    (Runs s (.add a b d g) g → exec (.add a b d g) s = .next (put (BitVec.ofNat 64 (x.toNat + y.toNat)) 0)) ∧
    (Runs s (.sub a b d g) g → exec (.sub a b d g) s = .next (put (BitVec.ofInt 64 (x.toInt - y.toInt)) 0)) ∧
    (Runs s (.mul a b d g) g → exec (.mul a b d g) s = .next (put (BitVec.ofNat 64 (x.toNat * y.toNat)) 0)) ∧
    (Runs s (.mulh a b d g) g →
      exec (.mulh a b d g) s = .next (put (BitVec.ofInt 64 (x.toInt * y.toInt / 2 ^ 64)) 0)) ∧
    (Runs s (.mulhu a b d g) g →
      exec (.mulhu a b d g) s = .next (put (BitVec.ofNat 64 (x.toNat * y.toNat / 2 ^ 64)) 0)) ∧
    (Runs s (.div a b d g) g → exec (.div a b d g) s = .next
      (if y = 0 then put (BitVec.allOnes 64) 2 else put (BitVec.ofInt 64 (x.toInt.tdiv y.toInt)) 0)) ∧
    (Runs s (.divu a b d g) g → exec (.divu a b d g) s = .next
      (if y = 0 then put (BitVec.allOnes 64) 2 else put (BitVec.ofNat 64 (x.toNat / y.toNat)) 0)) ∧
    (Runs s (.rem a b d g) g → exec (.rem a b d g) s = .next
      (if y = 0 then put x 2 else put (BitVec.ofInt 64 (x.toInt.tmod y.toInt)) 0)) ∧
    (Runs s (.remu a b d g) g → exec (.remu a b d g) s = .next
      (if y = 0 then put x 2 else put (BitVec.ofNat 64 (x.toNat % y.toNat)) 0)) ∧
    (Runs s (.and a b d g) g → exec (.and a b d g) s = .next (put (x &&& y) 0)) ∧
    (Runs s (.or a b d g) g → exec (.or a b d g) s = .next (put (x ||| y) 0)) ∧
    (Runs s (.xor a b d g) g → exec (.xor a b d g) s = .next (put (x ^^^ y) 0)) ∧
    (Runs s (.shl a b d g) g → exec (.shl a b d g) s = .next (put (x <<< (y.toNat % 64)) 0)) ∧
    (Runs s (.shr a b d g) g → exec (.shr a b d g) s = .next (put (x >>> (y.toNat % 64)) 0)) ∧
    (Runs s (.sar a b d g) g → exec (.sar a b d g) s = .next (put (x.sshiftRight (y.toNat % 64)) 0)) ∧
    (Runs s (.andn a b d g) g → exec (.andn a b d g) s = .next (put (x &&& ~~~y) 0))) ∧
  (∀ (s : State) (a b d e : BitVec 5) (k : BitVec 10) (g : BitVec 4) (x y : Word), Reads s a x → Reads s b y →
    let put (v : Word) (f : BitVec 7) : State := s.setCtx s.curT (((begun s).wr d v).flag f)
    let clamped (z : Int) : State :=
      if z < -2 ^ 63 then put (BitVec.ofInt 64 (-2 ^ 63)) 4 else if 2 ^ 63 - 1 < z then put (BitVec.ofInt 64 (2 ^ 63 - 1)) 4
      else put (BitVec.ofInt 64 z) 0
    (Runs s (.min a b d g) g → exec (.min a b d g) s = .next (put (if x.toInt < y.toInt then x else y) 0)) ∧
    (Runs s (.max a b d g) g → exec (.max a b d g) s = .next (put (if x.toInt < y.toInt then y else x) 0)) ∧
    (Runs s (.minu a b d g) g → exec (.minu a b d g) s = .next (put (if x.toNat < y.toNat then x else y) 0)) ∧
    (Runs s (.maxu a b d g) g → exec (.maxu a b d g) s = .next (put (if x.toNat < y.toNat then y else x) 0)) ∧
    (Runs s (.clz a d g) g → ∃ n, exec (.clz a d g) s = .next (put (BitVec.ofNat 64 n) 0) ∧ n ≤ 64 ∧
      x.toNat < 2 ^ (64 - n) ∧ (n < 64 → 2 ^ (63 - n) ≤ x.toNat)) ∧
    (Runs s (.popc a d g) g → exec (.popc a d g) s =
      .next (put (BitVec.ofNat 64 ((List.range 64).filter (fun i => x.getLsbD i)).length) 0)) ∧
    (Runs s (.sext a k d g) g → exec (.sext a k d g) s =
      .next (put ((x <<< (64 - k.toNat)).sshiftRight (64 - k.toNat)) 0)) ∧
    (Runs s (.zext a k d g) g → exec (.zext a k d g) s = .next (put (BitVec.ofNat 64 (x.toNat % 2 ^ k.toNat)) 0)) ∧
    (Runs s (.sel a b d e g) g → exec (.sel a b d e g) s = .next (put (if (cur s).pred e.toNat then x else y) 0)) ∧
    (Runs s (.mac a b d g) g → exec (.mac a b d g) s = .next
      (let z := ((cur s).regs.get d.toNat).toInt + x.toInt * y.toInt
       if z < -2 ^ 63 ∨ 2 ^ 63 - 1 < z then put (BitVec.ofInt 64 z) 64 else put (BitVec.ofInt 64 z) 0)) ∧
    (Runs s (.adds a b d g) g → exec (.adds a b d g) s = .next (clamped (x.toInt + y.toInt))) ∧
    (Runs s (.subs a b d g) g → exec (.subs a b d g) s = .next (clamped (x.toInt - y.toInt)))) ∧
  (∀ (s : State) (a d : BitVec 5) (k : BitVec 10) (g : BitVec 4) (x : Word), Reads s a x →
    let put (v : Word) : State := s.setCtx s.curT ((begun s).wr d v)
    (Runs s (.addk a k d g) g → exec (.addk a k d g) s = .next (put (BitVec.ofInt 64 (x.toInt + k.toInt)))) ∧
    (Runs s (.andk a k d g) g → exec (.andk a k d g) s = .next (put (x &&& k.signExtend 64))) ∧
    (Runs s (.ork a k d g) g → exec (.ork a k d g) s = .next (put (x ||| k.signExtend 64))) ∧
    (Runs s (.xork a k d g) g → exec (.xork a k d g) s = .next (put (x ^^^ k.signExtend 64))) ∧
    (Runs s (.shlk a k d g) g → exec (.shlk a k d g) s = .next (put (x <<< k.toNat))) ∧
    (Runs s (.shrk a k d g) g → exec (.shrk a k d g) s = .next (put (x >>> k.toNat))) ∧
    (Runs s (.sark a k d g) g → exec (.sark a k d g) s = .next (put (x.sshiftRight k.toNat))) ∧
    (Runs s (.ldk k d g) g → exec (.ldk k d g) s = .next (put (BitVec.ofInt 64 k.toInt))) ∧
    (Runs s (.ldkh a k d g) g → exec (.ldkh a k d g) s = .next (put (BitVec.ofNat 64 (x.toNat * 1024 + k.toNat)))) ∧
    (Runs s (.ldl k d g) g → ∀ h, s.handler (cur s).sid (cur s).lit = some h →
      (∀ v, h.lits[k.toNat]? = some v → exec (.ldl k d g) s = .next (put v)) ∧
      (h.lits.length ≤ k.toNat →
        exec (.ldl k d g) s = .next (s.endThread s.curT .bounds (k.setWidth 64) (encode (.ldl k d g))))))

/-- R170 to R173: compares and predicates. A compare of two registers may also write the complement. R33, R37, R174 to R176, R178:
where the PC goes. The PC of `s` is the branch's own, a code address of R36; after the last word of a full handler the next PC
is the model's choice (log 17). -/
def Obligations.PredicatesAndBranches : Prop :=
  (∀ (s : State) (a b d e : BitVec 5) (k : BitVec 10) (g : BitVec 4) (x y : Word), Reads s a x → Reads s b y →
    let put (c : Bool) : State := s.setCtx s.curT ((begun s).setPred d.toNat c)
    let two (c : Bool) : State := s.setCtx s.curT
      (if e = 0 then (begun s).setPred d.toNat c else ((begun s).setPred d.toNat c).setPred e.toNat (!c))
    (Runs s (.cmpEq a b d e g) g → exec (.cmpEq a b d e g) s = .next (two (decide (x = y)))) ∧
    (Runs s (.cmpNe a b d e g) g → exec (.cmpNe a b d e g) s = .next (two (decide (x ≠ y)))) ∧
    (Runs s (.cmpLt a b d e g) g → exec (.cmpLt a b d e g) s = .next (two (decide (x.toInt < y.toInt)))) ∧
    (Runs s (.cmpLtu a b d e g) g → exec (.cmpLtu a b d e g) s = .next (two (decide (x.toNat < y.toNat)))) ∧
    (Runs s (.cmpLe a b d e g) g → exec (.cmpLe a b d e g) s = .next (two (decide (x.toInt ≤ y.toInt)))) ∧
    (Runs s (.cmpLeu a b d e g) g → exec (.cmpLeu a b d e g) s = .next (two (decide (x.toNat ≤ y.toNat)))) ∧
    (Runs s (.cmpkEq a k d g) g → exec (.cmpkEq a k d g) s = .next (put (decide (x.toInt = k.toInt)))) ∧
    (Runs s (.cmpkLt a k d g) g → exec (.cmpkLt a k d g) s = .next (put (decide (x.toInt < k.toInt)))) ∧
    (Runs s (.pset a d g) g → exec (.pset a d g) s = .next (put (decide (x ≠ 0)))) ∧
    (∀ v : BitVec 5, let p := (cur s).pred a.toNat ^^ v.getLsbD 0; let q := (cur s).pred b.toNat ^^ v.getLsbD 1
      (Runs s (.pand a b d v g) g → exec (.pand a b d v g) s = .next (put (p && q))) ∧
      (Runs s (.por a b d v g) g → exec (.por a b d v g) s = .next (put (p || q))) ∧
      (Runs s (.pxor a b d v g) g → exec (.pxor a b d v g) s = .next (put (p ^^ q)))) ∧
    (Runs s (.pget a d g) g → exec (.pget a d g) s =
      .next (s.setCtx s.curT ((begun s).wr d (if (cur s).pred a.toNat then 1 else 0))))) ∧
  (∀ (s : State) (a : BitVec 5) (o : BitVec 15) (g : BitVec 4) (x : Word), Reads s a x →
    (cur s).pc.toNat < 2 ^ 28 → (cur s).pc.toNat % 4 = 0 →
    let pc := (cur s).pc
    let after := (begun s).pc
    let at_ (c : Ctx) (v : Word) : State := s.setCtx s.curT { c with pc := v }
    let there : Word := pc + (o.signExtend 64 <<< 2)
    (pc.toNat % 65536 ≠ 65532 → after = pc + 4) ∧
    (Runs s (.br o g) g → exec (.br o g) s = .next (at_ (begun s) there)) ∧
    (Runs s (.brz a o g) g → exec (.brz a o g) s = .next (at_ (begun s) (if x = 0 then there else after))) ∧
    (Runs s (.brnz a o g) g → exec (.brnz a o g) s = .next (at_ (begun s) (if x ≠ 0 then there else after))) ∧
    (Runs s (.jl o g) g → exec (.jl o g) s = .next (at_ ((begun s).wr 9 after) there)) ∧
    (Runs s (.loop a o g) g → let v := (cur s).regs.get a.toNat - 1
      exec (.loop a o g) s = .next (at_ ((begun s).wr a v) (if v = 0 then after else there))) ∧
    (Runs s (.nop g) g → exec (.nop g) s = .next (at_ (begun s) after)) ∧
    (Runs s (.jr a g) g → exec (.jr a g) s =
      if x.toNat % 4 ≠ 0 then .next (s.endThread s.curT .align x (encode (.jr a g)))
      else if 2 ^ 28 ≤ x.toNat ∨ s.handler (cur s).sid (x.toNat / 65536) = none then
        .next (s.endThread s.curT .bounds x (encode (.jr a g)))
      else .next (at_ (begun s) x)))

/-- R176: `loop`: its word; a code that is not h0 to h9 raises ILLEGAL_PORT; it counts down modulo 2^64 and branches if the new
value is nonzero; from 0 it wraps to all ones and branches. The PC of `s` is a code address (R36). -/
def Obligations.LoopCountsDown : Prop :=
  ∀ (s : State) (a : BitVec 5) (o : BitVec 15) (g : BitVec 4), (cur s).pc.toNat < 2 ^ 28 → (cur s).pc.toNat % 4 = 0 →
    let h := (cur s).regs.get a.toNat
    let there : Word := (cur s).pc + (o.signExtend 64 <<< 2)
    encode (.loop a o g) = 0x4D#8 ++ a ++ o ++ g ∧
    ((cur s).status = .ready → 9 < a.toNat → exec (.loop a o g) s = .next (s.stop s.curT ⟨.illegalPort, none⟩ (encode (.loop a o g)))) ∧
    (Runs s (.loop a o g) g →
      (h - 1 ≠ 0 → exec (.loop a o g) s = .next (s.setCtx s.curT { (begun s).wr a (h - 1) with pc := there })) ∧
      (h - 1 = 0 → exec (.loop a o g) s = .next (s.setCtx s.curT ((begun s).wr a 0))) ∧
      (h = 0 → exec (.loop a o g) s = .next (s.setCtx s.curT { (begun s).wr a (BitVec.allOnes 64) with pc := there })))

/-- R171: the immediate compares: their words; an immediate from −512 to 511; D outside 1 to 7 raises ILLEGAL_FORM; what each
sets, and that nothing else of the thread changes. -/
def Obligations.ImmediateCompares : Prop :=
  ∀ (s : State) (a d : BitVec 5) (k : BitVec 10) (g : BitVec 4) (x : Word),
    encode (.cmpkEq a k d g) = 0x3E#8 ++ a ++ k.extractLsb' 5 5 ++ d ++ k.extractLsb' 0 5 ++ g ∧
    encode (.cmpkLt a k d g) = 0x3F#8 ++ a ++ k.extractLsb' 5 5 ++ d ++ k.extractLsb' 0 5 ++ g ∧
    -512 ≤ k.toInt ∧ k.toInt ≤ 511 ∧
    ((cur s).status = .ready → Reads s a x → WellFormed.srcH a = true → d.toNat = 0 ∨ 7 < d.toNat →
      exec (.cmpkEq a k d g) s = .next (s.stop s.curT ⟨.illegalForm, none⟩ (encode (.cmpkEq a k d g))) ∧
      exec (.cmpkLt a k d g) s = .next (s.stop s.curT ⟨.illegalForm, none⟩ (encode (.cmpkLt a k d g)))) ∧
    (Reads s a x → Runs s (.cmpkEq a k d g) g →
      exec (.cmpkEq a k d g) s = .next (s.setCtx s.curT ((begun s).setPred d.toNat (decide (x.toInt = k.toInt))))) ∧
    (Reads s a x → Runs s (.cmpkLt a k d g) g →
      exec (.cmpkLt a k d g) s = .next (s.setCtx s.curT ((begun s).setPred d.toNat (decide (x.toInt < k.toInt)))))

/-- R43, R44, R184: the order of the checks, for every word of a thread. -/
def Obligations.OrderOfChecks : Prop :=
  ∀ (s : State) (i : Instr) (g : BitVec 4), threadTag i = some g → (cur s).status = .ready →
    (WellFormed.portsOk i = false → exec i s = .next (s.stop s.curT ⟨.illegalPort, none⟩ (encode i))) ∧
    (WellFormed.portsOk i = true → WellFormed.rangesOk i = false →
      exec i s = .next (s.stop s.curT ⟨.illegalForm, none⟩ (encode i))) ∧
    (WellFormed.portsOk i = true → WellFormed.rangesOk i = true → 128 ≤ (cur s).execs →
      exec i s = .next (s.stop s.curT ⟨.reachLong, none⟩ (encode i))) ∧
    (WellFormed.portsOk i = true → WellFormed.rangesOk i = true → (cur s).execs < 128 →
      (cur s).pred (g.toNat % 8) = g.getLsbD 3 → exec i s = .next (s.setCtx s.curT (begun s)))

/-- R87, R153 to R157: what `csrr` reads. R86, R158, R200, R437, R438: what `csrw` writes, and that a value out of range writes
nothing and raises ILLEGAL_FORM. That a write of FSTAT also clears the flags the reach has raised is the model's choice (log
20). R122, R123, R124, R181: flags, clock, identity and `yield`: when it retires it begins to wait for the contexts of its
core that are READY then and wait out no `yield` of their own. -/
def Obligations.SystemWords : Prop :=
  (∀ (s : State) (k : BitVec 10) (d : BitVec 5) (g : BitVec 4), Runs s (.csrr k d g) g →
    let c := begun s
    let x := s.core s.curT.core
    let own (v : Word) : Word :=
      (c.buf.foldl (fun acc b => match b.eff with | .csrw n w => if k.toNat = n then some w else acc | _ => acc) none).getD v
    ∃ v : Word, exec (.csrr k d g) s = .next (s.setCtx s.curT (c.wr d v)) ∧
      (k = 0x000 → v = BitVec.ofNat 64 s.curT.slot) ∧ (k = 0x001 → v = coreWord s.node s.curT.core) ∧
      (k = 0x002 → v = BitVec.ofNat 64 c.sid) ∧
      (k = 0x003 → v = match s.part with | .hz960 => 7 | .hz940 => 5 | .hz480 => 0) ∧
      (k = 0x011 → v = BitVec.ofNat 64 c.reachlim) ∧
      (k = 0x012 → v = fld c.gen.toNat 0 ||| fld c.rid.toNat 4 ||| fld c.execs 16 ||| fld c.buf.length 24) ∧
      (k = 0x013 → v = x.stale.setWidth 64) ∧ (k = 0x020 → v = (c.fstat ||| c.flags).setWidth 64) ∧
      (k = 0x031 → v = (x.busy ++ x.spills : BitVec 64)) ∧
      (k = 0x050 → v = own (BitVec.ofNat 64 (tget x.nretry 6 (if s.curT.core.isHandler then 0 else c.sid)))) ∧
      (k = 0x051 → v = own (BitVec.ofNat 64 (tget x.rtimeout 10000 (if s.curT.core.isHandler then 0 else c.sid)))) ∧
      (k = 0x060 → s.curT.core.isHandler = true → v = BitVec.ofNat 64 (s.job c.sid).dom)) ∧
  (∀ (s : State) (a : BitVec 5) (k : BitVec 10) (g : BitVec 4) (v : Word), Reads s a v → Runs s (.csrw a k g) g →
    let c := begun s
    let bad := s.stop s.curT ⟨.illegalForm, none⟩ (encode (.csrw a k g))
    (k = 0x011 → exec (.csrw a k g) s =
      .next (if 1 ≤ v.toNat ∧ v.toNat ≤ 255 then s.setCtx s.curT { c with reachlim := v.toNat } else bad)) ∧
    (k = 0x020 → exec (.csrw a k g) s =
      .next (if v.toNat < 128 then s.setCtx s.curT { c with fstat := v.setWidth 7, flags := 0 } else bad)) ∧
    ((cur s).room = .ok () →
      (k = 0x050 → exec (.csrw a k g) s =
        .next (if v.toNat ≤ 15 then s.setCtx s.curT { c with buf := c.buf ++ [⟨.csrw 0x050 v, []⟩] } else bad)) ∧
      (k = 0x051 → exec (.csrw a k g) s =
        .next (if 1250 ≤ v.toNat ∧ v.toNat ≤ 100000 then s.setCtx s.curT { c with buf := c.buf ++ [⟨.csrw 0x051 v, []⟩] }
          else bad)))) ∧
  (∀ (s : State) (k : BitVec 10) (d n : BitVec 5) (g : BitVec 4),
    let c := begun s
    let put (v : Word) : State := s.setCtx s.curT (c.wr d v)
    (Runs s (.stat k d g) g → let v : Word := (c.fstat ||| c.flags).setWidth 64
      (k = 0 → exec (.stat k d g) s = .next (put v)) ∧
      (k = 1 → exec (.stat k d g) s = .next (s.setCtx s.curT { c.wr d v with fstat := 0, flags := 0 }))) ∧
    (Runs s (.clk d g) g → ∀ r, s.readyAt = some r → exec (.clk d g) s = .next (put (BitVec.ofNat 64 (s.cycle - r)))) ∧
    (Runs s (.id d n g) g →
      (n = 0 → exec (.id d n g) s = .next (put (identWord s.node s.curT.core s.curT.slot c.sid))) ∧
      (n = 1 → exec (.id d n g) s = .next (put c.ctl)) ∧ (n = 2 → exec (.id d n g) s = .next (put c.src)) ∧
      (n = 3 → exec (.id d n g) s = .next (put (fld (bitsN (prevPc c.pc) 27 16) 16 ||| fld c.lit 0))) ∧
      (n = 4 → exec (.id d n g) s = .next (put (fld (s.job c.sid).hives.length 16 |||
        fld (match s.curT.core.hive? with | some h => (s.job c.sid).hives.findIdx (· = h) | none => 0xFFFF) 0)))) ∧
    (Runs s (.yield g) g → exec (.yield g) s = .next (s.setCtx s.curT { c with yields := true })) ∧
    (∀ t, let x := s.ctx t
      (s.yielded t).ctx t = { x with yields := false, yieldFor := (List.range 16).filter (fun i =>
        let y := s.ctx ⟨t.core, i⟩
        i ≠ t.slot && y.status = .ready && y.nextIssue ≤ x.nextIssue && !y.yields && y.yieldFor = []) }))

/-- R179, R180: the software traps end the thread with TRAP_SW. R204, R205: an ending fault of a thread of a core whose hive has
not moved. The context becomes FREE; the barge names the cause, the slot, the reach, the PC, the address field and the word,
and goes to the lockkeeper where the handler names none. Memory is unchanged. Where no rule names the address field it is a
free value, the model's choice (log 25). R121: `done` of a thread with nothing buffered, on a core that holds no effect of it:
the context is FREE, and what named it in the continuation lane is dropped and counted. R37, R44, R51: a thread whose word has
no opcode, or whose PC lies past its handler's code, ends with ILLEGAL_OP or BOUNDS; the ending is that of every fault (R204,
R205). -/
def Obligations.TrapsAndEndings : Prop :=
  (∀ (s : State) (k : BitVec 10) (g : BitVec 4),
    (Runs s (.trap k g) g →
      exec (.trap k g) s = .next (s.endThread s.curT .trapSw (BitVec.ofNat 64 k.toNat) (encode (.trap k g)))) ∧
    (Runs s (.brk k g) g →
      exec (.brk k g) s = .next (s.endThread s.curT .trapSw (BitVec.ofNat 64 (0x400 + k.toNat)) (encode (.brk k g))))) ∧
  ((∀ (s : State) (t : ThreadId) (x : Cause) (addr : Word) (w : BitVec 32) (h : Handler),
    s.handler (s.ctx t).sid (s.ctx t).lit = some h → s.redirectCore (s.ctx t).sid t.core = t.core →
    let c := s.ctx t
    let u := s.endThread t x addr w
    let b : List Word := [fld x.code 0 ||| fld t.slot 12 ||| fld c.rid.toNat 16 ||| fld c.gen.toNat 26 |||
      fld c.reachcnt 30 ||| fld h.rank 39, c.pc, addr, identWord s.node t.core t.slot c.sid, w.setWidth 64, fld c.lit 0]
    (u.ctx t).status = .free ∧ u.mem = s.mem ∧
    (h.edge = 0xFFFF → ∃ p ∈ u.pending, ∃ y, p.ev = .rank7Fault t.core.die y ∧ y.payload = b) ∧
    (h.edge ≠ 0xFFFF → ∃ r y, tfind u.lockSends (t.core.die, s.lockNext) = some r ∧ r.item.load = .barge y ∧ r.dst = t.core ∧
      ctlHandler y.ctl = h.edge % 4096 ∧ ctlPrio y.ctl = 0 ∧ y.payload = b)) ∧
  (∀ (s : State) (t : ThreadId) (x : Cause) (w : BitVec 32), s.stop t ⟨x, none⟩ w = s.draw.endThread t x (Config.freeWord s.free) w)) ∧
  (∀ (s : State) (g : BitVec 4), Runs s (.done g) g → (cur s).buf = [] → (cur s).duties = [] →
    (∀ r ∈ (s.core s.curT.core).relq, r.serial ≠ (cur s).serial) →
    let k := s.core s.curT.core
    let gone := (k.lane.filter (fun d => d.slot = s.curT.slot)).length + (cur s).hold.length
    ∃ u, exec (.done g) s = .next u ∧ u.mem = s.mem ∧ (u.ctx s.curT).status = .free ∧
      (u.core s.curT.core).lane = k.lane.filter (fun d => d.slot ≠ s.curT.slot) ∧
      (u.core s.curT.core).stale = k.stale + BitVec.ofNat 32 gone ∧ (∀ t, t ≠ s.curT → u.ctx t = s.ctx t)) ∧
  (∀ (s : State),
    (∀ w, s.arg = .illegalOp w → exec .illegalOp s = .next (s.stop s.curT ⟨.illegalOp, none⟩ w)) ∧
    (s.arg = .fetchBounds → exec .fetchBounds s = .next (s.endThread s.curT .bounds (cur s).pc 0)))

/-- R87, R183, R189, R193: `reach` with every effect ready to commit. The flags join FSTAT, the effects leave the buffer for the
release queue in program order, and where none is left the next reach opens; memory is untouched until the effects are
performed. That the context runs on only when its effects have left the core is the model's choice (log 67). R196, R199, R203:
`retry` goes back to the reach's entry, and counts. R245, R246: `fence` waits while a released effect of the thread inside its
scope is not performed, `drain` while any is. -/
def Obligations.ReachWords : Prop :=
  (∀ (s : State) (k : BitVec 10) (g : BitVec 4), Runs s (.reach k g) g → (∀ b ∈ (cur s).buf, b.probes = []) →
    s.commitRoom s.curT = true →
    let c := cur s
    let out := (c.buf.filter (fun b => !b.eff.local_)).zipIdx.map (fun b =>
      Released.mk ((s.core s.curT.core).nextEff + b.2) s.curT.slot c.serial (c.gen + 1) c.sid (s.originOf s.curT) b.1)
    ∃ u, exec (.reach k g) s = .next u ∧ u.mem = s.mem ∧ (u.core s.curT.core).relq = (s.core s.curT.core).relq ++ out ∧
      (u.ctx s.curT).buf = [] ∧ (u.ctx s.curT).fstat = c.fstat ||| c.flags ∧ (u.ctx s.curT).flags = 0 ∧
      (u.ctx s.curT).regs = c.regs ∧ (u.ctx s.curT).pw = c.pw ∧ (u.ctx s.curT).pc = nextPc c.pc ∧
      ((s.core s.curT.core).relq = [] → out = [] →
        (u.ctx s.curT).status = .ready ∧ (u.ctx s.curT).rid = k ∧ (u.ctx s.curT).gen = c.gen + 1 ∧
        (u.ctx s.curT).reachcnt = 0 ∧ (u.ctx s.curT).execs = 1 ∧ (u.ctx s.curT).shield = false ∧
        (u.ctx s.curT).poisoned = false) ∧
      (out ≠ [] → (u.ctx s.curT).status = .running (.release (.reach k)))) ∧
  (∀ (s : State) (g : BitVec 4), Runs s (.retry g) g → (cur s).buf = [] →
    let c := cur s
    (c.reachcnt + 1 ≤ c.snap.reachlim → ∃ u, exec (.retry g) s = .next u ∧ u.mem = s.mem ∧ (u.ctx s.curT).status = .ready ∧
      (u.ctx s.curT).regs = c.snap.regs ∧ (u.ctx s.curT).pw = c.snap.pw ∧ (u.ctx s.curT).pc = c.snap.entry ∧
      (u.ctx s.curT).fstat = c.snap.fstat ∧ (u.ctx s.curT).flags = c.snap.flags ∧
      (u.ctx s.curT).reachcnt = c.reachcnt + 1) ∧
    (c.snap.reachlim < c.reachcnt + 1 → ∃ u, exec (.retry g) s = .next u ∧ (u.ctx s.curT).status = .free)) ∧
  (∀ (s : State) (k : BitVec 5) (g : BitVec 4),
    let mine (o : Out) : Bool := o.serial = (cur s).serial
    let held := (s.core s.curT.core).relq.any (fun r => r.serial = (cur s).serial)
    (Runs s (.fence k g) g → exec (.fence k g) s = .next (s.setCtx s.curT
      (if held || (s.core s.curT.core).outs.any (fun o => mine o && o.cls ≠ .engine && inScope s.curT.core k.toNat o.home)
       then { begun s with status := .running (.fence k.toNat) } else begun s))) ∧
    (Runs s (.drain g) g → exec (.drain g) s = .next (s.setCtx s.curT
      (if held || (s.core s.curT.core).outs.any mine then { begun s with status := .running .drain } else begun s))))

/-- R211 to R213, R221, R413: checks 1 to 7 of an address of a thread, for each kind; `win` says whether the instruction takes
window addresses. A local address of an edge core lies in its thread's own block. The place of R413's form and of UNAVAILABLE
and REMOTE_VIOLATION among the checks of a window address is the model's choice (log 155). -/
def Obligations.AddressChecks : Prop :=
  ∀ (s : State) (t : ThreadId) (ea : Word) (al len : Nat) (win : Bool),
    let no (x : Cause) : Except Stop Target := .error ⟨x, ea⟩
    let got := checkAddr s t ea al len win
    let a := ea.toNat
    (∀ d h m, t.core = .hc d h m → a < 2 ^ 62 → got = if 2 ^ 18 ≤ a then no .addrForm else if a % al ≠ 0 then no .align
      else if 2 ^ 18 < a + len then no .bounds else .ok (.here (.tile ⟨d, h, computeTile m⟩ a))) ∧
    (∀ d e, t.core = .ec d e → a < 2 ^ 62 → got = if 2 ^ 18 ≤ a then no .addrForm else if a % al ≠ 0 then no .align
      else if 2 ^ 16 < a + len then no .bounds
      else if a / 4096 ≠ t.slot ∨ (a + len - 1) / 4096 ≠ t.slot then no .access else .ok (.here (.edge d e a))) ∧
    (2 ^ 62 ≤ a → a < 2 ^ 63 →
      let ti : TileId := ⟨a / 2 ^ 40 % 2, a / 2 ^ 34 % 64, a / 2 ^ 30 % 16⟩
      let o := a % 2 ^ 19
      got = if a / 2 ^ 41 % 2 ^ 21 ≠ 0 ∨ a / 2 ^ 19 % 2 ^ 11 ≠ 0 then no .addrForm else if a % al ≠ 0 then no .align
        else if ti.die = 1 ∧ s.part = .hz480 then no .unavailable
        else if (if isCompute ti.tile then 2 ^ 18 else 2 ^ 19) < o + len then no .bounds
        else if s.holds (s.ctx t).sid ⟨ti.die, ti.hive⟩ = false then no .remoteViolation
        else .ok (.here (.tile (s.redirectTile (s.ctx t).sid ti) o))) ∧
    (2 ^ 63 ≤ a → a < 2 ^ 63 + 2 ^ 62 → got = if 2 ^ 63 + 2 ^ 57 ≤ a then no .addrForm else if a % al ≠ 0 then no .align
      else .ok (.global (a % 2 ^ 57))) ∧
    (2 ^ 63 + 2 ^ 62 ≤ a →
      (win = false → got = no .addrForm) ∧
      (win = true → let n := a / 2 ^ 41 % 2 ^ 21
        got = if 144 ≤ n % 256 then no .illegalForm else if a % al ≠ 0 then no .align
          else if n / 256 ≠ s.node / 256 ∧ s.part ≠ .hz960 then no .unavailable
          else if n ∉ (s.job (s.ctx t).sid).members then no .remoteViolation else .ok (.window ea)))

/-- R189, R222 to R225: loads of local addresses complete in the pipeline. They read the bytes at the address, lowest first, the
reach's own stores over them; nothing but the destination changes, memory included. A check that fails ends the thread. R189:
a load sees each byte as the newest own buffered store that covers it left it, and the home's byte where none does. That two
addresses name the same byte where their keys agree is the model's reading (log 18). R126, R222, R223: a load of another
core's memory or of a global address sends its request and puts the thread in a load wait with a need of one; no register and
no byte of memory changes. -/
def Obligations.LoadsOfAThread : Prop :=
  (∀ (s : State) (a b d e : BitVec 5) (k : BitVec 10) (g : BitVec 4) (x y : Word), Reads s a x → Reads s b y →
    let done (i : Instr) (ea : Word) (n : Nat) : Prop :=
      (∀ l, checkAddr s s.curT ea n n true = .ok (.here l) → ea.toNat < 2 ^ 62 → s.poisoned l n = false →
        exec i s = .next (s.setCtx s.curT
          ((begun s).wr d (BitVec.ofNat 64 (natOf (forward s s.curT ea (s.bytes l n))))))) ∧
      (∀ q, checkAddr s s.curT ea n n true = .error q → exec i s = .next (s.stop s.curT q (encode i)))
    let off : Word := k.signExtend 64
    (Runs s (.ldB a k d g) g → done (.ldB a k d g) (x + off) 1) ∧
    (Runs s (.ldH a k d g) g → done (.ldH a k d g) (x + off * 2) 2) ∧
    (Runs s (.ldW a k d g) g → done (.ldW a k d g) (x + off * 4) 4) ∧
    (Runs s (.ldD a k d g) g → done (.ldD a k d g) (x + off * 8) 8) ∧
    (Runs s (.ldx a b d e g) g → done (.ldx a b d e g) (x + y) (2 ^ e.toNat)) ∧
    (Runs s (.ldV a d e g) g → ∀ o, s.curT.core.isHandler = true → x.toNat = o → o % 8 = 0 → o + 8 * e.toNat ≤ 2 ^ 18 →
      ∀ t, s.curT.core.tile? = some t → s.poisoned (.tile t o) (8 * e.toNat) = false →
        let bs := forward s s.curT x (s.bytes (.tile t o) (8 * e.toNat))
        exec (.ldV a d e g) s = .next (s.setCtx s.curT { begun s with
          regs := (begun s).regs.setMany d.toNat ((List.range e.toNat).map (fun i => BitVec.ofNat 64 (recN bs (8 * i) 8))) }))) ∧
  (∀ (s : State) (t : ThreadId) (a : Word) (bs : List Byte) (i : Nat), i < bs.length →
    let k := fwdKey s t a + i
    let covers (e : Eff) : Prop := ∃ b ws, e = .store b ws ∧ fwdKey s t b ≤ k ∧ k < fwdKey s t b + ws.length
    ((∀ b ∈ (s.ctx t).buf, ¬ covers b.eff) → (forward s t a bs)[i]? = bs[i]?) ∧
    (∀ l b r x ws, (s.ctx t).buf = l ++ b :: r → b.eff = .store x ws → covers b.eff → (∀ c ∈ r, ¬ covers c.eff) →
      (forward s t a bs)[i]? = ws[k - fwdKey s t x]?)) ∧
  (∀ (s : State) (a b d e : BitVec 5) (k : BitVec 10) (g : BitVec 4) (x y : Word), Reads s a x → Reads s b y →
    let waits (i : Instr) (ea : Word) (n : Nat) : Prop :=
      let c : Ctx := { begun s with status := .loadWait, loadWait := some { kind := .scalar d n, addr := ea, pieces := [⟨ea, n, none⟩] } }
      let who : Asker := .load s.curT c.awaits 0
      (∀ l, checkAddr s s.curT ea n n true = .ok (.here l) → 2 ^ 62 ≤ ea.toNat →
        exec i s = .next ((s.setCtx s.curT c).post (.access s.curT.core c.serial l.home)
          (.loadPerform { asker := who, sid := c.sid, loc := l, addr := ea, op := .load n }))) ∧
      (∀ va, checkAddr s s.curT ea n n true = .ok (.global va) →
        exec i s = .next ((s.setCtx s.curT c).post .none (.translation (stationOf s.curT.core) ⟨who, c.sid, va, .read⟩)))
    let off : Word := k.signExtend 64
    (Runs s (.ldB a k d g) g → waits (.ldB a k d g) (x + off) 1) ∧ (Runs s (.ldH a k d g) g → waits (.ldH a k d g) (x + off * 2) 2) ∧
    (Runs s (.ldW a k d g) g → waits (.ldW a k d g) (x + off * 4) 4) ∧
    (Runs s (.ldD a k d g) g → waits (.ldD a k d g) (x + off * 8) 8) ∧
    (Runs s (.ldx a b d e g) g → waits (.ldx a b d e g) (x + y) (2 ^ e.toNat)))

/-- R189, R190, R223, R224, R226: a store is buffered with the data its registers hold now, and nothing else changes: no byte of
memory does until the effect is performed. A check that fails ends the thread. R191, R227: an atomic is buffered as a closing
effect with its operands as they are now. A check that fails ends the thread. -/
def Obligations.StoresAndAtomicsAreBuffered : Prop :=
  (∀ (s : State) (a b d e : BitVec 5) (k : BitVec 10) (g : BitVec 4) (x y v : Word), Reads s a x → Reads s b y → Reads s d v →
    Room s →
    let low (n : Nat) : List Byte := (List.range n).map (fun i => BitVec.ofNat 8 (v.toNat / 2 ^ (8 * i)))
    let done (i : Instr) (ea : Word) (n : Nat) : Prop :=
      (∀ tg, checkAddr s s.curT ea n n true = .ok tg → exec i s = .next (buffering s (.store ea (low n)) (probesOf tg n .write))) ∧
      (∀ q, checkAddr s s.curT ea n n true = .error q → exec i s = .next (s.stop s.curT q (encode i)))
    let off : Word := k.signExtend 64
    (Runs s (.stB a k d g) g → done (.stB a k d g) (x + off) 1) ∧ (Runs s (.stH a k d g) g → done (.stH a k d g) (x + off * 2) 2) ∧
    (Runs s (.stW a k d g) g → done (.stW a k d g) (x + off * 4) 4) ∧
    (Runs s (.stD a k d g) g → done (.stD a k d g) (x + off * 8) 8) ∧
    (Runs s (.stx a b d e g) g → done (.stx a b d e g) (x + y) (2 ^ e.toNat)) ∧
    (Runs s (.stV a d e g) g → ∀ tgs tg, checkRange s s.curT x e.toNat = .ok tgs → tgs.head? = some tg →
      exec (.stV a d e g) s = .next (buffering s
        (.store x ((List.range e.toNat).flatMap (fun i => bytesOf 8 ((cur s).regs.get (d.toNat + i)).toNat)))
        (probesOf tg (8 * e.toNat) .write))) ∧
    (Runs s (.stV a d e g) g → ∀ q, checkRange s s.curT x e.toNat = .error q → exec (.stV a d e g) s = .next (s.stop s.curT q (encode (.stV a d e g))))) ∧
  (∀ (s : State) (a b c d : BitVec 5) (g : BitVec 4) (x y z : Word), Reads s a x → Reads s b y → Reads s c z → Room s →
    let done (i : Instr) (op : AtomOp) (n : Nat) (w : Word) : Prop :=
      (∀ tg, checkAddr s s.curT x n n false = .ok tg → exec i s = .next (buffering s (.atom op x y w d) (probesOf tg n .write))) ∧
      (∀ q, checkAddr s s.curT x n n false = .error q → exec i s = .next (s.stop s.curT q (encode i)))
    (Runs s (.atomAdd a b d g) g → done (.atomAdd a b d g) .add 8 0) ∧ (Runs s (.atomAnd a b d g) g → done (.atomAnd a b d g) .and 8 0) ∧
    (Runs s (.atomOr a b d g) g → done (.atomOr a b d g) .or 8 0) ∧ (Runs s (.atomXor a b d g) g → done (.atomXor a b d g) .xor 8 0) ∧
    (Runs s (.atomMax a b d g) g → done (.atomMax a b d g) .max 8 0) ∧ (Runs s (.atomMin a b d g) g → done (.atomMin a b d g) .min 8 0) ∧
    (Runs s (.atomXchg a b d g) g → done (.atomXchg a b d g) .xchg 8 0) ∧
    (Runs s (.atomFadd a b d g) g → done (.atomFadd a b d g) .fadd 4 0) ∧
    (Runs s (.atomBadd a b d g) g → done (.atomBadd a b d g) .badd 8 0) ∧
    (Runs s (.atomCas a b d c g) g → done (.atomCas a b d c g) .cas 8 z))

/-- R229 to R233: a queue operation on a local queue reserves at once. Where the queue has room, or an entry no other pop has
reserved, the predicate is set, the effect is buffered, a pop's value is written, and the header's reservation count is one
higher; else the predicate is cleared, and no byte of memory changes. -/
def Obligations.LocalQueues : Prop :=
  ∀ (s : State) (a b d e : BitVec 5) (g : BitVec 4) (x y : Word) (l : Loc), Reads s a x → Reads s b y → Room s →
    checkAddr s s.curT x 32 32 false = .ok (.here l) → x.toNat < 2 ^ 62 → s.poisoned l 32 = false → qcheck l (s.qhead l) = none →
    let q := s.qhead l
    let push (i : Instr) (scope : Nat) : Prop :=
      (q.used + q.pushres < q.cap → exec i s = .next ((s.setQhead l { q with pushres := q.pushres + 1 }).setCtx s.curT
        { (begun s).setPred d.toNat true with buf := (begun s).buf ++ [⟨.push x y scope l, []⟩], loadWait := none })) ∧
      (q.cap ≤ q.used + q.pushres → exec i s = .next (s.setCtx s.curT { (begun s).setPred d.toNat false with loadWait := none }))
    let pop (i : Instr) : Prop :=
      (let r := l.plus (32 + 8 * (q.head % q.cap))
       q.popres = 0 → 0 < q.used → s.poisoned r 8 = false →
        exec i s = .next ((s.setQhead l { q with popres := 1 }).setCtx s.curT
          { ((begun s).setPred d.toNat true).wr e (BitVec.ofNat 64 (natOf (s.bytes r 8))) with
            buf := (begun s).buf ++ [⟨.pop x l, []⟩], loadWait := none })) ∧
      (q.popres ≠ 0 ∨ q.used = 0 → exec i s = .next (s.setCtx s.curT { (begun s).setPred d.toNat false with loadWait := none }))
    (Runs s (.pushCore a b d g) g → push (.pushCore a b d g) 0) ∧ (Runs s (.pushHive a b d g) g → push (.pushHive a b d g) 1) ∧
    (Runs s (.pushDie a b d g) g → push (.pushDie a b d g) 2) ∧ (Runs s (.pushDev a b d g) g → push (.pushDev a b d g) 3) ∧
    (Runs s (.pushSys a b d g) g → push (.pushSys a b d g) 4) ∧
    (Runs s (.popCore a d e g) g → pop (.popCore a d e g)) ∧ (Runs s (.popHive a d e g) g → pop (.popHive a d e g)) ∧
    (Runs s (.popDie a d e g) g → pop (.popDie a d e g)) ∧ (Runs s (.popDev a d e g) g → pop (.popDev a d e g)) ∧
    (Runs s (.popSys a d e g) g → pop (.popSys a d e g))

/-- R189, R193, R231: no word of a thread but push and pop writes memory when it executes: a queue reservation writes its header;
what a reach stores is performed after its commit. Every word keeps the memory's form. -/
def Obligations.WordsLeaveMemory : Prop :=
  ∀ (s t : State) (i : Instr) (g : BitVec 4), threadTag i = some g → exec i s = .next t →
    (Memory.wf s.mem → Memory.wf t.mem) ∧
    ((∀ a b d, i ≠ .pushCore a b d g ∧ i ≠ .pushHive a b d g ∧ i ≠ .pushDie a b d g ∧ i ≠ .pushDev a b d g ∧
      i ≠ .pushSys a b d g ∧ i ≠ .popCore a b d g ∧ i ≠ .popHive a b d g ∧ i ≠ .popDie a b d g ∧ i ≠ .popDev a b d g ∧
      i ≠ .popSys a b d g) →
    t.mem = s.mem ∧ t.poison = s.poison ∧ ∀ l : Loc, t.byte l = s.byte l)

/-- R106, R107, R146: `send` buffers the barge its registers hold, and `count` an arrival; a route to a global address waits for
its translation. Nothing leaves the core before the commit. R131, R133, R134: waiting for deposits and completions. With an
effect in the buffer `park` and `waitm` raise REACH_ILLEGAL; `getm` takes the oldest completion no reach has reserved. R135,
R138, R142, R145: `spawn` and `cset` reserve and set a predicate, `join` buffers a closing effect, `migr` commits and waits to
ship to the home of its address. -/
def Obligations.MessageWords : Prop :=
  (∀ (s : State) (a b d e : BitVec 5) (k : BitVec 10) (g : BitVec 4) (r w : Word), Reads s a r → Reads s b w → Room s →
    let x : Barge :=
      { route := r, ctl := withCount w e.toNat, payload := (List.range e.toNat).map (fun i => (cur s).regs.get (d.toNat + i)),
        src := identWord s.node s.curT.core s.curT.slot (cur s).sid, sid := (cur s).sid, origin := some (s.originOf s.curT) }
    let to_ := checkBarge s s.curT.core s.curT.slot (cur s).sid r x.ctl
    (Runs s (.send a b d e g) g →
      (∀ q, to_ = .ok q → (∀ va, q ≠ .global va) → exec (.send a b d e g) s = .next (buffering s (.send x q) [])) ∧
      (∀ va, to_ = .ok (.global va) → exec (.send a b d e g) s = .next
        ((s.setCtx s.curT { begun s with status := .running (.route x va) }).post .none
          (.translation (stationOf s.curT.core) ⟨.route s.curT (cur s).epoch, (cur s).sid, va, .route⟩))) ∧
      (∀ q, to_ = .error q → exec (.send a b d e g) s = .next (s.stop s.curT q (encode (.send a b d e g))))) ∧
    (Runs s (.count a k g) g → ∀ q, countDest s s.curT a r = .ok q →
      exec (.count a k g) s = .next (buffering s (.count q (k.toNat % 64) (k.toNat / 64 % 2)) []))) ∧
  (∀ (s : State) (k : BitVec 10) (d e : BitVec 5) (g : BitVec 4),
    let x := s.core s.curT.core
    (Runs s (.park k g) g →
      ((cur s).buf = [] → exec (.park k g) s = .next (s.setCtx s.curT { begun s with status := .parkWait k.toNat })) ∧
      ((cur s).buf ≠ [] → exec (.park k g) s = .next (s.stop s.curT ⟨.reachIllegal, none⟩ (encode (.park k g))))) ∧
    (Runs s (.waitm g) g →
      ((cur s).buf = [] → x.comps ≠ [] → exec (.waitm g) s = .next (s.setCtx s.curT (begun s))) ∧
      ((cur s).buf = [] → x.comps = [] → exec (.waitm g) s = .next (s.setCtx s.curT { begun s with status := .mwait })) ∧
      ((cur s).buf ≠ [] → exec (.waitm g) s = .next (s.stop s.curT ⟨.reachIllegal, none⟩ (encode (.waitm g))))) ∧
    (Runs s (.getm d e g) g →
      (∀ l y r, x.comps = l ++ ⟨y, none⟩ :: r → (∀ c ∈ l, c.by_ ≠ none) → y.poison = false →
        exec (.getm d e g) s = .next ((s.setCore s.curT.core { x with comps := l ++ ⟨y, some s.curT.slot⟩ :: r }).setCtx s.curT
          ({ begun s with regs := ((begun s).regs.set d.toNat y.w0).set (d.toNat + 1) y.w1 }.setPred e.toNat true))) ∧
      ((∀ c ∈ x.comps, c.by_ ≠ none) →
        exec (.getm d e g) s = .next (s.setCtx s.curT ((begun s).setPred e.toNat false))))) ∧
  (∀ (s : State) (a b d e : BitVec 5) (g : BitVec 4) (v : Word), Reads s a v → Room s →
    let x := s.core s.curT.core
    let y : Barge :=
      { route := coreWord s.node s.curT.core, ctl := withCount v e.toNat,
        payload := (List.range e.toNat).map (fun i => (cur s).regs.get (b.toNat + i)),
        src := identWord s.node s.curT.core s.curT.slot (cur s).sid, sid := (cur s).sid, origin := some (s.originOf s.curT) }
    (Runs s (.spawn a b d e g) g → ctlCont v = false → ctlForm s (cur s).sid 0 false y.ctl = true →
      (s.curT.core.isHandler = true → x.deque.length < 64 → exec (.spawn a b d e g) s =
        .next ((s.setCore s.curT.core { x with deque := x.deque ++ [⟨y, some s.curT.slot⟩] }).setCtx s.curT
          { (begun s).setPred d.toNat true with buf := (begun s).buf ++ [⟨.spawn y, []⟩] })) ∧
      (s.curT.core.isHandler = false ∨ 64 ≤ x.deque.length → exec (.spawn a b d e g) s = .next (s.setCtx s.curT ((begun s).setPred d.toNat false)))) ∧
    (Runs s (.cset a d g) g → csetForm v = true →
      let i := v.toNat % 64
      let n := tget x.counters {} i
      (s.curT.core.isHandler = true → n.count = 0 → n.next = 0 → n.by_ = none → exec (.cset a d g) s =
        .next ((s.setCore s.curT.core { x with counters := tput x.counters i { n with by_ := some s.curT.slot } }).setCtx s.curT
          { (begun s).setPred d.toNat true with buf := (begun s).buf ++ [⟨.cset i v, []⟩] })) ∧
      (s.curT.core.isHandler = false ∨ n.count ≠ 0 ∨ n.next ≠ 0 ∨ n.by_ ≠ none → exec (.cset a d g) s = .next (s.setCtx s.curT ((begun s).setPred d.toNat false)))) ∧
    (Runs s (.join a d g) g → ∀ tg, checkAddr s s.curT v 16 16 false = .ok tg →
      exec (.join a d g) s = .next (buffering s (.join v d) (probesOf tg 16 .write))) ∧
    (Runs s (.migr a g) g → (cur s).buf = [] → (cur s).outst + (cur s).hold.length < 4 → (∀ r ∈ x.relq, r.serial ≠ (cur s).serial) →
      ∀ c, addrDest s s.curT.core s.curT.slot (cur s).sid v = .ok (.core c) → ∃ u, exec (.migr a g) s = .next u ∧ u.mem = s.mem ∧
        (u.ctx s.curT).status = .running .ship ∧ (u.ctx s.curT).shipTo = some c ∧ (u.ctx s.curT).regs = (cur s).regs ∧
        (u.ctx s.curT).pc = nextPc (cur s).pc ∧ (u.ctx s.curT).fstat = (cur s).fstat ||| (cur s).flags))

/-- R365, R379, R380, R382, R383: hauls. A descriptor that passes its checks is buffered, its tag RESERVED and the predicate set;
where the tag is not FREE the predicate is cleared. R347, R348, R356 to R361: the joint array. An edge core has none, and each
of these raises UNAVAILABLE there. -/
def Obligations.EngineWords : Prop :=
  (∀ (s : State) (a d : BitVec 5) (g : BitVec 4) (v : Word), Reads s a v → s.curT.core.isHandler = true →
    let haul (i : Instr) (x : Bool) : Prop := ∀ bs, readRecord s s.curT v 64 512 = .ok bs → bs ≠ [] →
      (Desc.of bs).check s (cur s).sid x = .ok () →
      let k := (s.curT.core, (Desc.of bs).tag)
      (tget s.tags .free k = .free → Room s → exec i s = .next (({ s with tags := tput s.tags k .reserved } : State).setCtx s.curT
        { (begun s).setPred d.toNat true with buf := (begun s).buf ++ [⟨.haul x (Desc.of bs).tag bs (encode i), []⟩] })) ∧
      (tget s.tags .free k ≠ .free → exec i s = .next (s.setCtx s.curT ((begun s).setPred d.toNat false)))
    (Runs s (.haul a d g) g → haul (.haul a d g) false) ∧ (Runs s (.haulX a d g) g → haul (.haulX a d g) true) ∧
    (Runs s (.hcancel a g) g → v.toNat < 2048 → Room s → exec (.hcancel a g) s = .next (buffering s (.hcancel v.toNat) [])) ∧
    (Runs s (.hslot a g) g → ringCheck s (cur s).sid v true = .ok () → Room s →
      exec (.hslot a g) s = .next (buffering s (.hslot v) [])) ∧
    (Runs s (.hstat a d g) g → v.toNat < 2048 → ∃ x : Word, exec (.hstat a d g) s = .next (s.setCtx s.curT ((begun s).wr d x)) ∧
      x.toNat % 8 = (match tget s.tags .free (s.curT.core, v.toNat) with
        | .free => 0 | .reserved => 1 | .queued => 2
        | .running => if ((tfind s.hauls (s.curT.core, v.toNat)).map (fun h => h.legs.any Leg.stalled)).getD false then 4 else 3
        | .stopped => 5 | .complete => 6))) ∧
  (∀ (s : State) (a d e : BitVec 5) (k : BitVec 10) (g : BitVec 4) (v : Word), Reads s a v →
    let few := ((cur s).buf.filter (fun b => b.eff.joint)).length < 16
    let gone (i : Instr) : Prop := s.curT.core.isHandler = false → exec i s = .next (s.stop s.curT ⟨.unavailable, none⟩ (encode i))
    (s.curT.core.isHandler = true →
      (Runs s (.gang a g) g → ∀ r, readRecord s s.curT v 64 64 = .ok r → r ≠ [] →
        (OpRec.of r).check r s.part.caps s.curT.core.member = none → Room s → few →
        exec (.gang a g) s = .next (buffering s (.gang r) [])) ∧
      (Runs s (.jzero e g) g → Room s → few → exec (.jzero e g) s = .next (buffering s (.jzero e.toNat) [])) ∧
      (Runs s (.jdrain a e g) g → ∀ r, readRecord s s.curT v 32 32 = .ok r → r ≠ [] → (DrainRec.of r).form r = true →
        (DrainRec.of r).target = 0 → Room s → few → exec (.jdrain a e g) s = .next (buffering s (.jdrain e.toNat r) [])) ∧
      (Runs s (.jdrainO a k e g) g → Room s → few →
        exec (.jdrainO a k e g) s = .next (buffering s (.jdrainO e.toNat a.toNat k.toNat) [])) ∧
      (∀ h, s.curT.core.hive? = some h →
        (Runs s (.jstat d e g) g →
          exec (.jstat d e g) s = .next (s.setCtx s.curT ((begun s).wr d (jstatWord s h s.curT.core.member e.toNat)))) ∧
        (Runs s (.jred d g) g → let j := s.joint h
          exec (.jred d g) s = .next (s.setCtx s.curT ((begun s).wr d (fld j.cmpSeq 0 ||| fld j.cmpGroup 16 ||| fld j.cmpBank 18 |||
            fld (if j.cmpValid then 1 else 0) 19 ||| fld j.cmpCount.toNat 32)))))) ∧
    (Runs s (.jzero e g) g → gone (.jzero e g)) ∧ (Runs s (.jdrainO a k e g) g → gone (.jdrainO a k e g)) ∧
    (Runs s (.jstat d e g) g → gone (.jstat d e g)) ∧ (Runs s (.jred d g) g → gone (.jred d g)) ∧
    (Runs s (.gang a g) g → gone (.gang a g)) ∧ (Runs s (.jdrain a e g) g → gone (.jdrain a e g)))

/-- R389, R391, R393, R396, R398, R401, R407, R408, R412: graph operations. `gload` asks its lockkeeper and waits; the others are
buffered, a save with the pages of its area as they are now and a restore with that of its header, which is the model's choice
(log 150); `gquiet` reads. R424, R425, R428, R429, R432, R439, R449, R454: windows, remote operations and groups. `wopen` and
`cjoin` ask for a reservation and wait; `rget`, `rput` and `ratom` take the lowest free slot of the core, and clear the
predicate where none is free; `nstat` and `cstat` read. -/
def Obligations.GraphWords : Prop :=
  (∀ (s : State) (a b d : BitVec 5) (g : BitVec 4) (v w : Word), Reads s a v → Reads s b w →
    let sid := (cur s).sid
    let op (i : Instr) (n : Nat) (o : Option Word) (x : Word) : Eff := .graph
      { op := n, place := v, other := o, arg := x, thread := s.curT, serial := (cur s).serial, origin := s.originOf s.curT,
        ask := (cur s).awaits, word := encode i }
    (placeCheck s sid v = .ok () →
      (Runs s (.gload a d g) g → recN (s.image sid (v.toNat % 2 ^ 14)) 0x16 2 = 0 → ∃ u, exec (.gload a d g) s = .next u ∧
        u.mem = s.mem ∧ (u.ctx s.curT).status = .loadWait ∧ (∃ p ∈ u.pending, ∃ y, p.ev = .graphReserve y ∧ y.op = 0xA8 ∧ y.place = v)) ∧
      (Room s →
        (Runs s (.gswap a b g) g →
          (b = 10 → exec (.gswap a b g) s = .next (buffering s (op (.gswap a b g) 0xA9 none 0) [])) ∧
          (b ≠ 10 → placeCheck s sid w = .ok () → exec (.gswap a b g) s = .next (buffering s (op (.gswap a b g) 0xA9 (some w) 0) []))) ∧
        (Runs s (.gmark a b g) g → w.toNat < 65536 → exec (.gmark a b g) s = .next (buffering s (op (.gmark a b g) 0xAA none w) [])) ∧
        (Runs s (.gsave a b g) g → areaCheck w = .ok () → exec (.gsave a b g) s = .next (buffering s (op (.gsave a b g) 0xAD none w) (s.areaProbes sid v w true))) ∧
        (Runs s (.grest a b g) g →
          (b = 10 → exec (.grest a b g) s = .next (buffering s (op (.grest a b g) 0xAE none 0) [])) ∧
          (b ≠ 10 → areaCheck w = .ok () → exec (.grest a b g) s = .next (buffering s (op (.grest a b g) 0xAE (some w) 0) (s.areaProbes sid v w false)))))) ∧
    (Runs s (.gctx a b g) g → ∀ t, checkAddr s s.curT v 1 1 false = .ok (.here (.tile t 0)) → isCompute t.tile = true →
      2 ^ 62 ≤ v.toNat → v.toNat < 2 ^ 63 → w.toNat < 2 ^ 33 → Room s → exec (.gctx a b g) s = .next (buffering s (.gctx t w) [])) ∧
    (Runs s (.gquiet a d g) g → v.toNat % 16 = 2 → v.toNat < 2 ^ 27 → placeCheck s sid (BitVec.ofNat 64 (v.toNat / 16)) = .ok () →
      exec (.gquiet a d g) s = .next (s.setCtx s.curT
        ((begun s).wr d (((tget s.snaps [] (v.toNat / 16 / 2 ^ 22 % 2))[0]?).getD 0))))) ∧
  (∀ (s : State) (a d : BitVec 5) (g : BitVec 4) (v : Word), Reads s a v →
    let asks (i : Instr) (e : Ev) : Prop := ∃ u, exec i s = .next u ∧ u.mem = s.mem ∧ (u.ctx s.curT).status = .loadWait ∧
      u.pending = s.pending ++ [⟨.none, s.cycle, e⟩]
    (Runs s (.wopen a d g) g → ∀ r, readRecord s s.curT v 32 32 = .ok r → r ≠ [] → winForm r = true →
      asks (.wopen a d g) (.windowReserve
        { id := recN r 0x10 1, release := false,
          args := [BitVec.ofNat 64 (bitsN (recW r 0) 56 0), recW r 8, BitVec.ofNat 64 (recN r 0x11 1), BitVec.ofNat 64 (recN r 0x14 4)],
          thread := s.curT, serial := (cur s).serial, sid := (cur s).sid, origin := s.originOf s.curT, ask := (cur s).awaits })) ∧
    (Runs s (.wclose a g) g → v.toNat < 256 → Room s → exec (.wclose a g) s = .next (buffering s (.wclose
      { id := v.toNat, release := true, args := [], thread := s.curT, serial := (cur s).serial, sid := (cur s).sid,
        origin := s.originOf s.curT }) [])) ∧
    (∀ r n ps, readRecord s s.curT v 64 64 = .ok r → r ≠ [] → s.freeSlot s.curT.core = some n → Room s →
      let take (i : Instr) (op : Nat) (e : Eff) : Prop := remoteCheck s s.curT op r v = .ok ps → ∃ u, exec i s = .next u ∧
        u.mem = s.mem ∧ (u.ctx s.curT).pred d.toNat = true ∧ (u.ctx s.curT).buf = (cur s).buf ++ [⟨e, ps⟩] ∧
        ∃ o, tfind u.rslots (s.curT.core, n) = some o ∧ o.op = op ∧ o.desc = r
      (Runs s (.rget a d g) g → take (.rget a d g) 0xB2 (.rget n r)) ∧ (Runs s (.rput a d g) g → take (.rput a d g) 0xB3 (.rput n r)) ∧
      (Runs s (.ratom a d g) g → take (.ratom a d g) 0xB4 (.ratom n r))) ∧
    (∀ r ps, readRecord s s.curT v 64 64 = .ok r → r ≠ [] → s.freeSlot s.curT.core = none →
      let no (i : Instr) (op : Nat) : Prop := remoteCheck s s.curT op r v = .ok ps →
        exec i s = .next (s.setCtx s.curT ((begun s).setPred d.toNat false))
      (Runs s (.rget a d g) g → no (.rget a d g) 0xB2) ∧ (Runs s (.rput a d g) g → no (.rput a d g) 0xB3) ∧
      (Runs s (.ratom a d g) g → no (.ratom a d g) 0xB4)) ∧
    (Runs s (.nstat a d g) g → v = 1 → exec (.nstat a d g) s = .next (s.setCtx s.curT ((begun s).wr d
      (fld (256 - (s.rslots.filter (fun e => e.1.1 = s.curT.core)).length) 0 ||| fld s.once.length 16 |||
        fld (tget s.viols 0 (cur s).sid).toNat 32)))) ∧
    (Runs s (.cjoin a d g) g → ∀ r, readRecord s s.curT v 64 64 = .ok r → r ≠ [] →
      let w := (List.range 8).map (fun i => recW r (8 * i))
      cjoinForm w = true → placeCheck s (cur s).sid (cPlace w) = .ok () →
      asks (.cjoin a d g) (.cjoinReserve
        { die := s.curT.core.die, release := false, args := w, thread := s.curT, serial := (cur s).serial, sid := (cur s).sid,
          origin := s.originOf s.curT, ask := (cur s).awaits })) ∧
    (Runs s (.cstat a d g) g → v.toNat < 2 ^ 16 → v.toNat % 16 = 0 →
      (s.groups.filter (fun e => e.1.1 = (cur s).sid && e.1.2.1 = v.toNat / 16)) = [] →
      exec (.cstat a d g) s = .next (s.setCtx s.curT ((begun s).wr d 0))))

/-- R40, R41, R42, R287: what an element rule's source ports read. acc and scratch give an unpoisoned token (log 72). R40, R41,
R45: where a rule's result goes under each tag action, and what a write to each port does to the plane. An output channel's
slot holds its token until it is acknowledged. acc and scratch keep the data bits only (R287), so that poison ends there (log
72). R291, R292, R464: a word of a rule that is not chosen, or not ready, changes nothing. -/
def Obligations.FiringOfARule : Prop :=
  (∀ (p : Plane) (n : Nat) (f : NFmt) (q : BitVec 5),
    (∀ l, q.toNat ≤ 7 → tfind p.latch q.toNat = some l → p.read n f q = (l.tok, p.sp)) ∧
    (q.toNat = 8 → p.read n f q = ({ data := p.acc }, p.sp)) ∧
    (q.toNat = 9 → p.read n f q = ({}, p.sp)) ∧
    (q.toNat = 10 → p.read n f q = ({ data := tget p.scr 0 p.sp }, (p.sp + 1) % 64)) ∧
    (q.toNat = 11 → p.read n f q = ({ data := BitVec.ofNat 128 p.sp }, p.sp)) ∧
    (q.toNat = 12 → p.read n f q = ({ data := BitVec.ofNat 128 n }, p.sp)) ∧
    (q.toNat = 13 → p.read n f q = ({ data := p.q.setWidth 128 }, p.sp)) ∧
    (∀ k, 16 ≤ q.toNat → q.toNat ≤ 23 → p.lits[q.toNat - 16]? = some k →
      (f = .int ⟨64, true⟩ → p.read n f q = ({ data := k.signExtend 64 ++ k.signExtend 64 }, p.sp)) ∧
      (∀ i, f ∈ [.flt fp32, .flt bf16, .flt fp16, .flt e4m3, .flt e5m2, .int ⟨32, true⟩, .int ⟨16, true⟩, .int ⟨8, true⟩,
          .int ⟨8, false⟩] → i < f.lanes → lane f (p.read n f q).1.data i = k.toNat % 2 ^ f.bits)) ∧
    (∀ q' : BitVec 5, (p.two n f (some q) (some q')).2.1 = ({ p with sp := (p.read n f q).2 }.read n f q').1)) ∧
  ((∀ (w : BitVec 32) (x y : Token), tagWrites w x y =
    (if wT w = 1 then [(wD w, x), (wE w, y)] else if wT w = 2 then [(wE w, y)]
     else if wT w = 3 ∨ 8 ≤ wT w ∧ wT w ≤ 11 then [] else [(wD w, x)])) ∧
  (∀ (w : BitVec 32) (b : Bool) (p : Plane) (n : Nat), n < 4 → (qAction w b p).q.getLsbD n =
    (if wT w = 4 + n ∨ wT w = 8 + n then b else if wT w = 12 + n then true else p.q.getLsbD n)) ∧
  (∀ (s : State) (d : PlaneId) (q : BitVec 5) (v : Token), let p := s.plane d; let u := s.putPort d q v
    (q.toNat = 8 → u.plane d = { p with acc := v.data }) ∧
    (q.toNat = 9 → u.plane d = p) ∧
    (q.toNat = 10 → u.plane d = { p with scr := tput p.scr p.sp v.data, sp := (p.sp + 1) % 64 }) ∧
    (q.toNat = 11 → u.plane d = { p with sp := v.data.toNat % 64 }) ∧
    (q.toNat = 13 → u.plane d = { p with q := v.data.setWidth 4 }) ∧
    (q.toNat ≤ 7 → tfind p.dst q.toNat = none → tfind (u.plane d).outs q.toNat = some v) ∧
    (q.toNat ≤ 7 → ∀ r c, tfind p.dst q.toNat = some (.arc r c) → r.elem.tile ≠ d.elem.tile →
      tfind (u.plane d).outs q.toNat = some v ∧ u.pending = s.pending ++ [⟨.arc ⟨r, c⟩, s.cycle + 4, .tokenArrival ⟨r, c⟩ v⟩]) ∧
    (q.toNat ≤ 7 → ∀ r c, tfind p.dst q.toNat = some (.arc r c) → r.elem.tile = d.elem.tile → r ≠ d → v.marker = false →
      (s.plane r).isects = [] →
      tfind (u.plane d).outs q.toNat = some v ∧ tfind (u.plane r).latch c = some ⟨v, s.cycle + 1⟩))) ∧
  (∀ (s : State) (i : Instr), ruleWord i = true → (∀ t, ¬ Fires s i t) → exec i s = .next s)

/-- R178, R181, R296, R297, R304 to R306: the stream instructions that give one of their sources, a zero token or a status. R298
to R303: the stream instructions that choose where a token goes, which token is taken, or how often. -/
def Obligations.StreamRules : Prop :=
  (∀ (s : State) (t : BitVec 32) (a b d e : BitVec 5) (k : BitVec 10) (g : BitVec 4),
    let z1 := sources s t (some a) none
    let p1 : Plane := { mine s with sp := z1.2.2 }
    let z2 := sources s t (some a) (some b)
    (Fires s (.nopElement d e g) t → exec (.nopElement d e g) s = .next (yields s (.nopElement d e g) t (mine s) {})) ∧
    (Fires s (.statElement k d g) t → exec (.statElement k d g) s = .next
      (if k = 2 then yields s (.statElement k d g) t (mine s) { data := (mine s).g.setWidth 128 }
       else if k = 1 then yields s (.statElement k d g) t { mine s with flags := 0 } { data := (mine s).flags.setWidth 128 }
       else yields s (.statElement k d g) t (mine s) { data := (mine s).flags.setWidth 128 })) ∧
    (Fires s (.mov a d e g) t → exec (.mov a d e g) s = .next (yields s (.mov a d e g) t p1 z1.1)) ∧
    (Fires s (.drop a g) t → exec (.drop a g) s = .next (yields s (.drop a g) t p1 z1.1)) ∧
    (Fires s (.eos a d e g) t → exec (.eos a d e g) s = .next (yields s (.eos a d e g) t p1 { z1.1 with kind := .eos })) ∧
    (Fires s (.ctl a d e g) t → exec (.ctl a d e g) s = .next (yields s (.ctl a d e g) t p1 { z1.1 with kind := .ctrl })) ∧
    (Fires s (.sync a d e g) t → exec (.sync a d e g) s = .next (yields s (.sync a d e g) t p1 { z1.1 with kind := .data })) ∧
    (Fires s (.pick a b d e g) t → exec (.pick a b d e g) s = .next (yields s (.pick a b d e g) t { mine s with sp := z2.2.2 }
      { (if (mine s).q.getLsbD e.toNat then z2.1 else z2.2.1) with poison := z2.1.poison || z2.2.1.poison }))) ∧
  (∀ (s : State) (t : BitVec 32) (a b d e : BitVec 5) (k : BitVec 10) (g : BitVec 4),
    let r := s.curR
    let f := trFmt t
    let z := sources s t (some a) (some b)
    let v : Token := { z.1 with poison := z.1.poison || z.2.1.poison }
    let s2 := (counted s).setPlane r.plane { mine s with sp := z.2.2 }
    let pops := maskList (trPop t)
    (Fires s (.steer a b d e) t → exec (.steer a b d e) s = .next
      (landed s2 r (.steer a b d e) t [(if laneTest f z.2.1.data then d else e, v)] v.data pops)) ∧
    (Fires s (.guard a b d) t → exec (.guard a b d) s = .next
      (landed s2 r (.guard a b d) t (if laneTest f z.2.1.data then [(d, v)] else []) v.data pops)) ∧
    (Fires s (.merge a k d g) t → a.toNat ≤ 7 → ∀ c l, tfind (mine s).latch a.toNat = some c →
      let n := if laneTest f c.tok.data then k.toNat % 8 else k.toNat / 8 % 8
      tfind (mine s).latch n = some l → exec (.merge a k d g) s = .next
        (let y : Token := { l.tok with poison := l.tok.poison || c.tok.poison }
         landed ((counted s).setPlane r.plane (mine s)) r (.merge a k d g) t (tagWrites (encode (.merge a k d g)) y y) y.data [a.toNat, n])) ∧
    (Fires s (.mergeu a b d g) t →
      let take (n : Nat) (l : Latch) : State :=
        landed (counted s) r (.mergeu a b d g) t (tagWrites (encode (.mergeu a b d g)) l.tok l.tok) l.tok.data [n]
      let eos (q : BitVec 5) : Prop := ∀ l, (mine s).headAt q.toNat s.cycle = some l → l.tok.kind = .eos
      (∀ x y, (mine s).headAt a.toNat s.cycle = some x → x.tok.kind ≠ .eos → (mine s).headAt b.toNat s.cycle = some y →
        y.tok.kind ≠ .eos → exec (.mergeu a b d g) s = .next (if y.since < x.since then take b.toNat y else take a.toNat x)) ∧
      (∀ x, (mine s).headAt a.toNat s.cycle = some x → x.tok.kind ≠ .eos → eos b → exec (.mergeu a b d g) s = .next (take a.toNat x)) ∧
      (∀ y, (mine s).headAt b.toNat s.cycle = some y → y.tok.kind ≠ .eos → eos a → exec (.mergeu a b d g) s = .next (take b.toNat y))) ∧
    (Fires s (.rep a b d e g) t → exec (.rep a b d e g) s = .next
      (let n := z.2.1.data.toNat % 2 ^ 32
       let out (p : Plane) (cs : List Nat) : State :=
         landed ((counted s).setPlane r.plane p) r (.rep a b d e g) t (tagWrites (encode (.rep a b d e g)) v v) v.data cs
       if n ≤ (mine s).rc + 1 then out { mine s with sp := z.2.2, rc := 0 } pops
       else out { mine s with sp := z.2.2, rc := (mine s).rc + 1 } [])) ∧
    (Fires s (.gen a d e g) t → exec (.gen a d e g) s = .next
      (let x := sources s t (some a) none
       let y : Token := { data := (mine s).acc, poison := x.1.poison }
       let ls := (List.range f.lanes).map (fun i => match f with
         | .flt h => h.add (trMode t) (lane f (mine s).acc i) (lane f x.1.data i)
         | .int h => ((lane f (mine s).acc i + lane f x.1.data i) % 2 ^ h.width, (0 : BitVec 7)))
       let p : Plane := { mine s with sp := x.2.2, flags := ls.foldl (fun m l => m ||| l.2) (mine s).flags }
       popped ((landed ((counted s).setPlane r.plane p) r (.gen a d e g) t (tagWrites (encode (.gen a d e g)) y y) y.data []).onPlane
         r.plane (fun p => { p with acc := ofLanes f.bits (ls.map Prod.fst) })) r pops)))

/-- R307: the two-source lane instructions: each lane from the two sources' lanes and acc's, the flags of every lane in the plane.
Float lanes round once by R92; integer lanes clamp (R89). -/
def Obligations.LaneResults : Prop :=
  ∀ (s : State) (t : BitVec 32) (a b d e : BitVec 5) (g : BitVec 4),
    let f := trFmt t
    let z := sources s t (some a) (some b)
    let p : Plane := { mine s with sp := z.2.2 }
    let out (i : Instr) (h : Nat → Nat → Nat → Nat × BitVec 7) : State :=
      let ls := (List.range f.lanes).map (fun n => h (lane f z.1.data n) (lane f z.2.1.data n) (lane f (mine s).acc n))
      yields s i t { p with flags := ls.foldl (fun m l => m ||| l.2) (mine s).flags }
        { z.1 with data := ofLanes f.bits (ls.map Prod.fst), poison := z.1.poison || z.2.1.poison }
    let arith (h : FFmt → Nat → Nat → Nat → Nat × BitVec 7) (j : Int → Int → Int → Int) (x y c : Nat) : Nat × BitVec 7 :=
      match f with
      | .flt k => h k x y c
      | .int k =>
        let v := j (k.decode x) (k.decode y) (k.decode c)
        if v < k.lo then (k.code k.lo, flagOf) else if k.hi < v then (k.code k.hi, flagOf) else (k.code v, 0)
    let ones (c : Bool) : Nat × BitVec 7 := (if c then 2 ^ f.bits - 1 else 0, 0)
    (Fires s (.vadd a b d e g) t → exec (.vadd a b d e g) s =
      .next (out (.vadd a b d e g) (arith (fun k x y _ => k.add (trMode t) x y) (fun x y _ => x + y)))) ∧
    (Fires s (.vsub a b d e g) t → exec (.vsub a b d e g) s =
      .next (out (.vsub a b d e g) (arith (fun k x y _ => k.sub (trMode t) x y) (fun x y _ => x - y)))) ∧
    (Fires s (.vmul a b d e g) t → exec (.vmul a b d e g) s =
      .next (out (.vmul a b d e g) (arith (fun k x y _ => k.mul (trMode t) x y) (fun x y _ => x * y)))) ∧
    (Fires s (.vfma a b d e g) t → exec (.vfma a b d e g) s =
      .next (out (.vfma a b d e g) (arith (fun k x y c => k.fma (trMode t) x y c) (fun x y c => x * y + c)))) ∧
    (Fires s (.vmax a b d e g) t → exec (.vmax a b d e g) s = .next (out (.vmax a b d e g) (fun x y _ => (match f with
      | .flt k => k.vmax x y
      | .int k => if k.decode x < k.decode y then y else x, 0)))) ∧
    (Fires s (.vmin a b d e g) t → exec (.vmin a b d e g) s = .next (out (.vmin a b d e g) (fun x y _ => (match f with
      | .flt k => k.vmin x y
      | .int k => if k.decode y < k.decode x then y else x, 0)))) ∧
    (Fires s (.vshl a b d e g) t → exec (.vshl a b d e g) s = .next (out (.vshl a b d e g) (fun x y _ =>
      (if f.bits ≤ y then 0 else x * 2 ^ y % 2 ^ f.bits, 0)))) ∧
    (Fires s (.vshr a b d e g) t → ∀ k, f = .int k → exec (.vshr a b d e g) s = .next (out (.vshr a b d e g) (fun x y _ =>
      (k.code (k.decode x / 2 ^ min y 64), 0)))) ∧
    (Fires s (.vcmpEq a b d e g) t → exec (.vcmpEq a b d e g) s = .next (out (.vcmpEq a b d e g) (fun x y _ => ones (match f with
      | .flt k => (k.decode x).eq (k.decode y)
      | .int _ => x = y)))) ∧
    (Fires s (.vcmpLt a b d e g) t → exec (.vcmpLt a b d e g) s = .next (out (.vcmpLt a b d e g) (fun x y _ => ones (match f with
      | .flt k => (k.decode x).lt (k.decode y)
      | .int k => k.decode x < k.decode y)))) ∧
    (∀ (i : Instr) (h : BitVec 128 → BitVec 128 → BitVec 128), Fires s i t →
      (i, h) ∈ [(.vand a b d e g, fun x y => x &&& y), (.vor a b d e g, fun x y => x ||| y), (.vxor a b d e g, fun x y => x ^^^ y)] →
      exec i s = .next (yields s i t p { z.1 with data := h z.1.data z.2.1.data, poison := z.1.poison || z.2.1.poison }))

/-- R307 to R311, R79, R95: absolute values, sums, running sums, functions, conversions, and lanes by index. R78, R79, R308: under
SR each converted lane with a float source or target draws once from the plane's generator, in ascending lane order; between
integer formats none draws. -/
def Obligations.LaneFunctions : Prop :=
  (∀ (s : State) (t : BitVec 32) (a b d e : BitVec 5) (c : BitVec 10) (g : BitVec 4),
    let f := trFmt t
    let z := sources s t (some a) none
    let z2 := sources s t (some a) (some b)
    let v := z.1
    let out (i : Instr) (fl : BitVec 7) (x : BitVec 128) : State :=
      yields s i t { mine s with sp := z.2.2, flags := (mine s).flags ||| fl } { v with data := x }
    let each (h : FFmt → Mode → Nat → Nat × BitVec 7) (i : Instr) : Prop := ∀ k, f = .flt k → Fires s i t →
      (exec i s = .next (yields s i t
        { mine s with sp := z.2.2,
                      flags := ((List.range f.lanes).map (fun n => h k (trMode t) (lane f v.data n))).foldl (fun m l => m ||| l.2) (mine s).flags }
        { v with data := ofLanes f.bits ((List.range f.lanes).map (fun n => (h k (trMode t) (lane f v.data n)).1)) }))
    each (fun k _ x => (if k.decode x = .nan then k.nan else x % 2 ^ (k.bits - 1), 0)) (.vabs a d e g) ∧
    each FFmt.rcp (.vrcp a d e g) ∧ each FFmt.rsq (.vrsq a d e g) ∧ each FFmt.exp2 (.vexp2 a d e g) ∧ each FFmt.log2 (.vlog2 a d e g) ∧
    (∀ k, f = .int k →
      let w : IFmt := if k.width ≤ 16 then ⟨32, true⟩ else ⟨64, true⟩
      let sum (l : List Int) : Nat × BitVec 7 :=
        l.tail.foldl (fun acc y => ((w.clamp (w.decode acc.1 + y)).1, acc.2 ||| (w.clamp (w.decode acc.1 + y)).2)) (w.clamp (l.headD 0))
      let r := sum ((lanesOf f v.data).map k.decode)
      let r2 := sum (((lanesOf f z2.1.data).zip (lanesOf f z2.2.1.data)).map (fun x => k.decode x.1 * k.decode x.2))
      (Fires s (.vabs a d e g) t →
        let ls := (List.range f.lanes).map (fun n => k.clamp (k.decode (lane f v.data n)).natAbs)
        exec (.vabs a d e g) s = .next (yields s (.vabs a d e g) t
          { mine s with sp := z.2.2, flags := ls.foldl (fun m l => m ||| l.2) (mine s).flags }
          { v with data := ofLanes f.bits (ls.map Prod.fst) })) ∧
      (k ∈ [⟨32, true⟩, ⟨16, true⟩, ⟨8, true⟩, ⟨8, false⟩, ⟨64, true⟩] →
        (Fires s (.vred a d e g) t → exec (.vred a d e g) s = .next (out (.vred a d e g) r.2 (BitVec.ofNat 128 r.1))) ∧
        (Fires s (.vdot a b d e g) t → exec (.vdot a b d e g) s = .next (yields s (.vdot a b d e g) t
          { mine s with sp := z2.2.2, flags := (mine s).flags ||| r2.2 }
          { z2.1 with data := BitVec.ofNat 128 r2.1, poison := z2.1.poison || z2.2.1.poison })))) ∧
    (∀ k, f = .flt k → k ∈ [fp32, bf16, fp16, e4m3, e5m2] →
      let dec (n : Nat) : Val := k.decode n
      let l := lanesOf f v.data
      let r := l.tail.foldl (fun acc y =>
          let q := (fp32.decode acc.1).add .rne (dec y)
          ((fp32.ofVal .rne false q.1).1, acc.2 ||| (q.2 ||| (fp32.ofVal .rne false q.1).2))) (fp32.ofVal .rne false (dec (l.headD 0)))
      let l2 := (lanesOf f z2.1.data).zip (lanesOf f z2.2.1.data)
      let r2 := l2.tail.foldl (fun acc y =>
          let q := Val.fma .rne (dec y.1) (dec y.2) (fp32.decode acc.1)
          ((fp32.ofVal .rne false q.1).1, acc.2 ||| (q.2 ||| (fp32.ofVal .rne false q.1).2)))
        (let q := (dec (l2.headD (0, 0)).1).mul (dec (l2.headD (0, 0)).2)
         ((fp32.ofVal .rne false q.1).1, q.2 ||| (fp32.ofVal .rne false q.1).2))
      (Fires s (.vred a d e g) t → exec (.vred a d e g) s = .next (out (.vred a d e g) r.2 (BitVec.ofNat 128 r.1))) ∧
      (Fires s (.vdot a b d e g) t → exec (.vdot a b d e g) s = .next (yields s (.vdot a b d e g) t
        { mine s with sp := z2.2.2, flags := (mine s).flags ||| r2.2 }
        { z2.1 with data := BitVec.ofNat 128 r2.1, poison := z2.1.poison || z2.2.1.poison }))) ∧
    (Fires s (.vscan a d e g) t →
      let add (x y : Nat) : Nat × BitVec 7 := match f with
        | .flt k => k.add .rne x y
        | .int k => k.clamp (k.decode x + k.decode y)
      let ls := ((lanesOf f v.data).scanl (fun q y => add q.1 y) (lane f (mine s).acc 0, 0)).tail
      ∃ u, exec (.vscan a d e g) s = .next u ∧
        u = popped ((landed ((counted s).setPlane s.curR.plane { mine s with sp := z.2.2, flags := (mine s).flags ||| ls.foldl (fun m l => m ||| l.2) 0 })
          s.curR (.vscan a d e g) t
          (let y : Token := { v with data := ofLanes f.bits (ls.map Prod.fst) }; tagWrites (encode (.vscan a d e g)) y y)
          (ofLanes f.bits (ls.map Prod.fst)) []).onPlane s.curR.plane
          (fun p => { p with acc := ofLanes f.bits (List.replicate f.lanes (ls.getLastD (0, 0)).1) })) s.curR (maskList (trPop t))) ∧
    (Fires s (.vcvt a c d g) t →
      let md := Mode.ofCode (c.toNat / 16 % 8)
      let n := if c.toNat % 16 ≤ 9 then min f.lanes (laneFmt (c.toNat % 16)).lanes else f.lanes
      let tgt : NFmt × Nat := if c.toNat % 16 = 10 then (.flt e2m3, 6) else if c.toNat % 16 = 11 then (.flt e3m2, 6)
        else if c.toNat % 16 = 12 then (.flt e2m1, 4) else (laneFmt (c.toNat % 16), (laneFmt (c.toNat % 16)).bits)
      let sat := c.toNat / 128 % 2 = 1 ∨ 10 ≤ c.toNat % 16
      md ≠ .sr →
        let ls := ((lanesOf f v.data).take n).map (fun x => convert f tgt.1 md (decide sat) x 0)
        exec (.vcvt a c d g) s = .next (yields s (.vcvt a c d g) t
          { mine s with sp := z.2.2, flags := (mine s).flags ||| ls.foldl (fun m l => m ||| l.2) 0 }
          { v with data := ofLanes tgt.2 (ls.map Prod.fst) })) ∧
    (Fires s (.vperm a b d e g) t → exec (.vperm a b d e g) s = .next (yields s (.vperm a b d e g) t { mine s with sp := z2.2.2 }
      { z2.1 with data := ofLanes f.bits ((lanesOf f z2.2.1.data).map (fun j => if j < f.lanes then lane f z2.1.data j else 0)),
                  poison := z2.1.poison || z2.2.1.poison })) ∧
    (Fires s (.vbcast a b d e g) t → exec (.vbcast a b d e g) s = .next (yields s (.vbcast a b d e g) t { mine s with sp := z2.2.2 }
      { z2.1 with data := ofLanes f.bits (List.replicate f.lanes
                    (if lane f z2.2.1.data 0 < f.lanes then lane f z2.1.data (lane f z2.2.1.data 0) else 0)),
                  poison := z2.1.poison || z2.2.1.poison }))) ∧
  (∀ (s : State) (t : BitVec 32) (a d : BitVec 5) (c : BitVec 10) (g : BitVec 4), Fires s (.vcvt a c d g) t →
    Mode.ofCode (c.toNat / 16 % 8) = .sr → c.toNat % 16 ≤ 9 →
    let f := trFmt t
    let y := laneFmt (c.toNat % 16)
    let v := (sources s t (some a) none).1
    let n := min f.lanes y.lanes
    let sat := decide (c.toNat / 128 % 2 = 1)
    let draws : Bool := match f, y with | .int _, .int _ => false | _, _ => true
    let step (x : BitVec 32) : BitVec 32 :=
      let x := x ^^^ (x <<< 13)
      let x := x ^^^ (x >>> 17)
      x ^^^ (x <<< 5)
    let gen (k : Nat) : BitVec 32 := if draws then Nat.repeat step k (mine s).g else (mine s).g
    let ls := (List.range n).map (fun k => convert f y .sr sat (lane f v.data k) (if draws then (gen (k + 1)).toNat / 65536 else 0))
    exec (.vcvt a c d g) s = .next (yields s (.vcvt a c d g) t
      { mine s with sp := (sources s t (some a) none).2.2, g := gen n, flags := (mine s).flags ||| ls.foldl (fun m l => m ||| l.2) 0 }
      { v with data := ofLanes y.bits (ls.map Prod.fst) }))

/-- R89: an integer lane's result stands for the exact value, or for the end of the range next to it, and `of` is set exactly
where it was clamped. R70 to R72: rounding the value of a code gives the code back, without a flag, in every mode; a NaN gives
the canonical one. -/
def Obligations.RoundingAndClamping : Prop :=
  (∀ (k : IFmt) (x : Int), k ∈ [⟨32, true⟩, ⟨16, true⟩, ⟨8, true⟩, ⟨8, false⟩, ⟨64, true⟩] →
    k.decode (k.clamp x).1 = max k.lo (min k.hi x) ∧ (k.clamp x).1 < 2 ^ k.width ∧
    ((k.clamp x).2 = if k.lo ≤ x ∧ x ≤ k.hi then 0 else flagOf) ∧
    k.lo = (if k.signed then -2 ^ (k.width - 1) else 0) ∧ k.hi = (if k.signed then 2 ^ (k.width - 1) - 1 else 2 ^ k.width - 1)) ∧
  (∀ (f : FFmt) (md : Mode) (r c : Nat), f ∈ [fp32, bf16, fp16, e4m3, e5m2] → r < 65536 → c < 2 ^ f.bits →
    (f.decode c ≠ .nan → f.ofVal md false (f.decode c) r = (c, 0)) ∧
    (f.decode c = .nan → f.ofVal md false (f.decode c) r = (f.nan, 0)) ∧ f.decode f.nan = .nan)

/-- R330, R332: the streams of store tiles. `sld` takes the token at a generator's read port, which then gives its next, or reads
its status; `sst` gives a token to a write port and to no other. R26, R333 to R336, R249, R277: a memory node issues one
access with its address, operation and token, in issue order; no byte of memory changes at the firing. An access that must be
translated pops nothing before its answer, and holds its operands meanwhile (log 73). After a JOB_END none begins at a window:
the rule does not fire. A failed check stalls the rule, raises the fault, and issues nothing. R338, R340, R444, R445: the
sparse instructions and a collective node's ports. -/
def Obligations.StoreStreamsAndNodes : Prop :=
  (∀ (s : State) (t : BitVec 32) (a b d e : BitVec 5) (g : BitVec 4),
    let r := s.curR
    let id : GenId := ⟨r.plane.elem.tile.pair, b.toNat % 4⟩
    let pops := maskList (trPop t)
    (Fires s (.sld b d e g) t → b.toNat ≤ 3 → ∀ l, (s.gen id).rport = some l →
      exec (.sld b d e g) s = .next
        (((landed (counted s) r (.sld b d e g) t (tagWrites (encode (.sld b d e g)) l.tok l.tok) l.tok.data pops).onGen id
          (fun x => { x with rport := none })).genPump id)) ∧
    (Fires s (.sld b d e g) t → 3 < b.toNat → exec (.sld b d e g) s = .next
      (landed (counted s) r (.sld b d e g) t
        (tagWrites (encode (.sld b d e g)) { data := (s.gen id).status } { data := (s.gen id).status }) (s.gen id).status pops)) ∧
    (Fires s (.sst a b g) t → b.toNat ≤ 3 → ∃ u, exec (.sst a b g) s = .next u ∧ u.mem = s.mem ∧
      (u.gen id).wport = some (sources s t (some a) none).1 ∧ (∀ k, k ≠ id → u.gen k = s.gen k))) ∧
  (∀ (s : State) (t : BitVec 32) (a b d e : BitVec 5) (c : BitVec 10) (g : BitVec 4) (n : InstId) (x : Inst),
    let r := s.curR
    (s.plane r.plane).inst = some n → s.inst n = some x →
    let z := sources s t (some a) none
    let z2 := sources s t (some a) (some b)
    let node (i : Instr) (v w : Token) (al len : Nat) (op : MemOp) (win : Bool) : Prop := Fires s i t →
      ∃ u, exec i s = .next u ∧ u.mem = s.mem ∧
        match checkAddrOf s r.plane.elem.tile.core 0 x.sid (v.data.extractLsb' 0 64) al len win with
        | .ok tg => (s.dispatches x.sid = false → (∃ q, tg = .window q) → u = s.unchosen r) ∧
          (s.dispatches x.sid = true ∨ (∀ q, tg ≠ .window q) → (u.plane r.plane).nseq = (s.plane r.plane).nseq + 1 ∧
          ∃ y ∈ (u.plane r.plane).accs, y.slot = r.slot ∧ y.seq = (s.plane r.plane).nseq ∧ y.addr = v.data.extractLsb' 0 64 ∧ y.op = op ∧
            y.tok = { v with poison := v.poison || w.poison } ∧
            ((∃ va, tg = .global va) → y.st = .asked ∧ y.holds = true ∧ (u.plane r.plane).latch = (s.plane r.plane).latch))
        | .error e => u = ((s.unchosen r).setPlane r.plane { s.plane r.plane with stuck := (s.plane r.plane).stuck ++ [r.slot] }).ruleFault r
            e.cause (v.data.extractLsb' 0 64) none ∧ r.slot ∈ (u.plane r.plane).stuck ∧ (u.plane r.plane).accs = (s.plane r.plane).accs ∧
          (u.plane r.plane).latch = (s.plane r.plane).latch
    node (.mld a d e g) z.1 z.2.1 16 16 (.load 16) true ∧
    node (.mst a b d e g) z2.1 z2.2.1 16 16 (.store ((List.range 16).map (fun j =>
      if z2.1.data.getLsbD (64 + j) then none else some (z2.2.1.data.extractLsb' (8 * j) 8))) z2.2.1.poison) true ∧
    (∀ op, (c.toNat, op) ∈ [(0, AtomOp.add), (1, .and), (2, .or), (3, .xor), (4, .max), (5, .min), (6, .xchg), (8, .badd)] →
      node (.matom a c d g) z.1 z.2.1 8 8 (.atomic op (z.1.data.extractLsb' 64 64) 0) false) ∧
    (c.toNat = 7 → node (.matom a c d g) z.1 z.2.1 4 4 (.atomic .fadd (z.1.data.extractLsb' 64 64) 0) false)) ∧
  (∀ (s : State) (t : BitVec 32) (a b d e : BitVec 5) (g : BitVec 4),
    let r := s.curR
    let f := trFmt t
    let z := sources s t (some a) none
    let z2 := sources s t (some a) (some b)
    let pops := maskList (trPop t)
    let m := (mine s).bm
    let put (i : Instr) (m : BmState) (v : Token) (cs : List Nat) : State :=
      popped (puts ((counted s).onPlane r.plane (fun p => { p with bm := m })) r (tagWrites (encode i) v v)) r cs
    (Fires s (.isect a b d e g) t → ∃ u, exec (.isect a b d e g) s = .next u ∧ u.mem = s.mem ∧
      u = popped (puts (counted s) r (tagWrites (encode (.isect a b d e g))
        { z2.1 with poison := z2.1.poison || z2.2.1.poison } { z2.2.1 with poison := z2.1.poison || z2.2.1.poison })) r pops) ∧
    (Fires s (.bmexp a b d e g) t → a.toNat ≤ 7 → b.toNat ≤ 7 → ∀ x y, tfind (mine s).latch a.toNat = some x →
      tfind (mine s).latch b.toNat = some y →
      (m.phase = 0 → x.tok.kind ≠ .eos → exec (.bmexp a b d e g) s = .next
        (popped ((counted s).onPlane r.plane (fun p =>
          { p with bm := { bad := x.tok.poison, phase := 1, n := x.tok.data.toNat % 256, base := x.tok.data.toNat / 2 ^ 32 % 2 ^ 32 } })) r [a.toNat])) ∧
      (m.phase = 0 → x.tok.kind = .eos → exec (.bmexp a b d e g) s = .next
        (popped (puts (counted s) r (let v : Token := { kind := .eos, poison := x.tok.poison || y.tok.poison }
          tagWrites (encode (.bmexp a b d e g)) v v)) r [a.toNat, b.toNat])) ∧
      (m.phase = 1 → x.tok.kind ≠ .eos → x.tok.data.cpop.toNat = m.n → exec (.bmexp a b d e g) s = .next
        (popped ((counted s).onPlane r.plane (fun p =>
          { p with bm := { m with phase := if m.n = 0 then 3 else 2, bitmap := x.tok.data, bit := 0, lane := 0, out := 0, bad := m.bad || x.tok.poison } })) r [a.toNat])) ∧
      (m.phase = 1 → x.tok.kind = .eos ∨ x.tok.data.cpop.toNat ≠ m.n → ∃ u, exec (.bmexp a b d e g) s = .next u ∧
        (u.plane r.plane).bm.phase = 4 ∧ tfind (u.plane r.plane).latch a.toNat = some x) ∧
      (m.phase = 2 → y.tok.kind ≠ .eos → m.out + 1 < m.n → ∀ j, m.bit ≤ j → j < 128 → m.bitmap.getLsbD j = true →
        (∀ k, m.bit ≤ k → k < j → m.bitmap.getLsbD k = false) → exec (.bmexp a b d e g) s = .next
          (put (.bmexp a b d e g) { m with bit := j + 1, lane := (m.lane + 1) % f.vals, out := m.out + 1 }
            { data := BitVec.ofNat 128 ((m.base + j) % 2 ^ 32 * 2 ^ 96 + lane f y.tok.data m.lane), poison := m.bad || y.tok.poison }
            (if m.lane + 1 = f.vals then [b.toNat] else []))) ∧
      (m.phase = 3 → exec (.bmexp a b d e g) s = .next (put (.bmexp a b d e g) {} { kind := .eof, poison := m.bad } []))) ∧
    (Fires s (.xsend a d) t → (s.plane r.plane).inst = none ∨ s.twins = [] → exec (.xsend a d) s = .next
      (popped (((s.firedOnce r true).onPlane r.plane (fun p => { p with sp := z.2.2 })).putPort r.plane d z.1) r pops)) ∧
    (Fires s (.xrecv a d e g) t → exec (.xrecv a d e g) s = .next
      (landed ((counted s).setPlane r.plane { mine s with sp := z.2.2 }) r (.xrecv a d e g) t
        (tagWrites (encode (.xrecv a d e g)) z.1 { data := BitVec.ofNat 128 (tget (mine s).rank 0xFFFF a.toNat), poison := z.1.poison })
        z.1.data pops)))

/-- R109 to R111, R113: a barge of a living job that arrives at a basin takes a slot, spills or is refused BUSY; where it is
placed its sender forgets it. On a handler core a barge spills when its priority has spilled already or its 32 slots are
taken. At priority 0 a fault barge takes any of the 32 slots or waits for one; another takes one of 24, and is refused where
none is free, which is the model's choice (log 123), as is what an edge core's limit of 16 slots looks at and the size of its
overflow basin (log 71). R109, R108: a refused barge waits 64 cycles, doubled at each refusal up to 8,192, and is sent again;
the sixteenth refusal drops it. A thread packet is never dropped. A barge another node refuses is forgotten with
REMOTE_VIOLATION. -/
def Obligations.BargesArrive : Prop :=
  ((∀ (k : Core) (c : CoreId) (sid p : Nat), c.isHandler = true →
    (k.mustSpill c sid p = true ↔ (∃ e ∈ k.spill, e.prio = p) ∨ 32 ≤ (k.basin.filter (fun e => e.prio = p)).length)) ∧
  (∀ (s : State) (dst c : CoreId) (b : Barge) (id p n : Nat), s.arg = .bargeArrival dst (.core c) ⟨.barge b, id, none, p, n⟩ →
    s.alive b.sid = true → ctlCont b.ctl = false → Keyed (s.core c) →
    let k := s.core dst
    let e : Slot := ⟨.barge b, p, s.cycle⟩
    ∃ u, exec .bargeArrival s = .next u ∧ u.mem = s.mem ∧ u.ctxs = s.ctxs ∧
      let k' := u.core dst
      (p ≠ 0 → k.mustSpill dst b.sid p = false →
        k'.basin = k.basin ++ [e] ∧ k'.spill = k.spill ∧ tfind (u.core c).sends id = none) ∧
      (p ≠ 0 → k.mustSpill dst b.sid p = true → (k.spilled dst b.sid).length < 5632 →
        k'.basin = k.basin ∧ k'.spill = k.spill ++ [e] ∧ k'.spills = k.spills + 1 ∧ tfind (u.core c).sends id = none) ∧
      (p ≠ 0 → k.mustSpill dst b.sid p = true → 5632 ≤ (k.spilled dst b.sid).length →
        k'.basin = k.basin ∧ k'.spill = k.spill ∧ k'.busy = k.busy + 1 ∧ tfind (u.core c).sends id = tfind (s.core c).sends id ∧
        u.pending = ⟨.barge (.core c) dst n, s.cycle, .busyReply (.core c) id⟩ :: s.pending) ∧
      let others := (k.basin.filter (fun x => x.prio = 0 && !x.load.isFault)).length
      (p = 0 → k.level 0 < 32 → b.fault = true ∨ others < 24 → k'.basin = k.basin ++ [e] ∧ tfind (u.core c).sends id = none) ∧
      (p = 0 → 32 ≤ k.level 0 → b.fault = true → k'.faults = k.faults ++ [e] ∧ k'.basin = k.basin) ∧
      (p = 0 → b.fault = false → 32 ≤ k.level 0 ∨ 24 ≤ others → k'.basin = k.basin ∧ k'.busy = k.busy + 1 ∧
        u.pending = ⟨.barge (.core c) dst n, s.cycle, .busyReply (.core c) id⟩ :: s.pending))) ∧
  (∀ (s : State) (c : CoreId) (id : Nat) (r : SendRec), tfind (s.core c).sends id = some r → Keyed (s.core c) →
    let n := r.tries + 1
    let wait := min 8192 (64 * 2 ^ (n - 1))
    let again (u : State) : Prop := tfind (u.core c).sends id = some { r with tries := n, due := s.cycle + wait } ∧
      ⟨.barge (.core c) r.dst r.item.lane, s.cycle + wait, .bargeResend (.core c) id⟩ ∈ u.pending
    (s.arg = .busyReply (.core c) id → ∃ u, exec .busyReply s = .next u ∧ u.mem = s.mem ∧
      (∀ b, r.item.load = .barge b → n < 16 → again u) ∧
      (∀ b, r.item.load = .barge b → 16 ≤ n → tfind (u.core c).sends id = none) ∧
      (∀ p, r.item.load = .packet p → again u)) ∧
    (s.arg = .bargeResend (.core c) id → r.item.load.away s.node = false →
      ∃ u, exec .bargeResend s = .next u ∧ u.cores = s.cores ∧ u.mem = s.mem ∧
        u.pending = ⟨.barge (.core c) r.dst r.item.lane, s.cycle, .bargeArrival r.dst (.core c) r.item⟩ :: s.pending) ∧
    (s.arg = .remoteReject (.core c) id none → ∀ b, r.item.load = .barge b → b.origin = none →
      ∃ u, exec .remoteReject s = .next u ∧ u.mem = s.mem ∧ tfind (u.core c).sends id = none) ∧
    (∀ o w n, s.arg = .remoteReject (.core c) id (some (o, w, n)) →
      exec .remoteReject s = .next ((s.report o .remoteViolation n w).performed c id)))

/-- R112, R113: a head that has waited 4,096 cycles leaves its priority and stands at the tail of the next one up; a fault barge
that has leaves its slot and goes to rank 7. R117, R118, R136, R139: dispatch of the item a core takes next into its lowest
context: the registers a barge starts a thread with, its PC and its reach generation, and those a migrated thread resumes
with. No other context changes. An entry stolen before goes first, into the context held for it, which is the model's choice
(log 125). -/
def Obligations.BasinsServe : Prop :=
  (∀ (s : State) (c : CoreId) (p : Nat) (e : Slot), let k := s.core c
    (s.arg = .promotion c p → 2 ≤ p → p ≤ 3 → k.basin.find? (fun x => x.prio = p) = some e → e.at_ + 4096 ≤ s.cycle →
      k.mayHold c e.load.sid (p - 1) = true → ∃ u, exec .promotion s = .next u ∧ u.mem = s.mem ∧ u.ctxs = s.ctxs ∧
        { e with prio := p - 1 } ∈ (u.core c).basin ∧ k.level (p - 1) + 1 ≤ (u.core c).level (p - 1) ∧
        ∀ l r, k.basin = l ++ e :: r → (∀ x ∈ l, x.prio ≠ p) → k.spill = [] →
          (u.core c).basin = l ++ r ++ [{ e with prio := p - 1 }] ∧ (u.core c).spill = []) ∧
    (∀ b, s.arg = .faultRedelivery c → k.basin.find? (fun x => x.prio = 0 && x.at_ + 4096 ≤ s.cycle) = some e → e.load = .barge b →
      s.ctl.down.contains c.die = false → ∃ u, exec .faultRedelivery s = .next u ∧ u.mem = s.mem ∧ u.ctxs = s.ctxs ∧
        u.pending = s.pending ++ [⟨.none, s.cycle, .rank7Fault c.die b⟩] ∧
        ∀ l r, k.basin = l ++ e :: r → (∀ x ∈ l, x.prio ≠ 0 ∨ s.cycle < x.at_ + 4096) → k.faults = [] →
          (u.core c).basin = l ++ r ∧ (u.core c).faults = [])) ∧
  (∀ (s : State) (c : CoreId) (i : Nat) (e : Slot), s.arg = .dispatch c → (s.core c).lastDispatch ≠ some s.cycle →
    s.moving c = false →
    (∀ k b, s.stolenItem c = some (k, b) → exec .dispatch s = .next
      ((s.setCore c { s.core c with steal := none, stolen := none, lastDispatch := some s.cycle }).start ⟨c, k⟩ (.barge b) 1)) ∧
    (s.stolenItem c = none → (s.freeSlots c).head? = some i → s.nextItem c = some e →
    let t : ThreadId := ⟨c, i⟩
    ∃ u, exec .dispatch s = .next u ∧ (∀ q, q ≠ t → u.ctx q = s.ctx q) ∧ (u.core c).lastDispatch = some s.cycle ∧
      (c.isHandler = true → u.mem = s.mem) ∧ (u.ctx t).status = .ready ∧ (u.ctx t).serial = s.nextSerial ∧ (u.ctx t).buf = [] ∧
      (u.ctx t).flags = 0 ∧ (u.ctx t).reachcnt = 0 ∧
      (∀ b, e.load = .barge b →
        (∀ n v, n < 6 → b.payload[n]? = some v → (u.ctx t).regs.get n = v) ∧
        (∀ n, n < 6 → b.payload[n]? = none → (u.ctx t).regs.get n = 0) ∧
        (u.ctx t).regs.h6 = b.ctl ∧ (u.ctx t).regs.h7 = b.src ∧ (u.ctx t).regs.h8 = 0 ∧ (u.ctx t).regs.h9 = 0 ∧
        (u.ctx t).pw = 1 ∧ (u.ctx t).fstat = 0 ∧ (u.ctx t).sid = b.sid ∧ (u.ctx t).lit = ctlHandler b.ctl ∧
        (u.ctx t).reachlim = (s.job b.sid).reachlim ∧ (u.ctx t).prio = max 1 e.prio ∧ (u.ctx t).gen = 0 ∧ (u.ctx t).rid = 0 ∧
        (∀ h, s.handler b.sid (ctlHandler b.ctl) = some h →
          (u.ctx t).pc = BitVec.ofNat 64 (65536 * ctlHandler b.ctl + 4 * h.entry % 65536) ∨ 65536 ≤ 4 * h.entry)) ∧
      (∀ p, e.load = .packet p → p.h.length = 10 →
        (u.ctx t).regs.toList = p.h ∧ (u.ctx t).pw = p.pw ||| 1 ∧ (u.ctx t).fstat = p.fstat ∧ (u.ctx t).pc = p.pc ∧
        (u.ctx t).sid = p.sid ∧ (u.ctx t).lit = p.litBase ∧ (u.ctx t).reachlim = p.reachlim ∧ (u.ctx t).prio = p.prio ∧
        (u.ctx t).gen = 0 ∧ (u.ctx t).rid = 0)))

/-- R125 to R129, R194: a deposit. For a FREE context it is dropped and counted; in a park wait its values are written, and the
last one wakes the context with a new snapshot; otherwise it is held, and applies, one a cycle, when the context next waits.
One without values only says that an effect ends. One whose registers do not exist writes nothing and raises BAD_DEPOSIT
(R129). R132, R133: a completion of a living job enters its core's queue, and every context in MWAIT without a pending
pre-emption is READY; one of a dead job is dropped. R139: stealing. An idle core holds a context and asks; the victim gives
its oldest committed deque entry or answers empty; the thief dispatches it into the held context. Where it has dispatched in
this cycle, the entry waits with its context for the next dispatch, which is the model's choice (log 125). R147: an arrival
counts in its phase, or toward the next; a counter that reaches its target turns its phase and carries the rest over; one
already at its target fires again; an arrival of the wrong phase past the target changes no count and raises BARRIER_OVERRUN.
A counter that nothing has set never fires, which is the model's choice (log 127). -/
def Obligations.DepositsStealsCounters : Prop :=
  (∀ (s : State) (c : CoreId) (d : Deposit), let t : ThreadId := ⟨c, d.slot⟩; let x := s.ctx t
    (∀ n, x.status = .parkWait n → d.gen = x.gen → d.fits = true →
      ((1 < n → s.applyDeposit t d = s.setCtx t { x with regs := x.regs.setMany d.first d.vals, status := .parkWait (n - 1) }) ∧
       (n ≤ 1 → ((s.applyDeposit t d).ctx t).regs = x.regs.setMany d.first d.vals ∧ ((s.applyDeposit t d).ctx t).status = (if x.preemptPending && !x.shield then .suspended else .ready) ∧
         ((s.applyDeposit t d).ctx t).snap.regs = x.regs.setMany d.first d.vals ∧ ((s.applyDeposit t d).ctx t).snap.entry = x.pc))) ∧
    (d.fits = true ↔ d.first ≤ 9 ∧ d.first + d.vals.length ≤ 10) ∧
    (d.gen = x.gen → d.fits = false → s.applyDeposit t d = s.report (s.originOf t) .badDeposit 0 (d.ctl.getD 0)) ∧
    (d.gen ≠ x.gen → s.applyDeposit t d = s.setCore c { s.core c with stale := (s.core c).stale + 1 }) ∧
    (s.arg = .deposit c d → x.status = .free → exec .deposit s =
      .next (if d.vals = [] then s else s.setCore c { s.core c with stale := (s.core c).stale + 1 })) ∧
    (s.arg = .deposit c d → x.status ≠ .free → d.serial = some x.serial →
      let s' := s.setCtx t { x with outst := x.outst - 1 }
      exec .deposit s = .next (if d.vals = [] then s' else if s'.takesDeposit t then s'.applyDeposit t d
        else s'.setCtx t { x with outst := x.outst - 1, hold := x.hold ++ [d] })) ∧
    (∀ n, s.arg = .heldDepositApply t → x.status = .parkWait n → x.nextIssue ≤ s.cycle → x.heldAt ≤ s.cycle →
      let y : Ctx := { x with heldAt := s.cycle + 1 }
      (∀ e r, x.hold = e :: r → exec .heldDepositApply s = .next ((s.setCtx t { y with hold := r }).applyDeposit t e)) ∧
      (∀ e, x.hold = [] → (s.core c).lane.find? (fun y => y.slot = d.slot) = some e →
        exec .heldDepositApply s = .next (((s.setCtx t y).setCore c { s.core c with lane := dropFirst (fun y => y.slot = d.slot) (s.core c).lane }).applyDeposit t e)))) ∧
  (∀ (s : State) (c : CoreId) (x : Completion), s.arg = .completionArrival c x →
    (s.alive x.sid = false → exec .completionArrival s = .next s) ∧
    (s.alive x.sid = true → ∃ u, exec .completionArrival s = .next u ∧ u.mem = s.mem ∧
      u.core c = { s.core c with comps := (s.core c).comps ++ [⟨x, none⟩] } ∧
      (∀ i, i < 16 → (s.ctx ⟨c, i⟩).status = .mwait → (s.ctx ⟨c, i⟩).preemptPending = false → (u.ctx ⟨c, i⟩).status = .ready) ∧
      (∀ t, (s.ctx t).status ≠ .mwait → u.ctx t = s.ctx t))) ∧
  (∀ (s : State) (a v : CoreId), let k := s.core a
    (s.arg = .stealRequest a v → ∀ sid i, a.hive?.bind s.sidOf = some sid → (s.freeSlots a).head? = some i → s.moving a = false →
      k.basin = [] → k.spill = [] → k.faults = [] → k.deque = [] → k.steal = none → k.stolen = none → s.keepsLast a = false → a ≠ v →
      s.dispatches sid = true → s.sameDomain sid a v = true →
      exec .stealRequest s = .next ((s.setCore a { k with steal := some i }).post .none (.stealVictim v a))) ∧
    (s.arg = .stealVictim v a →
      (∀ l e r, (s.core v).deque = l ++ e :: r → (∀ y ∈ l, y.by_ ≠ none) → e.by_ = none → e ∉ l →
        exec .stealVictim s = .next ((s.setCore v { s.core v with deque := l ++ r }).post .none (.stealAnswer a (some e.barge)))) ∧
      ((∀ y ∈ (s.core v).deque, y.by_ ≠ none) → exec .stealVictim s = .next (s.post .none (.stealAnswer a none)))) ∧
    (∀ b i, s.arg = .stealAnswer a (some b) → k.steal = some i → s.dispatches b.sid = true → a.isHandler = true →
      k.lastDispatch ≠ some s.cycle → s.moving a = false →
      ∃ u, exec .stealAnswer s = .next u ∧ u.mem = s.mem ∧ (u.core a).steal = none ∧ (u.ctx ⟨a, i⟩).status = .ready ∧
        (u.ctx ⟨a, i⟩).prio = 1 ∧ (u.ctx ⟨a, i⟩).sid = b.sid) ∧
    (∀ b i, s.arg = .stealAnswer a (some b) → k.steal = some i → s.dispatches b.sid = true → k.lastDispatch = some s.cycle →
      exec .stealAnswer s = .next (s.setCore a { k with stolen := some b })) ∧
    (s.arg = .stealAnswer a none → exec .stealAnswer s = .next (s.setCore a { k with steal := none }))) ∧
  (∀ (s : State) (c : CoreId) (a : Arrival) (i : Nat), a.node = none → a.src = none →
    let x := tget (s.core c).counters {} a.idx
    let y := tget (s.core c).counters {} i
    (s.arg = .counterArrival c a → ∃ u, exec .counterArrival s = .next u ∧ u.mem = s.mem ∧
      (x.barrier = false ∨ a.par = x.phase →
        (x.target = 0 ∨ x.count + 1 < x.target → tget (u.core c).counters {} a.idx = { x with count := x.count + 1 }) ∧
        (x.target ≠ 0 → x.target ≤ x.count + 1 → x.action = 0 → tget (u.core c).counters {} a.idx =
          { x with phase := 1 - x.phase, count := x.next + (x.count + 1 - x.target), next := 0 })) ∧
      (x.barrier = true → a.par ≠ x.phase → x.next < x.target → x.count < x.target →
        tget (u.core c).counters {} a.idx = { x with next := x.next + 1 }) ∧
      (x.barrier = true → a.par ≠ x.phase → x.next = x.target → x.count < x.target →
        u = s.counterFault x.origin .barrierOverrun none ∧ tget (u.core c).counters {} a.idx = x)) ∧
    (s.arg = .counterCarryFire c i → y.target ≠ 0 → y.target ≤ y.count → ∃ u, exec .counterCarryFire s = .next u ∧ u.mem = s.mem ∧
      tget (u.core c).counters {} i = { y with phase := 1 - y.phase, count := y.next + (y.count - y.target), next := 0 } ∧
      (y.action = 3 → ∀ h, c.hive? = some h → (u.joint h).shard.getLsbD (y.arg.toNat % 16) = true)))

/-- R190, R193, R195: a boundary whose waits have ended commits its effects; a probe that failed ends the thread, or suspends it
where the page can still be mapped; before that nothing happens. That such a fault names the boundary's PC and word (log 119),
and that the one of an ACCESS answer counts no further attempt (log 154), are the model's choices. R193, R219, R226, R235: an
effect at the head of the release queue leaves its core, at most one a cycle. A store of one 32-byte block to the core's own
memory is performed as it leaves, where nothing of the core is on its way there or at a window; one to another home is a
request on its way, and changes no byte. R234: a push leaves only once the stores and atomics its thread released earlier to
homes inside its scope are performed, and never by the plain release. -/
def Obligations.CommitsReleaseEffects : Prop :=
  (∀ (s : State) (t : ThreadId) (b : Boundary), s.arg = .commit t → (s.ctx t).status = .running (.commit b) →
    (s.commitReady t = true ↔ (∀ e ∈ (s.ctx t).buf, ∀ p ∈ e.probes, p.ans ≠ .waiting) ∧
      ((s.ctx t).badProbe ≠ none ∨ s.commitRoom t = true)) ∧
    (s.commitReady t = false → exec .commit s = .next s) ∧
    (s.commitReady t = true →
      ((s.ctx t).badProbe = none → exec .commit s = .next (s.commit t b)) ∧
      (∀ a, (s.ctx t).badProbe = some (.pageFault, a) → exec .commit s = .next (s.pageFault t a (s.lastWord t))) ∧
      (∀ x a, x ≠ .pageFault → (s.ctx t).badProbe = some (x, a) →
        exec .commit s = .next ((s.onCtx t Ctx.back).endThread t x a (s.lastWord t))))) ∧
  (∀ (s : State) (c : CoreId) (r : Released) (rest : List Released) (a : Word) (bs : List Byte) (l : Loc),
    s.arg = .effectRelease c → (s.core c).relq = r :: rest → r.buf.eff = .store a bs → bitsN a 63 62 ≠ 3 → bs ≠ [] →
    a.toNat % 32 + bs.length ≤ 32 → s.placeOf c r.sid r.buf.probes a = some l →
    (s.releaseReady c = false → exec .effectRelease s = .next s) ∧
    (s.releaseReady c = true → ∃ u, exec .effectRelease s = .next u ∧ (u.core c).relq = rest ∧ (u.core c).lastRel = some s.cycle ∧
      (l.home = .core c → (∀ p ∈ s.pending, p.chan ≠ .access c r.serial (.core c)) → (∀ e ∈ s.wreqs, e.2.req.core ≠ c) →
        u.mem = memWrite s.mem l.key (bs.map some)) ∧
      (l.home ≠ .core c → u.mem = s.mem ∧ ∃ q ∈ u.pending, q.chan = .access c r.serial l.home ∧ ∃ m, q.ev = .storePerform m ∧
        m.loc = l ∧ m.op = .store (bs.map some) false ∧ m.sid = r.sid))) ∧
  (∀ (s : State) (c : CoreId) (r : Released) (rest : List Released) (a v : Word) (sc : Nat) (l : Loc),
    (s.core c).relq = r :: rest → r.buf.eff = .push a v sc l →
    (s.arg = .effectRelease c → exec .effectRelease s = .next s) ∧
    (s.arg = .pushSend c →
      ((∃ o ∈ (s.core c).outs, o.serial = r.serial ∧ o.data = true ∧ inScope c sc o.home = true) → exec .pushSend s = .next s) ∧
      ((∀ o ∈ (s.core c).outs, o.serial = r.serial → o.data = true → inScope c sc o.home = false) → s.releaseReady c = true →
        r.buf.probes = [] → l.home ≠ .core c → ∃ u, exec .pushSend s = .next u ∧ u.mem = s.mem ∧ (u.core c).relq = rest ∧
          ∃ q ∈ u.pending, ∃ m, q.ev = .queueSettle m ∧ m.loc = l ∧ m.op = .pushSettle v)))

/-- R244 to R246: a fence and a drain retire once what they wait for is performed; a `migr` then frees its context and sends its
packet, which holds the registers, predicates, PC and flags of the thread. R197, R198, R276: pre-emption of a READY context
whose instruction has retired discards its reach and suspends it, unless it is shielded; of one in a wait or whose instruction
is under way it stays pending. It ends in READY. A resolved page fault wakes the thread that took it. What a pre-emption does
to a thread that is suspended already is the model's reading (log 69). R103, R107, R190: a probe's answer is recorded in its
effect, and a boundary that waited for it goes on; one that answers an earlier attempt of the reach changes nothing. The
answer a `send` waits for the route of comes after every probe of the reach: its control word is checked, its barge enters the
reach where there is room, or the thread meets the fault. That this answer comes last is the model's reading (log 119), and so
is what a thread's earlier attempt still gets (log 69). -/
def Obligations.WaitsAndPreemption : Prop :=
  (∀ (s : State) (t : ThreadId), let x := s.ctx t
    (∀ n, s.arg = .fenceDone t → x.status = .running (.fence n) → exec .fenceDone s = .next
      (if s.fenceClear t n then s.setCtx t { x with status := .ready } else s)) ∧
    (s.arg = .drainDone t → x.status = .running .drain → exec .drainDone s = .next
      (if (s.core t.core).drained x.serial then s.setCtx t { x with status := .ready } else s)) ∧
    (∀ d, s.arg = .migrShip t → x.status = .running .ship → x.shipTo = some d →
      ((s.core t.core).drained x.serial = false → exec .migrShip s = .next s) ∧
      ((s.core t.core).drained x.serial = true → ∃ u, exec .migrShip s = .next u ∧ u.mem = s.mem ∧ (u.ctx t).status = .free ∧
        ∃ p it, ⟨.barge (.core t.core) d x.prio, s.cycle, .bargeArrival d (.core t.core) it⟩ ∈ u.pending ∧ it.load = .packet p ∧
          p.h = x.regs.toList ∧ p.pw = x.pw ||| 1 ∧ p.pc = x.pc ∧ p.fstat = x.fstat ∧ p.sid = x.sid ∧ p.litBase = x.lit))) ∧
  (∀ (s : State) (t : ThreadId), let x := s.ctx t
    (s.arg = .preemption t → x.status = .free → exec .preemption s = .next s) ∧
    (s.arg = .preemption t → x.status = .ready → x.nextIssue ≤ s.cycle → x.shield = false → x.buf = [] → x.reachcnt + 1 ≤ x.snap.reachlim →
      ∃ u, exec .preemption s = .next u ∧ u.mem = s.mem ∧ (u.ctx t).status = .suspended ∧ (u.ctx t).shield = true ∧
        (u.ctx t).preempted = true ∧ (u.ctx t).regs = x.snap.regs ∧ (u.ctx t).pc = x.snap.entry ∧ (u.ctx t).reachcnt = x.reachcnt + 1) ∧
    (s.arg = .preemption t → (x.status = .ready ∧ (x.shield = true ∨ s.cycle < x.nextIssue) ∨ x.status = .loadWait ∨ x.status = .mwait ∨ ∃ n, x.status = .parkWait n) →
      exec .preemption s = .next (s.setCtx t { x with preemptPending := true })) ∧
    (s.arg = .preemption t → x.status = .suspended → exec .preemption s = .next (s.setCtx t
      (if x.shield then { x with preemptPending := !x.preempted } else { x with preempted := true, preemptPending := false }))) ∧
    (s.arg = .preemptionEnd t → exec .preemptionEnd s = .next (s.setCtx t { x with
      preemptPending := false, preempted := false,
      status := (if x.status = .suspended ∧ x.faulted = false then .ready else x.status) })) ∧
    (∀ n e, s.arg = .faultResume (.thread t n) →
      s.cores.find? (fun e => e.2.resumes.any (fun r => r.2.contains (.thread t n) && e.2.drained r.1)) = some e →
      x.serial = n → x.faulted = true → ∃ u, exec .faultResume s = .next u ∧ u.mem = s.mem ∧ (u.ctx t).faulted = false ∧
        (u.ctx t).status = (if x.preempted then x.status else .ready))) ∧
  (∀ (s : State) (t : ThreadId) (n i p : Nat) (a : XAns), s.arg = .probeAnswer t n i p a →
    let x := s.ctx t
    let y := x.setProbe i p a.state
    (x.epoch ≠ n ∨ x.status = .free → exec .probeAnswer s = .next s) ∧
    (x.epoch = n → x.status = .ready → exec .probeAnswer s = .next (s.setCtx t y)) ∧
    (∀ b, x.epoch = n → x.status = .running (.commit b) → exec .probeAnswer s = .next ((s.setCtx t y).commitStep t)) ∧
    (∀ b va, x.epoch = n → x.status = .running (.route b va) →
      let at_ : Word := fld 2 62 ||| BitVec.ofNat 64 va
      (i ≠ x.buf.length → exec .probeAnswer s = .next (s.setCtx t y)) ∧
      (i = x.buf.length →
        (∀ l, a = .ok l → ctlForm s x.sid 1 false b.ctl = true → x.room = .ok () → exec .probeAnswer s = .next (s.setCtx t
          { x with status := .ready, buf := x.buf ++ [⟨.send b (.global va), [{ va := va, acc := .route, ans := .ok l }]⟩] })) ∧
        (∀ l, a = .ok l → ctlForm s x.sid 1 false b.ctl = false → exec .probeAnswer s = .next
          ((s.onCtx t Ctx.back).stop t ⟨.illegalForm, none⟩ (s.lastWord t))) ∧
        (a = .nack → exec .probeAnswer s = .next (s.pageFault t at_ (s.lastWord t))) ∧
        (a = .access → exec .probeAnswer s = .next ((s.onCtx t Ctx.back).endThread t .access at_ (s.lastWord t))))))

/-- R219 to R228, R236: what a home does with a load, a store and an atomic: the load changes no byte, the store writes its named
bytes, the atomic replaces its word in one access and deposits the old value; each is answered. What a home does for a thread
keeps the memory's form. R227, R228: the new value of each atomic. R142: a `join` at its record's home counts one arrival: the
number still awaited is what its thread gets, and a record that awaits none gives all ones and is unchanged. -/
def Obligations.HomesPerform : Prop :=
  (∀ (s : State) (r : MemReq),
    (∀ n t (k : Await) i, s.arg = .loadPerform r → r.op = .load n → r.asker = .load t k i → ∃ u, exec .loadPerform s = .next u ∧ u.mem = s.mem ∧
      u.pending = s.pending ++ [⟨.none, s.cycle, .loadReply t k i (.data (s.bytes r.loc n) (s.poisoned r.loc n))⟩]) ∧
    (∀ bs bad c k, s.arg = .storePerform r → r.op = .store bs bad → r.asker = .effect c k → ∃ u, exec .storePerform s = .next u ∧
      u.mem = memWrite s.mem r.loc.key bs ∧ u.pending = s.pending ++ [⟨.none, s.cycle, .storeAck c k⟩]) ∧
    (∀ op b x c k t d g, s.arg = .atomicPerform r → r.op = .atomic op b x → r.asker = .effect c k → r.dep = some (t, d, g) →
      s.poisoned r.loc op.width = false →
      let old : Word := BitVec.ofNat 64 (natOf (s.bytes r.loc op.width))
      ∃ u, exec .atomicPerform s = .next u ∧
        u.mem = (if op = .cas ∧ old ≠ b then s.mem
                 else memWrite s.mem r.loc.key ((bytesOf op.width (atomicNew op old b x).toNat).map some)) ∧
        (∃ q ∈ u.pending, ∃ y, q.ev = .deposit t.core y ∧ y.slot = t.slot ∧ y.first = d ∧ y.vals = [old] ∧ y.gen = g) ∧
        ⟨.none, s.cycle, .storeAck c k⟩ ∈ u.pending) ∧
    (∀ i t, (i = .loadPerform ∧ s.arg = .loadPerform r) ∨ (i = .storePerform ∧ s.arg = .storePerform r) ∨
        (i = .atomicPerform ∧ s.arg = .atomicPerform r) ∨ (i = .joinPerform ∧ s.arg = .joinPerform r) ∨
        (i = .queueReserve ∧ s.arg = .queueReserve r) ∨ (i = .queueSettle ∧ s.arg = .queueSettle r) →
      (∃ q k n, r.asker = .load q k n) ∨ (∃ q k, r.asker = .reserve q k) ∨ (∃ c k, r.asker = .effect c k) ∨ r.asker = .none →
      Memory.wf s.mem → exec i s = .next t → Memory.wf t.mem) ∧
    (∀ c k, s.arg = .storeAck c k → exec .storeAck s = .next (s.setCore c { s.core c with outs :=
      ((s.core c).outs.map (fun o => if o.rel = k then { o with need := o.need - 1 } else o)).filter (fun o => o.need ≠ 0) }))) ∧
  (∀ (old b c : Word),
    atomicNew .add old b c = BitVec.ofNat 64 (old.toNat + b.toNat) ∧ atomicNew .and old b c = old &&& b ∧
    atomicNew .or old b c = old ||| b ∧ atomicNew .xor old b c = old ^^^ b ∧
    (atomicNew .max old b c).toInt = max old.toInt b.toInt ∧ (atomicNew .min old b c).toInt = min old.toInt b.toInt ∧
    atomicNew .xchg old b c = b ∧ atomicNew .cas old b c = (if old = b then c else old) ∧
    (atomicNew .fadd old b c).toNat = (fp32.add .rne (old.toNat % 2 ^ 32) (b.toNat % 2 ^ 32)).1 % 2 ^ 64 ∧
    ∀ i, i < 4 → (atomicNew .badd old b c).toNat / 2 ^ (16 * i) % 2 ^ 16 =
      (bf16.add .rne (old.toNat / 2 ^ (16 * i) % 2 ^ 16) (b.toNat / 2 ^ (16 * i) % 2 ^ 16)).1 % 2 ^ 16) ∧
  (∀ (s : State) (r : MemReq) (c : CoreId) (k : Nat) (t : ThreadId) (d : Nat) (g : BitVec 4) (q : Dest),
    s.arg = .joinPerform r → r.op = .join → r.asker = .effect c k → r.dep = some (t, d, g) → s.poisoned r.loc 16 = false →
    let w0 : Word := BitVec.ofNat 64 (natOf (s.bytes r.loc 8))
    let w1 : Word := BitVec.ofNat 64 (natOf (s.bytes (r.loc.plus 8) 8))
    let n := w0.toNat % 2 ^ 30
    let home : CoreId := match r.loc.home with | .core c => c | _ => (r.origin.map Origin.core).getD (.ec 0 0)
    bitsN w0 63 62 = 0 → ctlCont w1 = false → ctlCount w1 ≤ 1 →
    checkBarge s home 0 r.sid (w0 &&& ~~~(fld (2 ^ 30 - 1) 0)) w1 = .ok q →
    ∃ u, exec .joinPerform s = .next u ∧
      (∃ p ∈ u.pending, ∃ y, p.ev = .deposit t.core y ∧ y.first = d ∧
        y.vals = [if n = 0 then BitVec.allOnes 64 else BitVec.ofNat 64 (n - 1)]) ∧
      u.mem = (if n = 0 then s.mem else memWrite s.mem r.loc.key
        ((bytesOf 8 ((w0 &&& ~~~(fld (2 ^ 30 - 1) 0)) ||| fld (n - 1) 0).toNat).map some)))

/-- R229 to R234: a queue at its home. A push reserves a slot where one is free and a pop the oldest entry; the settle of a push
writes its value at the tail and turns the reservation into an entry. R119, R125, R126, R195, R201, R222, R223: the reply of a
one-piece load writes its register, and its thread is READY in the next cycle, or SUSPENDED where a pre-emption is pending
that no shield holds off; a NACK is a page fault, a fault ends the thread, poison discards the reach. A reply that no wait of
this attempt takes writes nothing; the data of one whose generation has passed count as dropped (log 128). A load wait that
ends while a pre-emption waits leaves the thread suspended where it is (log 152). R220: the snoop filter. A companion access
records its line, and evicts the oldest at 16,384 lines; a recall takes a line out. -/
def Obligations.QueuesAndReplies : Prop :=
  (∀ (s : State) (r : MemReq) (t : ThreadId) (k : Await), s.poisoned r.loc 32 = false → qcheck r.loc (s.qhead r.loc) = none →
    let q := s.qhead r.loc
    let reply (a : Ans) : Pend := ⟨.none, s.cycle, .loadReply t k 0 a⟩
    (s.arg = .queueReserve r → r.asker = .reserve t k → r.op = .pushReserve →
      (q.used + q.pushres < q.cap → ∃ u, exec .queueReserve s = .next u ∧ u.mem = (s.setQhead r.loc { q with pushres := q.pushres + 1 }).mem ∧
        u.pending = s.pending ++ [reply (.reserved r.loc 0)]) ∧
      (q.cap ≤ q.used + q.pushres → ∃ u, exec .queueReserve s = .next u ∧ u.mem = s.mem ∧ u.pending = s.pending ++ [reply .refused])) ∧
    (s.arg = .queueReserve r → r.asker = .reserve t k → r.op = .popReserve →
      s.poisoned (r.loc.plus (32 + 8 * (q.head % q.cap))) 8 = false →
      (q.popres = 0 → 0 < q.used → ∃ u, exec .queueReserve s = .next u ∧ u.mem = (s.setQhead r.loc { q with popres := 1 }).mem ∧
        u.pending = s.pending ++ [reply (.reserved r.loc (BitVec.ofNat 64 (natOf (s.bytes (r.loc.plus (32 + 8 * (q.head % q.cap))) 8))))]) ∧
      (q.popres ≠ 0 ∨ q.used = 0 → ∃ u, exec .queueReserve s = .next u ∧ u.mem = s.mem ∧ u.pending = s.pending ++ [reply .refused])) ∧
    (∀ v, s.arg = .queueSettle r → r.asker = .none → r.op = .pushSettle v → q.pushres ≠ 0 → exec .queueSettle s = .next
      (((s.recall (r.loc.plus (32 + 8 * (q.tail % q.cap))) 8 false).store (r.loc.plus (32 + 8 * (q.tail % q.cap)))
        (bytesOf 8 v.toNat)).setQhead r.loc { q with tail := (q.tail + 1) % 2 ^ 64, pushres := q.pushres - 1 })) ∧
    (s.arg = .queueSettle r → r.asker = .none → r.op = .popSettle → q.popres ≠ 0 → exec .queueSettle s = .next
      (s.setQhead r.loc { q with head := (q.head + 1) % 2 ^ 64, popres := 0 }))) ∧
  (∀ (s : State) (t : ThreadId) (n : Await) (i : Nat) (a : Ans) (l : LoadWait), s.arg = .loadReply t n i a →
    let x := s.ctx t
    (x.status ≠ .loadWait ∨ x.epoch ≠ n.epoch →
      (∀ bs bad, a = .data bs bad → x.status ≠ .free → x.gen = n.gen → exec .loadReply s = .next s) ∧
      (∀ bs bad, a = .data bs bad → x.status = .free ∨ x.gen ≠ n.gen → exec .loadReply s = .next
        (s.setCore t.core { s.core t.core with stale := (s.core t.core).stale + 1 })) ∧
      ((∀ bs bad, a ≠ .data bs bad) → exec .loadReply s = .next s)) ∧
    (x.epoch = n.epoch → x.status = .loadWait → x.loadWait = some l →
      (∀ bs d m p, a = .data bs false → l.kind = .scalar d m → l.pieces = [p] → i = 0 → x.buf = [] → bs.length = m →
        let y := x.wr d (BitVec.ofNat 64 (natOf bs))
        (x.preemptPending = false ∨ x.shield = true → exec .loadReply s = .next (s.setCtx t
          { y with status := .ready, loadWait := none, nextIssue := max x.nextIssue (s.cycle + 1) })) ∧
        (x.preemptPending = true → x.shield = false → exec .loadReply s = .next (s.setCtx t
          { y with status := .suspended, loadWait := none, preempted := true, preemptPending := false }))) ∧
      (∀ bs p q, a = .data bs false → l.pieces = [p, q] → i = 0 → q.got = none → exec .loadReply s = .next
        (s.setCtx t { x with loadWait := some { l with pieces := [{ p with got := some bs }, q] } })) ∧
      (∀ bs p, a = .data bs true → l.pieces[i]? = some p → exec .loadReply s = .next (s.consumePoison t (some p.addr) (s.lastWord t))) ∧
      (∀ p, a = .nack → l.pieces[i]? = some p → exec .loadReply s = .next (s.pageFault t p.addr (s.lastWord t))) ∧
      (∀ c p, a = .fault c → l.pieces[i]? = some p →
        exec .loadReply s = .next ((s.onCtx t Ctx.back).endThread t c p.addr (s.lastWord t))))) ∧
  (∀ (s : State) (die e line : Nat) (r : CompReq),
    let x := hbmLine r.p
    (s.arg = .snoopRecall die e line false → ∃ u, exec .snoopRecall s = .next u ∧ u.mem = s.mem ∧ line ∉ tget u.snoop [] (die, e) ∧
      (∀ k, k ≠ line → (k ∈ tget u.snoop [] (die, e) ↔ k ∈ tget s.snoop [] (die, e)))) ∧
    (s.arg = .companionRequest r → ∃ u, exec .companionRequest s = .next u ∧ x.2 ∈ tget u.snoop [] x.1 ∧
      ((tget s.snoop [] x.1).length ≤ 16384 → (tget u.snoop [] x.1).length ≤ 16384) ∧
      (r.write = none → u.mem = s.mem) ∧
      (∀ bs, r.write = some bs → u.mem = memWrite s.mem r.p (bs.map some))))

/-- R274: what a leaf answers an access. R270 to R272: a station. A hit answers at once and changes no station; a miss joins the
oldest walk that may be to its page, or starts a walk at the job's root while fewer than 64 are under way, or waits; a walk
goes down one level, keeping the misses of the page it may still end in, and ends in a NACK or a cached leaf for all that wait
for it. R278, R279: a shootdown of all pages of a job leaves no entry of it in the stations of its dies, and SHOT follows once
what was released with an old translation is performed, for a host's barge and for a leaf the lockkeeper changes itself. -/
def Obligations.Translation : Prop :=
  (∀ (e : Word) (size va : Nat) (acc : Acc),
    let p := bitsN e 51 12 * 4096 + va % 2 ^ (16 + 10 * size)
    let write : Prop := acc = .write ∨ acc = .queue
    let only : Prop := acc = .queue ∨ acc = .route
    (e.getLsbD 4 = true → leafAnswer e size va acc = .access) ∧
    (write → e.getLsbD 1 = false → leafAnswer e size va acc = .access) ∧
    (only → e.getLsbD 3 = true → leafAnswer e size va acc = .access) ∧
    (e.getLsbD 4 = false → (write → e.getLsbD 1 = true) → (only → e.getLsbD 3 = false) →
      leafAnswer e size va acc = .ok (if e.getLsbD 3 then .comp p else .hbm p))) ∧
  (∀ (s : State) (n : Nat) (r : XReq),
    let st := s.station n
    let into (i : Instr) : Prop :=
      (∀ e, st.cache.find? (fun e => e.covers r.sid r.va) = some e →
        exec i s = .next (s.xlateAnswer r (leafAnswer e.entry e.size r.va r.acc))) ∧
      (st.cache.find? (fun e => e.covers r.sid r.va) = none →
        (∀ x, st.walks.find? (fun w => w.shares r.sid r.va) = some x → exec i s = .next (s.setStation n { st with
          walks := st.walks.map (fun w => if w.id = x.id then { w with waiters := w.waiters ++ [r] } else w) })) ∧
        ((∀ w ∈ st.walks, w.shares r.sid r.va = false) →
          (st.walks.length < 64 → exec i s = .next (s.setStation n { st with
            walks := st.walks ++ [⟨st.nextId, r.sid, r.va, 1, (s.job r.sid).root, [r]⟩], nextId := st.nextId + 1, misses := st.misses + 1 })) ∧
          (64 ≤ st.walks.length → st.waitq.length < 1024 → exec i s = .next (s.setStation n { st with waitq := st.waitq ++ [r] })) ∧
          (64 ≤ st.walks.length → 1024 ≤ st.waitq.length → exec i s = .next
            ((s.setStation n { st with retries := st.retries + 1 }).post .none (.missRetry n r) 64))))
    (s.arg = .translation n r → into .translation) ∧ (s.arg = .missRetry n r → into .missRetry) ∧
    (∀ id w, s.arg = .pageWalk n id → st.walks.find? (fun w => w.id = id) = some w →
      let l : Loc := .hbm (w.table + 8 * levelIndex w.va w.level)
      let e : Word := BitVec.ofNat 64 (natOf (s.bytes l 8))
      let ended := st.walks.filter (fun x => x.id ≠ w.id)
      s.poisoned l 8 = false →
      (e.getLsbD 0 = false → exec .pageWalk s = .next
        ((w.waiters.foldl (fun s r => s.xlateAnswer r .nack) (s.setStation n { st with walks := ended })).takeWaiting n)) ∧
      (e.getLsbD 0 = true → entryForm s.part e w.level = true → e.getLsbD 2 = false →
        (∀ r ∈ w.waiters, ({ w with level := w.level + 1 } : Walk).shares r.sid r.va = true) → exec .pageWalk s = .next
        (s.setStation n { st with walks := st.walks.map (fun x =>
          if x.id = w.id then { w with level := w.level + 1, table := bitsN e 51 12 * 4096 } else x) })) ∧
      (e.getLsbD 0 = true → entryForm s.part e w.level = true → e.getLsbD 2 = true → st.cache.length < 4096 →
        let y : XEntry := ⟨w.sid, w.va / pageBytes (4 - w.level) * pageBytes (4 - w.level), 4 - w.level, e⟩
        exec .pageWalk s = .next
          ((w.waiters.foldl (fun s r => s.xlateAnswer r (leafAnswer e (4 - w.level) r.va r.acc))
            (s.setStation n { st with walks := ended, cache := st.cache ++ [y] })).takeWaiting n)))) ∧
  (∀ (s : State) (ctl p0 p1 : Word) (id : Nat) (x : Shoot), s.lkDown 0 = false →
    (s.arg = .shootdown ctl p0 p1 → p0.toNat < 2 ^ 18 → p1.toNat < 2 ^ 57 → bitsN p0 17 16 = 3 →
      ∃ u, exec .shootdown s = .next u ∧ u.mem = s.mem ∧
        ∀ h ∈ (s.job (bitsN p0 15 0)).hives, h.die < 2 → ∀ n, 32 * h.die ≤ n → n < 32 * h.die + 32 →
          ∀ e ∈ (u.station n).cache, e.sid ≠ bitsN p0 15 0) ∧
    (s.arg = .shot id → tfind s.shoots id = some x →
      (s.shotReady x = false → exec .shot s = .next s) ∧
      (s.shotReady x = true → x.host = false → (s.job x.sid).killDies = [] → exec .shot s = .next
        (({ s with shoots := tdel s.shoots id } : State).eventJob 0 0x005 x.sid [fld x.sid 0, x.va])) ∧
      (s.shotReady x = true → x.host = true → exec .shot s = .next
        (({ s with shoots := tdel s.shoots id } : State).eventJob 0 0x005 x.sid [fld x.sid 0, x.va]).hostNext)))

/-- R285, R293, R314, R333: arcs. A data token takes its consumer's input latch and is a head at once; an acknowledgement frees
the producer's output slot. What an access of a memory node gave becomes its rule's token, poisoned where the data or the
address token is, in its output slot as soon as that is free; a plane that a cut has recorded keeps it. R395: the sequencer.
With no turn left on the current plane it moves to the next eligible one in cyclic order and gives it its turn; with none
eligible it idles. Memory is unchanged. R396: `gctx` at its tile: the weights, the boost, and the skip counts at zero. -/
def Obligations.ArcsAndSequencers : Prop :=
  (∀ (s : State) (a : ArcId) (v : Token),
    (s.arg = .tokenArrival a v → v.marker = false → (s.plane a.dst).isects = [] → exec .tokenArrival s = .next
      (s.setPlane a.dst { s.plane a.dst with latch := tput (s.plane a.dst).latch a.ch ⟨v, s.cycle⟩ })) ∧
    (s.arg = .tokenArrival a v → v.marker = true → exec .tokenArrival s = .next
      (s.setPlane a.dst { s.plane a.dst with mark := tput (s.plane a.dst).mark a.ch v })) ∧
    (∀ p c, s.arg = .arcAck a → tfind (s.plane a.dst).src a.ch = some (.arc p c) → (s.plane p).accs = [] →
      exec .arcAck s = .next (s.setPlane p { s.plane p with outs := tdel (s.plane p).outs c, freed := tput (s.plane p).freed c s.cycle })) ∧
    (∀ r seq x bs bad, s.arg = .memNodeCompletion r seq (.data bs bad) →
      (s.plane r.plane).accs.find? (fun x => x.seq = seq && x.slot = r.slot) = some x → (∃ n, x.op = .load n) → x.late = false → s.silent r = false →
      (s.plane r.plane).recorded = true →
      exec .memNodeCompletion s = .next (s.setPlane r.plane { s.plane r.plane with
        accs := (s.plane r.plane).accs.map (fun y => if y.seq = seq then { y with st := .done { data := BitVec.ofNat 128 (natOf bs), poison := bad || x.tok.poison } } else y) })) ∧
    (∀ r seq x bs bad w z, s.arg = .memNodeCompletion r seq (.data bs bad) → let p := s.plane r.plane
      p.accs = [x] → x.seq = seq → x.slot = r.slot → (∃ n, x.op = .load n) → x.late = false → p.recorded = false → s.held r.plane.elem = false →
      s.rule r = some (w, z) → wT w = 0 → (wD w).toNat ≤ 7 → p.free (wD w).toNat = true →
      (∀ i n, tfind p.dst (wD w).toNat ≠ some (.coll i n)) →
      (∀ a c, tfind p.dst (wD w).toNat = some (.arc a c) → a.elem.tile ≠ r.plane.elem.tile) →
      ∃ u, exec .memNodeCompletion s = .next u ∧ u.mem = s.mem ∧ (u.plane r.plane).accs = [] ∧
        tfind (u.plane r.plane).outs (wD w).toNat = some { data := BitVec.ofNat 128 (natOf bs), poison := bad || x.tok.poison })) ∧
  (∀ (s : State) (t : TileId), let x := s.tile t
    s.arg = .planeSwitch t → x.chosen = [] → x.last ≠ some s.cycle → x.left = 0 ∨ s.eligible t x.cur = false →
    ((∀ e, e < 4 → s.eligible t e = false) → exec .planeSwitch s = .next (s.setTile t { x with idle := true, last := some s.cycle })) ∧
    (∀ k, k < 4 → s.eligible t ((x.cur + 1 + k) % 4) = true → (∀ j, j < k → s.eligible t ((x.cur + 1 + j) % 4) = false) →
      ∃ u, exec .planeSwitch s = .next u ∧ u.mem = s.mem ∧ (u.tile t).cur = (x.cur + 1 + k) % 4 ∧ (u.tile t).idle = false ∧
        (u.tile t).left = s.turn t ((x.cur + 1 + k) % 4) - 1 ∧ (u.tile t).chosen = s.choose t ((x.cur + 1 + k) % 4))) ∧
  (∀ (s : State) (t : TileId) (w : Word) (c : CoreId) (k : Nat), s.arg = .gctxPerform t w c k → exec .gctxPerform s = .next
    ((s.setTile t { s.tile t with
      w := (List.range 4).map (fun i => w.toNat / 2 ^ (8 * i) % 256), boost := w.getLsbD 32, skips := [0, 0, 0, 0], left := 0 }).performed c k))

/-- R315, R320, R321, R323: what a generator does with the token at its write port. One of any kind waits while the slot being
filled is full; DATA is stored at the next word of the slot being filled, which sets the full bit at its last word; at a FIFO
any kind is stored at the tail; CTRL becomes the program; EOS closes the buffer. The port is then empty. R323 to R327: a
generator in RUN with a full slot begins a pass, and places its first word; start and stop tokens move it between RUN and
IDLE, but a FIFO; a closed buffer with nothing left reopens with its indices at 0. The 4 cycles of a word's way to its port
are the model's reading (log 94). R328, R329: a freed-slot notice goes to the engine bound as the ring's producer, and to
nobody where none is. -/
def Obligations.StoreTilesMove : Prop :=
  (∀ (s : State) (g : GenId) (c : GenCfg) (v : Token), let x := s.gen g
    s.arg = .writePortToken g → x.cfg = some c → x.wport = some v →
    (s.portReady g = false → exec .writePortToken s = .next s) ∧
    (c.recd.mode ≠ 1 → x.fill ∈ x.full → exec .writePortToken s = .next s) ∧
    (s.portReady g = true → c.recd.mode = 1 → c.reader = false → exec .writePortToken s = .next
      ((s.setGen g { x with wport := none, kinds := x.kinds ++ [v.kind] }).store
        (wordLoc g c.recd ((x.head + x.kinds.length) % c.recd.count) 0) (bytesOf 16 v.data.toNat) v.poison)) ∧
    (s.portReady g = true → c.recd.mode ≠ 1 → x.cons = none →
      (v.kind = .data → x.part + 1 ≠ c.recd.words → exec .writePortToken s = .next ((s.setGen g { x with wport := none, part := x.part + 1 }).store
        (wordLoc g c.recd x.fill x.part) (bytesOf 16 v.data.toNat) v.poison)) ∧
      (v.kind = .data → x.part + 1 = c.recd.words → exec .writePortToken s = .next ((s.setGen g { x with
          wport := none, full := x.full ++ [x.fill], fill := (x.fill + 1) % c.recd.count, part := 0 }).store
        (wordLoc g c.recd x.fill x.part) (bytesOf 16 v.data.toNat) v.poison)) ∧
      (v.kind = .ctrl → exec .writePortToken s = .next (s.setGen g { x with wport := none, prog := some v.data })) ∧
      (v.kind = .eos → x.part = 0 → exec .writePortToken s = .next (s.setGen g { x with wport := none, closed := true })) ∧
      (v.kind = .eos → x.part ≠ 0 → exec .writePortToken s = .next (s.setGen g { x with
          wport := none, full := x.full ++ [x.fill], fill := (x.fill + 1) % c.recd.count, part := 0, closed := true })))) ∧
  (∀ (s : State) (g : GenId) (c : GenCfg), let x := s.gen g
    x.cfg = some c →
    (s.arg = .towpathStart g → exec .towpathStart s = .next (if c.recd.mode = 1 then s else s.setGen g { x with run := true })) ∧
    (s.arg = .towpathStop g → exec .towpathStop s = .next (if c.recd.mode = 1 then s else s.setGen g { x with run := false })) ∧
    (s.arg = .passStart g → s.passReady g = false → exec .passStart s = .next s) ∧
    (s.arg = .passStart g → c.reader = true → x.run = true → x.pass = none → x.passable c.recd = true → x.recorded = false →
      x.rport = none → c.recd.mode ≠ 1 → 0 < (x.program c.recd).e2 → ∃ u, exec .passStart s = .next u ∧ u.mem = s.mem ∧
        (u.gen g).pass = some ((x.program c.recd).next (0, 0, 0)) ∧
        (u.gen g).rport = some ⟨s.wordTok (passLoc g c.recd x (x.program c.recd) (0, 0, 0)) .data, s.cycle + 4⟩) ∧
    (s.arg = .bufferReopen g → s.reopenReady g = false → exec .bufferReopen s = .next s) ∧
    (s.arg = .bufferReopen g → s.reopenReady g = true → ∃ u, exec .bufferReopen s = .next u ∧ u.mem = s.mem ∧ (u.gen g).closed = false ∧
      (u.gen g).fill = 0 ∧ (u.gen g).drain = 0 ∧ (u.gen g).part = 0 ∧
      (c.reader = true → (u.gen g).rport = some ⟨{ kind := .eos }, s.cycle + 4⟩))) ∧
  (∀ (s : State) (n : Notice) (h : HiveId), s.arg = .freedSlotNotice n →
    ((s.gen n.gen).prod = none → exec .freedSlotNotice s = .next s) ∧
    ((s.gen n.gen).prod = some (.array h) → (s.joint h).runs = [] → exec .freedSlotNotice s = .next
      (s.setJoint h { s.joint h with notes := (s.joint h).notes ++ [(n.gen, n.slot)] })))

/-- R348, R349: the joint barrier. When all eight queue heads are `gang` and the op queue has room they leave together; equal
shared fields queue one op, and others raise GANG_MISMATCH for each member and queue none. An op at the head is checked once;
it waits while a swap that has passed one of its generators goes on. R350 to R354: an op. It starts once checked, once its
flag is raised (which it clears), and once no slice instruction uses its bank; a block starts once its slots are full and
takes its cycles; at its end every member's slice takes the block's products; after the last block the slices have the op's
kind and number, and the op leaves the queue. R96, R97: a block of integers adds its exact products modulo 2^32 and says where
that left the range. R348, R355 to R359: slice instructions leave their queue in order. `jzero` clears a slice at once; a
drain whose writes are all performed ends and sends its towpath token; `jdrain.o` adds its partial slots in ascending order
and empties them. -/
def Obligations.JointArrayRuns : Prop :=
  (∀ (s : State) (h : HiveId), let j := s.joint h
    let rest : Tbl Nat (List JEntry) := j.queues.map (fun e => (e.1, e.2.drop 1))
    (s.arg = .jointBarrier h → j.gangHeads = none → exec .jointBarrier s = .next s) ∧
    (∀ hs, s.arg = .jointBarrier h → j.gangHeads = some hs → 4 ≤ j.ops.length → exec .jointBarrier s = .next s) ∧
    (∀ hs r o, s.arg = .jointBarrier h → j.gangHeads = some hs → hs.head? = some (r, o) → j.ops.length < 4 →
      ((∀ e ∈ hs, sharedOf e.1 = sharedOf r) → exec .jointBarrier s = .next
        (s.setJoint h { j with queues := rest, ops := j.ops ++ [{ recs := hs.map Prod.fst, origins := hs.map Prod.snd }] })) ∧
      ((∃ e ∈ hs, sharedOf e.1 ≠ sharedOf r) → ∃ u, exec .jointBarrier s = .next u ∧ u.mem = s.mem ∧ u.slices = s.slices ∧
        u.joint h = { j with queues := rest } ∧ ∃ h2 : Nat → Word, u = (List.range 8).foldl (fun s m => match hs[m]? with
          | some e => s.report e.2 .gangMismatch 3 (h2 m)
          | none => s) (s.setJoint h { j with queues := rest }))) ∧
    (∀ o l, s.arg = .opHeadCheck h → j.ops = o :: l → o.checked = true ∨ (o.gens h).any s.reconfPassed = true → exec .opHeadCheck s = .next s) ∧
    (∀ o l, s.arg = .opHeadCheck h → j.ops = o :: l → o.checked = false → (o.gens h).any s.reconfPassed = false →
      (∀ d, o.headFault s h = some d → ∃ u, exec .opHeadCheck s = .next u ∧ u.mem = s.mem ∧ u.slices = s.slices ∧ u.joint h = { j with ops := l }) ∧
      (o.headFault s h = none → ∃ u, exec .opHeadCheck s = .next u ∧ u.mem = s.mem ∧ u.slices = s.slices ∧
        u.joint h = { j with ops := { o with checked := true } :: l, partials := (j.partials ++ (o.parts h).map Prod.snd).eraseDups } ∧ ∀ e ∈ o.reads h, (u.gen e.1).cons = some (.array h)))) ∧
  (∀ (s : State) (h : HiveId) (o : Op) (l : List Op), let j := s.joint h
    j.ops = o :: l →
    (s.arg = .opStart h → (j.startReady = false ∨ thas s.moves h = true) → exec .opStart s = .next s) ∧
    (s.arg = .opStart h → o.checked = true → o.started = false → (o.rec0.opt 4 = true → j.shard.getLsbD o.rec0.shard = true) →
      (∀ r ∈ j.runs, r.2.entry.eff.bank ≠ o.rec0.bank) → thas s.moves h = false →
      ∃ u, exec .opStart s = .next u ∧ u.mem = s.mem ∧ u.joint h = { j with
        ops := { o with started := true } :: l, shard := (if o.rec0.opt 4 then j.shard &&& ~~~(1#16 <<< o.rec0.shard) else j.shard) } ∧
        (o.rec0.mode ≠ 1 → u.slices = s.slices) ∧ (o.rec0.mode = 1 → ∀ m, m < 8 → (u.slice h m o.rec0.bank).vals = [])) ∧
    (s.arg = .blockStart h → s.blockReady h = true → exec .blockStart s = .next
      ((s.setJoint h { j with ops := { o with busy := true } :: l }).post .none (.blockEnd h) (opCycles o.rec0.fa))) ∧
    (s.arg = .blockStart h → s.blockReady h = false → exec .blockStart s = .next s) ∧
    (s.arg = .blockEnd h → o.busy = true → (o.blk + 1) % o.perSlot s h ≠ 0 → ∃ u, exec .blockEnd s = .next u ∧ u.mem = s.mem ∧
      u.joint h = { j with ops := { o with busy := false, blk := o.blk + 1 } :: l } ∧ u.gens = s.gens ∧
      ∀ m, m < 8 → u.slice h m o.rec0.bank = s.blockSlice h o m) ∧
    (s.arg = .opComplete h → j.endReady h = false → exec .opComplete s = .next s) ∧
    (s.arg = .opComplete h → j.endReady h = true → o.rec0.mode ≠ 1 → ∃ u, exec .opComplete s = .next u ∧ u.mem = s.mem ∧
      u.joint h = { j with ops := l } ∧ ∀ m, m < 8 → u.slice h m o.rec0.bank =
        { s.slice h m o.rec0.bank with kind := o.rec0.kind, red := decide (o.rec0.mode = 2), seq := o.rec0.seq })) ∧
  (∀ (r : OpRec) (acc : BitVec 32) (a b : List Nat) (ea eb : Nat), r.fa = 5 → a.length = 16 → b.length = 16 →
    (∀ x ∈ a, x < 256) → (∀ x ∈ b, x < 256) →
    let p := ((a.zip b).map (fun e => (BitVec.ofNat 8 e.1).toInt * (BitVec.ofNat 8 e.2).toInt)).sum
    (blockAdd r acc a b ea eb).1 = BitVec.ofInt 32 (acc.toInt + p) ∧
    ((blockAdd r acc a b ea eb).2 = if -2 ^ 31 ≤ acc.toInt + p ∧ acc.toInt + p < 2 ^ 31 then 0 else flagIovf)) ∧
  (∀ (s : State) (h : HiveId) (m : Nat) (o : Origin), let j := s.joint h
    (s.arg = .sliceStart h m → (j.sliceReady m = false ∨ thas s.moves h = true) → exec .sliceStart s = .next s) ∧
    (∀ b l, s.arg = .sliceStart h m → j.sliceReady m = true → thas s.moves h = false → tget j.queues [] m = ⟨.jzero b, o⟩ :: l →
      ∃ u, exec .sliceStart s = .next u ∧ u.mem = s.mem ∧ u.slice h m b = { seq := (s.slice h m b).seq } ∧
        tget (u.joint h).queues [] m = l ∧ tfind (u.joint h).runs m = none) ∧
    (∀ b rec n, s.arg = .jdrainComplete h m → tfind j.runs m = some ⟨⟨.jdrain b rec, o⟩, 0, true, n⟩ → (DrainRec.of rec).target = 1 →
      exec .jdrainComplete s = .next ((s.drainFin h m (DrainRec.of rec)).sliceEnd h m)) ∧
    (∀ b rec n k, s.arg = .jdrainComplete h m → tfind j.runs m = some ⟨⟨.jdrain b rec, o⟩, n + 1, true, k⟩ →
      exec .jdrainComplete s = .next s) ∧
    (∀ b g n (x : Nat × Bool × Nat), s.arg = .partialCombine h m → tfind j.runs m = some ⟨⟨.jdrainO b g n, o⟩, x.1, x.2.1, x.2.2⟩ → s.combineReady h m = false →
      exec .partialCombine s = .next s) ∧
    (∀ b g n k w z, s.arg = .partialCombine h m → tfind j.runs m = some ⟨⟨.jdrainO b g n, o⟩, k, w, z⟩ → 0 < n →
      (∀ i, i < n → i ∈ (s.gen (memberGen h m g)).full) → tget j.part 1 (memberGen h m g, 0) = 2 →
      let base := ((s.tileGen (memberGen h m g)).map StoreRec.base).getD 0
      let value (slot i : Nat) : Word := BitVec.ofNat 64 (natOf (s.bytes (.tile (memberGen h m g).tile (base + 32768 * slot + 4 * i)) 4))
      ∃ u, exec .partialCombine s = .next u ∧ u.mem = s.mem ∧ (u.slice h m b).kind = 2 ∧ tfind (u.joint h).runs m = none ∧
        (∀ i, i < n → i ∉ (u.gen (memberGen h m g)).full) ∧
        ∀ i, i < 8192 → (u.slice h m b).vals[i]? = some (BitVec.ofNat 32 (((List.range n).map (fun k => (value k i).toNat)).sum))))

/-- R370, R371: the visit order. Without the transpose option, dimension 0 varies fastest: the index vector of the k-th element
has one index below each count, and counts k in mixed radix. -/
def Obligations.HaulVisitOrder : Prop :=
  ∀ (d : Desc) (k : Nat), d.transpose = false → (∀ c ∈ d.cnt.take d.rank, c ≠ 0) → k < d.total →
    (d.index k).length = (d.cnt.take d.rank).length ∧
    (∀ (i n c : Nat), (d.index k)[i]? = some n → (d.cnt.take d.rank)[i]? = some c → n < c) ∧
    ((d.index k).zip (d.cnt.take d.rank)).foldr (fun e acc => e.1 + e.2 * acc) 0 = k

/-- R364, R372, R373, R378: a core starts its next haul. One whose pre-check fails ends with that status, moves nothing, and sends
its completion; one between two memories runs, with its one leg, and begins its accesses; one that a cut stopped goes on.
R374, R376: an answered access of a copy between two memories. The read's data are written; the write's answer counts the
element; a fault ends the haul early with its status; a NACK stalls the element and asks for the page. R365, R378, R380, R381:
a haul with nothing more to do ends: its tag is COMPLETE, its bindings end, its completion says what it moved. A cancel ends a
queued or stopped haul at once, with bit 12 of w0; of a stopped one nothing is restored any more. R382: `hslot` at its store
tile: it empties the full drain slot it names, or raises ILLEGAL_FORM. -/
def Obligations.HaulsMove : Prop :=
  (∀ (s : State) (c : CoreId) (tag : Nat) (h : Haul), s.arg = .haulStart c →
    (s.nextHaul c = none → exec .haulStart s = .next s) ∧
    (s.nextHaul c = some tag → tfind s.hauls (c, tag) = some h → h.resumed = false →
      (∀ x, ((Desc.of h.desc).ends h.x).findSome? ((Desc.of h.desc).preEnd (s.setTag c tag .running) c h.sid) = some x →
        ∃ u, exec .haulStart s = .next u ∧ u.mem = s.mem ∧ tget u.tags .free (c, tag) = .complete ∧ tfind u.hauls (c, tag) = none ∧
          u.pending = (s.unbind (.haul c tag)).pending ++
            [⟨.none, s.cycle + 1, .completionArrival c (Haul.completion { h with status := x.code, ending := true } tag)⟩]) ∧
      (((Desc.of h.desc).ends h.x).findSome? ((Desc.of h.desc).preEnd (s.setTag c tag .running) c h.sid) = none → h.x = false →
        (Desc.of h.desc).srcRing = false → (Desc.of h.desc).dstRing = false → h.stopping = false →
        exec .haulStart s = .next (((s.setTag c tag .running).setHaul c tag { h with legs := (Desc.of h.desc).legs s h.sid false }).haulPump c tag) ∧
        ∃ u, exec .haulStart s = .next u ∧ u.mem = s.mem ∧ tget u.tags .free (c, tag) = .running)) ∧
    (s.nextHaul c = some tag → tfind s.hauls (c, tag) = some h → h.resumed = true → exec .haulStart s = .next
      (((s.setTag c tag .running).setHaul c tag { h with resumed := false, stopping := false, legs := h.legs.map (Leg.resume s) }).haulPump c tag))) ∧
  (∀ (s : State) (c : CoreId) (tag k : Nat) (a : Ans) (h : Haul) (l : Leg) (st : HStage) (x y : Word),
    s.arg = .haulAccessAnswer c tag (2 * k) a → tfind s.hauls (c, tag) = some h → h.legs = [l] → h.ending = false →
    l.src = .mem x → l.dst = .mem y → l.fly.find? (fun f => f.1 = k) = some (k, st) → k < padKey →
    (∀ bs bad, a = .data bs bad → st = .reading → (l.bdst = true → (Desc.of h.desc).inside ((Desc.of h.desc).index k) = true) →
      exec .haulAccessAnswer s = .next (((s.onLeg c tag 0 (fun l => l.put k none)).haulWrite c tag 0 k bs bad).haulPump c tag)) ∧
    (∀ bs bad v b, a = .data bs bad → st = .writing v b → exec .haulAccessAnswer s = .next
      ((s.setHaul c tag { h with legs := [l.put k none], moved := h.moved + 1 }).haulPump c tag)) ∧
    (∀ z, a = .fault z → ∃ u g, exec .haulAccessAnswer s = .next u ∧ u.mem = s.mem ∧ tfind u.hauls (c, tag) = some g ∧ g.status = z.code ∧
      g.ending = true) ∧
    (a = .nack → st = .reading → exec .haulAccessAnswer s = .next
      (((s.onLeg c tag 0 (fun l => l.put k (some .readNack))).deliverFault h.origin (faultWord .pageFault 2 0 0 0 0 h.origin.rank true) 0
        ((Desc.of h.desc).addr x (Desc.of h.desc).ss ((Desc.of h.desc).index k) l.bsrc) (fld h.word.toNat 0) (some (.haul c tag (2 * k)))).haulPump c tag))) ∧
  (∀ (s : State) (c : CoreId) (tag : Nat) (h : Haul), tfind s.hauls (c, tag) = some h →
    let st := tget s.tags .free (c, tag)
    let ended (u : State) (g : Haul) : Prop := u.mem = s.mem ∧ tget u.tags .free (c, tag) = .complete ∧ tfind u.hauls (c, tag) = none ∧
      (∀ e ∈ u.gens, e.2.prod ≠ some (.haul c tag) ∧ e.2.cons ≠ some (.haul c tag)) ∧
      u.pending = (s.unbind (.haul c tag)).pending ++ [⟨.none, s.cycle + 1, .completionArrival c (g.completion tag)⟩]
    (s.arg = .haulComplete c tag → h.finished = true → st = .running → exec .haulComplete s = .next (s.haulEnd c tag) ∧
      ∃ u, exec .haulComplete s = .next u ∧ ended u h) ∧
    (s.arg = .haulComplete c tag → h.finished = false ∨ st ≠ .running → exec .haulComplete s = .next s) ∧
    (∀ rel, s.arg = .haulCancel c tag rel →
      (st = .queued ∨ st = .stopped → ∃ u, exec .haulCancel s = .next u ∧ ended u { h with cancelled := true } ∧
        u.dropped = if st = .stopped then s.dropped ++ [⟨c, tag, h.sid, h.desc⟩] else s.dropped) ∧
      (st = .queued → exec .haulCancel s = .next (((s.setHaul c tag { h with cancelled := true }).haulEnd c tag).performed c rel)) ∧
      (st = .running → h.ending = false → exec .haulCancel s = .next
        (((s.setHaul c tag { h with cancelled := true }).haulEndEarly c tag).performed c rel)) ∧
      (st = .complete → exec .haulCancel s = .next (s.performed c rel))) ∧
    ((h.completion tag).w1.toNat = h.moved % 2 ^ 40)) ∧
  (∀ (s : State) (c : CoreId) (w : Word) (o : Origin) (k : GenCfg) (rel : Nat), s.arg = .hslotPerform c w o rel →
    let g := s.ringAt o.sid w
    let x := s.gen g
    x.cfg = some k →
    (k.recd.mode = 0 → k.reader = false → x.cons = none → x.drain = bitsN w 23 16 → x.drain ∈ x.full → exec .hslotPerform s = .next ((s.performed c rel).emptyDrain g) ∧
      ∃ u, exec .hslotPerform s = .next u ∧ u.mem = s.mem ∧ (u.gen g).full = x.full.filter (· ≠ x.drain) ∧ (u.gen g).drain = (x.drain + 1) % k.recd.count) ∧
    (k.recd.mode ≠ 0 ∨ k.reader = true ∨ x.cons ≠ none ∨ x.drain ≠ bitsN w 23 16 ∨ x.drain ∉ x.full →
      exec .hslotPerform s = .next ((s.performed c rel).report o .illegalForm 2 w)))

/-- R390, R391, R393, R394: loading. A reservation that may be made leaves the instance RESERVED and answers its thread; one of an
instance that is not FREE is refused; one that would overtake operations that waited arrives again, and one where a save or a
restore works or behind an earlier operation on its place waits. The released `gload` makes it LOADING, and SHADOW once every
plane is written. R391, R398 to R400: the swap. Where an instance it names has not settled, or an earlier operation on one of
them waits, it waits. A SHADOW instance whose generators are all its own is ACTIVE at once; with an old instance to retire,
that one is SWAPPING, its nodes pass RECONF, and where no token is left over it is FREE and the new one ACTIVE. -/
def Obligations.InstancesLoadAndSwap : Prop :=
  (∀ (s : State) (g : GraphOp) (i : InstId) (n : Inst), i = s.placeInst g.origin.sid g.place →
    let r := s.newInst g.origin.sid g.place .reserved
    (s.arg = .graphReserve g → (s.ctx g.thread).awaiting g.ask = none → exec .graphReserve s = .next s) ∧
    (s.arg = .graphReserve g → (s.ctx g.thread).awaiting g.ask ≠ none → s.inTurn g = false → exec .graphReserve s = .next (s.rearrive g)) ∧
    (s.arg = .graphReserve g → (s.ctx g.thread).awaiting g.ask ≠ none → s.inTurn g = true →
      (thas s.saves i = true → exec .graphReserve s = .next (s.putOff i g)) ∧
      (s.inst i = some n → thas s.saves i = false → exec .graphReserve s = .next (s.post .none (.loadReply g.thread g.ask 0 .refused))) ∧
      (∀ j, s.inst i = none → thas s.saves i = false → s.behind [i] = some j → exec .graphReserve s = .next (s.putOff j g)) ∧
      (s.inst i = none → thas s.saves i = false → s.behind [i] = none → (s.setInst i r).judge i (s.image g.origin.sid r.image) = .no →
        exec .graphReserve s = .next (s.post .none (.loadReply g.thread g.ask 0 .refused))) ∧
      (s.inst i = none → thas s.saves i = false → s.behind [i] = none → (s.setInst i r).judge i (s.image g.origin.sid r.image) = .ok →
        ∃ u, exec .graphReserve s = .next u ∧ u.mem = s.mem ∧ u.inst i = some r ∧
          ⟨.none, s.cycle, .loadReply g.thread g.ask 0 (.reserved (.comp 0) 0)⟩ ∈ u.pending)) ∧
    (s.arg = .gloadPerform g → s.inst i = some n → n.st = .reserved → ∃ u, exec .gloadPerform s = .next u ∧ u.mem = s.mem ∧
      u.inst i = some { n with st := .loading, wave := some { op := g } } ∧ ⟨.loads i.die, s.cycle, .gloadDone i⟩ ∈ u.pending) ∧
    (∀ w, s.arg = .gloadDone i → s.inst i = some n → n.st = .loading → n.wave = some w → ∃ u, exec .gloadDone s = .next u ∧ u.mem = s.mem ∧
      u.inst i = some { n with st := .shadow, wave := none, waitq := [] } ∧
      (w.op.op < 256 → ∃ c, ⟨.barge (.lock (bitsN w.op.place 22 22)) w.op.origin.core 5, s.cycle + 1,
        .completionArrival w.op.origin.core c⟩ ∈ u.pending ∧ bitsN c.w0 22 16 = 0))) ∧
  (∀ (s : State) (g : GraphOp) (i j : InstId) (x y : Inst),
    (s.arg = .gswapPerform g → s.inTurn g = false → exec .gswapPerform s = .next ((s.performed g.origin.core g.rel).rearrive g)) ∧
    (s.arg = .gswapPerform g → s.inTurn g = true → s.mustWait g = some j →
      exec .gswapPerform s = .next ((s.performed g.origin.core g.rel).putOff j g)) ∧
    (s.behind (s.opInsts g) = none → ∀ k, (s.opInsts g).find? s.unsettled = some k → s.mustWait g = some k) ∧
    (s.arg = .gswapPerform g → i = s.placeInst g.origin.sid g.place → s.inTurn g = true → s.mustWait g = none → s.inst i = some x →
      (∀ e ∈ s.gens, ∀ c, e.2.pend = some c → c.inst ≠ i) →
      (g.other = none → x.st = .shadow → ∃ u, exec .gswapPerform s = .next u ∧ u.mem = s.mem ∧ u.inst i = some { x with st := .active }) ∧
      (g.other = none → x.st ≠ .shadow → ∃ u, exec .gswapPerform s = .next u ∧ u.mem = s.mem ∧ u.insts = s.insts) ∧
      (∀ w, g.other = some w → j = s.placeInst g.origin.sid w → s.inst j = some y → x.st = .shadow → y.st = .active →
        ∃ u, exec .gswapPerform s = .next u ∧ u.mem = s.mem ∧ u.inst j = some { y with st := .swapping, wave := some { op := g, new := some i } })) ∧
    (∀ n, s.arg = .reconfPass i n → s.passNow i n = false → exec .reconfPass s = .next s) ∧
    (∀ p w, s.arg = .reconfPass i (.plane p) → s.passNow i (.plane p) = true → s.inst i = some x → x.wave = some w →
      ∃ u, exec .reconfPass s = .next u ∧ u.mem = s.mem ∧ (u.plane p).recorded = true ∧
        u.inst i = some { x with wave := some { w with passed := w.passed ++ [.plane p], strays := w.strays ++ s.strays (.plane p) } }) ∧
    (s.arg = .swapEnd i → s.swapOver i = false → exec .swapEnd s = .next s) ∧
    (∀ w, s.arg = .swapEnd i → s.swapOver i = true → s.inst i = some x → x.wave = some w → w.strays = [] → w.new = some j → j ≠ i →
      s.inst j = some y → ∃ u, exec .swapEnd s = .next u ∧ u.mem = s.mem ∧ u.inst i = none ∧ u.inst j = some { y with st := .active, waitq := [] } ∧
        ∀ p, (u.plane p).inst ≠ some i))

/-- R401, R402: the cut. `gmark` of an ACTIVE instance makes it MARKING, and of one in another settled state completes with
ILLEGAL_FORM; a node that records chooses nothing further; with every node recorded and every MARK in, the instance is CUT and
holds its cut area. R405 to R408: saving and restoring. `gsave` writes the area of a CUT instance and then frees the instance;
`grest` resumes a cut in place, or reads an area and rebuilds the instance it describes. That the header is read and checked
before the rest is the model's reading (log 92). -/
def Obligations.InstancesCutAndRestore : Prop :=
  (∀ (s : State) (g : GraphOp) (i : InstId) (x : Inst), s.inst i = some x →
    (s.arg = .gmarkPerform g → i = s.placeInst g.origin.sid g.place → g.op < 256 → s.inTurn g = true → s.mustWait g = none →
      (x.st = .active → ∃ u, exec .gmarkPerform s = .next u ∧ u.mem = s.mem ∧
        u.inst i = some { x with st := .marking, wave := some { op := g, id := g.arg.toNat, now := decide (g.arg = 0xFFFF) } }) ∧
      (x.st ≠ .active → ∃ u c, exec .gmarkPerform s = .next u ∧ u.mem = s.mem ∧ u.insts = s.insts ∧
        ⟨.barge (.lock (bitsN g.place 22 22)) g.origin.core 5, s.cycle + 1, .completionArrival g.origin.core c⟩ ∈ u.pending ∧
        bitsN c.w0 22 16 = 2)) ∧
    (∀ n, s.arg = .nodeRecord i n → s.nodeReady i n = false → exec .nodeRecord s = .next s) ∧
    (∀ p w, s.arg = .nodeRecord i (.plane p) → s.nodeReady i (.plane p) = true → x.wave = some w → .plane p ∉ w.passed →
      ∃ u y z, exec .nodeRecord s = .next u ∧ u.mem = s.mem ∧ (u.plane p).recorded = true ∧ u.inst i = some y ∧ y.wave = some z ∧
        z.passed = w.passed ++ [.plane p]) ∧
    (s.arg = .cutComplete i → s.cutOver i = false → exec .cutComplete s = .next s) ∧
    (∀ w, s.arg = .cutComplete i → s.cutOver i = true → x.wave = some w → ∃ u, exec .cutComplete s = .next u ∧ u.mem = s.mem ∧
      u.inst i = some { x with st := .cut, wave := none, area := (cutArea s i w).map Prod.fst, areaBad := badPieces (cutArea s i w), waitq := [] })) ∧
  (∀ (s : State) (g : GraphOp) (i : InstId) (x : Inst) (v : Save),
    (i = s.placeInst g.origin.sid g.place → s.inTurn g = true → s.mustWait g = none → s.inst i = some x →
      (s.arg = .gsavePerform g → x.st = .cut → s.jointBound i = false → areaFits g.arg x.area.length = true →
        ∃ u z, exec .gsavePerform s = .next u ∧ u.mem = s.mem ∧ u.insts = s.insts ∧ tfind u.saves i = some z ∧ z.bytes = x.area ∧
          z.va = g.arg ∧ z.want = x.area.length) ∧
      (s.arg = .gsavePerform g → x.st ≠ .cut → ∃ u, exec .gsavePerform s = .next u ∧ u.mem = s.mem ∧ u.insts = s.insts ∧ u.saves = s.saves) ∧
      (s.arg = .grestPerform g → g.other = none → x.st = .cut → ∃ u, exec .grestPerform s = .next u ∧ u.mem = s.mem ∧
        u.inst i = some { x with st := .active, area := [], areaBad := [] }) ∧
      (∀ a, s.arg = .grestPerform g → g.other = some a → areaFits a 64 = true → ∃ u z, exec .grestPerform s = .next u ∧ u.mem = s.mem ∧
        u.insts = s.insts ∧ tfind u.saves i = some z ∧ z.va = a ∧ z.want = 64)) ∧
    (tfind s.saves i = some v →
      (s.arg = .gsaveDone i → v.op.op = 0xAD → v.ended = false → exec .gsaveDone s = .next s) ∧
      (s.arg = .gsaveDone i → v.op.op = 0xAD → v.ended = true → v.failed = 0 → ∃ u, exec .gsaveDone s = .next u ∧ u.mem = s.mem ∧
        u.inst i = none ∧ tfind u.saves i = none) ∧
      (s.arg = .gsaveDone i → v.op.op = 0xAD → v.ended = true → v.failed ≠ 0 → ∃ u, exec .gsaveDone s = .next u ∧ u.mem = s.mem ∧
        u.insts = s.insts ∧ tfind u.saves i = none) ∧
      (s.arg = .grestDone i → v.op.op = 0xAE → v.ended = true → v.failed ≠ 0 → ∃ u, exec .grestDone s = .next u ∧ u.mem = s.mem ∧
        u.insts = s.insts ∧ tfind u.saves i = none) ∧
      (∀ z, s.arg = .grestDone i → v.op.op = 0xAE → v.ended = true → v.failed = 0 → v.want ≠ 64 → v.bad = [] →
        s.rebuild v.op i v.bytes = .ok z → exec .grestDone s = .next ((z.graphDone v.op 0 0).saveEnd i v))))

/-- R418 to R421: links. A receiver takes flits in sequence only, and none while a lane is changed: it acknowledges what it has,
asks again for one that fails its CRC, and a message is complete when its last good flit has come. A replay request has the
flits of the replay buffer sent again from that flit on, after a change of lanes that goes on, and the sixteenth in a row for
one flit takes the link DOWN; acknowledged flits leave the buffer; the first lane blamed for 64 failures is spared and a
second takes the link DOWN; what a change of lanes held up follows it; a link trains once a millisecond, and is UP or DOWN
when the attempt ends. That flits are counted by whole messages (log 99) and that a receiver takes nothing during a change
(log 137) are the model's choices. R417, R418, R461: a router. What a link has not received whole acts on nothing. A packet
for another node is forwarded; one whose seal fails is discarded and counted; the next of its flow is accepted, delivered and
acknowledged, and any other is discarded and the last one acknowledged again; an acknowledgement frees what it covers; a flow
whose oldest packet has waited 65,536 cycles is sent again. -/
def Obligations.LinksAndRouters : Prop :=
  (∀ (s : State) (n : Nat) (l : Link), l = s.link n →
    (∀ rx k, rx.link = n →
      ((s.receive rx k).2 = true ↔ s.linkUp n = true ∧ l.change = none ∧ rx.seq = l.rseq ∧ rx.bad = none) ∧
      (s.linkUp n = false ∨ l.change ≠ none → (s.receive rx k).1 = s) ∧
      (s.linkUp n = true → l.change = none → rx.seq ≠ l.rseq → (s.receive rx k).1 = s.linkSays n (.flitAck l.rseq)) ∧
      (s.linkUp n = true → l.change = none → rx.seq = l.rseq → rx.bad = none → ((s.receive rx k).1.link n).rseq = l.rseq + BitVec.ofNat 12 (k - l.rpart)) ∧
      (∀ b lane, s.linkUp n = true → l.change = none → rx.seq = l.rseq → rx.bad = some (b, lane) →
        ∃ o ∈ (s.receive rx k).1.netOut, o.link = n ∧ o.msg = .replay (l.rseq + BitVec.ofNat 12 (min b (k - l.rpart - 1))))) ∧
    (∀ seq q (m : Link), s.arg = .replayRequest n seq → q = BitVec.ofNat 12 seq →
      m = { l with replays := l.replays + 1, tries := if 0 < l.tries ∧ l.tryOf = q then l.tries + 1 else 1, tryOf := q } →
      (s.linkUp n = false ∨ l.unacked - l.held ≤ l.before q → exec .replayRequest s = .next s) ∧
      (s.linkUp n = true → l.before q < l.unacked - l.held → m.tries < 16 → l.change = none →
        exec .replayRequest s = .next
          { s.setLink n m with netOut := s.netOut ++ (dropFlits l.buf (l.before q)).map (fun o => { o with again := true }) }) ∧
      (s.linkUp n = true → l.before q < l.unacked - l.held → m.tries < 16 → l.change ≠ none →
        exec .replayRequest s = .next (s.setLink n { m with again := some q })) ∧
      (s.linkUp n = true → l.before q < l.unacked - l.held → 16 ≤ m.tries → exec .replayRequest s = .next ((s.setLink n m).linkLost n))) ∧
    (∀ k, s.arg = .linkFlitAck n k → s.linkUp n = true → 0 < k → k ≤ l.unacked - l.held →
      exec .linkFlitAck s = .next (s.setLink n { l with buf := dropFlits l.buf k, tries := 0 }).netGo) ∧
    (∀ lane, s.arg = .laneSpare n lane → s.linkUp n = true → lane < 8 →
      (l.blamed lane = false → exec .laneSpare s = .next s) ∧
      (l.blamed lane = true → l.spared = true → exec .laneSpare s = .next (s.linkLost n)) ∧
      (l.blamed lane = true → l.spared = false → exec .laneSpare s = .next
        ((s.setLink n { l with spared := true, lane := lane, change := some (s.cycle + 12500), blame := l.blame.filter (fun b => b.1 ≠ lane) }).eventOwner
          (linkDie n) 0x00C [fld n 0 ||| fld lane 8]))) ∧
    (s.arg = .laneSpareDone n → l.change ≠ none →
      let v := s.setLink n { l with change := none, again := none, held := 0 }
      (l.again = none → exec .laneSpareDone s = .next ({ v with netOut := v.netOut ++ dropFlits l.buf (l.unacked - l.held) } : State).netGo) ∧
      (∀ q, l.again = some q → exec .laneSpareDone s = .next (v.replayFrom n q).netGo)) ∧
    (s.arg = .linkDown n → exec .linkDown s = .next (if s.linkUp n = true then s.linkLost n else s)) ∧
    (∀ ok peer, s.arg = .linkTrain n ok peer → linkAbsent s.part n = false → n < 25 → l.st ≠ 2 → l.off = false →
      (l.st ≠ 1 → s.cycle < l.train → exec .linkTrain s = .next s) ∧
      (l.st ≠ 1 → l.train ≤ s.cycle → exec .linkTrain s = .next (s.setLink n { l with st := 1, train := s.cycle + 1250000 })) ∧
      (l.st = 1 → exec .linkTrain s = .next (if ok = true then s.linkBack n peer else s.setLink n { l with st := 0 })))) ∧
  (∀ (s : State),
    (∀ rx p ok, s.arg = .routerAccept rx p ok →
      let a := s.receive rx (linkFlits p.framed p.body.flits)
      let v := a.1
      (a.2 = false → exec .routerAccept s = .next v) ∧
      (a.2 = true →
        (p.dst ≠ s.node → exec .routerAccept s = .next (v.pumpWait ⟨p, some rx.link⟩)) ∧
        (∀ k, p.dst = s.node → ok = false → p.sid = some k → thas s.jobs k = true → (∀ r, p.body ≠ .window r) →
          exec .routerAccept s = .next { v with viols := tput v.viols k (tget s.viols 0 k + 1) }) ∧
        (p.dst = s.node → ok = true → p.ordered = false → exec .routerAccept s = .next (v.deliver rx.link p)) ∧
        (p.dst = s.node → ok = true → p.ordered = true → p.seq = tget s.accepts 0 (p.src, p.vnet, p.prio) →
          exec .routerAccept s = .next
            (((({ v with accepts := tput v.accepts (p.src, p.vnet, p.prio) (p.seq + 1) } : State).countNet p.sid false).deliver rx.link p).sendAck
              none none s.node p.src p.vnet p.prio p.seq)) ∧
        (p.dst = s.node → ok = true → p.ordered = true → p.seq ≠ tget s.accepts 0 (p.src, p.vnet, p.prio) →
          exec .routerAccept s = .next (if tget s.accepts 0 (p.src, p.vnet, p.prio) = 0 then v else
            v.sendAck none none s.node p.src p.vnet p.prio (tget s.accepts 0 (p.src, p.vnet, p.prio) - 1))))) ∧
    (∀ rx src dst vnet prio seq ring f, s.arg = .routerAck rx src dst vnet prio seq ring → f = tget s.flows {} (src, vnet, prio) →
      let a := s.receive rx 1
      (a.2 = false → exec .routerAck s = .next a.1) ∧
      (a.2 = true → dst ≠ s.node → exec .routerAck s = .next (a.1.sendAck (some rx.link) ring src dst vnet prio seq)) ∧
      (a.2 = true → dst = s.node → exec .routerAck s = .next
        ({ a.1 with flows := tput a.1.flows (src, vnet, prio) { f with kept := f.kept.filter (fun x => seq < x.pkt.seq) } } : State).netGo)) ∧
    (∀ dst vnet prio f, s.arg = .routerResend dst vnet prio → f = tget s.flows {} (dst, vnet, prio) →
      (∀ x r, f.kept = x :: r → x.sent = true → x.at_ + 65536 ≤ s.cycle → exec .routerResend s = .next
        ({ s with flows := tput s.flows (dst, vnet, prio) { f with kept := f.kept.map (fun x => { x with sent := false }) } } : State).netGo) ∧
      (f.kept = [] → exec .routerResend s = .next s)))

/-- R423, R425, R426, R427, R434: a window's entry. It is reserved once; a piece it admits is counted and translated; one it does
not is counted, at its entry where that is OPEN or CLOSING, and answered REMOTE_VIOLATION; a request performed exactly once is
put into the table while it has room, and one that has been seen is answered as before; a close waits for the pieces checked
before it. That an attempt waits for the first one's result is the model's reading (log 102). -/
def Obligations.WindowsCheckPieces : Prop :=
  ∀ (s : State),
    (∀ w, s.arg = .windowReserve w → (s.ctx w.thread).awaiting w.ask ≠ none →
      ∃ u x, exec .windowReserve s = .next u ∧ u.mem = s.mem ∧
        u.pending = s.pending ++ [⟨.none, s.cycle, .loadReply w.thread w.ask 0 x⟩] ∧
        ((s.win w.sid w.id).st = 0 → x = .reserved (.comp 0) 0 ∧ u.win w.sid w.id = { s.win w.sid w.id with st := 1 }) ∧
        ((s.win w.sid w.id).st ≠ 0 → x = .refused ∧ u.wins = s.wins)) ∧
    (∀ r id w, s.arg = .windowPieceCheck r → id = winId r.addr → w = s.win r.sid id →
      (r.once = false → w.admits r = true → ∃ u, exec .windowPieceCheck s = .next u ∧ u.mem = s.mem ∧
        u.win r.sid id = { w with fly := w.fly + 1 } ∧ tfind u.winReqs s.nextSerial = some { req := r } ∧ u.once = s.once ∧
        ∃ x, u.pending = s.pending ++ [⟨.none, s.cycle, .translation (stationOf (winHome id)) x⟩] ∧ x.asker = .window s.nextSerial ∧
          x.sid = r.sid ∧ x.va = w.base + r.off) ∧
      (r.once = false → w.admits r = false → w.st ≠ 2 → w.st ≠ 3 → exec .windowPieceCheck s = .next
        ({ s with viols := tput s.viols r.sid (tget s.viols 0 r.sid + 1) }.winReply r (.fault .remoteViolation))) ∧
      (r.once = false → w.admits r = false → w.st = 2 ∨ w.st = 3 → exec .windowPieceCheck s = .next
        (((({ s with viols := tput s.viols r.sid (tget s.viols 0 r.sid + 1) } : State).setWin r.sid id { w with viol := w.viol + 1 }).winFault w r
          .remoteViolation).winReply r (.fault .remoteViolation))) ∧
      (r.once = true → s.once.find? (fun e => e.req.same r) = none → s.once.length < 4096 →
        let t := s.once ++ [{ req := r, born := s.cycle }]
        (w.admits r = true → ∃ u, exec .windowPieceCheck s = .next u ∧ u.mem = s.mem ∧ u.once = t ∧
          u.win r.sid id = { w with fly := w.fly + 1 } ∧ tfind u.winReqs s.nextSerial = some { req := r } ∧
          ∃ x, u.pending = s.pending ++ [⟨.none, s.cycle, .translation (stationOf (winHome id)) x⟩] ∧ x.asker = .window s.nextSerial ∧
            x.sid = r.sid ∧ x.va = w.base + r.off) ∧
        (w.admits r = false → w.st ≠ 2 → w.st ≠ 3 → exec .windowPieceCheck s = .next
          (({ s with once := t, viols := tput s.viols r.sid (tget s.viols 0 r.sid + 1) } : State).winDone r (.fault .remoteViolation)))) ∧
      (∀ e, r.once = true → s.once.find? (fun e => e.req.same r) = some e →
        (∀ a, e.res = some a → exec .windowPieceCheck s = .next (s.winReply r a)) ∧
        (e.res = none → ∃ u, exec .windowPieceCheck s = .next u ∧ u.mem = s.mem ∧ u.wins = s.wins ∧ u.winReqs = s.winReqs)) ∧
      (r.once = true → s.once.find? (fun e => e.req.same r) = none → 4096 ≤ s.once.length →
        exec .windowPieceCheck s = .next (s.winReply r .refused))) ∧
    (∀ w, s.arg = .wclosePerform w →
      ((s.win w.sid w.id).st ≠ 2 → exec .wclosePerform s = .next (s.wcloseDone w Cause.illegalForm.code)) ∧
      ((s.win w.sid w.id).st = 2 → ∃ u, exec .wclosePerform s = .next u ∧ u.mem = s.mem ∧
        u.win w.sid w.id = { s.win w.sid w.id with st := 3, closing := some w } ∧
        ((s.win w.sid w.id).fly = 0 → u.pending = s.pending ++ [⟨.none, s.cycle, .windowFreed w.sid w.id⟩]) ∧
        ((s.win w.sid w.id).fly ≠ 0 → u.pending = s.pending))) ∧
    (∀ sid id w, s.arg = .windowFreed sid id → (s.win sid id).closing = some w → (s.win sid id).st = 3 → (s.win sid id).fly = 0 →
      exec .windowFreed s = .next ((s.setWin sid id { viol := (s.win sid id).viol }).wcloseDone w 0))

/-- R432, R433, R434: attempts. The home performs a translated `ratom` as the memory operation it is; an answer ends the operation
and releases its entry of the exactly-once table; BUSY or a late answer leads to the next attempt; an answer to a copy that
was sent again counts no more (log 130: the model's reading); the table's entry leaves when it is released, or 2^30 cycles
after it came. -/
def Obligations.RemoteAttempts : Prop :=
  ∀ (s : State),
    (∀ n x l, s.arg = .ratomPerform n → tfind s.winReqs n = some x → x.loc = some l → exec .ratomPerform s = .next
      (s.perform { asker := .window n, sid := x.req.sid, loc := l, addr := x.req.addr, op := x.req.op })) ∧
    (∀ r x, s.arg = .remoteAnswer r x → (tfind s.wreqs (r.core, r.slot, r.seq) = none → exec .remoteAnswer s = .next s) ∧
      (∀ a, tfind s.wreqs (r.core, r.slot, r.seq) = some a → a.req.copy ≠ r.copy → exec .remoteAnswer s = .next s) ∧
      (∀ a, tfind s.wreqs (r.core, r.slot, r.seq) = some a → a.req.asker = r.asker → a.req.copy = r.copy →
        (x = .refused → a.req.attempt = r.attempt → exec .remoteAnswer s = .next (s.winRetry (r.core, r.slot, r.seq))) ∧
        (x = .refused → a.req.attempt ≠ r.attempt → exec .remoteAnswer s = .next s) ∧
        (x ≠ .refused → r.once = false → exec .remoteAnswer s = .next
          (({ s with wreqs := tdel s.wreqs (r.core, r.slot, r.seq) } : State).winEnd a x)) ∧
        (x ≠ .refused → r.once = true → bitsN r.addr 61 41 = s.node → exec .remoteAnswer s = .next
          ((({ s with wreqs := tdel s.wreqs (r.core, r.slot, r.seq) } : State).post .none
            (.requestIdRelease s.node r.core r.slot r.seq)).winEnd a x)) ∧
        (x ≠ .refused → r.once = true → bitsN r.addr 61 41 ≠ s.node → exec .remoteAnswer s = .next
          ((({ s with wreqs := tdel s.wreqs (r.core, r.slot, r.seq) } : State).toNet (bitsN r.addr 61 41) (some r.sid)
            (.release s.node r.core r.slot r.seq)).winEnd a x)))) ∧
    (∀ c slot seq node k a, s.arg = .remoteAttemptTimeout c slot seq node k → tfind s.wreqs (c, slot, seq) = some a →
      (a.req.attempt = k → a.due ≤ s.cycle → exec .remoteAttemptTimeout s = .next (s.winRetry (c, slot, seq))) ∧
      (s.cycle < a.due → exec .remoteAttemptTimeout s = .next s)) ∧
    (∀ node c slot seq, (s.arg = .requestIdRelease node c slot seq → ∃ u, exec .requestIdRelease s = .next u ∧ u.mem = s.mem ∧
        (∀ e ∈ u.once, ¬(e.req.node = node ∧ e.req.core = c ∧ e.req.slot = slot ∧ e.req.seq = seq)) ∧
        (∀ e ∈ s.once, ¬(e.req.node = node ∧ e.req.core = c ∧ e.req.slot = slot ∧ e.req.seq = seq) → e ∈ u.once)) ∧
      (s.arg = .requestIdExpiry node c slot seq →
        (∀ e ∈ s.once, e.req.node = node → e.req.core = c → e.req.slot = slot → e.req.seq = seq → s.cycle < e.born + 2 ^ 30) →
        exec .requestIdExpiry s = .next s) ∧
      (∀ e ∈ s.once, s.arg = .requestIdExpiry node c slot seq → e.req.node = node → e.req.core = c → e.req.slot = slot → e.req.seq = seq →
        e.born + 2 ^ 30 ≤ s.cycle → exec .requestIdExpiry s = .next (s.onceFree node c slot seq)))

/-- R99, R440, R446, R450, R452: contributions and results of a collective. An EOS tells a rank's length; a contribution that
completes its index at a bound node is summed in rank order, kept, and its sum sent to every rank; an earlier one, or one for
a rank that still joins, is kept; one whose sum is known gets it again; a result is kept once, releases what waited for it,
and lets the node deliver and take. A token whose frame's tag fails is dropped and counted. That the last 64 contributions and
sums stay for a change of plan (log 139) and that a joining rank keeps what comes (log 36) are the model's choices. R448 to
R451: joining a group. A free slot is reserved and a taken one refused; a rank whose instance, node, table, ratio and key node
agree takes them and asks about its peers, one rank for each device (log 158); one whose instance does not stand ends with
ILLEGAL_FORM and leaves its slot; a rank of another rack is UNAVAILABLE but on the HZ960, and a device outside the span a
REMOTE_VIOLATION; another rank's question is answered from the lockkeeper's records; a peer that is bound counts; one that is
not ready is asked again; a peer that does not answer ends the join with LINK_TIMEOUT. -/
def Obligations.CollectivesAndGroups : Prop :=
  (∀ (s v : State) (m : CollMsg) (rx : Option Rx) (g : Group) (c : CollNode), s.nodeOf m.sid m.group m.dst = some (g, c) →
    (∀ r, rx = some r → (s.receive r 16).2 = true ∧ v = (s.receive r 16).1) → (rx = none → v = s) →
    (∀ r, rx = some r → r.intact = false → ∀ i, (i = .contributionArrival ∧ s.arg = .contributionArrival m rx) ∨
      (i = .resultArrival ∧ s.arg = .resultArrival m rx) →
      exec i s = .next { v with viols := tput v.viols m.sid (tget v.viols 0 m.sid + 1) }) ∧
    ((∀ r, rx = some r → r.intact = true) →
    let put (c : CollNode) : State := v.setColl g.inst g.node c
    (s.arg = .contributionArrival m rx → m.tok.kind = .eos → exec .contributionArrival s = .next
      ((put { c with lens := if m.epoch < c.depoch then c.lens else tput c.lens (m.epoch, m.src) m.index }).collDeliver g.inst g.node (c.fuel + 1))) ∧
    (∀ t, s.arg = .contributionArrival m rx → m.tok.kind ≠ .eos → tfind c.sums (m.epoch, m.index) = some t →
      exec .contributionArrival s = .next (v.resultSend c g [{ m with src := 0, dst := m.src, tok := t }])) ∧
    (∀ p, s.arg = .contributionArrival m rx → m.tok.kind ≠ .eos → tfind c.sums (m.epoch, m.index) = none →
      p = tput c.parts (m.epoch, m.src, m.index) m.tok →
      (g.st ≠ 3 ∨ (∃ r, r < g.n ∧ tfind p (m.epoch, r, m.index) = none) → exec .contributionArrival s = .next (put { c with parts := p })) ∧
      (∀ (f : Nat → Token), g.st = 3 → (∀ r, r < g.n → tfind p (m.epoch, r, m.index) = some (f r)) →
        let t := reduceToks (laneFmt c.fmt) ((List.range g.n).map f)
        let sums := c.sums ++ [((m.epoch, m.index), t)]
        exec .contributionArrival s = .next
          ((put { c with parts := p.filter (fun x => !(x.1.1 = m.epoch && x.1.2.2 = m.index)), sums := sums.drop (sums.length - 64) }).resultSend
            { c with parts := p } g ((List.range g.n).map (fun r => { m with src := 0, dst := r, tok := t }))))) ∧
    (s.arg = .resultArrival m rx → collReduces c.op = true → tfind c.sums (m.epoch, m.index) = none →
      (∀ r t, ((m.epoch, r, m.index), t) ∉ c.parts) →
      let hit (k : CollMsg) : Bool := k.epoch = m.epoch && k.index = m.index
      let past := c.past ++ c.kept.filter hit
      let sums := c.sums ++ [((m.epoch, m.index), m.tok)]
      let d := { c with kept := c.kept.filter (fun k => !hit k), past := past.drop (past.length - 64), sums := sums.drop (sums.length - 64) }
      (m.epoch < c.depoch ∨ tfind c.res (m.epoch, m.src, m.index) ≠ none →
        exec .resultArrival s = .next (((put d).collDeliver g.inst g.node c.fuel).collTake g.inst g.node)) ∧
      (c.depoch ≤ m.epoch → tfind c.res (m.epoch, m.src, m.index) = none →
        let e := { d with res := tput c.res (m.epoch, m.src, m.index) m.tok }
        exec .resultArrival s = .next (((put e).collDeliver g.inst g.node e.fuel).collTake g.inst g.node))))) ∧
  (∀ (s : State),
    (∀ g, s.arg = .cjoinReserve g → s.lkDown g.die = false → (s.ctx g.thread).awaiting g.ask ≠ none →
      ∃ u x, exec .cjoinReserve s = .next u ∧ u.mem = s.mem ∧ u.pending = s.pending ++ [⟨.none, s.cycle, .loadReply g.thread g.ask 0 x⟩] ∧
        (thas s.groups g.key = true → x = .refused ∧ u.groups = s.groups) ∧
        (thas s.groups g.key = false → (s.groups.filter (fun e => e.2.die = g.die)).length < 64 →
          x = .reserved (.comp 0) 0 ∧ ∃ y, tfind u.groups g.key = some y ∧ y.die = g.die ∧ y.n = cN g.args ∧ y.tag = cTag g.args)) ∧
    (∀ g x, s.arg = .cjoinCheck g → s.lkDown g.die = false → tfind s.groups g.key = some x →
      s.instSt (s.placeInst g.sid (cPlace g.args)) = none →
      exec .cjoinCheck s = .next ((s.performed g.origin.core g.rel).joinEnd g.key Cause.illegalForm.code)) ∧
    (∀ g x i m c l t, s.arg = .cjoinCheck g → s.lkDown g.die = false → tfind s.groups g.key = some x → i = s.placeInst g.sid (cPlace g.args) →
      s.instSt i = some .shadow ∨ s.instSt i = some .active →
      s.colls.find? (fun e => e.1.1 = i && e.2.group = cGroup g.args && e.2.rank.isNone) = some ((i, m), c) →
      s.vaBytes g.sid (bitsN (cTable g.args) 56 0) (16 * cN g.args) = some l → readTable l (cN g.args) = some t →
      t[cRank g.args]? = some (s.node, (cPlace g.args).toNat) → (c.p, c.q) = collRatio c.op (cN g.args) →
      cKeyNode g.args = (s.job g.sid).span.lead →
      let digest := Config.sha384 (l ++ bytesOf 1 c.op ++ bytesOf 1 c.fmt ++ bytesOf 2 c.p ++ bytesOf 2 c.q)
      let peers := askedRanks t (cRank g.args)
      let here := s.part = .hz960 ∨ ∀ e ∈ t, e.1 / 256 = s.node / 256
      let v := s.performed g.origin.core g.rel
      let y : Group :=
        { x with st := 2, inst := i, node := m, table := t, digest := digest, peers := peers.map (fun p => (p, Peer.notYet s.cycle)) }
      (¬here → exec .cjoinCheck s = .next (v.joinEnd g.key Cause.unavailable.code)) ∧
      (here → (∃ e ∈ t, (s.job g.sid).members.contains e.1 = false) → exec .cjoinCheck s = .next (v.joinEnd g.key Cause.remoteViolation.code)) ∧
      (here → (∀ e ∈ t, (s.job g.sid).members.contains e.1 = true) → exec .cjoinCheck s = .next
        ((peers.foldl (fun (s : State) p => s.askPeer g.key p 0) { v with groups := tput v.groups g.key y }).planGroup g.key))) ∧
    (∀ m, s.arg = .pathCheck m → s.lkDown 0 = false → exec .pathCheck s = .next (s.toNet m.node (some m.sid) (.pathAns m (s.peerAns m)))) ∧
    (∀ m a g, s.arg = .pathCheckAnswer m a → tfind s.groups (m.sid, m.group, m.rank) = some g → s.lkDown g.die = false →
      (g.asks m.peer = false → exec .pathCheckAnswer s = .next s) ∧
      (g.asks m.peer = true → a = .notYet → ∃ u y, exec .pathCheckAnswer s = .next u ∧ u.mem = s.mem ∧
        tfind u.groups (m.sid, m.group, m.rank) = some y ∧ tfind y.peers m.peer = some (.notYet (s.cycle + g.rtimeout))) ∧
      (g.asks m.peer = true → a = .bound →
        let y : Group := { g with peers := tput g.peers m.peer .counted }
        exec .pathCheckAnswer s = .next
          (({ s with groups := tput s.groups (m.sid, m.group, m.rank) y } : State).planGroup (m.sid, m.group, m.rank))) ∧
      (g.asks m.peer = true → a = .differs → exec .pathCheckAnswer s = .next (s.joinEnd (m.sid, m.group, m.rank) Cause.illegalForm.code)) ∧
      (g.asks m.peer = true → a = .otherSid ∨ a = .noDevice →
        exec .pathCheckAnswer s = .next (s.joinEnd (m.sid, m.group, m.rank) Cause.remoteViolation.code))) ∧
    (∀ sid group rank g, tfind s.groups (sid, group, rank) = some g →
      (s.arg = .pathCheckReask sid group rank → (∀ p ∈ g.peers, ∀ d, p.2 = .notYet d → s.cycle < d) →
        exec .pathCheckReask s = .next s) ∧
      (∀ p d, s.arg = .pathCheckReask sid group rank → g.peers = [(p, .notYet d)] → d ≤ s.cycle →
        exec .pathCheckReask s = .next (s.askPeer (sid, group, rank) p 0)) ∧
      (s.arg = .pathCheckTimeout sid group rank → (∀ p ∈ g.peers, ∀ k d, p.2 = .asked k d → s.cycle < d) →
        exec .pathCheckTimeout s = .next s) ∧
      (∀ p k d, s.arg = .pathCheckTimeout sid group rank → g.peers = [(p, .asked k d)] → d ≤ s.cycle → k < g.nretry →
        exec .pathCheckTimeout s = .next (s.askPeer (sid, group, rank) p (k + 1))) ∧
      (∀ p ∈ g.peers, ∀ k d, s.arg = .pathCheckTimeout sid group rank → p.2 = .asked k d → d ≤ s.cycle → g.nretry ≤ k →
        exec .pathCheckTimeout s = .next (s.joinEnd (sid, group, rank) Cause.linkTimeout.code))))

/-- R452, R455 to R460: trust. Attestation goes through its eleven steps: a message that names no common version, lacks a
capability or an algorithm, ends at no trust anchor of the policy or is not signed over its transcript has the switch refused
with that reason; the last step lets it pass, and its session's end takes it back (log 146). No answer in 100 ms is asked
again three times. A management message of no type or length of R459 acts on nothing. FINISH in its place opens a session with
the companion or a lockkeeper that proves itself, END_SESSION ends it, and a request out of its order (log 147) is answered
with an error. A malformed policy changes none. A key a switch acknowledges is recorded, and the last that a group waits for
binds it; a switch that answers with an error no longer combines. -/
def Obligations.SwitchesAreAttested : Prop :=
  ∀ (s : State),
    (∀ m d, (m.step = 1 → (s.spdmReason d m = 0 ↔ 13 ∈ m.versions ∨ 12 ∈ m.versions)) ∧
      (m.step = 5 → (s.spdmReason d m = 0 ↔ m.chain = true ∧ m.anchor ∈ s.policy.anchors) ∧ (s.spdmReason d m ≠ 0 → s.spdmReason d m = 4)) ∧
      (m.step = 6 ∨ m.step = 8 ∨ m.step = 10 → (s.spdmReason d m = 0 ↔ m.ecdsa = some m.transcript)) ∧
      (m.step = 7 ∨ m.step = 9 → (s.spdmReason d m = 0 ↔ m.lms = some d))) ∧
    (∀ m rx v w, s.arg = .spdmResponse m rx → rx.formed = true → (s.receive rx rx.flits).2 = true → v = (s.receive rx rx.flits).1 →
      w = s.switch m.plane → m.plane < 18 →
      (w.step ≠ 0 → w.step = m.step → m.step < 12 → s.spdmReason w.td m ≠ 0 → exec .spdmResponse s = .next
        ((v.setSwitch m.plane { w with step := 0, passed := false, reason := s.spdmReason w.td m }).eventOwner (linkDie m.plane) 0x00F
          [fld m.plane 0 ||| fld (s.spdmReason w.td m) 8])) ∧
      (w.step ≠ 0 → w.step = m.step → m.step < 11 → s.spdmReason w.td m = 0 → ∃ u, exec .spdmResponse s = .next u ∧ u.mem = s.mem ∧
        u.switch m.plane = { w.learn m with step := m.step + 1, tries := 0, due := s.cycle + 125000000 }) ∧
      (w.step = 11 → m.step = 11 → exec .spdmResponse s = .next
        ((((v.setSwitch m.plane w).setSwitch m.plane { w with step := 0, passed := true }).policyRefuses
          (s.policy :: s.jobs.map (fun e => e.2.policy)) m.plane).replan m.plane).timePath) ∧
      (w.passed = true → m.step = 12 → exec .spdmResponse s = .next ((v.setSwitch m.plane {}).replan m.plane).timePath)) ∧
    (∀ m rx, s.arg = .spdmResponse m rx → (s.receive rx rx.flits).2 = false → exec .spdmResponse s = .next (s.receive rx rx.flits).1) ∧
    (∀ i rx, rx.formed = false → (i = .spdmResponse ∧ (∃ m, s.arg = .spdmResponse m rx)) ∨
      (i = .spdmRequest ∧ (∃ node m, s.arg = .spdmRequest node m rx)) ∨
      (i = .keyInstallAck ∧ (∃ p sid group, s.arg = .keyInstallAck p sid group rx)) → exec i s = .next (s.receive rx rx.flits).1) ∧
    (∀ p w, s.arg = .spdmTimeout p → w = s.switch p →
      (w.step = 0 ∨ s.cycle < w.due → exec .spdmTimeout s = .next s) ∧
      (w.step ≠ 0 → w.due ≤ s.cycle → w.tries < 3 → exec .spdmTimeout s = .next (s.spdmAsk p w.step (w.tries + 1))) ∧
      (w.step ≠ 0 → w.due ≤ s.cycle → 3 ≤ w.tries → exec .spdmTimeout s = .next (s.refuseSwitch p 8))) ∧
    (∀ node m rx, s.arg = .spdmRequest node m rx → rx.formed = true → (s.receive rx rx.flits).2 = true →
      ∃ u, exec .spdmRequest s = .next u ∧ u.mem = s.mem ∧ u.switches = s.switches ∧
        (m.step = 1 → tget u.spdm 0 node = 1 ∧ u.sessions = s.sessions) ∧
        (m.step = 11 → tget s.spdm 0 node = 10 →
          node = s.node ∨ (m.chain = true ∧ m.anchor ∈ s.policy.anchors ∧ m.ecdsa = some m.transcript) → node ∈ u.sessions) ∧
        (m.step = 11 → tget s.spdm 0 node ≠ 10 → u.sessions = s.sessions ∧ tget u.spdm 0 node = 0) ∧
        (m.step = 12 → tget s.spdm 0 node = 11 → node ∉ u.sessions)) ∧
    (∀ b a n, s.arg = .policy b a n → s.lkDown 0 = false →
      (∀ p, a.toNat % 64 = 0 → bitsN a 63 52 = 0 → n.toNat ≤ policyMax → Policy.read (s.bytes (.comp a.toNat) n.toNat) = some p →
        exec .policy s = .next ((List.range 18).foldl (fun (v : State) k => v.policyRefuses [p] k) { s with policy := p }).hostNext) ∧
      (a.toNat % 64 ≠ 0 ∨ Policy.read (s.bytes (.comp a.toNat) n.toNat) = none →
        exec .policy s = .next (s.eventOwner 0 0x002 [refusedWord .illegalForm 3]).hostNext)) ∧
    (∀ p sid group rx, s.arg = .keyInstallAck p sid group rx → rx.formed = true → (s.receive rx rx.flits).2 = true → ∃ u, exec .keyInstallAck s = .next u ∧
      (s.groups = [] → u.mem = s.mem ∧ sid ∈ (u.switch p).keys ∧ ∀ q, q ≠ p → u.switch q = s.switch q)) ∧
    (∀ p sid group rank rx g v, s.arg = .keyInstallAck p sid group rx → rx.formed = true → (s.receive rx rx.flits).2 = true → v = (s.receive rx rx.flits).1 →
      sid ∈ (s.switch p).keys → s.groups = [((sid, group, rank), g)] → g.st = 2 → g.keys = [p] →
      exec .keyInstallAck s = .next
        (({ v with groups := tput v.groups (sid, group, rank) { g with keys := [] } } : State).bindGroup (sid, group, rank))) ∧
    (∀ p sid group rx v, s.arg = .switchErrorAnswer p sid group rx → (s.receive rx rx.flits).2 = true → v = (s.receive rx rx.flits).1 →
      ((∀ e ∈ s.groups, e.1.1 ≠ sid ∨ e.1.2.1 ≠ group ∨ p ∉ e.2.switches) → exec .switchErrorAnswer s = .next v) ∧
      (∀ rank g, s.groups = [((sid, group, rank), g)] → p ∈ g.switches →
        let x := v.setSwitch p { s.switch p with groups := (s.switch p).groups.filter (· ≠ (sid, group)) }
        let put (g : Group) : State := { x with groups := tput x.groups (sid, group, rank) g }
        (g.st = 3 → exec .switchErrorAnswer s = .next ((put { g with refused := g.refused ++ [p] }).replanGroup (sid, group, rank))) ∧
        (g.st ≠ 3 → g.keys = [p] → exec .switchErrorAnswer s = .next
          ((put { g with refused := g.refused ++ [p], switches := g.switches.filter (· ≠ p), keys := [] }).bindGroup (sid, group, rank)))))

/-- R21 to R24: a LAUNCH that any check of R23 refuses installs nothing: a REFUSED event with its user tag, and the next host
barge. Its route and control words, the manifest's place and length, its header, its images' sections and its span word are
ILLEGAL_FORM; a SID in use is BUSY (no SID free, and too few hives, have no cause in the manual: log 41). One that passes is
installed with the SID, the handlers, the graphs, the hives, the root and the reach limit of its manifest, and goes on to its
span. R27: forming a span. The lead counts a member whose SID, devices field and digest agree and refuses another; a SPAN_JOIN
before the lead's own launch is kept (log 27); a member that receives the table and the key starts, and one that is refused is
undone; 10 s without either end the launch with LINK_TIMEOUT. A member's session with the lead goes step by step; one that
fails ends the launch too, with a cause that the manual does not give (log 131). -/
def Obligations.LaunchesAndSpans : Prop :=
  (∀ (s : State) (route ctl p0 p1 p2 : Word) (m : List Byte), s.arg = .launch route ctl p0 p1 p2 → m = s.bytes (.comp p0.toNat) p1.toNat →
    s.lkDown 0 = false → s.lkDown 1 = false → s.ctl.trip = false →
    (∀ w, s.plan_ route ctl p0 p1 p2 = .error w → exec .launch s = .next (s.refused (bitsN p2 1 0) (bitsN ctl 39 0) w)) ∧
    (∀ p, s.plan_ route ctl p0 p1 p2 = .ok p → exec .launch s = .next ((s.install p).formSpan p.sid) ∧
      (s.install p).job p.sid = p.job ∧ p.job.tag = BitVec.ofNat 40 (bitsN ctl 39 0) ∧ p.job.basin = bitsN p2 1 0 ∧
      thas s.jobs p.sid = false ∧ (mSid m ≠ 0 → p.sid = mSid m) ∧
      (mSid m = 0 → 1 ≤ p.sid ∧ p.sid ≤ 65535 ∧ ∀ k, 1 ≤ k → k < p.sid → thas s.jobs k = true) ∧
      p.job.hives = s.freeHives.take (mHives m) ∧ p.job.hives.length = mHives m ∧ (∀ h ∈ p.job.hives, s.hiveFree h = true) ∧
      p.job.state = .launching ∧ p.job.dom = recN m 0x0A 1 ∧ p.job.root = recN m 0x10 8 ∧
      p.job.reachlim = (if recN m 0x0B 1 = 0 then 16 else recN m 0x0B 1) ∧
      (∃ l, imagesAt m 0x2C (recN m 0x1C 4) (recN m 0x18 4) = some l ∧ checkHandlers s.part l = .ok p.job.handlers) ∧
      imagesAt m 0x30 (recN m 0x24 4) (recN m 0x20 4) = some p.job.graphs) ∧
    (let good := hostRoute s.node route = true ∧ ctlPrio ctl = 1 ∧ ctlCount ctl = 3 ∧ bitsN ctl 45 40 = 0 ∧ bitsN p2 63 2 = 0 ∧
       p0.toNat % 64 = 0 ∧ 64 ≤ p1.toNat ∧ manifestHead s.part m = true ∧
       (imagesAt m 0x2C (recN m 0x1C 4) (recN m 0x18 4)).isSome = true ∧ (imagesAt m 0x30 (recN m 0x24 4) (recN m 0x20 4)).isSome = true ∧
       spanOk s.node m = true
     (¬good → s.plan_ route ctl p0 p1 p2 = .error (some .illegalForm)) ∧
     (good → mSid m ≠ 0 → thas s.jobs (mSid m) = true → s.plan_ route ctl p0 p1 p2 = .error (some .busy)))) ∧
  (∀ (s : State), s.lkDown 0 = false →
    (∀ m, s.arg = .spanJoin m →
      (s.leading = some m.sid → (s.job m.sid).span.lead = s.node → (s.job m.sid).span.devices = m.devices →
        (s.job m.sid).span.digest = m.digest → (s.job m.sid).span.joined.contains m.node = false →
        exec .spanJoin s = .next ((s.setJob m.sid { s.job m.sid with span :=
          { (s.job m.sid).span with joined := (s.job m.sid).span.joined ++ [m.node] } }).spanCount m.sid)) ∧
      (∀ sid, s.leading = some sid → m.sid ≠ sid ∨ (s.job sid).span.devices ≠ m.devices ∨ (s.job sid).span.digest ≠ m.digest →
        exec .spanJoin s = .next ((s.toNet m.node none (.spanAnswer m.sid [] 0 false)).spanCount sid)) ∧
      (s.leading = none → thas s.jobs m.sid = true →
        exec .spanJoin s = .next (s.toNet m.node none (.spanAnswer m.sid [] 0 false))) ∧
      (s.leading = none → thas s.jobs m.sid = false → ∃ u, exec .spanJoin s = .next u ∧ u.mem = s.mem ∧ u.jobs = s.jobs ∧ (m, s.cycle) ∈ u.ctl.joins)) ∧
    (∀ sid ms key ok, s.arg = .spanAnswer sid ms key ok → s.spanning sid = true → (s.job sid).span.lead ≠ s.node →
      exec .spanAnswer s = .next (if ok = true then (s.setJob sid { s.job sid with members := ms, key := key }).started sid
        else s.unlaunch sid (some .illegalForm))) ∧
    (∀ sid, s.arg = .spanJoinTimeout sid →
      (s.spanLate sid = true → (s.job sid).span.lead ≠ s.node → exec .spanJoinTimeout s = .next (s.unlaunch sid (some .linkTimeout))) ∧
      (s.spanLate sid = false → exec .spanJoinTimeout s = .next s)) ∧
    (∀ sid, s.arg = .spanLeadTimeout sid →
      (s.spanLate sid = true → (s.job sid).span.lead = s.node → exec .spanLeadTimeout s = .next
        (((s.job sid).span.joined.foldl (fun s n => if n = s.node then s else s.toNet n none (.spanAnswer sid [] 0 false)) s).unlaunch sid
          (some .linkTimeout))) ∧
      (s.spanLate sid = false → exec .spanLeadTimeout s = .next s)) ∧
    (∀ sid m, s.arg = .leadSessionResponse sid m → s.spanning sid = true → (s.job sid).span.lead ≠ s.node →
      (s.job sid).span.asking = false → m.step = (s.job sid).span.session →
      (s.spdmReason 0 m = 0 → m.step ≠ 5 → m.step ≠ 11 → exec .leadSessionResponse s = .next (s.sessionAsk sid (m.step + 1))) ∧
      (s.spdmReason 0 m = 0 → m.step = 5 → exec .leadSessionResponse s = .next (s.sessionAsk sid 10)) ∧
      (m.step = 11 → exec .leadSessionResponse s =
        .next (({ s with sessions := s.sessions ++ [(s.job sid).span.lead] } : State).sendJoin sid)) ∧
      (s.spdmReason 0 m ≠ 0 → exec .leadSessionResponse s = .next (s.unlaunch sid none))))

/-- R25, R26, R410: ending. A JOB_END on die 0 of a job whose lead is this device ends it here and is told to every other member;
the teardown waits for the accesses that have begun; die 0's lockkeeper then frees what is left on its die and instructs die
1's, and the last of them retires the SID; a job complete for 4,096 cycles ends the same way, with way 1. R25: a retired SID
holds nothing: it names no job any more. -/
def Obligations.JobsEnd : Prop :=
  (∀ (s : State) (sid : Nat) (j : Job), s.lkDown 0 = false → j = s.job sid → thas s.jobs sid = true →
    (∀ die way, s.arg = .jobEnd die sid way → s.lkDown die = false →
      (die ≠ 0 → exec .jobEnd s = .next (s.post .none (.jobEnd 0 sid way))) ∧
      (∀ w, die = 0 → way = some w → j.state = .running → exec .jobEnd s = .next (s.setJob sid { j with state := .ending w, idleSince := some s.cycle })) ∧
      (die = 0 → way = none → j.span.lead ≠ s.node → exec .jobEnd s = .next (s.toNet j.span.lead (some sid) (.jobBarge 0 (s.passOn j.span.lead sid)))) ∧
      (die = 0 → way = none → j.span.lead = s.node → j.state = .running → j.members = [s.node] →
        exec .jobEnd s = .next (s.setJob sid { j with state := .ending 0, idleSince := some s.cycle })) ∧
      (die = 0 → way = none → j.span.lead = s.node → j.state = .running →
        let v := (j.members.filter (· ≠ s.node)).foldl (fun (v : State) n => v.toNet n (some sid) (.spanEnd sid 0)) s
        exec .jobEnd s = .next (v.endJob sid 0) ∧ ((v.endJob sid 0).job sid).state = .ending 0)) ∧
    (∀ way, s.arg = .jobEndTeardown 0 sid → j.state = .ending way → j.killDies = [] →
      (s.teardownReady sid = false → exec .jobEndTeardown s = .next s) ∧
      (s.teardownReady sid = true → s.part.dies = 1 → exec .jobEndTeardown s = .next ((s.setJob sid { j with killDies := [0] }).dieEnded 0 sid way)) ∧
      (s.teardownReady sid = true → s.part.dies = 2 → exec .jobEndTeardown s =
        .next (((s.setJob sid { j with killDies := [0, 1] }).post .none (.jobEndTeardown 1 sid)).dieEnded 0 sid way))) ∧
    (∀ die way v, s.arg = .jobEndTeardown die sid → s.lkDown die = false → j.state = .ending way → j.killDies = [die] → v = s.purgeDie sid die →
      exec .jobEndTeardown s = .next ((v.setJob sid { v.job sid with killDies := [] }).retire sid way)) ∧
    (s.arg = .completionDetect sid → j.state = .running → j.span.devices = 1 →
      (s.completeNow sid = false → exec .completionDetect s = .next s) ∧
      (s.completeNow sid = true → exec .completionDetect s = .next (s.setJob sid { j with state := .ending 1, idleSince := some s.cycle })))) ∧
  (∀ (s : State) (die sid way : Nat), s.arg = .jobEndTeardown die sid → s.lkDown die = false → (s.job sid).state = .ending way →
    (s.job sid).killDies = [die] ∨ die = 0 ∧ (s.job sid).killDies = [] ∧ s.part.dies = 1 ∧ s.teardownReady sid = true → ∃ u, exec .jobEndTeardown s = .next u ∧ thas u.jobs sid = false)

/-- R28, R410: a device of a spanning job tells its lead when it becomes quiet or idle and when it stops being so; the lead asks
for fresh reports, and each member answers; a job on this device alone that is idle for 2^24 cycles without being complete is
killed as deadlocked; 10 s without a route to the lead kill the member's own share. R28, R209, R463, R472: who kills a job. A
fault at rank 7 is reported by an event and kills with its cause; the owner's KILL kills and waits for its event; a member
passes a kill to the lead, and the lead sends it to every member and kills its own share; an error that is pinned to no unit
kills the SID it carries, or those its structure serves; what die 1's lockkeeper wants killed it asks die 0's to kill. That a
kill reaches a job whose launch waits in its step 8 is the model's reading (log 149). R275, R473: a die's share of a kill. Its
first five steps stop and drop what the die does for the SID; then, with no page in scrubbing and none of its shootdowns under
way, the pages of the frame are quarantined and scrubbed (which granule names the page: log 144), the memories are zeroed and
KILLED is sent with the cause of the kill (log 47); a scrubbed page has both bits cleared and is announced. -/
def Obligations.DetectorsAndKills : Prop :=
  (∀ (s : State) (sid : Nat) (j : Job), s.lkDown 0 = false → j = s.job sid → thas s.jobs sid = true → j.state = .running →
    (s.arg = .completionDetect sid → 1 < j.span.devices →
      exec .completionDetect s = .next (if j.span.quiet = s.completeNow sid then s else s.sendReport sid none)) ∧
    (s.arg = .deadlockDetect sid → 1 < j.span.devices →
      exec .deadlockDetect s = .next (if j.span.idle = s.idleNow sid then s else s.sendReport sid none)) ∧
    (s.arg = .deadlockDetect sid → j.span.devices = 1 →
      (s.idleNow sid = true → j.quietSince = none → exec .deadlockDetect s = .next (s.kill sid .deadlock)) ∧
      (s.idleNow sid = false ∨ j.quietSince.isSome = true → exec .deadlockDetect s = .next s)) ∧
    (∀ n, s.arg = .freshReportRequest sid n → exec .freshReportRequest s = .next (s.sendReport sid (some n))) ∧
    (∀ r, (s.arg = .quietReport r → r.sid = sid → j.span.lead ≠ s.node → exec .quietReport s = .next s) ∧
      (s.arg = .quietReport r → exec .quietReport s = .next (s.takeReport r)) ∧
      (s.arg = .activeReport r → exec .activeReport s = .next (s.takeReport r)) ∧
      (s.arg = .activeReport r → r.sid = sid → r.quiet = false → r.idle = false → j.span.lead = s.node → j.span.asked = false →
        r.node ∈ j.members → exec .activeReport s =
          .next (s.setJob sid { j with span := { j.span with reports := tput j.span.reports r.node r } }))) ∧
    (s.arg = .leadUnreachable sid →
      exec .leadUnreachable s = .next (if s.leadGone sid = true then s.killHere sid .linkTimeout else s))) ∧
  (∀ (s : State) (sid : Nat) (j : Job), j = s.job sid → thas s.jobs sid = true → j.state = .running → s.lkDown 0 = false →
    (∀ die b, s.arg = .rank7Fault die b → s.lkDown die = false → b.sid = sid → exec .rank7Fault s = .next
      (((s.eventJob die 0x004 sid b.payload).blameFrame b).wantKill die sid (Cause.ofCode (bitsN (b.payload.headD 0) 7 0)))) ∧
    (∀ c p, s.arg = .kill c p → bitsN p 15 0 = sid →
      exec .kill s = .next (({ s with ctl := { s.ctl with hostKill := some sid } } : State).kill sid .killed)) ∧
    (∀ x, s.arg = .spanKill sid x → (j.span.lead ≠ s.node → exec .spanKill s = .next (s.killHere sid x)) ∧
      (j.span.lead = s.node → j.others s.node = [] → exec .spanKill s = .next (s.killHere sid x)) ∧
      (∀ n, j.span.lead = s.node → j.others s.node = [n] →
        exec .spanKill s = .next ((s.toNet n (some sid) (.spanKill sid x)).killHere sid x)) ∧
      (j.span.lead = s.node → j.others s.node = [] → x ≠ .deadlock → s.part.dies = 2 → ∃ u, exec .spanKill s = .next u ∧ u.mem = s.mem ∧
        (u.job sid).state = .killed x ∧ u.ctl.kills = s.ctl.kills + 1 ∧
        u.pending = s.pending ++ [⟨.none, s.cycle, .dieKill 0 sid x⟩, ⟨.none, s.cycle, .dieKill 1 sid x⟩])) ∧
    (∀ die hit frame, s.arg = .unpinnedError die hit frame → s.servedBy die hit = [sid] → s.lkDown die = false → exec .unpinnedError s = .next
      ((({ s with ctl := { s.ctl with uncorr := min 0xFFFF (s.ctl.uncorr + 1) } } : State).setJob sid { j with frame := frame }).wantKill die sid .killed)) ∧
    (∀ die k, s.servedBy die (.carries k) = [k] ∧ (k ∈ s.servedBy die .turso ↔ thas s.jobs k = true) ∧
      (∀ e, k ∈ s.servedBy die (.edge e) ↔ ∃ y ∈ s.jobs, y.1 = k ∧ ∃ h ∈ y.2.hives, h.die = die)) ∧
    (∀ die x, s.wantKill die sid x = if die = 0 then s.kill sid x else s.post .none (.dieKill 0 sid x))) ∧
  (∀ (s : State) (die sid : Nat) (j : Job), j = s.job sid → thas s.jobs sid = true → s.lkDown die = false → s.lkDown 0 = false →
    (∀ x, s.arg = .dieKill die sid x →
      (die ∈ j.killDies → thas j.counts die = false → exec .dieKill s =
        .next (((s.setJob sid { j with counts := tput j.counts die (s.tally sid die) }).purgeDie sid die).post .none (.killDrainDone die sid))) ∧
      (die ∉ j.killDies → exec .dieKill s = .next (if die = 0 then s.kill sid x else s))) ∧
    (s.arg = .killDrainDone die sid → die ∈ j.killDies → thas j.counts die = true →
      ((∃ x ∈ s.scrubs, x.sid = sid) ∨ (∃ x ∈ s.shoots, x.2.sid = sid ∧ x.2.host = false) → exec .killDrainDone s = .next s) ∧
      ((∀ x ∈ s.scrubs, x.sid ≠ sid) → (∀ x ∈ s.shoots, x.2.sid ≠ sid ∨ x.2.host = true) → j.frame = none → exec .killDrainDone s = .next (s.dieKilled die sid)) ∧
      (∀ f, (∀ x ∈ s.scrubs, x.sid ≠ sid) → (∀ x ∈ s.shoots, x.2.sid ≠ sid ∨ x.2.host = true) → j.frame = some f → s.leavesOf f 4 1 j.root 0 = [] → exec .killDrainDone s =
        .next ((s.setJob sid { j with frame := none }).dieKilled die sid))) ∧
    (∀ va, s.arg = .scrubDone sid va →
      ((∀ x ∈ s.scrubs, x.sid ≠ sid ∨ x.va ≠ va) → exec .scrubDone s = .next s) ∧
      (∀ x, s.scrubs.find? (fun x => x.sid = sid && x.va = va) = some x → exec .scrubDone s = .next
        ((({ s with scrubs := s.scrubs.filter (· ≠ x) } : State).setLeaf sid x.leaf x.size va (fun e => e &&& ~~~(fld 3 4))).eventJob 0 0x00B
          sid [fld sid 0, fld (bitsN (BitVec.ofNat 64 (natOf (s.bytes (.hbm x.leaf) 8))) 51 12 * 4096) 0, fld x.size 0]))))

/-- R479, R480: an entry of a host basin. One that finds room is written, its eight words, to the 64 bytes of the tail's slot, and
the tail moves on; one that does not is held, up to 256, in order; no other byte of memory changes. R21, R476, R477, R478,
R480: the companion's side. A write to the barge port other than one of 64 bytes, or without link 24, does nothing; a barge
before ready or after a trip is dropped and counted; one that finds the lockkeeper busy waits in order; a malformed barge is
refused with ILLEGAL_FORM, and so is one for a host's service that comes by another path; writing a basin's registers sets
them and writes what was held. -/
def Obligations.HostBasinsAndBarges : Prop :=
  (∀ (s : State) (n : Nat) (ws : List Word) (b : HostBasin), b = s.hostBasin n → ws.length = 8 → Memory.wf s.mem →
    (b.room = true → (∀ e ∈ s.ctl.hold, e.1 ≠ n) →
      ((s.basinPut n ws).hostBasin n).tail = (b.tail + 1) % 2 ^ 32 ∧
      (s.basinPut n ws).bytes (.comp (b.base + 64 * (b.tail % b.entries))) 64 = ws.flatMap (fun w => bytesOf 8 w.toNat) ∧
      ∀ l : Loc, (l.key < (Loc.comp (b.base + 64 * (b.tail % b.entries))).key ∨
          (Loc.comp (b.base + 64 * (b.tail % b.entries))).key + 64 ≤ l.key) →
        ((s.basinPut n ws).bytes l 1) = s.bytes l 1) ∧
    (b.room = false ∨ (∃ e ∈ s.ctl.hold, e.1 = n) → (s.basinPut n ws).mem = s.mem ∧
      (s.ctl.hold.length < 256 → (s.basinPut n ws).ctl.hold = s.ctl.hold ++ [(n, ws)]) ∧
      (256 ≤ s.ctl.hold.length → (s.basinPut n ws).ctl.hold = s.ctl.hold ∧
        ((s.basinPut n ws).hostBasin n).lost = min 4095 (b.lost + 1)))) ∧
  (∀ (s : State),
    (∀ ws, s.arg = .bargePortWrite ws →
      (s.linkUp 24 = false ∨ ws.length ≠ 8 → exec .bargePortWrite s = .next s) ∧
      (s.linkUp 24 = true → ws.length = 8 → s.readyAt = none ∨ s.ctl.trip = true → exec .bargePortWrite s = .next { s with ctl := { s.ctl with early := min 0xFFFF (s.ctl.early + 1) } }) ∧
      (s.linkUp 24 = true → ws.length = 8 → s.readyAt.isSome = true → s.ctl.trip = false → s.ctl.hostBusy = true →
        exec .bargePortWrite s = .next { s with ctl := { s.ctl with hostq := s.ctl.hostq ++ [ws] } }) ∧
      (s.linkUp 24 = true → ws.length = 8 → s.readyAt.isSome = true → s.ctl.trip = false → s.ctl.hostBusy = false → s.ctl.hostq = [] → ∃ u, exec .bargePortWrite s = .next u ∧ u.mem = s.mem ∧
        u.ctl.hostBusy = true ∧ u.pending = s.pending ++ [⟨.host, s.cycle, hostStep s.node ws⟩])) ∧
    (∀ ws host, s.arg = .unknownService ws host → s.lkDown 0 = false →
      let v := s.eventOwner 0 0x002 [refusedWord .illegalForm (ctlHandler (ws.getD 1 0))]
      exec .unknownService s = .next (if host = true then v.hostNext else v)) ∧
    (∀ m p n v, s.lkDown 0 = false →
      (s.arg = .hostBasinBase m p n v → s.dcrReaches m p = true → m = 1 → n < 4 → bitsN v 5 4 = 0 → bitsN v 3 0 ≤ 12 →
        exec .hostBasinBase s = .next
          (s.setHostBasin n { s.hostBasin n with base := bitsN v 51 6 * 64, size := bitsN v 3 0, head := 0, tail := 0 }).basinPump) ∧
      (s.arg = .hostBasinBase m p n v → m ≠ 1 → exec .hostBasinBase s = .next s) ∧
      (s.arg = .hostBasinHead m p n v → s.dcrReaches m p = true → m = 1 → n < 4 →
        exec .hostBasinHead s = .next (s.setHostBasin n { s.hostBasin n with head := bitsN v 31 0 }).basinPump) ∧
      (s.arg = .hostBasinHead m p n v → m ≠ 1 → exec .hostBasinHead s = .next s)))

/-- R485, R486: start-up. Power-good resets the device but for its part, its memories and its flash, and tries the active slot's
image, then the other's, which changes the slots' places (log 56): an image passes if both signatures verify over its digest
and its security version is not below the fused minimum. Each step leads to the next or stops start-up with its code; step 3
makes every memory of the device zero; step 5 sets ready, and sends a HIVE event for a hive that step 4 has fenced. -/
def Obligations.StartUp : Prop :=
  ∀ (s : State),
    (∀ x v, FwSig.check x v = 0 ↔ x.ecdsa = some x.digest ∧ x.lms = some x.digest ∧ Config.fwMinSec ≤ v) ∧
    (s.arg = .powerGood → ∃ u, exec .powerGood s = .next u ∧ u.mem = s.mem ∧ u.part = s.part ∧ u.jobs = [] ∧ u.ctxs = [] ∧
      u.readyAt = none ∧ u.stopped = false ∧
      (s.ctl.fwSig.check s.ctl.fwSecver = 0 → u.ctl.phase = 2 ∧ u.ctl.failed = false ∧ u.ctl.fwActive = s.ctl.fwActive ∧ u.ctl.fwVersion = s.ctl.fwVersion) ∧
      (s.ctl.fwSig.check s.ctl.fwSecver ≠ 0 → s.ctl.fwOtherSig.check s.ctl.fwOtherSec = 0 → u.ctl.phase = 2 ∧ u.ctl.failed = false ∧ u.ctl.fwActive = 1 - s.ctl.fwActive ∧ u.ctl.fwVersion = s.ctl.fwOther) ∧
      (s.ctl.fwSig.check s.ctl.fwSecver ≠ 0 → s.ctl.fwOtherSig.check s.ctl.fwOtherSec ≠ 0 → u.ctl.failed = true ∧ u.ctl.fail = 1)) ∧
    (∀ node fail, s.arg = .calibrate node fail → s.starting 2 = true →
      (fail = 2 ∨ fail = 3 ∨ fail = 5 → exec .calibrate s = .next (s.startFail fail)) ∧
      (fail = 0 → exec .calibrate s = .next { s with node := node % 2 ^ 21, ctl := { s.ctl with phase := 3 } })) ∧
    (∀ ok, s.arg = .memoryZeroInit ok → s.starting 3 = true →
      (ok = false → exec .memoryZeroInit s = .next (s.startFail 4)) ∧
      (ok = true → Memory.wf s.mem → ∃ u, exec .memoryZeroInit s = .next u ∧ u.ctl.phase = 4 ∧ u.poison = [] ∧
        (∀ l : Loc, l.key < (Loc.comp 0).key ∨ (Loc.comp (2 ^ 52)).key ≤ l.key → u.bytes l 1 = [0]) ∧ (∀ a, a < 2 ^ 52 → u.bytes (.comp a) 1 = s.bytes (.comp a) 1))) ∧
    (∀ l, s.arg = .elementSelfTest l → s.starting 4 = true →
      (l = [] → exec .elementSelfTest s = .next { s with ctl := { s.ctl with phase := 5 } }) ∧
      (∀ e, l = [e] → isCompute e.tile.tile = true → e.elem < 16 → e.tile.tile < 16 → e.tile.hive < 64 → e.tile.die < s.part.dies →
        (s.tile e.tile).spare = none → ∃ u, exec .elementSelfTest s = .next u ∧ u.mem = s.mem ∧ u.ctl.phase = 5 ∧
          (u.tile e.tile).spare = some e.elem ∧ u.hiveSt = s.hiveSt)) ∧
    (s.arg = .ready → s.starting 5 = true →
      ((∀ h ∈ s.hiveSt, h.2 ≠ 1 ∨ s.spoiled h.1 = false) → exec .ready s = .next { s with readyAt := some s.cycle }) ∧
      (∀ h, s.hiveSt = [(h, 1)] → s.spoiled h = true →
        exec .ready s = .next (({ s with readyAt := some s.cycle } : State).hiveEvent h 1 1 2)))

/-- R481, R482, R483: ownership. A master claims a device without an owner, or confirms a handover in its second; the owner
relinquishes or names a successor; a handover that nobody confirms is over, and the owner whose path is DOWN for a second
loses the device, a path being link 24 or a manager's link with its session; nobody else's write does anything. -/
def Obligations.OwnersChange : Prop :=
  ∀ (s : State) (m p : Nat) (v : Word), s.lkDown 0 = false →
    (s.arg = .claimWrite m p v →
      (s.dcrReaches m p = true → v = 1 → s.ctl.owner = 0 → exec .claimWrite s = .next (s.setOwner m p 0)) ∧
      (∀ d, s.dcrReaches m p = true → v = 1 → s.ctl.owner ≠ 0 → s.ctl.pending = m → s.ctl.handDue = some d → s.cycle < d →
        exec .claimWrite s = .next (s.setOwner m p 1)) ∧
      (s.dcrReaches m p = false ∨ v ≠ 1 ∨ (s.ctl.owner ≠ 0 ∧ s.ctl.pending ≠ m) → exec .claimWrite s = .next s)) ∧
    (s.arg = .relinquish m p →
      (s.owns m p = false → exec .relinquish s = .next s) ∧
      (s.owns m p = true → s.ctl.owner ≠ 0 →
        exec .relinquish s = .next (({ s with ctl := { s.ctl with handover := 0 } } : State).setOwner 0 0 3))) ∧
    (s.arg = .handover m p v →
      (s.owns m p = false → exec .handover s = .next s) ∧
      (s.owns m p = true → bitsN v 63 2 = 0 → v.toNat ≠ s.ctl.owner → v ≠ 0 → exec .handover s = .next
        { s with ctl := { s.ctl with handover := v, pending := v.toNat, handDue := some (s.cycle + 1250000000) } })) ∧
    (s.arg = .handoverTimeout →
      (s.handoverLate = false → exec .handoverTimeout s = .next s) ∧
      (s.handoverLate = true → exec .handoverTimeout s = .next
        (({ s with ctl := { s.ctl with pending := 0, handDue := none } } : State).ownerEvent s.ctl.owner 2))) ∧
    (s.ctl.owner = 1 → s.pathUp = s.linkUp 24) ∧
    (s.ctl.owner = 3 → (s.pathUp = true ↔ s.linkUp s.ctl.plane = true ∧ (s.switch s.ctl.plane).passed = true)) ∧
    (s.pathUp = true → s.timePath.ctl.lostAt = none) ∧
    (s.pathUp = false → s.timePath.ctl.lostAt = some (s.ctl.lostAt.getD s.cycle)) ∧
    (s.arg = .ownerPathLost → exec .ownerPathLost s = .next (if s.pathLost = true then s.setOwner 0 0 4 else s))

/-- R482: while there is no owner, a write of 1 to DCR_CLAIM makes the writer the owner; any other write to it is ignored, except
the confirmation of R483. -/
def Obligations.ClaimsMakeOwners : Prop :=
  ∀ (s : State) (m p : Nat) (v : Word), s.arg = .claimWrite m p v → s.lkDown 0 = false → s.dcrReaches m p = true →
    (s.ctl.owner = 0 → v = 1 → ∃ u, exec .claimWrite s = .next u ∧ u.ctl.owner = m) ∧
    (v ≠ 1 → exec .claimWrite s = .next s) ∧
    (s.ctl.owner ≠ 0 → s.ctl.pending ≠ m ∨ s.ctl.handDue = none ∨ (∃ d, s.ctl.handDue = some d ∧ d ≤ s.cycle) →
      exec .claimWrite s = .next s)

/-- R492: the owner may write DCR_PWR_CAP with any value from 300 to 1,600; a master that is not the owner but holds the RACK role
only a value below the cap; every other write is ignored; each one accepted sends a POWER event. -/
def Obligations.PowerCapWrites : Prop :=
  ∀ (s : State) (m p : Nat) (v : Word), s.arg = .powerCap m p v → s.lkDown 0 = false → s.dcrReaches m p = true →
    let rack : Bool := (BitVec.ofNat 64 s.ctl.rack).getLsbD (m - 1)
    let fit : Prop := 300 ≤ v.toNat ∧ v.toNat ≤ 1600
    (fit → s.owns m p = true ∨ (rack = true ∧ v.toNat < s.ctl.pwrCap) →
      ∃ (u : State) (ws : List Word), exec .powerCap s = .next (u.eventOwner 0 0x012 ws) ∧ u.mem = s.mem ∧ u.ctl.pwrCap = v.toNat ∧ ws[1]? = some v) ∧
    (¬ fit ∨ (s.owns m p = false ∧ (rack = false ∨ s.ctl.pwrCap ≤ v.toNat)) → exec .powerCap s = .next s)

/-- R267, R490, R491: hives in service. FENCED, TESTING, REPAIRING and ONLINE are written by the owner; a hive nobody holds is
fenced at once and one that is held is moved; a test ends FENCED, with the event that R490 asks for (log 51); a hive comes
back ONLINE with zeroed memories; another transition is refused. A move renames the hive in one step (log 52). Nobody but the
owner changes anything. -/
def Obligations.HivesAreServiced : Prop :=
  ∀ (s : State) (m p n : Nat) (h : HiveId), s.lkDown 0 = false → h = ⟨n / 64, n % 64⟩ → n < 64 * s.part.dies →
    (s.owns m p = false →
      (s.arg = .hiveFence m p n → exec .hiveFence s = .next s) ∧ (s.arg = .hiveTest m p n → exec .hiveTest s = .next s) ∧
      (s.arg = .hiveOnline m p n → exec .hiveOnline s = .next s) ∧ (s.arg = .hiveRepair m p n → m ≠ 0 → exec .hiveRepair s = .next s)) ∧
    (s.owns m p = true → m ≠ 0 →
      (s.arg = .hiveFence m p n → s.hiveState h = 0 → thas s.moves h = false →
        (s.sidOf h = none → (∀ x ∈ s.moves, x.2.dest ≠ h) → exec .hiveFence s = .next ((s.setHive h 1).hiveEvent h 0 1 0)) ∧
        (∀ sid, s.sidOf h = some sid → exec .hiveFence s = .next (s.startMove h sid))) ∧
      (s.arg = .hiveTest m p n → s.hiveState h = 1 → exec .hiveTest s = .next (s.setHive h 2)) ∧
      (s.arg = .hiveTest m p n → s.hiveState h = 0 → exec .hiveTest s = .next (s.hiveEvent h 0 0 1)) ∧
      (s.arg = .hiveRepair m p n → s.hiveState h = 1 → exec .hiveRepair s = .next (s.setHive h 3)) ∧
      (s.arg = .hiveOnline m p n → s.hiveState h = 1 → exec .hiveOnline s = .next (((s.zeroHive h).setHive h 0).hiveEvent h 1 0 0))) ∧
    (∀ st, s.arg = .hiveTestDone n st → exec .hiveTestDone s = .next (if s.hiveState h = 2 then
      (s.setHive h 1).hiveEvent h 1 1 (if st = 0 then 0 else 2) else s)) ∧
    (s.arg = .hiveRepair 0 p n → s.hiveState h = 3 → exec .hiveRepair s = .next (s.repaired h)) ∧
    (∀ x, s.arg = .hiveMoveDone h →
      (tfind s.moves h = none → exec .hiveMoveDone s = .next s) ∧
      (tfind s.moves h = some x → s.moveReady h = false → exec .hiveMoveDone s = .next (s.cutMoving h)) ∧
      (tfind s.moves h = some x → s.moveReady h = true → x.insts = [] → x.threads = [] → exec .hiveMoveDone s = .next
        ((((({ s with moves := tdel s.moves h } : State).copyHive h x.dest).setJob x.sid
          (((({ s with moves := tdel s.moves h } : State).copyHive h x.dest).job x.sid).movedTo h x.dest)).setHive h 1).hiveEvent h 0 1 0)))

/-- R492, R493, R494: power and temperature. The cap is set by the owner from 300 to 1,600, and lowered by a RACK master; sticky
bits are cleared by ones; the limit is set from 60 to 105; reaching the cap and crossing the limit are noted and throttle, a
crossing is announced by a THERMAL event (above the limit, not at it: log 59); at 110 degrees the device trips: every SID is
killed, uncounted, and with the last one the device is at rest. R421, R466, R481, R495: the other registers. The owner clears
error counts, sets a link's off bit, which takes it DOWN, and writes RACK roles; a write of a master that does not reach the
registers does nothing, and neither does one that is unaligned or not of 8 bytes; a read is answered, with 0 where it is
unaligned or not of 8 bytes; the registers are reached from the end of start-up's step 1, by the companion while link 24 is
UP. R494: a device that has stopped takes no step but those a stopped device takes: another one faults. -/
def Obligations.DeviceRegisters : Prop :=
  (∀ (s : State) (m p : Nat) (v : Word), s.lkDown 0 = false →
    (s.arg = .powerCap m p v →
      (v.toNat < 300 ∨ 1600 < v.toNat → exec .powerCap s = .next s) ∧
      (s.dcrReaches m p = true → s.owns m p = true → 300 ≤ v.toNat → v.toNat ≤ 1600 → ∃ u, exec .powerCap s = .next u ∧
        u.ctl.pwrCap = v.toNat ∧ u.ctl.pwrWrites = s.ctl.pwrWrites + 1) ∧
      (s.dcrReaches m p = true → s.owns m p = false → s.ctl.pwrCap ≤ v.toNat → exec .powerCap s = .next s)) ∧
    (s.arg = .powerEventClear m p v →
      (s.owns m p = false → exec .powerEventClear s = .next s) ∧
      (s.owns m p = true → bitsN v 15 5 = 0 → bitsN v 63 32 = 0 → exec .powerEventClear s =
        .next { s with ctl := { s.ctl with pwrHits := s.ctl.pwrHits &&& ~~~(v.extractLsb' 1 4) } })) ∧
    (s.arg = .thermalLimit m p v →
      (s.owns m p = false → exec .thermalLimit s = .next s) ∧
      (s.owns m p = true → bitsN v 63 34 = 0 → 60 ≤ bitsN v 31 24 → bitsN v 31 24 ≤ 105 → exec .thermalLimit s =
        .next { s with ctl := { s.ctl with limit := bitsN v 31 24 } })) ∧
    (∀ now, s.arg = .capReached now → (∀ e ∈ s.ctl.pwrLog, e.2 ≤ 0xFFFF) → ∃ u, exec .capReached s = .next u ∧ u.mem = s.mem ∧
      u.ctl.pwrLimiting = decide (s.ctl.pwrCap ≤ min now 0xFFFF) ∧ bitsN u.ctl.pwrNow 15 0 = min now 0xFFFF ∧
      min now 0xFFFF ≤ bitsN u.ctl.pwrNow 31 16 ∧ (∀ e ∈ s.ctl.pwrLog, s.cycle < e.1 + 1250000000 → e.2 ≤ bitsN u.ctl.pwrNow 31 16) ∧
      (u.ctl.pwrLimiting = true → bitsN u.ctl.pwrNow 39 32 ≠ 0 ∧ u.ctl.pwrHits.getLsbD 0 = true)) ∧
    (∀ die t u, s.arg = .thermalCrossing die t → ¬(die = 1 ∧ s.part.dies = 1) → 2 ≤ die ∨ t < 110 → u = s.heated die t →
      u.mem = s.mem ∧ u.ctl.throttling = decide (s.ctl.limit < (s.ctl.heat die t).hottest) ∧
      (die = 0 → u.ctl.temp0 = min t 255) ∧ (die = 1 → u.ctl.temp1 = min t 255) ∧ (2 ≤ die → u.ctl.hbmTemp = min t 255) ∧
      (u.ctl.throttling = true → u.ctl.pwrHits = s.ctl.pwrHits ||| 4 ∧ bitsN u.ctl.pwrNow 39 32 ≠ 0) ∧
      (u.ctl.throttling = false → u.ctl.pwrHits = s.ctl.pwrHits) ∧
      (u.ctl.throttling = s.ctl.throttling → exec .thermalCrossing s = .next u) ∧
      (u.ctl.throttling ≠ s.ctl.throttling → exec .thermalCrossing s = .next (u.eventOwner 0 0x013 [u.thermWord]))) ∧
    (∀ die t, s.arg = .thermalCrossing die t → die < s.part.dies → 110 ≤ t → exec .thermalCrossing s = .next (s.trip_ die t)) ∧
    (∀ die t, s.arg = .thermalTrip die t → die < s.part.dies →
      (t < 110 → exec .thermalTrip s = .next s) ∧
      (110 ≤ t → exec .thermalTrip s = .next (s.trip_ die t) ∧ (s.trip_ die t).ctl.trip = true ∧ (s.trip_ die t).isReady = false) ∧
      (110 ≤ t → s.ctl.trip = false → s.jobs = [] → (s.trip_ die t).stopped = true ∧ (s.trip_ die t).readyAt = none) ∧
      (∀ sid j, 110 ≤ t → s.ctl.trip = false → s.jobs = [(sid, j)] → j.state = .running → j.span.lead = s.node → j.others s.node = [] →
        ((s.trip_ die t).job sid).state = .killed .killed ∧ (s.trip_ die t).ctl.kills = s.ctl.kills ∧ (s.trip_ die t).stopped = s.stopped))) ∧
  (∀ (s : State) (m p : Nat), s.lkDown 0 = false →
    (∀ v, s.arg = .rasClear m p v →
      (s.owns m p = false → exec .rasClear s = .next s) ∧
      (s.owns m p = true → exec .rasClear s = .next { s with ctl := { s.ctl with
        uncorr := if bitsN v 31 16 ≠ 0 then 0 else s.ctl.uncorr, corr := if bitsN v 15 0 ≠ 0 then 0 else s.ctl.corr } })) ∧
    (∀ n off, s.arg = .linkOff m p n off → n < 25 → linkAbsent s.part n = false →
      (s.owns m p = false → exec .linkOff s = .next s) ∧
      (s.owns m p = true → off = false ∨ s.linkUp n = false → exec .linkOff s = .next
        (s.setLink n { s.link n with off := off, st := if off = true ∧ (s.link n).st = 1 then 0 else (s.link n).st })) ∧
      (s.owns m p = true → off = true → s.linkUp n = true → exec .linkOff s = .next ((s.setLink n { s.link n with off := true }).linkLost n))) ∧
    (s.dcrReaches 1 p = true ↔ 2 ≤ s.ctl.phase ∧ s.linkUp 24 = true) ∧ (s.ctl.phase < 2 → s.dcrReaches m p = false) ∧
    (∀ r, s.arg = .dcrWrite r → r.master = m → r.plane = p → r.read = true →
      (s.dcrReaches m p = false → exec .dcrWrite s = .next s) ∧
      (s.dcrReaches m p = true → r.off % 8 = 0 → r.size = 8 →
        exec .dcrWrite s = .next { s with dcrOut := s.dcrOut ++ [(r, s.dcrRead r.off)] }) ∧
      (s.dcrReaches m p = true → r.off % 8 ≠ 0 ∨ r.size ≠ 8 → exec .dcrWrite s = .next { s with dcrOut := s.dcrOut ++ [(r, 0)] })) ∧
    (∀ r, s.arg = .dcrWrite r → r.master = m → r.plane = p → r.read = false → (r.size ≠ 8 → exec .dcrWrite s = .next s) ∧ (r.size = 8 →
      (s.dcrReaches m p = false ∨ r.off % 8 ≠ 0 → exec .dcrWrite s = .next s) ∧
      (s.owns m p = true → r.off = 0x020 → bitsN r.val 63 13 = 0 → bitsN r.val 7 7 = 0 → exec .dcrWrite s =
        .next { s with ctl := { s.ctl with rack := bitsN r.val 12 10 } }) ∧
      (s.owns m p = true → r.off = 0x200 → exec .dcrWrite s = .next (s.thermDcr r.val)) ∧
      (r.off = 0x010 → exec .dcrWrite s = .next s)))) ∧
  (∀ (s : State) (t : Turn), s.stopped = true → t.whileStopped = false → s.run t = .fault .deviceStopped)

/-- R467 to R470: elements and twins. The first error of an element squashes its firings of the cycle and holds it until its
windows are replayed (how long: log 62); a second within a millisecond takes the spare, or fails the element for good; the
move to the spare ends the hold; a pair that may be armed is armed. R474, R487, R488, R489: lockkeepers and firmware. An error
in a lockkeeper's memory kills the SIDs of its die and restarts it; what it had to do waits, and goes on after the restart in
the order it came in; an image is staged only for the companion as owner, if it is well placed and passes the checks of R486:
it then stands in the other slot, and a FIRMWARE event says so; activating the staged slot swaps the slots and restarts both
lockkeepers, two restarts (log 54). -/
def Obligations.ElementsAndLockkeepers : Prop :=
  (∀ (s : State),
    (∀ e x, s.arg = .elementError e → x = s.elem e → x.dead = false → x.heldTo ≤ s.cycle → e.elem < 16 → isCompute e.tile.tile = true →
      ∃ u, exec .elementError s = .next u ∧
        (x.lastErr = none → u.mem = s.mem ∧ u.planes = s.planes ∧ (u.elem e).lastErr = some s.cycle ∧ (u.elem e).dead = false ∧
          s.cycle < (u.elem e).heldTo ∧ (u.elem e).replay = true ∧ u.pending = s.pending ∧
          (∀ q ∈ (u.tile e.tile).chosen, q.plane.elem ≠ e) ∧
          (∀ q, (s.tile e.tile).chosen.find? (fun q => q.plane.elem = e) = some q → (u.elem e).retry = some q)) ∧
        (∀ c, x.lastErr = some c → s.cycle ≤ c + 1250000 → (s.tile e.tile).spare = none →
          u.mem = s.mem ∧ u.planes = s.planes ∧ u.pending = s.pending ++ [⟨.none, s.cycle, .spareMove e⟩]) ∧
        (∀ c k, x.lastErr = some c → s.cycle ≤ c + 1250000 → (s.tile e.tile).spare = some k → (∀ p, (s.plane ⟨e, p⟩).inst = none) →
          (u.elem e).dead = true ∧ u.ctl.fails = s.ctl.fails + 1)) ∧
    (∀ e, s.arg = .spareMove e → s.lkDown e.tile.die = false →
      ((s.elem e).dead = true → exec .spareMove s = .next s) ∧
      (∀ c, (s.elem e).dead = false → (s.tile e.tile).spare = none → (s.elem e).lastErr = some c → (s.elem e).heldTo = c + 4096 →
        ∃ u, exec .spareMove s = .next u ∧ (u.tile e.tile).spare = some e.elem ∧ (u.elem e).heldTo = s.cycle ∧
          u.ctl.spares = s.ctl.spares + 1)) ∧
    (∀ c p0 p1 a b, s.arg = .twin c p0 p1 → s.lkDown 0 = false → bitsN p0 63 16 = 0 → bitsN p1 31 23 = 0 → bitsN p1 63 55 = 0 →
      s.twinInst (bitsN p0 15 0) (bitsN p1 22 0) = some a → s.twinInst (bitsN p0 15 0) (bitsN p1 54 32) = some b → s.twinOk a b = true →
      exec .twin s = .next ({ s with twins := s.twins ++ [{ a := a, b := b }] } : State).hostNext)) ∧
  (∀ (s : State),
    (∀ die, s.arg = .lockkeeperMemoryError die → s.jobs = [] → die < s.part.dies → ∃ u, exec .lockkeeperMemoryError s = .next u ∧
      u.mem = s.mem ∧ u.lkDown die = true ∧ u.ctl.restarts = s.ctl.restarts + 1 ∧ u.ctl.uncorr = min 0xFFFF (s.ctl.uncorr + 1)) ∧
    (∀ die sid j, s.arg = .lockkeeperMemoryError die → s.jobs = [(sid, j)] → (∃ h ∈ j.hives, h.die = die) → die < s.part.dies →
      exec .lockkeeperMemoryError s = .next ((s.countUncorr.wantKill die sid .killed).restartLock die)) ∧
    (∀ die, s.arg = .lockkeeperRestartDone die →
      (s.restarting die = false → exec .lockkeeperRestartDone s = .next s) ∧
      (s.restarting die = true → s.ctl.fwGo = false → ∃ u, exec .lockkeeperRestartDone s = .next u ∧ u.mem = s.mem ∧
        u.restarting die = false ∧ u.ctl.held = s.ctl.held ∧ u.pending = s.pending)) ∧
    (∀ die f, (s.lkDown die = true → (s.byLock die f).ctl.held = s.ctl.held ++ [(die, s.arg)] ∧ (s.byLock die f).mem = s.mem) ∧
      (s.lkDown die = false → s.byLock die f = f s)) ∧
    (∀ e r, s.ctl.held = (0, e) :: r → s.lkDown 0 = false → s.lkDown 1 = true →
      s.relock.ctl.held = r ∧ s.relock.pending = s.pending ++ [⟨.lock 0, s.cycle, e⟩] ∧ s.relock.lkDown 0 = true) ∧
    (∀ c a n, s.arg = .fwStage c a n → s.lkDown 0 = false →
      (s.ctl.owner ≠ 1 → exec .fwStage s = .next (s.eventOwner 0 0x002 [fld Cause.access.code 0 ||| fld 6 16]).hostNext) ∧
      (s.ctl.owner = 1 → a.toNat % 4096 ≠ 0 ∨ 2 ^ 24 < n.toNat →
        exec .fwStage s = .next (s.eventOwner 0 0x002 [fld Cause.illegalForm.code 0 ||| fld 6 16]).hostNext) ∧
      (s.ctl.owner = 1 → a.toNat % 4096 = 0 → bitsN a 63 52 = 0 → n.toNat ≤ 2 ^ 24 →
        let img := s.bytes (.comp a.toNat) n.toNat
        let sha := Config.sha384 img
        let sig : FwSig := ⟨sha, Config.fwEcdsa img, Config.fwLms img⟩
        let c : Ctl := { s.ctl with fwStaged := true, fwOther := Config.fwVersion img % 2 ^ 24 }
        let d : Ctl := { c with fwOtherSec := Config.fwSecver img % 256, fwOtherSig := sig }
        exec .fwStage s = .next
          (if s.linkUp 24 = true ∧ Config.fwEcdsa img = some sha ∧ Config.fwLms img = some sha ∧ Config.fwMinSec ≤ Config.fwSecver img % 256 then
            ({ s with ctl := d } : State).firmware 0
          else if s.linkUp 24 = false then s.firmware 3
          else if Config.fwEcdsa img ≠ some sha ∨ Config.fwLms img ≠ some sha then s.firmware 1 else s.firmware 2))) ∧
    (∀ c, s.arg = .fwActivate c → s.lkDown 0 = false →
      (s.ctl.owner ≠ 1 → exec .fwActivate s = .next (s.eventOwner 0 0x002 [fld Cause.access.code 0 ||| fld 7 16]).hostNext) ∧
      (s.ctl.owner = 1 → s.ctl.fwStaged = false → exec .fwActivate s = .next (s.firmware 4)) ∧
      (s.ctl.owner = 1 → s.ctl.fwStaged = true → ∃ u, exec .fwActivate s = .next u ∧ u.mem = s.mem ∧
        u.ctl.fwActive = 1 - s.ctl.fwActive ∧ u.ctl.fwVersion = s.ctl.fwOther ∧ u.ctl.fwStaged = false ∧
        ∀ d, d < s.part.dies → u.lkDown d = true)))

/-- R30 to R34, R44: encoding and decoding a thread's word. Every well-formed instruction is read back from its word, in memory
order too, and a word that is accepted is the word of the instruction it is read as. R34, R45, R51: the same of a rule's word. -/
def Obligations.WordsRoundTrip : Prop :=
  ((∀ (i : Instr) (g : BitVec 4) (r : List Byte), threadTag i = some g → WellFormed.ok i = true →
    decodeThread (encode i) = .ok i ∧ decodeBytes (wordBytes (encode i) ++ r) = .ok (i, r)) ∧
  (∀ (w : BitVec 32) (i : Instr), decodeThread w = .ok i → encode i = w ∧ WellFormed.ok i = true ∧ (threadTag i).isSome = true)) ∧
  ((∀ i : Instr, ruleWord i = true → WellFormed.ok i = true → decodeElement (encode i) = .ok i) ∧
  (∀ (w : BitVec 32) (i : Instr), decodeElement w = .ok i → encode i = w ∧ WellFormed.ok i = true ∧ ruleWord i = true))

/-- R35: a word whose OP field is 0x00 is illegal in both contexts, whatever its other bits. -/
def Obligations.ZeroOpcodeIsIllegal : Prop :=
  ∀ w : BitVec 32, w.extractLsb' 24 8 = 0 → decodeThread w = .error .illegalOp ∧ decodeElement w = .error .illegalOp

/-- R35, R50, R51: a reserved opcode, 0x00 and one of the other context raise ILLEGAL_OP in a thread, whatever the other bits; a
rule takes none of a thread's but `nop` and `stat`. R181, Example 5, and words written out from R31, R32, R50 and the fields
each description gives: what they decode to. -/
def Obligations.ReservedOpcodesAndSamples : Prop :=
  (∀ (w : BitVec 32) (n : Nat), n = w.toNat / 2 ^ 24 →
    (n ∈ [0x00, 0x0B, 0x0C, 0x0D, 0x0E, 0x0F, 0x36, 0x37, 0x45, 0x46, 0x47, 0x4E, 0x4F, 0x54, 0x55, 0x56, 0x57, 0x64, 0x65, 0x66, 0x67, 0x72,
      0x73, 0x74, 0x75, 0x76, 0x77, 0x82, 0x83, 0x84, 0x85, 0x86, 0x87, 0x91, 0x92, 0x93, 0x94, 0x95, 0x96, 0x97, 0x9D, 0x9E, 0x9F, 0xA6,
      0xA7, 0xAF, 0xB6, 0xB7, 0xBA, 0xBB, 0xBC, 0xBD, 0xBE, 0xBF] ∨ 0xC0 ≤ n → decodeThread w = .error .illegalOp) ∧
    ((n < 0xC0 ∧ n ≠ 0x01 ∧ n ≠ 0x08) ∨ n ∈ [0xCC, 0xCD, 0xCE, 0xCF] ∨ 0xF1 ≤ n → decodeElement w = .error .illegalOp)) ∧
  (decodeThread 0x04004400 = .ok (.csrr 0x020 2 0) ∧ decodeThread 0x3B190220 = .ok (.cmpLtu 3 4 1 2 0) ∧
  decodeThread 0x40088610 = .ok (.pand 1 2 3 1 0) ∧ decodeThread 0x44300A00 = .ok (.pset 6 5 0) ∧
  decodeThread 0x43380000 = .ok (.pget 7 0 0) ∧ decodeThread 0x30104200 = .ok (.sext 2 32 1 0) ∧
  decodeThread 0x4C480000 = .ok (.jr 9 0) ∧ decodeThread 0x4B000080 = .ok (.jl 8 0) ∧ decodeThread 0x03000050 = .ok (.trap 5 0) ∧
  decodeThread 0x07000050 = .ok (.brk 5 0) ∧ decodeThread 0x08000610 = .ok (.stat 1 3 0) ∧
  decodeThread 0x50000010 = .ok (.reach 1 0) ∧ decodeThread 0x00000000 = .error .illegalOp ∧
  decodeElement 0xEC008003 = .ok (.sst 0 2 3))

/-- R37, R44, R120, R529: a step takes one turn. A core's turn runs the instruction its word decodes to, or takes ILLEGAL_OP,
ILLEGAL_PORT or ILLEGAL_FORM; a tile's turn runs the next chosen rule's word; a turn that delivers takes a message out and
runs its step; another runs a step of the machine's own, lets cycles pass, or brings an error to light (log 115); and the
detectors then note what they watch. That the order of the turns is free, given by the plan, is the model's choice (log 2). -/
def Obligations.AStepRunsTheDecodedInstruction : Prop :=
  ∀ (s : State) (k : Turn) (r : List Turn) (v : State), s.plan = k :: r → s.stopped = false → v = { s with plan := r } →
    (∀ c t u w, k = .issue c → (v.core c).lastIssue ≠ some v.cycle → v.issuer c = some t → u = v.issued t →
      u.codeWord (u.ctx t).sid (u.ctx t).pc = some w →
      (∀ i x, decodeThread w = .ok i → exec i u = .next x → step s = .next (x.relock.observe (some (v.ctx t).sid))) ∧
      (decodeThread w = .error .illegalPort → step s = .next ((u.stop t ⟨.illegalPort, none⟩ w).relock.observe (some (v.ctx t).sid))) ∧
      (decodeThread w = .error .illegalForm → step s = .next ((u.stop t ⟨.illegalForm, none⟩ w).relock.observe (some (v.ctx t).sid))) ∧
      (∀ x, decodeThread w = .error .illegalOp → exec .illegalOp { u with arg := .illegalOp w } = .next x →
        step s = .next (x.relock.observe (some (v.ctx t).sid)))) ∧
    (∀ t q l w z i x, k = .fire t → (v.tile t).chosen = q :: l → v.rule q = some (w, z) → v.ready q = true → decodeElement w = .ok i →
      exec i { v with curR := q } = .next x → step s = .next (x.relock.observe (v.tileSid t))) ∧
    (∀ j n p w x, k = .deliver j → v.open_[j]? = some n → v.pending[n]? = some p → w = ({ v with pending := v.pending.eraseIdx n } : State) →
      (v.netTie p = none → exec p.ev.row { w.pass (p.due - v.cycle) with arg := p.ev } = .next x →
        step s = .next (x.relock.observe (v.evSid p.ev))) ∧
      (∀ y, v.netTie p = some y →
        exec p.ev.row { w.pass (y.at_ - v.cycle) with arg := p.ev, ties := v.ties.filter (fun z => z.at_ = y.at_) ++ [y] } = .next x →
        step s = .next (x.relock.observe (v.evSid p.ev)))) ∧
    (∀ e x, k = .act e → v.mayAct e = true → exec e.row { v.dcrArrives e with arg := e } = .next x → x ≠ { v with arg := e } → x ≠ v →
      step s = .next (x.relock.observe (v.evSid e))) ∧
    (∀ n, k = .tick n → step s = .next ((v.pass n).replanPeers.relock.observe none) ∧
      ((∀ e ∈ v.tiles, e.2.chosen = []) → (v.pass n).cycle = s.cycle + n ∧ (v.pass n).mem = s.mem)) ∧
    (∀ u, k = .upset u → step s = .next ((v.upset u).relock.observe none)) ∧
    (v.upset .corrected).mem = s.mem ∧ (v.upset .corrected).ctl.corr = min 0xFFFF (s.ctl.corr + 1)

/-- R25, R28, R410: what the detectors watch is watched at every step. After each step, of every RUNNING job: since when it has
been complete is noted exactly while it is complete, since when it has been idle is always noted, and since when its lead has
been out of reach is noted exactly while it is. R410: a note once made is kept: a job that is complete before a step and after
it has been complete since the same cycle, and one that the step did not act for has been idle since the same cycle. -/
def Obligations.DetectorsWatchEveryStep : Prop :=
  (∀ (s t : State), step s = .next t → ∀ e ∈ t.jobs, e.2.state = .running →
    e.2.quietSince.isSome = t.jobQuiet e.1 ∧ e.2.idleSince.isSome = true ∧ e.2.span.routeLostAt.isSome = t.leadLost e.2) ∧
  (∀ (s : State) (a : Option Nat) (sid c : Nat), (s.job sid).state = .running → thas s.jobs sid = true →
    ((s.job sid).quietSince = some c → s.jobQuiet sid = true → ((s.observe a).job sid).quietSince = some c) ∧
    ((s.job sid).idleSince = some c → a ≠ some sid → ((s.observe a).job sid).idleSince = some c) ∧
    (s.jobQuiet sid = false → ((s.observe a).job sid).quietSince = none) ∧
    (a = some sid → ((s.observe a).job sid).idleSince = some s.cycle))

/-- R116, R437, R438, R466, R480, R482, R485, R493, R494: what reset leaves. Every context is FREE, no job is allotted, NRETRY is
6 and RTIMEOUT 10,000, nobody owns the device and the board controller holds RACK, the cap is 1,600 W and the limit 95 °C,
counts are zero, and the memory holds nothing: every byte reads as zero, which before start-up's step 3 is the model's choice
(log 7), as are the constants of the part, the flash and the image, which it holds as 0 (log 11). The same holds at reset,
where no job is. -/
def Obligations.ResetState : Prop :=
  (let s := State.reset
  s.readyAt = none ∧ s.jobs = [] ∧ s.mem = [] ∧ (∀ l : Loc, s.byte l = 0) ∧ Memory.wf s.mem ∧ (∀ t, (s.ctx t).status = .free) ∧
  (∀ c sid, s.nretry c sid = 6 ∧ s.rtimeout c sid = 10000) ∧
  bitsN (s.dcrRead 0x010) 0 0 = 0 ∧ s.dcrRead 0x020 = 0x800 ∧ s.dcrRead 0x028 = 0 ∧ s.dcrRead 0x100 = 1600 ∧ s.dcrRead 0x108 = 0 ∧
  s.dcrRead 0x120 = 0 ∧ s.dcrRead 0x200 = 0x5F000000 ∧ s.dcrRead 0x300 = 0 ∧
  (∀ n, n < 4 → s.dcrRead (0x400 + 16 * n) = 0 ∧ s.dcrRead (0x408 + 16 * n) = 0) ∧
  (∀ h, s.hiveState h = 0)) ∧
  (∀ e ∈ State.reset.jobs, e.2.state = .running →
    e.2.quietSince.isSome = State.reset.jobQuiet e.1 ∧ e.2.idleSince.isSome = true ∧ e.2.span.routeLostAt.isSome = State.reset.leadLost e.2)
end

