-- ==== Sys2Proof/Laws/State.lean ====
section
/-! SUPPORT. What each update of the state does to each of its fields: one lemma for each, so that no proof unfolds a
record update. -/

namespace Sys2Proof.Machine

open Sys2Proof

/-! ## `setCtx` -/

@[simp] theorem State.setCtx_part (s : State) (t : ThreadId) (c : Ctx) : (s.setCtx t c).part = s.part := rfl
@[simp] theorem State.setCtx_node (s : State) (t : ThreadId) (c : Ctx) : (s.setCtx t c).node = s.node := rfl
@[simp] theorem State.setCtx_cycle (s : State) (t : ThreadId) (c : Ctx) : (s.setCtx t c).cycle = s.cycle := rfl
@[simp] theorem State.setCtx_readyAt (s : State) (t : ThreadId) (c : Ctx) : (s.setCtx t c).readyAt = s.readyAt := rfl
@[simp] theorem State.setCtx_mem (s : State) (t : ThreadId) (c : Ctx) : (s.setCtx t c).mem = s.mem := rfl
@[simp] theorem State.setCtx_poison (s : State) (t : ThreadId) (c : Ctx) : (s.setCtx t c).poison = s.poison := rfl
@[simp] theorem State.setCtx_free (s : State) (t : ThreadId) (c : Ctx) : (s.setCtx t c).free = s.free := rfl
@[simp] theorem State.setCtx_plan (s : State) (t : ThreadId) (c : Ctx) : (s.setCtx t c).plan = s.plan := rfl
@[simp] theorem State.setCtx_pending (s : State) (t : ThreadId) (c : Ctx) : (s.setCtx t c).pending = s.pending := rfl
@[simp] theorem State.setCtx_curT (s : State) (t : ThreadId) (c : Ctx) : (s.setCtx t c).curT = s.curT := rfl
@[simp] theorem State.setCtx_curR (s : State) (t : ThreadId) (c : Ctx) : (s.setCtx t c).curR = s.curR := rfl
@[simp] theorem State.setCtx_arg (s : State) (t : ThreadId) (c : Ctx) : (s.setCtx t c).arg = s.arg := rfl
@[simp] theorem State.setCtx_netOut (s : State) (t : ThreadId) (c : Ctx) : (s.setCtx t c).netOut = s.netOut := rfl
@[simp] theorem State.setCtx_ctxs (s : State) (t : ThreadId) (c : Ctx) : (s.setCtx t c).ctxs = tput s.ctxs t c := rfl
@[simp] theorem State.setCtx_cores (s : State) (t : ThreadId) (c : Ctx) : (s.setCtx t c).cores = s.cores := rfl
@[simp] theorem State.setCtx_jobs (s : State) (t : ThreadId) (c : Ctx) : (s.setCtx t c).jobs = s.jobs := rfl
@[simp] theorem State.setCtx_stations (s : State) (t : ThreadId) (c : Ctx) : (s.setCtx t c).stations = s.stations := rfl
@[simp] theorem State.setCtx_shoots (s : State) (t : ThreadId) (c : Ctx) : (s.setCtx t c).shoots = s.shoots := rfl
@[simp] theorem State.setCtx_snoop (s : State) (t : ThreadId) (c : Ctx) : (s.setCtx t c).snoop = s.snoop := rfl
@[simp] theorem State.setCtx_nextSerial (s : State) (t : ThreadId) (c : Ctx) : (s.setCtx t c).nextSerial = s.nextSerial := rfl
@[simp] theorem State.setCtx_tags (s : State) (t : ThreadId) (c : Ctx) : (s.setCtx t c).tags = s.tags := rfl
@[simp] theorem State.setCtx_wreqs (s : State) (t : ThreadId) (c : Ctx) : (s.setCtx t c).wreqs = s.wreqs := rfl
@[simp] theorem State.setCtx_wseq (s : State) (t : ThreadId) (c : Ctx) : (s.setCtx t c).wseq = s.wseq := rfl
@[simp] theorem State.setCtx_lockSends (s : State) (t : ThreadId) (c : Ctx) : (s.setCtx t c).lockSends = s.lockSends := rfl
@[simp] theorem State.setCtx_lockNext (s : State) (t : ThreadId) (c : Ctx) : (s.setCtx t c).lockNext = s.lockNext := rfl
@[simp] theorem State.setCtx_stopped (s : State) (t : ThreadId) (c : Ctx) : (s.setCtx t c).stopped = s.stopped := rfl
@[simp] theorem State.setCtx_planes (s : State) (t : ThreadId) (c : Ctx) : (s.setCtx t c).planes = s.planes := rfl
@[simp] theorem State.setCtx_elems (s : State) (t : ThreadId) (c : Ctx) : (s.setCtx t c).elems = s.elems := rfl
@[simp] theorem State.setCtx_tiles (s : State) (t : ThreadId) (c : Ctx) : (s.setCtx t c).tiles = s.tiles := rfl
@[simp] theorem State.setCtx_gens (s : State) (t : ThreadId) (c : Ctx) : (s.setCtx t c).gens = s.gens := rfl
@[simp] theorem State.setCtx_slices (s : State) (t : ThreadId) (c : Ctx) : (s.setCtx t c).slices = s.slices := rfl
@[simp] theorem State.setCtx_joints (s : State) (t : ThreadId) (c : Ctx) : (s.setCtx t c).joints = s.joints := rfl
@[simp] theorem State.setCtx_hauls (s : State) (t : ThreadId) (c : Ctx) : (s.setCtx t c).hauls = s.hauls := rfl
@[simp] theorem State.setCtx_horder (s : State) (t : ThreadId) (c : Ctx) : (s.setCtx t c).horder = s.horder := rfl
@[simp] theorem State.setCtx_insts (s : State) (t : ThreadId) (c : Ctx) : (s.setCtx t c).insts = s.insts := rfl
@[simp] theorem State.setCtx_saves (s : State) (t : ThreadId) (c : Ctx) : (s.setCtx t c).saves = s.saves := rfl
@[simp] theorem State.setCtx_twins (s : State) (t : ThreadId) (c : Ctx) : (s.setCtx t c).twins = s.twins := rfl
@[simp] theorem State.setCtx_snaps (s : State) (t : ThreadId) (c : Ctx) : (s.setCtx t c).snaps = s.snaps := rfl
@[simp] theorem State.setCtx_colls (s : State) (t : ThreadId) (c : Ctx) : (s.setCtx t c).colls = s.colls := rfl
@[simp] theorem State.setCtx_groups (s : State) (t : ThreadId) (c : Ctx) : (s.setCtx t c).groups = s.groups := rfl
@[simp] theorem State.setCtx_egress (s : State) (t : ThreadId) (c : Ctx) : (s.setCtx t c).egress = s.egress := rfl
@[simp] theorem State.setCtx_links (s : State) (t : ThreadId) (c : Ctx) : (s.setCtx t c).links = s.links := rfl
@[simp] theorem State.setCtx_flows (s : State) (t : ThreadId) (c : Ctx) : (s.setCtx t c).flows = s.flows := rfl
@[simp] theorem State.setCtx_accepts (s : State) (t : ThreadId) (c : Ctx) : (s.setCtx t c).accepts = s.accepts := rfl
@[simp] theorem State.setCtx_meshq (s : State) (t : ThreadId) (c : Ctx) : (s.setCtx t c).meshq = s.meshq := rfl
@[simp] theorem State.setCtx_frames (s : State) (t : ThreadId) (c : Ctx) : (s.setCtx t c).frames = s.frames := rfl
@[simp] theorem State.setCtx_wins (s : State) (t : ThreadId) (c : Ctx) : (s.setCtx t c).wins = s.wins := rfl
@[simp] theorem State.setCtx_viols (s : State) (t : ThreadId) (c : Ctx) : (s.setCtx t c).viols = s.viols := rfl
@[simp] theorem State.setCtx_winReqs (s : State) (t : ThreadId) (c : Ctx) : (s.setCtx t c).winReqs = s.winReqs := rfl
@[simp] theorem State.setCtx_once (s : State) (t : ThreadId) (c : Ctx) : (s.setCtx t c).once = s.once := rfl
@[simp] theorem State.setCtx_rslots (s : State) (t : ThreadId) (c : Ctx) : (s.setCtx t c).rslots = s.rslots := rfl
@[simp] theorem State.setCtx_policy (s : State) (t : ThreadId) (c : Ctx) : (s.setCtx t c).policy = s.policy := rfl
@[simp] theorem State.setCtx_switches (s : State) (t : ThreadId) (c : Ctx) : (s.setCtx t c).switches = s.switches := rfl
@[simp] theorem State.setCtx_sessions (s : State) (t : ThreadId) (c : Ctx) : (s.setCtx t c).sessions = s.sessions := rfl
@[simp] theorem State.setCtx_spdm (s : State) (t : ThreadId) (c : Ctx) : (s.setCtx t c).spdm = s.spdm := rfl
@[simp] theorem State.setCtx_hiveSt (s : State) (t : ThreadId) (c : Ctx) : (s.setCtx t c).hiveSt = s.hiveSt := rfl
@[simp] theorem State.setCtx_moves (s : State) (t : ThreadId) (c : Ctx) : (s.setCtx t c).moves = s.moves := rfl
@[simp] theorem State.setCtx_scrubs (s : State) (t : ThreadId) (c : Ctx) : (s.setCtx t c).scrubs = s.scrubs := rfl
@[simp] theorem State.setCtx_ctl (s : State) (t : ThreadId) (c : Ctx) : (s.setCtx t c).ctl = s.ctl := rfl
@[simp] theorem State.setCtx_dcrOut (s : State) (t : ThreadId) (c : Ctx) : (s.setCtx t c).dcrOut = s.dcrOut := rfl
@[simp] theorem State.setCtx_ties (s : State) (t : ThreadId) (c : Ctx) : (s.setCtx t c).ties = s.ties := rfl
@[simp] theorem State.setCtx_dropped (s : State) (t : ThreadId) (c : Ctx) : (s.setCtx t c).dropped = s.dropped := rfl

/-! ## `setCore` -/

@[simp] theorem State.setCore_part (s : State) (c : CoreId) (k : Core) : (s.setCore c k).part = s.part := rfl
@[simp] theorem State.setCore_node (s : State) (c : CoreId) (k : Core) : (s.setCore c k).node = s.node := rfl
@[simp] theorem State.setCore_cycle (s : State) (c : CoreId) (k : Core) : (s.setCore c k).cycle = s.cycle := rfl
@[simp] theorem State.setCore_readyAt (s : State) (c : CoreId) (k : Core) : (s.setCore c k).readyAt = s.readyAt := rfl
@[simp] theorem State.setCore_mem (s : State) (c : CoreId) (k : Core) : (s.setCore c k).mem = s.mem := rfl
@[simp] theorem State.setCore_poison (s : State) (c : CoreId) (k : Core) : (s.setCore c k).poison = s.poison := rfl
@[simp] theorem State.setCore_free (s : State) (c : CoreId) (k : Core) : (s.setCore c k).free = s.free := rfl
@[simp] theorem State.setCore_plan (s : State) (c : CoreId) (k : Core) : (s.setCore c k).plan = s.plan := rfl
@[simp] theorem State.setCore_pending (s : State) (c : CoreId) (k : Core) : (s.setCore c k).pending = s.pending := rfl
@[simp] theorem State.setCore_curT (s : State) (c : CoreId) (k : Core) : (s.setCore c k).curT = s.curT := rfl
@[simp] theorem State.setCore_curR (s : State) (c : CoreId) (k : Core) : (s.setCore c k).curR = s.curR := rfl
@[simp] theorem State.setCore_arg (s : State) (c : CoreId) (k : Core) : (s.setCore c k).arg = s.arg := rfl
@[simp] theorem State.setCore_netOut (s : State) (c : CoreId) (k : Core) : (s.setCore c k).netOut = s.netOut := rfl
@[simp] theorem State.setCore_ctxs (s : State) (c : CoreId) (k : Core) : (s.setCore c k).ctxs = s.ctxs := rfl
@[simp] theorem State.setCore_cores (s : State) (c : CoreId) (k : Core) : (s.setCore c k).cores = tput s.cores c k := rfl
@[simp] theorem State.setCore_jobs (s : State) (c : CoreId) (k : Core) : (s.setCore c k).jobs = s.jobs := rfl
@[simp] theorem State.setCore_stations (s : State) (c : CoreId) (k : Core) : (s.setCore c k).stations = s.stations := rfl
@[simp] theorem State.setCore_shoots (s : State) (c : CoreId) (k : Core) : (s.setCore c k).shoots = s.shoots := rfl
@[simp] theorem State.setCore_snoop (s : State) (c : CoreId) (k : Core) : (s.setCore c k).snoop = s.snoop := rfl
@[simp] theorem State.setCore_nextSerial (s : State) (c : CoreId) (k : Core) : (s.setCore c k).nextSerial = s.nextSerial := rfl
@[simp] theorem State.setCore_tags (s : State) (c : CoreId) (k : Core) : (s.setCore c k).tags = s.tags := rfl
@[simp] theorem State.setCore_wreqs (s : State) (c : CoreId) (k : Core) : (s.setCore c k).wreqs = s.wreqs := rfl
@[simp] theorem State.setCore_wseq (s : State) (c : CoreId) (k : Core) : (s.setCore c k).wseq = s.wseq := rfl
@[simp] theorem State.setCore_lockSends (s : State) (c : CoreId) (k : Core) : (s.setCore c k).lockSends = s.lockSends := rfl
@[simp] theorem State.setCore_lockNext (s : State) (c : CoreId) (k : Core) : (s.setCore c k).lockNext = s.lockNext := rfl
@[simp] theorem State.setCore_stopped (s : State) (c : CoreId) (k : Core) : (s.setCore c k).stopped = s.stopped := rfl
@[simp] theorem State.setCore_planes (s : State) (c : CoreId) (k : Core) : (s.setCore c k).planes = s.planes := rfl
@[simp] theorem State.setCore_elems (s : State) (c : CoreId) (k : Core) : (s.setCore c k).elems = s.elems := rfl
@[simp] theorem State.setCore_tiles (s : State) (c : CoreId) (k : Core) : (s.setCore c k).tiles = s.tiles := rfl
@[simp] theorem State.setCore_gens (s : State) (c : CoreId) (k : Core) : (s.setCore c k).gens = s.gens := rfl
@[simp] theorem State.setCore_slices (s : State) (c : CoreId) (k : Core) : (s.setCore c k).slices = s.slices := rfl
@[simp] theorem State.setCore_joints (s : State) (c : CoreId) (k : Core) : (s.setCore c k).joints = s.joints := rfl
@[simp] theorem State.setCore_hauls (s : State) (c : CoreId) (k : Core) : (s.setCore c k).hauls = s.hauls := rfl
@[simp] theorem State.setCore_horder (s : State) (c : CoreId) (k : Core) : (s.setCore c k).horder = s.horder := rfl
@[simp] theorem State.setCore_insts (s : State) (c : CoreId) (k : Core) : (s.setCore c k).insts = s.insts := rfl
@[simp] theorem State.setCore_saves (s : State) (c : CoreId) (k : Core) : (s.setCore c k).saves = s.saves := rfl
@[simp] theorem State.setCore_twins (s : State) (c : CoreId) (k : Core) : (s.setCore c k).twins = s.twins := rfl
@[simp] theorem State.setCore_snaps (s : State) (c : CoreId) (k : Core) : (s.setCore c k).snaps = s.snaps := rfl
@[simp] theorem State.setCore_colls (s : State) (c : CoreId) (k : Core) : (s.setCore c k).colls = s.colls := rfl
@[simp] theorem State.setCore_groups (s : State) (c : CoreId) (k : Core) : (s.setCore c k).groups = s.groups := rfl
@[simp] theorem State.setCore_egress (s : State) (c : CoreId) (k : Core) : (s.setCore c k).egress = s.egress := rfl
@[simp] theorem State.setCore_links (s : State) (c : CoreId) (k : Core) : (s.setCore c k).links = s.links := rfl
@[simp] theorem State.setCore_flows (s : State) (c : CoreId) (k : Core) : (s.setCore c k).flows = s.flows := rfl
@[simp] theorem State.setCore_accepts (s : State) (c : CoreId) (k : Core) : (s.setCore c k).accepts = s.accepts := rfl
@[simp] theorem State.setCore_meshq (s : State) (c : CoreId) (k : Core) : (s.setCore c k).meshq = s.meshq := rfl
@[simp] theorem State.setCore_frames (s : State) (c : CoreId) (k : Core) : (s.setCore c k).frames = s.frames := rfl
@[simp] theorem State.setCore_wins (s : State) (c : CoreId) (k : Core) : (s.setCore c k).wins = s.wins := rfl
@[simp] theorem State.setCore_viols (s : State) (c : CoreId) (k : Core) : (s.setCore c k).viols = s.viols := rfl
@[simp] theorem State.setCore_winReqs (s : State) (c : CoreId) (k : Core) : (s.setCore c k).winReqs = s.winReqs := rfl
@[simp] theorem State.setCore_once (s : State) (c : CoreId) (k : Core) : (s.setCore c k).once = s.once := rfl
@[simp] theorem State.setCore_rslots (s : State) (c : CoreId) (k : Core) : (s.setCore c k).rslots = s.rslots := rfl
@[simp] theorem State.setCore_policy (s : State) (c : CoreId) (k : Core) : (s.setCore c k).policy = s.policy := rfl
@[simp] theorem State.setCore_switches (s : State) (c : CoreId) (k : Core) : (s.setCore c k).switches = s.switches := rfl
@[simp] theorem State.setCore_sessions (s : State) (c : CoreId) (k : Core) : (s.setCore c k).sessions = s.sessions := rfl
@[simp] theorem State.setCore_spdm (s : State) (c : CoreId) (k : Core) : (s.setCore c k).spdm = s.spdm := rfl
@[simp] theorem State.setCore_hiveSt (s : State) (c : CoreId) (k : Core) : (s.setCore c k).hiveSt = s.hiveSt := rfl
@[simp] theorem State.setCore_moves (s : State) (c : CoreId) (k : Core) : (s.setCore c k).moves = s.moves := rfl
@[simp] theorem State.setCore_scrubs (s : State) (c : CoreId) (k : Core) : (s.setCore c k).scrubs = s.scrubs := rfl
@[simp] theorem State.setCore_ctl (s : State) (c : CoreId) (k : Core) : (s.setCore c k).ctl = s.ctl := rfl
@[simp] theorem State.setCore_dcrOut (s : State) (c : CoreId) (k : Core) : (s.setCore c k).dcrOut = s.dcrOut := rfl
@[simp] theorem State.setCore_ties (s : State) (c : CoreId) (k : Core) : (s.setCore c k).ties = s.ties := rfl
@[simp] theorem State.setCore_dropped (s : State) (c : CoreId) (k : Core) : (s.setCore c k).dropped = s.dropped := rfl

/-! ## `setJob` -/

@[simp] theorem State.setJob_part (s : State) (n : Nat) (j : Job) : (s.setJob n j).part = s.part := rfl
@[simp] theorem State.setJob_node (s : State) (n : Nat) (j : Job) : (s.setJob n j).node = s.node := rfl
@[simp] theorem State.setJob_cycle (s : State) (n : Nat) (j : Job) : (s.setJob n j).cycle = s.cycle := rfl
@[simp] theorem State.setJob_readyAt (s : State) (n : Nat) (j : Job) : (s.setJob n j).readyAt = s.readyAt := rfl
@[simp] theorem State.setJob_mem (s : State) (n : Nat) (j : Job) : (s.setJob n j).mem = s.mem := rfl
@[simp] theorem State.setJob_poison (s : State) (n : Nat) (j : Job) : (s.setJob n j).poison = s.poison := rfl
@[simp] theorem State.setJob_free (s : State) (n : Nat) (j : Job) : (s.setJob n j).free = s.free := rfl
@[simp] theorem State.setJob_plan (s : State) (n : Nat) (j : Job) : (s.setJob n j).plan = s.plan := rfl
@[simp] theorem State.setJob_pending (s : State) (n : Nat) (j : Job) : (s.setJob n j).pending = s.pending := rfl
@[simp] theorem State.setJob_curT (s : State) (n : Nat) (j : Job) : (s.setJob n j).curT = s.curT := rfl
@[simp] theorem State.setJob_curR (s : State) (n : Nat) (j : Job) : (s.setJob n j).curR = s.curR := rfl
@[simp] theorem State.setJob_arg (s : State) (n : Nat) (j : Job) : (s.setJob n j).arg = s.arg := rfl
@[simp] theorem State.setJob_netOut (s : State) (n : Nat) (j : Job) : (s.setJob n j).netOut = s.netOut := rfl
@[simp] theorem State.setJob_ctxs (s : State) (n : Nat) (j : Job) : (s.setJob n j).ctxs = s.ctxs := rfl
@[simp] theorem State.setJob_cores (s : State) (n : Nat) (j : Job) : (s.setJob n j).cores = s.cores := rfl
@[simp] theorem State.setJob_jobs (s : State) (n : Nat) (j : Job) : (s.setJob n j).jobs = tput s.jobs n j := rfl
@[simp] theorem State.setJob_stations (s : State) (n : Nat) (j : Job) : (s.setJob n j).stations = s.stations := rfl
@[simp] theorem State.setJob_shoots (s : State) (n : Nat) (j : Job) : (s.setJob n j).shoots = s.shoots := rfl
@[simp] theorem State.setJob_snoop (s : State) (n : Nat) (j : Job) : (s.setJob n j).snoop = s.snoop := rfl
@[simp] theorem State.setJob_nextSerial (s : State) (n : Nat) (j : Job) : (s.setJob n j).nextSerial = s.nextSerial := rfl
@[simp] theorem State.setJob_tags (s : State) (n : Nat) (j : Job) : (s.setJob n j).tags = s.tags := rfl
@[simp] theorem State.setJob_wreqs (s : State) (n : Nat) (j : Job) : (s.setJob n j).wreqs = s.wreqs := rfl
@[simp] theorem State.setJob_wseq (s : State) (n : Nat) (j : Job) : (s.setJob n j).wseq = s.wseq := rfl
@[simp] theorem State.setJob_lockSends (s : State) (n : Nat) (j : Job) : (s.setJob n j).lockSends = s.lockSends := rfl
@[simp] theorem State.setJob_lockNext (s : State) (n : Nat) (j : Job) : (s.setJob n j).lockNext = s.lockNext := rfl
@[simp] theorem State.setJob_stopped (s : State) (n : Nat) (j : Job) : (s.setJob n j).stopped = s.stopped := rfl
@[simp] theorem State.setJob_planes (s : State) (n : Nat) (j : Job) : (s.setJob n j).planes = s.planes := rfl
@[simp] theorem State.setJob_elems (s : State) (n : Nat) (j : Job) : (s.setJob n j).elems = s.elems := rfl
@[simp] theorem State.setJob_tiles (s : State) (n : Nat) (j : Job) : (s.setJob n j).tiles = s.tiles := rfl
@[simp] theorem State.setJob_gens (s : State) (n : Nat) (j : Job) : (s.setJob n j).gens = s.gens := rfl
@[simp] theorem State.setJob_slices (s : State) (n : Nat) (j : Job) : (s.setJob n j).slices = s.slices := rfl
@[simp] theorem State.setJob_joints (s : State) (n : Nat) (j : Job) : (s.setJob n j).joints = s.joints := rfl
@[simp] theorem State.setJob_hauls (s : State) (n : Nat) (j : Job) : (s.setJob n j).hauls = s.hauls := rfl
@[simp] theorem State.setJob_horder (s : State) (n : Nat) (j : Job) : (s.setJob n j).horder = s.horder := rfl
@[simp] theorem State.setJob_insts (s : State) (n : Nat) (j : Job) : (s.setJob n j).insts = s.insts := rfl
@[simp] theorem State.setJob_saves (s : State) (n : Nat) (j : Job) : (s.setJob n j).saves = s.saves := rfl
@[simp] theorem State.setJob_twins (s : State) (n : Nat) (j : Job) : (s.setJob n j).twins = s.twins := rfl
@[simp] theorem State.setJob_snaps (s : State) (n : Nat) (j : Job) : (s.setJob n j).snaps = s.snaps := rfl
@[simp] theorem State.setJob_colls (s : State) (n : Nat) (j : Job) : (s.setJob n j).colls = s.colls := rfl
@[simp] theorem State.setJob_groups (s : State) (n : Nat) (j : Job) : (s.setJob n j).groups = s.groups := rfl
@[simp] theorem State.setJob_egress (s : State) (n : Nat) (j : Job) : (s.setJob n j).egress = s.egress := rfl
@[simp] theorem State.setJob_links (s : State) (n : Nat) (j : Job) : (s.setJob n j).links = s.links := rfl
@[simp] theorem State.setJob_flows (s : State) (n : Nat) (j : Job) : (s.setJob n j).flows = s.flows := rfl
@[simp] theorem State.setJob_accepts (s : State) (n : Nat) (j : Job) : (s.setJob n j).accepts = s.accepts := rfl
@[simp] theorem State.setJob_meshq (s : State) (n : Nat) (j : Job) : (s.setJob n j).meshq = s.meshq := rfl
@[simp] theorem State.setJob_frames (s : State) (n : Nat) (j : Job) : (s.setJob n j).frames = s.frames := rfl
@[simp] theorem State.setJob_wins (s : State) (n : Nat) (j : Job) : (s.setJob n j).wins = s.wins := rfl
@[simp] theorem State.setJob_viols (s : State) (n : Nat) (j : Job) : (s.setJob n j).viols = s.viols := rfl
@[simp] theorem State.setJob_winReqs (s : State) (n : Nat) (j : Job) : (s.setJob n j).winReqs = s.winReqs := rfl
@[simp] theorem State.setJob_once (s : State) (n : Nat) (j : Job) : (s.setJob n j).once = s.once := rfl
@[simp] theorem State.setJob_rslots (s : State) (n : Nat) (j : Job) : (s.setJob n j).rslots = s.rslots := rfl
@[simp] theorem State.setJob_policy (s : State) (n : Nat) (j : Job) : (s.setJob n j).policy = s.policy := rfl
@[simp] theorem State.setJob_switches (s : State) (n : Nat) (j : Job) : (s.setJob n j).switches = s.switches := rfl
@[simp] theorem State.setJob_sessions (s : State) (n : Nat) (j : Job) : (s.setJob n j).sessions = s.sessions := rfl
@[simp] theorem State.setJob_spdm (s : State) (n : Nat) (j : Job) : (s.setJob n j).spdm = s.spdm := rfl
@[simp] theorem State.setJob_hiveSt (s : State) (n : Nat) (j : Job) : (s.setJob n j).hiveSt = s.hiveSt := rfl
@[simp] theorem State.setJob_moves (s : State) (n : Nat) (j : Job) : (s.setJob n j).moves = s.moves := rfl
@[simp] theorem State.setJob_scrubs (s : State) (n : Nat) (j : Job) : (s.setJob n j).scrubs = s.scrubs := rfl
@[simp] theorem State.setJob_ctl (s : State) (n : Nat) (j : Job) : (s.setJob n j).ctl = s.ctl := rfl
@[simp] theorem State.setJob_dcrOut (s : State) (n : Nat) (j : Job) : (s.setJob n j).dcrOut = s.dcrOut := rfl
@[simp] theorem State.setJob_ties (s : State) (n : Nat) (j : Job) : (s.setJob n j).ties = s.ties := rfl
@[simp] theorem State.setJob_dropped (s : State) (n : Nat) (j : Job) : (s.setJob n j).dropped = s.dropped := rfl

/-! ## `post` -/

@[simp] theorem State.post_part (s : State) (ch : Chan) (e : Ev) (n : Nat) : (s.post ch e n).part = s.part := rfl
@[simp] theorem State.post_node (s : State) (ch : Chan) (e : Ev) (n : Nat) : (s.post ch e n).node = s.node := rfl
@[simp] theorem State.post_cycle (s : State) (ch : Chan) (e : Ev) (n : Nat) : (s.post ch e n).cycle = s.cycle := rfl
@[simp] theorem State.post_readyAt (s : State) (ch : Chan) (e : Ev) (n : Nat) : (s.post ch e n).readyAt = s.readyAt := rfl
@[simp] theorem State.post_mem (s : State) (ch : Chan) (e : Ev) (n : Nat) : (s.post ch e n).mem = s.mem := rfl
@[simp] theorem State.post_poison (s : State) (ch : Chan) (e : Ev) (n : Nat) : (s.post ch e n).poison = s.poison := rfl
@[simp] theorem State.post_free (s : State) (ch : Chan) (e : Ev) (n : Nat) : (s.post ch e n).free = s.free := rfl
@[simp] theorem State.post_plan (s : State) (ch : Chan) (e : Ev) (n : Nat) : (s.post ch e n).plan = s.plan := rfl
@[simp] theorem State.post_pending (s : State) (ch : Chan) (e : Ev) (n : Nat) : (s.post ch e n).pending = s.pending ++ [⟨ch, s.cycle + n, e⟩] := rfl
@[simp] theorem State.post_curT (s : State) (ch : Chan) (e : Ev) (n : Nat) : (s.post ch e n).curT = s.curT := rfl
@[simp] theorem State.post_curR (s : State) (ch : Chan) (e : Ev) (n : Nat) : (s.post ch e n).curR = s.curR := rfl
@[simp] theorem State.post_arg (s : State) (ch : Chan) (e : Ev) (n : Nat) : (s.post ch e n).arg = s.arg := rfl
@[simp] theorem State.post_netOut (s : State) (ch : Chan) (e : Ev) (n : Nat) : (s.post ch e n).netOut = s.netOut := rfl
@[simp] theorem State.post_ctxs (s : State) (ch : Chan) (e : Ev) (n : Nat) : (s.post ch e n).ctxs = s.ctxs := rfl
@[simp] theorem State.post_cores (s : State) (ch : Chan) (e : Ev) (n : Nat) : (s.post ch e n).cores = s.cores := rfl
@[simp] theorem State.post_jobs (s : State) (ch : Chan) (e : Ev) (n : Nat) : (s.post ch e n).jobs = s.jobs := rfl
@[simp] theorem State.post_stations (s : State) (ch : Chan) (e : Ev) (n : Nat) : (s.post ch e n).stations = s.stations := rfl
@[simp] theorem State.post_shoots (s : State) (ch : Chan) (e : Ev) (n : Nat) : (s.post ch e n).shoots = s.shoots := rfl
@[simp] theorem State.post_snoop (s : State) (ch : Chan) (e : Ev) (n : Nat) : (s.post ch e n).snoop = s.snoop := rfl
@[simp] theorem State.post_nextSerial (s : State) (ch : Chan) (e : Ev) (n : Nat) : (s.post ch e n).nextSerial = s.nextSerial := rfl
@[simp] theorem State.post_tags (s : State) (ch : Chan) (e : Ev) (n : Nat) : (s.post ch e n).tags = s.tags := rfl
@[simp] theorem State.post_wreqs (s : State) (ch : Chan) (e : Ev) (n : Nat) : (s.post ch e n).wreqs = s.wreqs := rfl
@[simp] theorem State.post_wseq (s : State) (ch : Chan) (e : Ev) (n : Nat) : (s.post ch e n).wseq = s.wseq := rfl
@[simp] theorem State.post_lockSends (s : State) (ch : Chan) (e : Ev) (n : Nat) : (s.post ch e n).lockSends = s.lockSends := rfl
@[simp] theorem State.post_lockNext (s : State) (ch : Chan) (e : Ev) (n : Nat) : (s.post ch e n).lockNext = s.lockNext := rfl
@[simp] theorem State.post_stopped (s : State) (ch : Chan) (e : Ev) (n : Nat) : (s.post ch e n).stopped = s.stopped := rfl
@[simp] theorem State.post_planes (s : State) (ch : Chan) (e : Ev) (n : Nat) : (s.post ch e n).planes = s.planes := rfl
@[simp] theorem State.post_elems (s : State) (ch : Chan) (e : Ev) (n : Nat) : (s.post ch e n).elems = s.elems := rfl
@[simp] theorem State.post_tiles (s : State) (ch : Chan) (e : Ev) (n : Nat) : (s.post ch e n).tiles = s.tiles := rfl
@[simp] theorem State.post_gens (s : State) (ch : Chan) (e : Ev) (n : Nat) : (s.post ch e n).gens = s.gens := rfl
@[simp] theorem State.post_slices (s : State) (ch : Chan) (e : Ev) (n : Nat) : (s.post ch e n).slices = s.slices := rfl
@[simp] theorem State.post_joints (s : State) (ch : Chan) (e : Ev) (n : Nat) : (s.post ch e n).joints = s.joints := rfl
@[simp] theorem State.post_hauls (s : State) (ch : Chan) (e : Ev) (n : Nat) : (s.post ch e n).hauls = s.hauls := rfl
@[simp] theorem State.post_horder (s : State) (ch : Chan) (e : Ev) (n : Nat) : (s.post ch e n).horder = s.horder := rfl
@[simp] theorem State.post_insts (s : State) (ch : Chan) (e : Ev) (n : Nat) : (s.post ch e n).insts = s.insts := rfl
@[simp] theorem State.post_saves (s : State) (ch : Chan) (e : Ev) (n : Nat) : (s.post ch e n).saves = s.saves := rfl
@[simp] theorem State.post_twins (s : State) (ch : Chan) (e : Ev) (n : Nat) : (s.post ch e n).twins = s.twins := rfl
@[simp] theorem State.post_snaps (s : State) (ch : Chan) (e : Ev) (n : Nat) : (s.post ch e n).snaps = s.snaps := rfl
@[simp] theorem State.post_colls (s : State) (ch : Chan) (e : Ev) (n : Nat) : (s.post ch e n).colls = s.colls := rfl
@[simp] theorem State.post_groups (s : State) (ch : Chan) (e : Ev) (n : Nat) : (s.post ch e n).groups = s.groups := rfl
@[simp] theorem State.post_egress (s : State) (ch : Chan) (e : Ev) (n : Nat) : (s.post ch e n).egress = s.egress := rfl
@[simp] theorem State.post_links (s : State) (ch : Chan) (e : Ev) (n : Nat) : (s.post ch e n).links = s.links := rfl
@[simp] theorem State.post_flows (s : State) (ch : Chan) (e : Ev) (n : Nat) : (s.post ch e n).flows = s.flows := rfl
@[simp] theorem State.post_accepts (s : State) (ch : Chan) (e : Ev) (n : Nat) : (s.post ch e n).accepts = s.accepts := rfl
@[simp] theorem State.post_meshq (s : State) (ch : Chan) (e : Ev) (n : Nat) : (s.post ch e n).meshq = s.meshq := rfl
@[simp] theorem State.post_frames (s : State) (ch : Chan) (e : Ev) (n : Nat) : (s.post ch e n).frames = s.frames := rfl
@[simp] theorem State.post_wins (s : State) (ch : Chan) (e : Ev) (n : Nat) : (s.post ch e n).wins = s.wins := rfl
@[simp] theorem State.post_viols (s : State) (ch : Chan) (e : Ev) (n : Nat) : (s.post ch e n).viols = s.viols := rfl
@[simp] theorem State.post_winReqs (s : State) (ch : Chan) (e : Ev) (n : Nat) : (s.post ch e n).winReqs = s.winReqs := rfl
@[simp] theorem State.post_once (s : State) (ch : Chan) (e : Ev) (n : Nat) : (s.post ch e n).once = s.once := rfl
@[simp] theorem State.post_rslots (s : State) (ch : Chan) (e : Ev) (n : Nat) : (s.post ch e n).rslots = s.rslots := rfl
@[simp] theorem State.post_policy (s : State) (ch : Chan) (e : Ev) (n : Nat) : (s.post ch e n).policy = s.policy := rfl
@[simp] theorem State.post_switches (s : State) (ch : Chan) (e : Ev) (n : Nat) : (s.post ch e n).switches = s.switches := rfl
@[simp] theorem State.post_sessions (s : State) (ch : Chan) (e : Ev) (n : Nat) : (s.post ch e n).sessions = s.sessions := rfl
@[simp] theorem State.post_spdm (s : State) (ch : Chan) (e : Ev) (n : Nat) : (s.post ch e n).spdm = s.spdm := rfl
@[simp] theorem State.post_hiveSt (s : State) (ch : Chan) (e : Ev) (n : Nat) : (s.post ch e n).hiveSt = s.hiveSt := rfl
@[simp] theorem State.post_moves (s : State) (ch : Chan) (e : Ev) (n : Nat) : (s.post ch e n).moves = s.moves := rfl
@[simp] theorem State.post_scrubs (s : State) (ch : Chan) (e : Ev) (n : Nat) : (s.post ch e n).scrubs = s.scrubs := rfl
@[simp] theorem State.post_ctl (s : State) (ch : Chan) (e : Ev) (n : Nat) : (s.post ch e n).ctl = s.ctl := rfl
@[simp] theorem State.post_dcrOut (s : State) (ch : Chan) (e : Ev) (n : Nat) : (s.post ch e n).dcrOut = s.dcrOut := rfl
@[simp] theorem State.post_ties (s : State) (ch : Chan) (e : Ev) (n : Nat) : (s.post ch e n).ties = s.ties := rfl
@[simp] theorem State.post_dropped (s : State) (ch : Chan) (e : Ev) (n : Nat) : (s.post ch e n).dropped = s.dropped := rfl

/-! ## `postFirst` -/

@[simp] theorem State.postFirst_part (s : State) (ch : Chan) (e : Ev) (n : Nat) : (s.postFirst ch e n).part = s.part := rfl
@[simp] theorem State.postFirst_node (s : State) (ch : Chan) (e : Ev) (n : Nat) : (s.postFirst ch e n).node = s.node := rfl
@[simp] theorem State.postFirst_cycle (s : State) (ch : Chan) (e : Ev) (n : Nat) : (s.postFirst ch e n).cycle = s.cycle := rfl
@[simp] theorem State.postFirst_readyAt (s : State) (ch : Chan) (e : Ev) (n : Nat) : (s.postFirst ch e n).readyAt = s.readyAt := rfl
@[simp] theorem State.postFirst_mem (s : State) (ch : Chan) (e : Ev) (n : Nat) : (s.postFirst ch e n).mem = s.mem := rfl
@[simp] theorem State.postFirst_poison (s : State) (ch : Chan) (e : Ev) (n : Nat) : (s.postFirst ch e n).poison = s.poison := rfl
@[simp] theorem State.postFirst_free (s : State) (ch : Chan) (e : Ev) (n : Nat) : (s.postFirst ch e n).free = s.free := rfl
@[simp] theorem State.postFirst_plan (s : State) (ch : Chan) (e : Ev) (n : Nat) : (s.postFirst ch e n).plan = s.plan := rfl
@[simp] theorem State.postFirst_pending (s : State) (ch : Chan) (e : Ev) (n : Nat) : (s.postFirst ch e n).pending = ⟨ch, s.cycle + n, e⟩ :: s.pending := rfl
@[simp] theorem State.postFirst_curT (s : State) (ch : Chan) (e : Ev) (n : Nat) : (s.postFirst ch e n).curT = s.curT := rfl
@[simp] theorem State.postFirst_curR (s : State) (ch : Chan) (e : Ev) (n : Nat) : (s.postFirst ch e n).curR = s.curR := rfl
@[simp] theorem State.postFirst_arg (s : State) (ch : Chan) (e : Ev) (n : Nat) : (s.postFirst ch e n).arg = s.arg := rfl
@[simp] theorem State.postFirst_netOut (s : State) (ch : Chan) (e : Ev) (n : Nat) : (s.postFirst ch e n).netOut = s.netOut := rfl
@[simp] theorem State.postFirst_ctxs (s : State) (ch : Chan) (e : Ev) (n : Nat) : (s.postFirst ch e n).ctxs = s.ctxs := rfl
@[simp] theorem State.postFirst_cores (s : State) (ch : Chan) (e : Ev) (n : Nat) : (s.postFirst ch e n).cores = s.cores := rfl
@[simp] theorem State.postFirst_jobs (s : State) (ch : Chan) (e : Ev) (n : Nat) : (s.postFirst ch e n).jobs = s.jobs := rfl
@[simp] theorem State.postFirst_stations (s : State) (ch : Chan) (e : Ev) (n : Nat) : (s.postFirst ch e n).stations = s.stations := rfl
@[simp] theorem State.postFirst_shoots (s : State) (ch : Chan) (e : Ev) (n : Nat) : (s.postFirst ch e n).shoots = s.shoots := rfl
@[simp] theorem State.postFirst_snoop (s : State) (ch : Chan) (e : Ev) (n : Nat) : (s.postFirst ch e n).snoop = s.snoop := rfl
@[simp] theorem State.postFirst_nextSerial (s : State) (ch : Chan) (e : Ev) (n : Nat) : (s.postFirst ch e n).nextSerial = s.nextSerial := rfl
@[simp] theorem State.postFirst_tags (s : State) (ch : Chan) (e : Ev) (n : Nat) : (s.postFirst ch e n).tags = s.tags := rfl
@[simp] theorem State.postFirst_wreqs (s : State) (ch : Chan) (e : Ev) (n : Nat) : (s.postFirst ch e n).wreqs = s.wreqs := rfl
@[simp] theorem State.postFirst_wseq (s : State) (ch : Chan) (e : Ev) (n : Nat) : (s.postFirst ch e n).wseq = s.wseq := rfl
@[simp] theorem State.postFirst_lockSends (s : State) (ch : Chan) (e : Ev) (n : Nat) : (s.postFirst ch e n).lockSends = s.lockSends := rfl
@[simp] theorem State.postFirst_lockNext (s : State) (ch : Chan) (e : Ev) (n : Nat) : (s.postFirst ch e n).lockNext = s.lockNext := rfl
@[simp] theorem State.postFirst_stopped (s : State) (ch : Chan) (e : Ev) (n : Nat) : (s.postFirst ch e n).stopped = s.stopped := rfl
@[simp] theorem State.postFirst_planes (s : State) (ch : Chan) (e : Ev) (n : Nat) : (s.postFirst ch e n).planes = s.planes := rfl
@[simp] theorem State.postFirst_elems (s : State) (ch : Chan) (e : Ev) (n : Nat) : (s.postFirst ch e n).elems = s.elems := rfl
@[simp] theorem State.postFirst_tiles (s : State) (ch : Chan) (e : Ev) (n : Nat) : (s.postFirst ch e n).tiles = s.tiles := rfl
@[simp] theorem State.postFirst_gens (s : State) (ch : Chan) (e : Ev) (n : Nat) : (s.postFirst ch e n).gens = s.gens := rfl
@[simp] theorem State.postFirst_slices (s : State) (ch : Chan) (e : Ev) (n : Nat) : (s.postFirst ch e n).slices = s.slices := rfl
@[simp] theorem State.postFirst_joints (s : State) (ch : Chan) (e : Ev) (n : Nat) : (s.postFirst ch e n).joints = s.joints := rfl
@[simp] theorem State.postFirst_hauls (s : State) (ch : Chan) (e : Ev) (n : Nat) : (s.postFirst ch e n).hauls = s.hauls := rfl
@[simp] theorem State.postFirst_horder (s : State) (ch : Chan) (e : Ev) (n : Nat) : (s.postFirst ch e n).horder = s.horder := rfl
@[simp] theorem State.postFirst_insts (s : State) (ch : Chan) (e : Ev) (n : Nat) : (s.postFirst ch e n).insts = s.insts := rfl
@[simp] theorem State.postFirst_saves (s : State) (ch : Chan) (e : Ev) (n : Nat) : (s.postFirst ch e n).saves = s.saves := rfl
@[simp] theorem State.postFirst_twins (s : State) (ch : Chan) (e : Ev) (n : Nat) : (s.postFirst ch e n).twins = s.twins := rfl
@[simp] theorem State.postFirst_snaps (s : State) (ch : Chan) (e : Ev) (n : Nat) : (s.postFirst ch e n).snaps = s.snaps := rfl
@[simp] theorem State.postFirst_colls (s : State) (ch : Chan) (e : Ev) (n : Nat) : (s.postFirst ch e n).colls = s.colls := rfl
@[simp] theorem State.postFirst_groups (s : State) (ch : Chan) (e : Ev) (n : Nat) : (s.postFirst ch e n).groups = s.groups := rfl
@[simp] theorem State.postFirst_egress (s : State) (ch : Chan) (e : Ev) (n : Nat) : (s.postFirst ch e n).egress = s.egress := rfl
@[simp] theorem State.postFirst_links (s : State) (ch : Chan) (e : Ev) (n : Nat) : (s.postFirst ch e n).links = s.links := rfl
@[simp] theorem State.postFirst_flows (s : State) (ch : Chan) (e : Ev) (n : Nat) : (s.postFirst ch e n).flows = s.flows := rfl
@[simp] theorem State.postFirst_accepts (s : State) (ch : Chan) (e : Ev) (n : Nat) : (s.postFirst ch e n).accepts = s.accepts := rfl
@[simp] theorem State.postFirst_meshq (s : State) (ch : Chan) (e : Ev) (n : Nat) : (s.postFirst ch e n).meshq = s.meshq := rfl
@[simp] theorem State.postFirst_frames (s : State) (ch : Chan) (e : Ev) (n : Nat) : (s.postFirst ch e n).frames = s.frames := rfl
@[simp] theorem State.postFirst_wins (s : State) (ch : Chan) (e : Ev) (n : Nat) : (s.postFirst ch e n).wins = s.wins := rfl
@[simp] theorem State.postFirst_viols (s : State) (ch : Chan) (e : Ev) (n : Nat) : (s.postFirst ch e n).viols = s.viols := rfl
@[simp] theorem State.postFirst_winReqs (s : State) (ch : Chan) (e : Ev) (n : Nat) : (s.postFirst ch e n).winReqs = s.winReqs := rfl
@[simp] theorem State.postFirst_once (s : State) (ch : Chan) (e : Ev) (n : Nat) : (s.postFirst ch e n).once = s.once := rfl
@[simp] theorem State.postFirst_rslots (s : State) (ch : Chan) (e : Ev) (n : Nat) : (s.postFirst ch e n).rslots = s.rslots := rfl
@[simp] theorem State.postFirst_policy (s : State) (ch : Chan) (e : Ev) (n : Nat) : (s.postFirst ch e n).policy = s.policy := rfl
@[simp] theorem State.postFirst_switches (s : State) (ch : Chan) (e : Ev) (n : Nat) : (s.postFirst ch e n).switches = s.switches := rfl
@[simp] theorem State.postFirst_sessions (s : State) (ch : Chan) (e : Ev) (n : Nat) : (s.postFirst ch e n).sessions = s.sessions := rfl
@[simp] theorem State.postFirst_spdm (s : State) (ch : Chan) (e : Ev) (n : Nat) : (s.postFirst ch e n).spdm = s.spdm := rfl
@[simp] theorem State.postFirst_hiveSt (s : State) (ch : Chan) (e : Ev) (n : Nat) : (s.postFirst ch e n).hiveSt = s.hiveSt := rfl
@[simp] theorem State.postFirst_moves (s : State) (ch : Chan) (e : Ev) (n : Nat) : (s.postFirst ch e n).moves = s.moves := rfl
@[simp] theorem State.postFirst_scrubs (s : State) (ch : Chan) (e : Ev) (n : Nat) : (s.postFirst ch e n).scrubs = s.scrubs := rfl
@[simp] theorem State.postFirst_ctl (s : State) (ch : Chan) (e : Ev) (n : Nat) : (s.postFirst ch e n).ctl = s.ctl := rfl
@[simp] theorem State.postFirst_dcrOut (s : State) (ch : Chan) (e : Ev) (n : Nat) : (s.postFirst ch e n).dcrOut = s.dcrOut := rfl
@[simp] theorem State.postFirst_ties (s : State) (ch : Chan) (e : Ev) (n : Nat) : (s.postFirst ch e n).ties = s.ties := rfl
@[simp] theorem State.postFirst_dropped (s : State) (ch : Chan) (e : Ev) (n : Nat) : (s.postFirst ch e n).dropped = s.dropped := rfl

/-! ## `draw` -/

@[simp] theorem State.draw_part (s : State) : (s.draw).part = s.part := rfl
@[simp] theorem State.draw_node (s : State) : (s.draw).node = s.node := rfl
@[simp] theorem State.draw_cycle (s : State) : (s.draw).cycle = s.cycle := rfl
@[simp] theorem State.draw_readyAt (s : State) : (s.draw).readyAt = s.readyAt := rfl
@[simp] theorem State.draw_mem (s : State) : (s.draw).mem = s.mem := rfl
@[simp] theorem State.draw_poison (s : State) : (s.draw).poison = s.poison := rfl
@[simp] theorem State.draw_free (s : State) : (s.draw).free = s.free + 1 := rfl
@[simp] theorem State.draw_plan (s : State) : (s.draw).plan = s.plan := rfl
@[simp] theorem State.draw_pending (s : State) : (s.draw).pending = s.pending := rfl
@[simp] theorem State.draw_curT (s : State) : (s.draw).curT = s.curT := rfl
@[simp] theorem State.draw_curR (s : State) : (s.draw).curR = s.curR := rfl
@[simp] theorem State.draw_arg (s : State) : (s.draw).arg = s.arg := rfl
@[simp] theorem State.draw_netOut (s : State) : (s.draw).netOut = s.netOut := rfl
@[simp] theorem State.draw_ctxs (s : State) : (s.draw).ctxs = s.ctxs := rfl
@[simp] theorem State.draw_cores (s : State) : (s.draw).cores = s.cores := rfl
@[simp] theorem State.draw_jobs (s : State) : (s.draw).jobs = s.jobs := rfl
@[simp] theorem State.draw_stations (s : State) : (s.draw).stations = s.stations := rfl
@[simp] theorem State.draw_shoots (s : State) : (s.draw).shoots = s.shoots := rfl
@[simp] theorem State.draw_snoop (s : State) : (s.draw).snoop = s.snoop := rfl
@[simp] theorem State.draw_nextSerial (s : State) : (s.draw).nextSerial = s.nextSerial := rfl
@[simp] theorem State.draw_tags (s : State) : (s.draw).tags = s.tags := rfl
@[simp] theorem State.draw_wreqs (s : State) : (s.draw).wreqs = s.wreqs := rfl
@[simp] theorem State.draw_wseq (s : State) : (s.draw).wseq = s.wseq := rfl
@[simp] theorem State.draw_lockSends (s : State) : (s.draw).lockSends = s.lockSends := rfl
@[simp] theorem State.draw_lockNext (s : State) : (s.draw).lockNext = s.lockNext := rfl
@[simp] theorem State.draw_stopped (s : State) : (s.draw).stopped = s.stopped := rfl
@[simp] theorem State.draw_planes (s : State) : (s.draw).planes = s.planes := rfl
@[simp] theorem State.draw_elems (s : State) : (s.draw).elems = s.elems := rfl
@[simp] theorem State.draw_tiles (s : State) : (s.draw).tiles = s.tiles := rfl
@[simp] theorem State.draw_gens (s : State) : (s.draw).gens = s.gens := rfl
@[simp] theorem State.draw_slices (s : State) : (s.draw).slices = s.slices := rfl
@[simp] theorem State.draw_joints (s : State) : (s.draw).joints = s.joints := rfl
@[simp] theorem State.draw_hauls (s : State) : (s.draw).hauls = s.hauls := rfl
@[simp] theorem State.draw_horder (s : State) : (s.draw).horder = s.horder := rfl
@[simp] theorem State.draw_insts (s : State) : (s.draw).insts = s.insts := rfl
@[simp] theorem State.draw_saves (s : State) : (s.draw).saves = s.saves := rfl
@[simp] theorem State.draw_twins (s : State) : (s.draw).twins = s.twins := rfl
@[simp] theorem State.draw_snaps (s : State) : (s.draw).snaps = s.snaps := rfl
@[simp] theorem State.draw_colls (s : State) : (s.draw).colls = s.colls := rfl
@[simp] theorem State.draw_groups (s : State) : (s.draw).groups = s.groups := rfl
@[simp] theorem State.draw_egress (s : State) : (s.draw).egress = s.egress := rfl
@[simp] theorem State.draw_links (s : State) : (s.draw).links = s.links := rfl
@[simp] theorem State.draw_flows (s : State) : (s.draw).flows = s.flows := rfl
@[simp] theorem State.draw_accepts (s : State) : (s.draw).accepts = s.accepts := rfl
@[simp] theorem State.draw_meshq (s : State) : (s.draw).meshq = s.meshq := rfl
@[simp] theorem State.draw_frames (s : State) : (s.draw).frames = s.frames := rfl
@[simp] theorem State.draw_wins (s : State) : (s.draw).wins = s.wins := rfl
@[simp] theorem State.draw_viols (s : State) : (s.draw).viols = s.viols := rfl
@[simp] theorem State.draw_winReqs (s : State) : (s.draw).winReqs = s.winReqs := rfl
@[simp] theorem State.draw_once (s : State) : (s.draw).once = s.once := rfl
@[simp] theorem State.draw_rslots (s : State) : (s.draw).rslots = s.rslots := rfl
@[simp] theorem State.draw_policy (s : State) : (s.draw).policy = s.policy := rfl
@[simp] theorem State.draw_switches (s : State) : (s.draw).switches = s.switches := rfl
@[simp] theorem State.draw_sessions (s : State) : (s.draw).sessions = s.sessions := rfl
@[simp] theorem State.draw_spdm (s : State) : (s.draw).spdm = s.spdm := rfl
@[simp] theorem State.draw_hiveSt (s : State) : (s.draw).hiveSt = s.hiveSt := rfl
@[simp] theorem State.draw_moves (s : State) : (s.draw).moves = s.moves := rfl
@[simp] theorem State.draw_scrubs (s : State) : (s.draw).scrubs = s.scrubs := rfl
@[simp] theorem State.draw_ctl (s : State) : (s.draw).ctl = s.ctl := rfl
@[simp] theorem State.draw_dcrOut (s : State) : (s.draw).dcrOut = s.dcrOut := rfl
@[simp] theorem State.draw_ties (s : State) : (s.draw).ties = s.ties := rfl
@[simp] theorem State.draw_dropped (s : State) : (s.draw).dropped = s.dropped := rfl

/-! ## `setLink` -/

@[simp] theorem State.setLink_part (s : State) (n : Nat) (l : Link) : (s.setLink n l).part = s.part := rfl
@[simp] theorem State.setLink_node (s : State) (n : Nat) (l : Link) : (s.setLink n l).node = s.node := rfl
@[simp] theorem State.setLink_cycle (s : State) (n : Nat) (l : Link) : (s.setLink n l).cycle = s.cycle := rfl
@[simp] theorem State.setLink_readyAt (s : State) (n : Nat) (l : Link) : (s.setLink n l).readyAt = s.readyAt := rfl
@[simp] theorem State.setLink_mem (s : State) (n : Nat) (l : Link) : (s.setLink n l).mem = s.mem := rfl
@[simp] theorem State.setLink_poison (s : State) (n : Nat) (l : Link) : (s.setLink n l).poison = s.poison := rfl
@[simp] theorem State.setLink_free (s : State) (n : Nat) (l : Link) : (s.setLink n l).free = s.free := rfl
@[simp] theorem State.setLink_plan (s : State) (n : Nat) (l : Link) : (s.setLink n l).plan = s.plan := rfl
@[simp] theorem State.setLink_pending (s : State) (n : Nat) (l : Link) : (s.setLink n l).pending = s.pending := rfl
@[simp] theorem State.setLink_curT (s : State) (n : Nat) (l : Link) : (s.setLink n l).curT = s.curT := rfl
@[simp] theorem State.setLink_curR (s : State) (n : Nat) (l : Link) : (s.setLink n l).curR = s.curR := rfl
@[simp] theorem State.setLink_arg (s : State) (n : Nat) (l : Link) : (s.setLink n l).arg = s.arg := rfl
@[simp] theorem State.setLink_netOut (s : State) (n : Nat) (l : Link) : (s.setLink n l).netOut = s.netOut := rfl
@[simp] theorem State.setLink_ctxs (s : State) (n : Nat) (l : Link) : (s.setLink n l).ctxs = s.ctxs := rfl
@[simp] theorem State.setLink_cores (s : State) (n : Nat) (l : Link) : (s.setLink n l).cores = s.cores := rfl
@[simp] theorem State.setLink_jobs (s : State) (n : Nat) (l : Link) : (s.setLink n l).jobs = s.jobs := rfl
@[simp] theorem State.setLink_stations (s : State) (n : Nat) (l : Link) : (s.setLink n l).stations = s.stations := rfl
@[simp] theorem State.setLink_shoots (s : State) (n : Nat) (l : Link) : (s.setLink n l).shoots = s.shoots := rfl
@[simp] theorem State.setLink_snoop (s : State) (n : Nat) (l : Link) : (s.setLink n l).snoop = s.snoop := rfl
@[simp] theorem State.setLink_nextSerial (s : State) (n : Nat) (l : Link) : (s.setLink n l).nextSerial = s.nextSerial := rfl
@[simp] theorem State.setLink_tags (s : State) (n : Nat) (l : Link) : (s.setLink n l).tags = s.tags := rfl
@[simp] theorem State.setLink_wreqs (s : State) (n : Nat) (l : Link) : (s.setLink n l).wreqs = s.wreqs := rfl
@[simp] theorem State.setLink_wseq (s : State) (n : Nat) (l : Link) : (s.setLink n l).wseq = s.wseq := rfl
@[simp] theorem State.setLink_lockSends (s : State) (n : Nat) (l : Link) : (s.setLink n l).lockSends = s.lockSends := rfl
@[simp] theorem State.setLink_lockNext (s : State) (n : Nat) (l : Link) : (s.setLink n l).lockNext = s.lockNext := rfl
@[simp] theorem State.setLink_stopped (s : State) (n : Nat) (l : Link) : (s.setLink n l).stopped = s.stopped := rfl
@[simp] theorem State.setLink_planes (s : State) (n : Nat) (l : Link) : (s.setLink n l).planes = s.planes := rfl
@[simp] theorem State.setLink_elems (s : State) (n : Nat) (l : Link) : (s.setLink n l).elems = s.elems := rfl
@[simp] theorem State.setLink_tiles (s : State) (n : Nat) (l : Link) : (s.setLink n l).tiles = s.tiles := rfl
@[simp] theorem State.setLink_gens (s : State) (n : Nat) (l : Link) : (s.setLink n l).gens = s.gens := rfl
@[simp] theorem State.setLink_slices (s : State) (n : Nat) (l : Link) : (s.setLink n l).slices = s.slices := rfl
@[simp] theorem State.setLink_joints (s : State) (n : Nat) (l : Link) : (s.setLink n l).joints = s.joints := rfl
@[simp] theorem State.setLink_hauls (s : State) (n : Nat) (l : Link) : (s.setLink n l).hauls = s.hauls := rfl
@[simp] theorem State.setLink_horder (s : State) (n : Nat) (l : Link) : (s.setLink n l).horder = s.horder := rfl
@[simp] theorem State.setLink_insts (s : State) (n : Nat) (l : Link) : (s.setLink n l).insts = s.insts := rfl
@[simp] theorem State.setLink_saves (s : State) (n : Nat) (l : Link) : (s.setLink n l).saves = s.saves := rfl
@[simp] theorem State.setLink_twins (s : State) (n : Nat) (l : Link) : (s.setLink n l).twins = s.twins := rfl
@[simp] theorem State.setLink_snaps (s : State) (n : Nat) (l : Link) : (s.setLink n l).snaps = s.snaps := rfl
@[simp] theorem State.setLink_colls (s : State) (n : Nat) (l : Link) : (s.setLink n l).colls = s.colls := rfl
@[simp] theorem State.setLink_groups (s : State) (n : Nat) (l : Link) : (s.setLink n l).groups = s.groups := rfl
@[simp] theorem State.setLink_egress (s : State) (n : Nat) (l : Link) : (s.setLink n l).egress = s.egress := rfl
@[simp] theorem State.setLink_links (s : State) (n : Nat) (l : Link) : (s.setLink n l).links = tput s.links n l := rfl
@[simp] theorem State.setLink_flows (s : State) (n : Nat) (l : Link) : (s.setLink n l).flows = s.flows := rfl
@[simp] theorem State.setLink_accepts (s : State) (n : Nat) (l : Link) : (s.setLink n l).accepts = s.accepts := rfl
@[simp] theorem State.setLink_meshq (s : State) (n : Nat) (l : Link) : (s.setLink n l).meshq = s.meshq := rfl
@[simp] theorem State.setLink_frames (s : State) (n : Nat) (l : Link) : (s.setLink n l).frames = s.frames := rfl
@[simp] theorem State.setLink_wins (s : State) (n : Nat) (l : Link) : (s.setLink n l).wins = s.wins := rfl
@[simp] theorem State.setLink_viols (s : State) (n : Nat) (l : Link) : (s.setLink n l).viols = s.viols := rfl
@[simp] theorem State.setLink_winReqs (s : State) (n : Nat) (l : Link) : (s.setLink n l).winReqs = s.winReqs := rfl
@[simp] theorem State.setLink_once (s : State) (n : Nat) (l : Link) : (s.setLink n l).once = s.once := rfl
@[simp] theorem State.setLink_rslots (s : State) (n : Nat) (l : Link) : (s.setLink n l).rslots = s.rslots := rfl
@[simp] theorem State.setLink_policy (s : State) (n : Nat) (l : Link) : (s.setLink n l).policy = s.policy := rfl
@[simp] theorem State.setLink_switches (s : State) (n : Nat) (l : Link) : (s.setLink n l).switches = s.switches := rfl
@[simp] theorem State.setLink_sessions (s : State) (n : Nat) (l : Link) : (s.setLink n l).sessions = s.sessions := rfl
@[simp] theorem State.setLink_spdm (s : State) (n : Nat) (l : Link) : (s.setLink n l).spdm = s.spdm := rfl
@[simp] theorem State.setLink_hiveSt (s : State) (n : Nat) (l : Link) : (s.setLink n l).hiveSt = s.hiveSt := rfl
@[simp] theorem State.setLink_moves (s : State) (n : Nat) (l : Link) : (s.setLink n l).moves = s.moves := rfl
@[simp] theorem State.setLink_scrubs (s : State) (n : Nat) (l : Link) : (s.setLink n l).scrubs = s.scrubs := rfl
@[simp] theorem State.setLink_ctl (s : State) (n : Nat) (l : Link) : (s.setLink n l).ctl = s.ctl := rfl
@[simp] theorem State.setLink_dcrOut (s : State) (n : Nat) (l : Link) : (s.setLink n l).dcrOut = s.dcrOut := rfl
@[simp] theorem State.setLink_ties (s : State) (n : Nat) (l : Link) : (s.setLink n l).ties = s.ties := rfl
@[simp] theorem State.setLink_dropped (s : State) (n : Nat) (l : Link) : (s.setLink n l).dropped = s.dropped := rfl

/-! ## `setJoint` -/

@[simp] theorem State.setJoint_part (s : State) (h : HiveId) (j : Joint) : (s.setJoint h j).part = s.part := rfl
@[simp] theorem State.setJoint_node (s : State) (h : HiveId) (j : Joint) : (s.setJoint h j).node = s.node := rfl
@[simp] theorem State.setJoint_cycle (s : State) (h : HiveId) (j : Joint) : (s.setJoint h j).cycle = s.cycle := rfl
@[simp] theorem State.setJoint_readyAt (s : State) (h : HiveId) (j : Joint) : (s.setJoint h j).readyAt = s.readyAt := rfl
@[simp] theorem State.setJoint_mem (s : State) (h : HiveId) (j : Joint) : (s.setJoint h j).mem = s.mem := rfl
@[simp] theorem State.setJoint_poison (s : State) (h : HiveId) (j : Joint) : (s.setJoint h j).poison = s.poison := rfl
@[simp] theorem State.setJoint_free (s : State) (h : HiveId) (j : Joint) : (s.setJoint h j).free = s.free := rfl
@[simp] theorem State.setJoint_plan (s : State) (h : HiveId) (j : Joint) : (s.setJoint h j).plan = s.plan := rfl
@[simp] theorem State.setJoint_pending (s : State) (h : HiveId) (j : Joint) : (s.setJoint h j).pending = s.pending := rfl
@[simp] theorem State.setJoint_curT (s : State) (h : HiveId) (j : Joint) : (s.setJoint h j).curT = s.curT := rfl
@[simp] theorem State.setJoint_curR (s : State) (h : HiveId) (j : Joint) : (s.setJoint h j).curR = s.curR := rfl
@[simp] theorem State.setJoint_arg (s : State) (h : HiveId) (j : Joint) : (s.setJoint h j).arg = s.arg := rfl
@[simp] theorem State.setJoint_netOut (s : State) (h : HiveId) (j : Joint) : (s.setJoint h j).netOut = s.netOut := rfl
@[simp] theorem State.setJoint_ctxs (s : State) (h : HiveId) (j : Joint) : (s.setJoint h j).ctxs = s.ctxs := rfl
@[simp] theorem State.setJoint_cores (s : State) (h : HiveId) (j : Joint) : (s.setJoint h j).cores = s.cores := rfl
@[simp] theorem State.setJoint_jobs (s : State) (h : HiveId) (j : Joint) : (s.setJoint h j).jobs = s.jobs := rfl
@[simp] theorem State.setJoint_stations (s : State) (h : HiveId) (j : Joint) : (s.setJoint h j).stations = s.stations := rfl
@[simp] theorem State.setJoint_shoots (s : State) (h : HiveId) (j : Joint) : (s.setJoint h j).shoots = s.shoots := rfl
@[simp] theorem State.setJoint_snoop (s : State) (h : HiveId) (j : Joint) : (s.setJoint h j).snoop = s.snoop := rfl
@[simp] theorem State.setJoint_nextSerial (s : State) (h : HiveId) (j : Joint) : (s.setJoint h j).nextSerial = s.nextSerial := rfl
@[simp] theorem State.setJoint_tags (s : State) (h : HiveId) (j : Joint) : (s.setJoint h j).tags = s.tags := rfl
@[simp] theorem State.setJoint_wreqs (s : State) (h : HiveId) (j : Joint) : (s.setJoint h j).wreqs = s.wreqs := rfl
@[simp] theorem State.setJoint_wseq (s : State) (h : HiveId) (j : Joint) : (s.setJoint h j).wseq = s.wseq := rfl
@[simp] theorem State.setJoint_lockSends (s : State) (h : HiveId) (j : Joint) : (s.setJoint h j).lockSends = s.lockSends := rfl
@[simp] theorem State.setJoint_lockNext (s : State) (h : HiveId) (j : Joint) : (s.setJoint h j).lockNext = s.lockNext := rfl
@[simp] theorem State.setJoint_stopped (s : State) (h : HiveId) (j : Joint) : (s.setJoint h j).stopped = s.stopped := rfl
@[simp] theorem State.setJoint_planes (s : State) (h : HiveId) (j : Joint) : (s.setJoint h j).planes = s.planes := rfl
@[simp] theorem State.setJoint_elems (s : State) (h : HiveId) (j : Joint) : (s.setJoint h j).elems = s.elems := rfl
@[simp] theorem State.setJoint_tiles (s : State) (h : HiveId) (j : Joint) : (s.setJoint h j).tiles = s.tiles := rfl
@[simp] theorem State.setJoint_gens (s : State) (h : HiveId) (j : Joint) : (s.setJoint h j).gens = s.gens := rfl
@[simp] theorem State.setJoint_slices (s : State) (h : HiveId) (j : Joint) : (s.setJoint h j).slices = s.slices := rfl
@[simp] theorem State.setJoint_joints (s : State) (h : HiveId) (j : Joint) : (s.setJoint h j).joints = tput s.joints h j := rfl
@[simp] theorem State.setJoint_hauls (s : State) (h : HiveId) (j : Joint) : (s.setJoint h j).hauls = s.hauls := rfl
@[simp] theorem State.setJoint_horder (s : State) (h : HiveId) (j : Joint) : (s.setJoint h j).horder = s.horder := rfl
@[simp] theorem State.setJoint_insts (s : State) (h : HiveId) (j : Joint) : (s.setJoint h j).insts = s.insts := rfl
@[simp] theorem State.setJoint_saves (s : State) (h : HiveId) (j : Joint) : (s.setJoint h j).saves = s.saves := rfl
@[simp] theorem State.setJoint_twins (s : State) (h : HiveId) (j : Joint) : (s.setJoint h j).twins = s.twins := rfl
@[simp] theorem State.setJoint_snaps (s : State) (h : HiveId) (j : Joint) : (s.setJoint h j).snaps = s.snaps := rfl
@[simp] theorem State.setJoint_colls (s : State) (h : HiveId) (j : Joint) : (s.setJoint h j).colls = s.colls := rfl
@[simp] theorem State.setJoint_groups (s : State) (h : HiveId) (j : Joint) : (s.setJoint h j).groups = s.groups := rfl
@[simp] theorem State.setJoint_egress (s : State) (h : HiveId) (j : Joint) : (s.setJoint h j).egress = s.egress := rfl
@[simp] theorem State.setJoint_links (s : State) (h : HiveId) (j : Joint) : (s.setJoint h j).links = s.links := rfl
@[simp] theorem State.setJoint_flows (s : State) (h : HiveId) (j : Joint) : (s.setJoint h j).flows = s.flows := rfl
@[simp] theorem State.setJoint_accepts (s : State) (h : HiveId) (j : Joint) : (s.setJoint h j).accepts = s.accepts := rfl
@[simp] theorem State.setJoint_meshq (s : State) (h : HiveId) (j : Joint) : (s.setJoint h j).meshq = s.meshq := rfl
@[simp] theorem State.setJoint_frames (s : State) (h : HiveId) (j : Joint) : (s.setJoint h j).frames = s.frames := rfl
@[simp] theorem State.setJoint_wins (s : State) (h : HiveId) (j : Joint) : (s.setJoint h j).wins = s.wins := rfl
@[simp] theorem State.setJoint_viols (s : State) (h : HiveId) (j : Joint) : (s.setJoint h j).viols = s.viols := rfl
@[simp] theorem State.setJoint_winReqs (s : State) (h : HiveId) (j : Joint) : (s.setJoint h j).winReqs = s.winReqs := rfl
@[simp] theorem State.setJoint_once (s : State) (h : HiveId) (j : Joint) : (s.setJoint h j).once = s.once := rfl
@[simp] theorem State.setJoint_rslots (s : State) (h : HiveId) (j : Joint) : (s.setJoint h j).rslots = s.rslots := rfl
@[simp] theorem State.setJoint_policy (s : State) (h : HiveId) (j : Joint) : (s.setJoint h j).policy = s.policy := rfl
@[simp] theorem State.setJoint_switches (s : State) (h : HiveId) (j : Joint) : (s.setJoint h j).switches = s.switches := rfl
@[simp] theorem State.setJoint_sessions (s : State) (h : HiveId) (j : Joint) : (s.setJoint h j).sessions = s.sessions := rfl
@[simp] theorem State.setJoint_spdm (s : State) (h : HiveId) (j : Joint) : (s.setJoint h j).spdm = s.spdm := rfl
@[simp] theorem State.setJoint_hiveSt (s : State) (h : HiveId) (j : Joint) : (s.setJoint h j).hiveSt = s.hiveSt := rfl
@[simp] theorem State.setJoint_moves (s : State) (h : HiveId) (j : Joint) : (s.setJoint h j).moves = s.moves := rfl
@[simp] theorem State.setJoint_scrubs (s : State) (h : HiveId) (j : Joint) : (s.setJoint h j).scrubs = s.scrubs := rfl
@[simp] theorem State.setJoint_ctl (s : State) (h : HiveId) (j : Joint) : (s.setJoint h j).ctl = s.ctl := rfl
@[simp] theorem State.setJoint_dcrOut (s : State) (h : HiveId) (j : Joint) : (s.setJoint h j).dcrOut = s.dcrOut := rfl
@[simp] theorem State.setJoint_ties (s : State) (h : HiveId) (j : Joint) : (s.setJoint h j).ties = s.ties := rfl
@[simp] theorem State.setJoint_dropped (s : State) (h : HiveId) (j : Joint) : (s.setJoint h j).dropped = s.dropped := rfl

/-! ## `setPlane` -/

@[simp] theorem State.setPlane_part (s : State) (p : PlaneId) (x : Plane) : (s.setPlane p x).part = s.part := rfl
@[simp] theorem State.setPlane_node (s : State) (p : PlaneId) (x : Plane) : (s.setPlane p x).node = s.node := rfl
@[simp] theorem State.setPlane_cycle (s : State) (p : PlaneId) (x : Plane) : (s.setPlane p x).cycle = s.cycle := rfl
@[simp] theorem State.setPlane_readyAt (s : State) (p : PlaneId) (x : Plane) : (s.setPlane p x).readyAt = s.readyAt := rfl
@[simp] theorem State.setPlane_mem (s : State) (p : PlaneId) (x : Plane) : (s.setPlane p x).mem = s.mem := rfl
@[simp] theorem State.setPlane_poison (s : State) (p : PlaneId) (x : Plane) : (s.setPlane p x).poison = s.poison := rfl
@[simp] theorem State.setPlane_free (s : State) (p : PlaneId) (x : Plane) : (s.setPlane p x).free = s.free := rfl
@[simp] theorem State.setPlane_plan (s : State) (p : PlaneId) (x : Plane) : (s.setPlane p x).plan = s.plan := rfl
@[simp] theorem State.setPlane_pending (s : State) (p : PlaneId) (x : Plane) : (s.setPlane p x).pending = s.pending := rfl
@[simp] theorem State.setPlane_curT (s : State) (p : PlaneId) (x : Plane) : (s.setPlane p x).curT = s.curT := rfl
@[simp] theorem State.setPlane_curR (s : State) (p : PlaneId) (x : Plane) : (s.setPlane p x).curR = s.curR := rfl
@[simp] theorem State.setPlane_arg (s : State) (p : PlaneId) (x : Plane) : (s.setPlane p x).arg = s.arg := rfl
@[simp] theorem State.setPlane_netOut (s : State) (p : PlaneId) (x : Plane) : (s.setPlane p x).netOut = s.netOut := rfl
@[simp] theorem State.setPlane_ctxs (s : State) (p : PlaneId) (x : Plane) : (s.setPlane p x).ctxs = s.ctxs := rfl
@[simp] theorem State.setPlane_cores (s : State) (p : PlaneId) (x : Plane) : (s.setPlane p x).cores = s.cores := rfl
@[simp] theorem State.setPlane_jobs (s : State) (p : PlaneId) (x : Plane) : (s.setPlane p x).jobs = s.jobs := rfl
@[simp] theorem State.setPlane_stations (s : State) (p : PlaneId) (x : Plane) : (s.setPlane p x).stations = s.stations := rfl
@[simp] theorem State.setPlane_shoots (s : State) (p : PlaneId) (x : Plane) : (s.setPlane p x).shoots = s.shoots := rfl
@[simp] theorem State.setPlane_snoop (s : State) (p : PlaneId) (x : Plane) : (s.setPlane p x).snoop = s.snoop := rfl
@[simp] theorem State.setPlane_nextSerial (s : State) (p : PlaneId) (x : Plane) : (s.setPlane p x).nextSerial = s.nextSerial := rfl
@[simp] theorem State.setPlane_tags (s : State) (p : PlaneId) (x : Plane) : (s.setPlane p x).tags = s.tags := rfl
@[simp] theorem State.setPlane_wreqs (s : State) (p : PlaneId) (x : Plane) : (s.setPlane p x).wreqs = s.wreqs := rfl
@[simp] theorem State.setPlane_wseq (s : State) (p : PlaneId) (x : Plane) : (s.setPlane p x).wseq = s.wseq := rfl
@[simp] theorem State.setPlane_lockSends (s : State) (p : PlaneId) (x : Plane) : (s.setPlane p x).lockSends = s.lockSends := rfl
@[simp] theorem State.setPlane_lockNext (s : State) (p : PlaneId) (x : Plane) : (s.setPlane p x).lockNext = s.lockNext := rfl
@[simp] theorem State.setPlane_stopped (s : State) (p : PlaneId) (x : Plane) : (s.setPlane p x).stopped = s.stopped := rfl
@[simp] theorem State.setPlane_planes (s : State) (p : PlaneId) (x : Plane) : (s.setPlane p x).planes = tput s.planes p x := rfl
@[simp] theorem State.setPlane_elems (s : State) (p : PlaneId) (x : Plane) : (s.setPlane p x).elems = s.elems := rfl
@[simp] theorem State.setPlane_tiles (s : State) (p : PlaneId) (x : Plane) : (s.setPlane p x).tiles = s.tiles := rfl
@[simp] theorem State.setPlane_gens (s : State) (p : PlaneId) (x : Plane) : (s.setPlane p x).gens = s.gens := rfl
@[simp] theorem State.setPlane_slices (s : State) (p : PlaneId) (x : Plane) : (s.setPlane p x).slices = s.slices := rfl
@[simp] theorem State.setPlane_joints (s : State) (p : PlaneId) (x : Plane) : (s.setPlane p x).joints = s.joints := rfl
@[simp] theorem State.setPlane_hauls (s : State) (p : PlaneId) (x : Plane) : (s.setPlane p x).hauls = s.hauls := rfl
@[simp] theorem State.setPlane_horder (s : State) (p : PlaneId) (x : Plane) : (s.setPlane p x).horder = s.horder := rfl
@[simp] theorem State.setPlane_insts (s : State) (p : PlaneId) (x : Plane) : (s.setPlane p x).insts = s.insts := rfl
@[simp] theorem State.setPlane_saves (s : State) (p : PlaneId) (x : Plane) : (s.setPlane p x).saves = s.saves := rfl
@[simp] theorem State.setPlane_twins (s : State) (p : PlaneId) (x : Plane) : (s.setPlane p x).twins = s.twins := rfl
@[simp] theorem State.setPlane_snaps (s : State) (p : PlaneId) (x : Plane) : (s.setPlane p x).snaps = s.snaps := rfl
@[simp] theorem State.setPlane_colls (s : State) (p : PlaneId) (x : Plane) : (s.setPlane p x).colls = s.colls := rfl
@[simp] theorem State.setPlane_groups (s : State) (p : PlaneId) (x : Plane) : (s.setPlane p x).groups = s.groups := rfl
@[simp] theorem State.setPlane_egress (s : State) (p : PlaneId) (x : Plane) : (s.setPlane p x).egress = s.egress := rfl
@[simp] theorem State.setPlane_links (s : State) (p : PlaneId) (x : Plane) : (s.setPlane p x).links = s.links := rfl
@[simp] theorem State.setPlane_flows (s : State) (p : PlaneId) (x : Plane) : (s.setPlane p x).flows = s.flows := rfl
@[simp] theorem State.setPlane_accepts (s : State) (p : PlaneId) (x : Plane) : (s.setPlane p x).accepts = s.accepts := rfl
@[simp] theorem State.setPlane_meshq (s : State) (p : PlaneId) (x : Plane) : (s.setPlane p x).meshq = s.meshq := rfl
@[simp] theorem State.setPlane_frames (s : State) (p : PlaneId) (x : Plane) : (s.setPlane p x).frames = s.frames := rfl
@[simp] theorem State.setPlane_wins (s : State) (p : PlaneId) (x : Plane) : (s.setPlane p x).wins = s.wins := rfl
@[simp] theorem State.setPlane_viols (s : State) (p : PlaneId) (x : Plane) : (s.setPlane p x).viols = s.viols := rfl
@[simp] theorem State.setPlane_winReqs (s : State) (p : PlaneId) (x : Plane) : (s.setPlane p x).winReqs = s.winReqs := rfl
@[simp] theorem State.setPlane_once (s : State) (p : PlaneId) (x : Plane) : (s.setPlane p x).once = s.once := rfl
@[simp] theorem State.setPlane_rslots (s : State) (p : PlaneId) (x : Plane) : (s.setPlane p x).rslots = s.rslots := rfl
@[simp] theorem State.setPlane_policy (s : State) (p : PlaneId) (x : Plane) : (s.setPlane p x).policy = s.policy := rfl
@[simp] theorem State.setPlane_switches (s : State) (p : PlaneId) (x : Plane) : (s.setPlane p x).switches = s.switches := rfl
@[simp] theorem State.setPlane_sessions (s : State) (p : PlaneId) (x : Plane) : (s.setPlane p x).sessions = s.sessions := rfl
@[simp] theorem State.setPlane_spdm (s : State) (p : PlaneId) (x : Plane) : (s.setPlane p x).spdm = s.spdm := rfl
@[simp] theorem State.setPlane_hiveSt (s : State) (p : PlaneId) (x : Plane) : (s.setPlane p x).hiveSt = s.hiveSt := rfl
@[simp] theorem State.setPlane_moves (s : State) (p : PlaneId) (x : Plane) : (s.setPlane p x).moves = s.moves := rfl
@[simp] theorem State.setPlane_scrubs (s : State) (p : PlaneId) (x : Plane) : (s.setPlane p x).scrubs = s.scrubs := rfl
@[simp] theorem State.setPlane_ctl (s : State) (p : PlaneId) (x : Plane) : (s.setPlane p x).ctl = s.ctl := rfl
@[simp] theorem State.setPlane_dcrOut (s : State) (p : PlaneId) (x : Plane) : (s.setPlane p x).dcrOut = s.dcrOut := rfl
@[simp] theorem State.setPlane_ties (s : State) (p : PlaneId) (x : Plane) : (s.setPlane p x).ties = s.ties := rfl
@[simp] theorem State.setPlane_dropped (s : State) (p : PlaneId) (x : Plane) : (s.setPlane p x).dropped = s.dropped := rfl

/-! ## `setElem` -/

@[simp] theorem State.setElem_part (s : State) (e : ElemId) (x : Elem) : (s.setElem e x).part = s.part := rfl
@[simp] theorem State.setElem_node (s : State) (e : ElemId) (x : Elem) : (s.setElem e x).node = s.node := rfl
@[simp] theorem State.setElem_cycle (s : State) (e : ElemId) (x : Elem) : (s.setElem e x).cycle = s.cycle := rfl
@[simp] theorem State.setElem_readyAt (s : State) (e : ElemId) (x : Elem) : (s.setElem e x).readyAt = s.readyAt := rfl
@[simp] theorem State.setElem_mem (s : State) (e : ElemId) (x : Elem) : (s.setElem e x).mem = s.mem := rfl
@[simp] theorem State.setElem_poison (s : State) (e : ElemId) (x : Elem) : (s.setElem e x).poison = s.poison := rfl
@[simp] theorem State.setElem_free (s : State) (e : ElemId) (x : Elem) : (s.setElem e x).free = s.free := rfl
@[simp] theorem State.setElem_plan (s : State) (e : ElemId) (x : Elem) : (s.setElem e x).plan = s.plan := rfl
@[simp] theorem State.setElem_pending (s : State) (e : ElemId) (x : Elem) : (s.setElem e x).pending = s.pending := rfl
@[simp] theorem State.setElem_curT (s : State) (e : ElemId) (x : Elem) : (s.setElem e x).curT = s.curT := rfl
@[simp] theorem State.setElem_curR (s : State) (e : ElemId) (x : Elem) : (s.setElem e x).curR = s.curR := rfl
@[simp] theorem State.setElem_arg (s : State) (e : ElemId) (x : Elem) : (s.setElem e x).arg = s.arg := rfl
@[simp] theorem State.setElem_netOut (s : State) (e : ElemId) (x : Elem) : (s.setElem e x).netOut = s.netOut := rfl
@[simp] theorem State.setElem_ctxs (s : State) (e : ElemId) (x : Elem) : (s.setElem e x).ctxs = s.ctxs := rfl
@[simp] theorem State.setElem_cores (s : State) (e : ElemId) (x : Elem) : (s.setElem e x).cores = s.cores := rfl
@[simp] theorem State.setElem_jobs (s : State) (e : ElemId) (x : Elem) : (s.setElem e x).jobs = s.jobs := rfl
@[simp] theorem State.setElem_stations (s : State) (e : ElemId) (x : Elem) : (s.setElem e x).stations = s.stations := rfl
@[simp] theorem State.setElem_shoots (s : State) (e : ElemId) (x : Elem) : (s.setElem e x).shoots = s.shoots := rfl
@[simp] theorem State.setElem_snoop (s : State) (e : ElemId) (x : Elem) : (s.setElem e x).snoop = s.snoop := rfl
@[simp] theorem State.setElem_nextSerial (s : State) (e : ElemId) (x : Elem) : (s.setElem e x).nextSerial = s.nextSerial := rfl
@[simp] theorem State.setElem_tags (s : State) (e : ElemId) (x : Elem) : (s.setElem e x).tags = s.tags := rfl
@[simp] theorem State.setElem_wreqs (s : State) (e : ElemId) (x : Elem) : (s.setElem e x).wreqs = s.wreqs := rfl
@[simp] theorem State.setElem_wseq (s : State) (e : ElemId) (x : Elem) : (s.setElem e x).wseq = s.wseq := rfl
@[simp] theorem State.setElem_lockSends (s : State) (e : ElemId) (x : Elem) : (s.setElem e x).lockSends = s.lockSends := rfl
@[simp] theorem State.setElem_lockNext (s : State) (e : ElemId) (x : Elem) : (s.setElem e x).lockNext = s.lockNext := rfl
@[simp] theorem State.setElem_stopped (s : State) (e : ElemId) (x : Elem) : (s.setElem e x).stopped = s.stopped := rfl
@[simp] theorem State.setElem_planes (s : State) (e : ElemId) (x : Elem) : (s.setElem e x).planes = s.planes := rfl
@[simp] theorem State.setElem_elems (s : State) (e : ElemId) (x : Elem) : (s.setElem e x).elems = tput s.elems e x := rfl
@[simp] theorem State.setElem_tiles (s : State) (e : ElemId) (x : Elem) : (s.setElem e x).tiles = s.tiles := rfl
@[simp] theorem State.setElem_gens (s : State) (e : ElemId) (x : Elem) : (s.setElem e x).gens = s.gens := rfl
@[simp] theorem State.setElem_slices (s : State) (e : ElemId) (x : Elem) : (s.setElem e x).slices = s.slices := rfl
@[simp] theorem State.setElem_joints (s : State) (e : ElemId) (x : Elem) : (s.setElem e x).joints = s.joints := rfl
@[simp] theorem State.setElem_hauls (s : State) (e : ElemId) (x : Elem) : (s.setElem e x).hauls = s.hauls := rfl
@[simp] theorem State.setElem_horder (s : State) (e : ElemId) (x : Elem) : (s.setElem e x).horder = s.horder := rfl
@[simp] theorem State.setElem_insts (s : State) (e : ElemId) (x : Elem) : (s.setElem e x).insts = s.insts := rfl
@[simp] theorem State.setElem_saves (s : State) (e : ElemId) (x : Elem) : (s.setElem e x).saves = s.saves := rfl
@[simp] theorem State.setElem_twins (s : State) (e : ElemId) (x : Elem) : (s.setElem e x).twins = s.twins := rfl
@[simp] theorem State.setElem_snaps (s : State) (e : ElemId) (x : Elem) : (s.setElem e x).snaps = s.snaps := rfl
@[simp] theorem State.setElem_colls (s : State) (e : ElemId) (x : Elem) : (s.setElem e x).colls = s.colls := rfl
@[simp] theorem State.setElem_groups (s : State) (e : ElemId) (x : Elem) : (s.setElem e x).groups = s.groups := rfl
@[simp] theorem State.setElem_egress (s : State) (e : ElemId) (x : Elem) : (s.setElem e x).egress = s.egress := rfl
@[simp] theorem State.setElem_links (s : State) (e : ElemId) (x : Elem) : (s.setElem e x).links = s.links := rfl
@[simp] theorem State.setElem_flows (s : State) (e : ElemId) (x : Elem) : (s.setElem e x).flows = s.flows := rfl
@[simp] theorem State.setElem_accepts (s : State) (e : ElemId) (x : Elem) : (s.setElem e x).accepts = s.accepts := rfl
@[simp] theorem State.setElem_meshq (s : State) (e : ElemId) (x : Elem) : (s.setElem e x).meshq = s.meshq := rfl
@[simp] theorem State.setElem_frames (s : State) (e : ElemId) (x : Elem) : (s.setElem e x).frames = s.frames := rfl
@[simp] theorem State.setElem_wins (s : State) (e : ElemId) (x : Elem) : (s.setElem e x).wins = s.wins := rfl
@[simp] theorem State.setElem_viols (s : State) (e : ElemId) (x : Elem) : (s.setElem e x).viols = s.viols := rfl
@[simp] theorem State.setElem_winReqs (s : State) (e : ElemId) (x : Elem) : (s.setElem e x).winReqs = s.winReqs := rfl
@[simp] theorem State.setElem_once (s : State) (e : ElemId) (x : Elem) : (s.setElem e x).once = s.once := rfl
@[simp] theorem State.setElem_rslots (s : State) (e : ElemId) (x : Elem) : (s.setElem e x).rslots = s.rslots := rfl
@[simp] theorem State.setElem_policy (s : State) (e : ElemId) (x : Elem) : (s.setElem e x).policy = s.policy := rfl
@[simp] theorem State.setElem_switches (s : State) (e : ElemId) (x : Elem) : (s.setElem e x).switches = s.switches := rfl
@[simp] theorem State.setElem_sessions (s : State) (e : ElemId) (x : Elem) : (s.setElem e x).sessions = s.sessions := rfl
@[simp] theorem State.setElem_spdm (s : State) (e : ElemId) (x : Elem) : (s.setElem e x).spdm = s.spdm := rfl
@[simp] theorem State.setElem_hiveSt (s : State) (e : ElemId) (x : Elem) : (s.setElem e x).hiveSt = s.hiveSt := rfl
@[simp] theorem State.setElem_moves (s : State) (e : ElemId) (x : Elem) : (s.setElem e x).moves = s.moves := rfl
@[simp] theorem State.setElem_scrubs (s : State) (e : ElemId) (x : Elem) : (s.setElem e x).scrubs = s.scrubs := rfl
@[simp] theorem State.setElem_ctl (s : State) (e : ElemId) (x : Elem) : (s.setElem e x).ctl = s.ctl := rfl
@[simp] theorem State.setElem_dcrOut (s : State) (e : ElemId) (x : Elem) : (s.setElem e x).dcrOut = s.dcrOut := rfl
@[simp] theorem State.setElem_ties (s : State) (e : ElemId) (x : Elem) : (s.setElem e x).ties = s.ties := rfl
@[simp] theorem State.setElem_dropped (s : State) (e : ElemId) (x : Elem) : (s.setElem e x).dropped = s.dropped := rfl

/-! ## `setTile` -/

@[simp] theorem State.setTile_part (s : State) (t : TileId) (x : Tile) : (s.setTile t x).part = s.part := rfl
@[simp] theorem State.setTile_node (s : State) (t : TileId) (x : Tile) : (s.setTile t x).node = s.node := rfl
@[simp] theorem State.setTile_cycle (s : State) (t : TileId) (x : Tile) : (s.setTile t x).cycle = s.cycle := rfl
@[simp] theorem State.setTile_readyAt (s : State) (t : TileId) (x : Tile) : (s.setTile t x).readyAt = s.readyAt := rfl
@[simp] theorem State.setTile_mem (s : State) (t : TileId) (x : Tile) : (s.setTile t x).mem = s.mem := rfl
@[simp] theorem State.setTile_poison (s : State) (t : TileId) (x : Tile) : (s.setTile t x).poison = s.poison := rfl
@[simp] theorem State.setTile_free (s : State) (t : TileId) (x : Tile) : (s.setTile t x).free = s.free := rfl
@[simp] theorem State.setTile_plan (s : State) (t : TileId) (x : Tile) : (s.setTile t x).plan = s.plan := rfl
@[simp] theorem State.setTile_pending (s : State) (t : TileId) (x : Tile) : (s.setTile t x).pending = s.pending := rfl
@[simp] theorem State.setTile_curT (s : State) (t : TileId) (x : Tile) : (s.setTile t x).curT = s.curT := rfl
@[simp] theorem State.setTile_curR (s : State) (t : TileId) (x : Tile) : (s.setTile t x).curR = s.curR := rfl
@[simp] theorem State.setTile_arg (s : State) (t : TileId) (x : Tile) : (s.setTile t x).arg = s.arg := rfl
@[simp] theorem State.setTile_netOut (s : State) (t : TileId) (x : Tile) : (s.setTile t x).netOut = s.netOut := rfl
@[simp] theorem State.setTile_ctxs (s : State) (t : TileId) (x : Tile) : (s.setTile t x).ctxs = s.ctxs := rfl
@[simp] theorem State.setTile_cores (s : State) (t : TileId) (x : Tile) : (s.setTile t x).cores = s.cores := rfl
@[simp] theorem State.setTile_jobs (s : State) (t : TileId) (x : Tile) : (s.setTile t x).jobs = s.jobs := rfl
@[simp] theorem State.setTile_stations (s : State) (t : TileId) (x : Tile) : (s.setTile t x).stations = s.stations := rfl
@[simp] theorem State.setTile_shoots (s : State) (t : TileId) (x : Tile) : (s.setTile t x).shoots = s.shoots := rfl
@[simp] theorem State.setTile_snoop (s : State) (t : TileId) (x : Tile) : (s.setTile t x).snoop = s.snoop := rfl
@[simp] theorem State.setTile_nextSerial (s : State) (t : TileId) (x : Tile) : (s.setTile t x).nextSerial = s.nextSerial := rfl
@[simp] theorem State.setTile_tags (s : State) (t : TileId) (x : Tile) : (s.setTile t x).tags = s.tags := rfl
@[simp] theorem State.setTile_wreqs (s : State) (t : TileId) (x : Tile) : (s.setTile t x).wreqs = s.wreqs := rfl
@[simp] theorem State.setTile_wseq (s : State) (t : TileId) (x : Tile) : (s.setTile t x).wseq = s.wseq := rfl
@[simp] theorem State.setTile_lockSends (s : State) (t : TileId) (x : Tile) : (s.setTile t x).lockSends = s.lockSends := rfl
@[simp] theorem State.setTile_lockNext (s : State) (t : TileId) (x : Tile) : (s.setTile t x).lockNext = s.lockNext := rfl
@[simp] theorem State.setTile_stopped (s : State) (t : TileId) (x : Tile) : (s.setTile t x).stopped = s.stopped := rfl
@[simp] theorem State.setTile_planes (s : State) (t : TileId) (x : Tile) : (s.setTile t x).planes = s.planes := rfl
@[simp] theorem State.setTile_elems (s : State) (t : TileId) (x : Tile) : (s.setTile t x).elems = s.elems := rfl
@[simp] theorem State.setTile_tiles (s : State) (t : TileId) (x : Tile) : (s.setTile t x).tiles = tput s.tiles t x := rfl
@[simp] theorem State.setTile_gens (s : State) (t : TileId) (x : Tile) : (s.setTile t x).gens = s.gens := rfl
@[simp] theorem State.setTile_slices (s : State) (t : TileId) (x : Tile) : (s.setTile t x).slices = s.slices := rfl
@[simp] theorem State.setTile_joints (s : State) (t : TileId) (x : Tile) : (s.setTile t x).joints = s.joints := rfl
@[simp] theorem State.setTile_hauls (s : State) (t : TileId) (x : Tile) : (s.setTile t x).hauls = s.hauls := rfl
@[simp] theorem State.setTile_horder (s : State) (t : TileId) (x : Tile) : (s.setTile t x).horder = s.horder := rfl
@[simp] theorem State.setTile_insts (s : State) (t : TileId) (x : Tile) : (s.setTile t x).insts = s.insts := rfl
@[simp] theorem State.setTile_saves (s : State) (t : TileId) (x : Tile) : (s.setTile t x).saves = s.saves := rfl
@[simp] theorem State.setTile_twins (s : State) (t : TileId) (x : Tile) : (s.setTile t x).twins = s.twins := rfl
@[simp] theorem State.setTile_snaps (s : State) (t : TileId) (x : Tile) : (s.setTile t x).snaps = s.snaps := rfl
@[simp] theorem State.setTile_colls (s : State) (t : TileId) (x : Tile) : (s.setTile t x).colls = s.colls := rfl
@[simp] theorem State.setTile_groups (s : State) (t : TileId) (x : Tile) : (s.setTile t x).groups = s.groups := rfl
@[simp] theorem State.setTile_egress (s : State) (t : TileId) (x : Tile) : (s.setTile t x).egress = s.egress := rfl
@[simp] theorem State.setTile_links (s : State) (t : TileId) (x : Tile) : (s.setTile t x).links = s.links := rfl
@[simp] theorem State.setTile_flows (s : State) (t : TileId) (x : Tile) : (s.setTile t x).flows = s.flows := rfl
@[simp] theorem State.setTile_accepts (s : State) (t : TileId) (x : Tile) : (s.setTile t x).accepts = s.accepts := rfl
@[simp] theorem State.setTile_meshq (s : State) (t : TileId) (x : Tile) : (s.setTile t x).meshq = s.meshq := rfl
@[simp] theorem State.setTile_frames (s : State) (t : TileId) (x : Tile) : (s.setTile t x).frames = s.frames := rfl
@[simp] theorem State.setTile_wins (s : State) (t : TileId) (x : Tile) : (s.setTile t x).wins = s.wins := rfl
@[simp] theorem State.setTile_viols (s : State) (t : TileId) (x : Tile) : (s.setTile t x).viols = s.viols := rfl
@[simp] theorem State.setTile_winReqs (s : State) (t : TileId) (x : Tile) : (s.setTile t x).winReqs = s.winReqs := rfl
@[simp] theorem State.setTile_once (s : State) (t : TileId) (x : Tile) : (s.setTile t x).once = s.once := rfl
@[simp] theorem State.setTile_rslots (s : State) (t : TileId) (x : Tile) : (s.setTile t x).rslots = s.rslots := rfl
@[simp] theorem State.setTile_policy (s : State) (t : TileId) (x : Tile) : (s.setTile t x).policy = s.policy := rfl
@[simp] theorem State.setTile_switches (s : State) (t : TileId) (x : Tile) : (s.setTile t x).switches = s.switches := rfl
@[simp] theorem State.setTile_sessions (s : State) (t : TileId) (x : Tile) : (s.setTile t x).sessions = s.sessions := rfl
@[simp] theorem State.setTile_spdm (s : State) (t : TileId) (x : Tile) : (s.setTile t x).spdm = s.spdm := rfl
@[simp] theorem State.setTile_hiveSt (s : State) (t : TileId) (x : Tile) : (s.setTile t x).hiveSt = s.hiveSt := rfl
@[simp] theorem State.setTile_moves (s : State) (t : TileId) (x : Tile) : (s.setTile t x).moves = s.moves := rfl
@[simp] theorem State.setTile_scrubs (s : State) (t : TileId) (x : Tile) : (s.setTile t x).scrubs = s.scrubs := rfl
@[simp] theorem State.setTile_ctl (s : State) (t : TileId) (x : Tile) : (s.setTile t x).ctl = s.ctl := rfl
@[simp] theorem State.setTile_dcrOut (s : State) (t : TileId) (x : Tile) : (s.setTile t x).dcrOut = s.dcrOut := rfl
@[simp] theorem State.setTile_ties (s : State) (t : TileId) (x : Tile) : (s.setTile t x).ties = s.ties := rfl
@[simp] theorem State.setTile_dropped (s : State) (t : TileId) (x : Tile) : (s.setTile t x).dropped = s.dropped := rfl

/-! ## `setGen` -/

@[simp] theorem State.setGen_part (s : State) (g : GenId) (x : Gen) : (s.setGen g x).part = s.part := rfl
@[simp] theorem State.setGen_node (s : State) (g : GenId) (x : Gen) : (s.setGen g x).node = s.node := rfl
@[simp] theorem State.setGen_cycle (s : State) (g : GenId) (x : Gen) : (s.setGen g x).cycle = s.cycle := rfl
@[simp] theorem State.setGen_readyAt (s : State) (g : GenId) (x : Gen) : (s.setGen g x).readyAt = s.readyAt := rfl
@[simp] theorem State.setGen_mem (s : State) (g : GenId) (x : Gen) : (s.setGen g x).mem = s.mem := rfl
@[simp] theorem State.setGen_poison (s : State) (g : GenId) (x : Gen) : (s.setGen g x).poison = s.poison := rfl
@[simp] theorem State.setGen_free (s : State) (g : GenId) (x : Gen) : (s.setGen g x).free = s.free := rfl
@[simp] theorem State.setGen_plan (s : State) (g : GenId) (x : Gen) : (s.setGen g x).plan = s.plan := rfl
@[simp] theorem State.setGen_pending (s : State) (g : GenId) (x : Gen) : (s.setGen g x).pending = s.pending := rfl
@[simp] theorem State.setGen_curT (s : State) (g : GenId) (x : Gen) : (s.setGen g x).curT = s.curT := rfl
@[simp] theorem State.setGen_curR (s : State) (g : GenId) (x : Gen) : (s.setGen g x).curR = s.curR := rfl
@[simp] theorem State.setGen_arg (s : State) (g : GenId) (x : Gen) : (s.setGen g x).arg = s.arg := rfl
@[simp] theorem State.setGen_netOut (s : State) (g : GenId) (x : Gen) : (s.setGen g x).netOut = s.netOut := rfl
@[simp] theorem State.setGen_ctxs (s : State) (g : GenId) (x : Gen) : (s.setGen g x).ctxs = s.ctxs := rfl
@[simp] theorem State.setGen_cores (s : State) (g : GenId) (x : Gen) : (s.setGen g x).cores = s.cores := rfl
@[simp] theorem State.setGen_jobs (s : State) (g : GenId) (x : Gen) : (s.setGen g x).jobs = s.jobs := rfl
@[simp] theorem State.setGen_stations (s : State) (g : GenId) (x : Gen) : (s.setGen g x).stations = s.stations := rfl
@[simp] theorem State.setGen_shoots (s : State) (g : GenId) (x : Gen) : (s.setGen g x).shoots = s.shoots := rfl
@[simp] theorem State.setGen_snoop (s : State) (g : GenId) (x : Gen) : (s.setGen g x).snoop = s.snoop := rfl
@[simp] theorem State.setGen_nextSerial (s : State) (g : GenId) (x : Gen) : (s.setGen g x).nextSerial = s.nextSerial := rfl
@[simp] theorem State.setGen_tags (s : State) (g : GenId) (x : Gen) : (s.setGen g x).tags = s.tags := rfl
@[simp] theorem State.setGen_wreqs (s : State) (g : GenId) (x : Gen) : (s.setGen g x).wreqs = s.wreqs := rfl
@[simp] theorem State.setGen_wseq (s : State) (g : GenId) (x : Gen) : (s.setGen g x).wseq = s.wseq := rfl
@[simp] theorem State.setGen_lockSends (s : State) (g : GenId) (x : Gen) : (s.setGen g x).lockSends = s.lockSends := rfl
@[simp] theorem State.setGen_lockNext (s : State) (g : GenId) (x : Gen) : (s.setGen g x).lockNext = s.lockNext := rfl
@[simp] theorem State.setGen_stopped (s : State) (g : GenId) (x : Gen) : (s.setGen g x).stopped = s.stopped := rfl
@[simp] theorem State.setGen_planes (s : State) (g : GenId) (x : Gen) : (s.setGen g x).planes = s.planes := rfl
@[simp] theorem State.setGen_elems (s : State) (g : GenId) (x : Gen) : (s.setGen g x).elems = s.elems := rfl
@[simp] theorem State.setGen_tiles (s : State) (g : GenId) (x : Gen) : (s.setGen g x).tiles = s.tiles := rfl
@[simp] theorem State.setGen_gens (s : State) (g : GenId) (x : Gen) : (s.setGen g x).gens = tput s.gens g x := rfl
@[simp] theorem State.setGen_slices (s : State) (g : GenId) (x : Gen) : (s.setGen g x).slices = s.slices := rfl
@[simp] theorem State.setGen_joints (s : State) (g : GenId) (x : Gen) : (s.setGen g x).joints = s.joints := rfl
@[simp] theorem State.setGen_hauls (s : State) (g : GenId) (x : Gen) : (s.setGen g x).hauls = s.hauls := rfl
@[simp] theorem State.setGen_horder (s : State) (g : GenId) (x : Gen) : (s.setGen g x).horder = s.horder := rfl
@[simp] theorem State.setGen_insts (s : State) (g : GenId) (x : Gen) : (s.setGen g x).insts = s.insts := rfl
@[simp] theorem State.setGen_saves (s : State) (g : GenId) (x : Gen) : (s.setGen g x).saves = s.saves := rfl
@[simp] theorem State.setGen_twins (s : State) (g : GenId) (x : Gen) : (s.setGen g x).twins = s.twins := rfl
@[simp] theorem State.setGen_snaps (s : State) (g : GenId) (x : Gen) : (s.setGen g x).snaps = s.snaps := rfl
@[simp] theorem State.setGen_colls (s : State) (g : GenId) (x : Gen) : (s.setGen g x).colls = s.colls := rfl
@[simp] theorem State.setGen_groups (s : State) (g : GenId) (x : Gen) : (s.setGen g x).groups = s.groups := rfl
@[simp] theorem State.setGen_egress (s : State) (g : GenId) (x : Gen) : (s.setGen g x).egress = s.egress := rfl
@[simp] theorem State.setGen_links (s : State) (g : GenId) (x : Gen) : (s.setGen g x).links = s.links := rfl
@[simp] theorem State.setGen_flows (s : State) (g : GenId) (x : Gen) : (s.setGen g x).flows = s.flows := rfl
@[simp] theorem State.setGen_accepts (s : State) (g : GenId) (x : Gen) : (s.setGen g x).accepts = s.accepts := rfl
@[simp] theorem State.setGen_meshq (s : State) (g : GenId) (x : Gen) : (s.setGen g x).meshq = s.meshq := rfl
@[simp] theorem State.setGen_frames (s : State) (g : GenId) (x : Gen) : (s.setGen g x).frames = s.frames := rfl
@[simp] theorem State.setGen_wins (s : State) (g : GenId) (x : Gen) : (s.setGen g x).wins = s.wins := rfl
@[simp] theorem State.setGen_viols (s : State) (g : GenId) (x : Gen) : (s.setGen g x).viols = s.viols := rfl
@[simp] theorem State.setGen_winReqs (s : State) (g : GenId) (x : Gen) : (s.setGen g x).winReqs = s.winReqs := rfl
@[simp] theorem State.setGen_once (s : State) (g : GenId) (x : Gen) : (s.setGen g x).once = s.once := rfl
@[simp] theorem State.setGen_rslots (s : State) (g : GenId) (x : Gen) : (s.setGen g x).rslots = s.rslots := rfl
@[simp] theorem State.setGen_policy (s : State) (g : GenId) (x : Gen) : (s.setGen g x).policy = s.policy := rfl
@[simp] theorem State.setGen_switches (s : State) (g : GenId) (x : Gen) : (s.setGen g x).switches = s.switches := rfl
@[simp] theorem State.setGen_sessions (s : State) (g : GenId) (x : Gen) : (s.setGen g x).sessions = s.sessions := rfl
@[simp] theorem State.setGen_spdm (s : State) (g : GenId) (x : Gen) : (s.setGen g x).spdm = s.spdm := rfl
@[simp] theorem State.setGen_hiveSt (s : State) (g : GenId) (x : Gen) : (s.setGen g x).hiveSt = s.hiveSt := rfl
@[simp] theorem State.setGen_moves (s : State) (g : GenId) (x : Gen) : (s.setGen g x).moves = s.moves := rfl
@[simp] theorem State.setGen_scrubs (s : State) (g : GenId) (x : Gen) : (s.setGen g x).scrubs = s.scrubs := rfl
@[simp] theorem State.setGen_ctl (s : State) (g : GenId) (x : Gen) : (s.setGen g x).ctl = s.ctl := rfl
@[simp] theorem State.setGen_dcrOut (s : State) (g : GenId) (x : Gen) : (s.setGen g x).dcrOut = s.dcrOut := rfl
@[simp] theorem State.setGen_ties (s : State) (g : GenId) (x : Gen) : (s.setGen g x).ties = s.ties := rfl
@[simp] theorem State.setGen_dropped (s : State) (g : GenId) (x : Gen) : (s.setGen g x).dropped = s.dropped := rfl

/-! ## `setInst` -/

@[simp] theorem State.setInst_part (s : State) (i : InstId) (x : Inst) : (s.setInst i x).part = s.part := rfl
@[simp] theorem State.setInst_node (s : State) (i : InstId) (x : Inst) : (s.setInst i x).node = s.node := rfl
@[simp] theorem State.setInst_cycle (s : State) (i : InstId) (x : Inst) : (s.setInst i x).cycle = s.cycle := rfl
@[simp] theorem State.setInst_readyAt (s : State) (i : InstId) (x : Inst) : (s.setInst i x).readyAt = s.readyAt := rfl
@[simp] theorem State.setInst_mem (s : State) (i : InstId) (x : Inst) : (s.setInst i x).mem = s.mem := rfl
@[simp] theorem State.setInst_poison (s : State) (i : InstId) (x : Inst) : (s.setInst i x).poison = s.poison := rfl
@[simp] theorem State.setInst_free (s : State) (i : InstId) (x : Inst) : (s.setInst i x).free = s.free := rfl
@[simp] theorem State.setInst_plan (s : State) (i : InstId) (x : Inst) : (s.setInst i x).plan = s.plan := rfl
@[simp] theorem State.setInst_pending (s : State) (i : InstId) (x : Inst) : (s.setInst i x).pending = s.pending := rfl
@[simp] theorem State.setInst_curT (s : State) (i : InstId) (x : Inst) : (s.setInst i x).curT = s.curT := rfl
@[simp] theorem State.setInst_curR (s : State) (i : InstId) (x : Inst) : (s.setInst i x).curR = s.curR := rfl
@[simp] theorem State.setInst_arg (s : State) (i : InstId) (x : Inst) : (s.setInst i x).arg = s.arg := rfl
@[simp] theorem State.setInst_netOut (s : State) (i : InstId) (x : Inst) : (s.setInst i x).netOut = s.netOut := rfl
@[simp] theorem State.setInst_ctxs (s : State) (i : InstId) (x : Inst) : (s.setInst i x).ctxs = s.ctxs := rfl
@[simp] theorem State.setInst_cores (s : State) (i : InstId) (x : Inst) : (s.setInst i x).cores = s.cores := rfl
@[simp] theorem State.setInst_jobs (s : State) (i : InstId) (x : Inst) : (s.setInst i x).jobs = s.jobs := rfl
@[simp] theorem State.setInst_stations (s : State) (i : InstId) (x : Inst) : (s.setInst i x).stations = s.stations := rfl
@[simp] theorem State.setInst_shoots (s : State) (i : InstId) (x : Inst) : (s.setInst i x).shoots = s.shoots := rfl
@[simp] theorem State.setInst_snoop (s : State) (i : InstId) (x : Inst) : (s.setInst i x).snoop = s.snoop := rfl
@[simp] theorem State.setInst_nextSerial (s : State) (i : InstId) (x : Inst) : (s.setInst i x).nextSerial = s.nextSerial := rfl
@[simp] theorem State.setInst_tags (s : State) (i : InstId) (x : Inst) : (s.setInst i x).tags = s.tags := rfl
@[simp] theorem State.setInst_wreqs (s : State) (i : InstId) (x : Inst) : (s.setInst i x).wreqs = s.wreqs := rfl
@[simp] theorem State.setInst_wseq (s : State) (i : InstId) (x : Inst) : (s.setInst i x).wseq = s.wseq := rfl
@[simp] theorem State.setInst_lockSends (s : State) (i : InstId) (x : Inst) : (s.setInst i x).lockSends = s.lockSends := rfl
@[simp] theorem State.setInst_lockNext (s : State) (i : InstId) (x : Inst) : (s.setInst i x).lockNext = s.lockNext := rfl
@[simp] theorem State.setInst_stopped (s : State) (i : InstId) (x : Inst) : (s.setInst i x).stopped = s.stopped := rfl
@[simp] theorem State.setInst_planes (s : State) (i : InstId) (x : Inst) : (s.setInst i x).planes = s.planes := rfl
@[simp] theorem State.setInst_elems (s : State) (i : InstId) (x : Inst) : (s.setInst i x).elems = s.elems := rfl
@[simp] theorem State.setInst_tiles (s : State) (i : InstId) (x : Inst) : (s.setInst i x).tiles = s.tiles := rfl
@[simp] theorem State.setInst_gens (s : State) (i : InstId) (x : Inst) : (s.setInst i x).gens = s.gens := rfl
@[simp] theorem State.setInst_slices (s : State) (i : InstId) (x : Inst) : (s.setInst i x).slices = s.slices := rfl
@[simp] theorem State.setInst_joints (s : State) (i : InstId) (x : Inst) : (s.setInst i x).joints = s.joints := rfl
@[simp] theorem State.setInst_hauls (s : State) (i : InstId) (x : Inst) : (s.setInst i x).hauls = s.hauls := rfl
@[simp] theorem State.setInst_horder (s : State) (i : InstId) (x : Inst) : (s.setInst i x).horder = s.horder := rfl
@[simp] theorem State.setInst_insts (s : State) (i : InstId) (x : Inst) : (s.setInst i x).insts = tput s.insts i x := rfl
@[simp] theorem State.setInst_saves (s : State) (i : InstId) (x : Inst) : (s.setInst i x).saves = s.saves := rfl
@[simp] theorem State.setInst_twins (s : State) (i : InstId) (x : Inst) : (s.setInst i x).twins = s.twins := rfl
@[simp] theorem State.setInst_snaps (s : State) (i : InstId) (x : Inst) : (s.setInst i x).snaps = s.snaps := rfl
@[simp] theorem State.setInst_colls (s : State) (i : InstId) (x : Inst) : (s.setInst i x).colls = s.colls := rfl
@[simp] theorem State.setInst_groups (s : State) (i : InstId) (x : Inst) : (s.setInst i x).groups = s.groups := rfl
@[simp] theorem State.setInst_egress (s : State) (i : InstId) (x : Inst) : (s.setInst i x).egress = s.egress := rfl
@[simp] theorem State.setInst_links (s : State) (i : InstId) (x : Inst) : (s.setInst i x).links = s.links := rfl
@[simp] theorem State.setInst_flows (s : State) (i : InstId) (x : Inst) : (s.setInst i x).flows = s.flows := rfl
@[simp] theorem State.setInst_accepts (s : State) (i : InstId) (x : Inst) : (s.setInst i x).accepts = s.accepts := rfl
@[simp] theorem State.setInst_meshq (s : State) (i : InstId) (x : Inst) : (s.setInst i x).meshq = s.meshq := rfl
@[simp] theorem State.setInst_frames (s : State) (i : InstId) (x : Inst) : (s.setInst i x).frames = s.frames := rfl
@[simp] theorem State.setInst_wins (s : State) (i : InstId) (x : Inst) : (s.setInst i x).wins = s.wins := rfl
@[simp] theorem State.setInst_viols (s : State) (i : InstId) (x : Inst) : (s.setInst i x).viols = s.viols := rfl
@[simp] theorem State.setInst_winReqs (s : State) (i : InstId) (x : Inst) : (s.setInst i x).winReqs = s.winReqs := rfl
@[simp] theorem State.setInst_once (s : State) (i : InstId) (x : Inst) : (s.setInst i x).once = s.once := rfl
@[simp] theorem State.setInst_rslots (s : State) (i : InstId) (x : Inst) : (s.setInst i x).rslots = s.rslots := rfl
@[simp] theorem State.setInst_policy (s : State) (i : InstId) (x : Inst) : (s.setInst i x).policy = s.policy := rfl
@[simp] theorem State.setInst_switches (s : State) (i : InstId) (x : Inst) : (s.setInst i x).switches = s.switches := rfl
@[simp] theorem State.setInst_sessions (s : State) (i : InstId) (x : Inst) : (s.setInst i x).sessions = s.sessions := rfl
@[simp] theorem State.setInst_spdm (s : State) (i : InstId) (x : Inst) : (s.setInst i x).spdm = s.spdm := rfl
@[simp] theorem State.setInst_hiveSt (s : State) (i : InstId) (x : Inst) : (s.setInst i x).hiveSt = s.hiveSt := rfl
@[simp] theorem State.setInst_moves (s : State) (i : InstId) (x : Inst) : (s.setInst i x).moves = s.moves := rfl
@[simp] theorem State.setInst_scrubs (s : State) (i : InstId) (x : Inst) : (s.setInst i x).scrubs = s.scrubs := rfl
@[simp] theorem State.setInst_ctl (s : State) (i : InstId) (x : Inst) : (s.setInst i x).ctl = s.ctl := rfl
@[simp] theorem State.setInst_dcrOut (s : State) (i : InstId) (x : Inst) : (s.setInst i x).dcrOut = s.dcrOut := rfl
@[simp] theorem State.setInst_ties (s : State) (i : InstId) (x : Inst) : (s.setInst i x).ties = s.ties := rfl
@[simp] theorem State.setInst_dropped (s : State) (i : InstId) (x : Inst) : (s.setInst i x).dropped = s.dropped := rfl

/-! ## `setHaul` -/

@[simp] theorem State.setHaul_part (s : State) (c : CoreId) (n : Nat) (x : Haul) : (s.setHaul c n x).part = s.part := rfl
@[simp] theorem State.setHaul_node (s : State) (c : CoreId) (n : Nat) (x : Haul) : (s.setHaul c n x).node = s.node := rfl
@[simp] theorem State.setHaul_cycle (s : State) (c : CoreId) (n : Nat) (x : Haul) : (s.setHaul c n x).cycle = s.cycle := rfl
@[simp] theorem State.setHaul_readyAt (s : State) (c : CoreId) (n : Nat) (x : Haul) : (s.setHaul c n x).readyAt = s.readyAt := rfl
@[simp] theorem State.setHaul_mem (s : State) (c : CoreId) (n : Nat) (x : Haul) : (s.setHaul c n x).mem = s.mem := rfl
@[simp] theorem State.setHaul_poison (s : State) (c : CoreId) (n : Nat) (x : Haul) : (s.setHaul c n x).poison = s.poison := rfl
@[simp] theorem State.setHaul_free (s : State) (c : CoreId) (n : Nat) (x : Haul) : (s.setHaul c n x).free = s.free := rfl
@[simp] theorem State.setHaul_plan (s : State) (c : CoreId) (n : Nat) (x : Haul) : (s.setHaul c n x).plan = s.plan := rfl
@[simp] theorem State.setHaul_pending (s : State) (c : CoreId) (n : Nat) (x : Haul) : (s.setHaul c n x).pending = s.pending := rfl
@[simp] theorem State.setHaul_curT (s : State) (c : CoreId) (n : Nat) (x : Haul) : (s.setHaul c n x).curT = s.curT := rfl
@[simp] theorem State.setHaul_curR (s : State) (c : CoreId) (n : Nat) (x : Haul) : (s.setHaul c n x).curR = s.curR := rfl
@[simp] theorem State.setHaul_arg (s : State) (c : CoreId) (n : Nat) (x : Haul) : (s.setHaul c n x).arg = s.arg := rfl
@[simp] theorem State.setHaul_netOut (s : State) (c : CoreId) (n : Nat) (x : Haul) : (s.setHaul c n x).netOut = s.netOut := rfl
@[simp] theorem State.setHaul_ctxs (s : State) (c : CoreId) (n : Nat) (x : Haul) : (s.setHaul c n x).ctxs = s.ctxs := rfl
@[simp] theorem State.setHaul_cores (s : State) (c : CoreId) (n : Nat) (x : Haul) : (s.setHaul c n x).cores = s.cores := rfl
@[simp] theorem State.setHaul_jobs (s : State) (c : CoreId) (n : Nat) (x : Haul) : (s.setHaul c n x).jobs = s.jobs := rfl
@[simp] theorem State.setHaul_stations (s : State) (c : CoreId) (n : Nat) (x : Haul) : (s.setHaul c n x).stations = s.stations := rfl
@[simp] theorem State.setHaul_shoots (s : State) (c : CoreId) (n : Nat) (x : Haul) : (s.setHaul c n x).shoots = s.shoots := rfl
@[simp] theorem State.setHaul_snoop (s : State) (c : CoreId) (n : Nat) (x : Haul) : (s.setHaul c n x).snoop = s.snoop := rfl
@[simp] theorem State.setHaul_nextSerial (s : State) (c : CoreId) (n : Nat) (x : Haul) : (s.setHaul c n x).nextSerial = s.nextSerial := rfl
@[simp] theorem State.setHaul_tags (s : State) (c : CoreId) (n : Nat) (x : Haul) : (s.setHaul c n x).tags = s.tags := rfl
@[simp] theorem State.setHaul_wreqs (s : State) (c : CoreId) (n : Nat) (x : Haul) : (s.setHaul c n x).wreqs = s.wreqs := rfl
@[simp] theorem State.setHaul_wseq (s : State) (c : CoreId) (n : Nat) (x : Haul) : (s.setHaul c n x).wseq = s.wseq := rfl
@[simp] theorem State.setHaul_lockSends (s : State) (c : CoreId) (n : Nat) (x : Haul) : (s.setHaul c n x).lockSends = s.lockSends := rfl
@[simp] theorem State.setHaul_lockNext (s : State) (c : CoreId) (n : Nat) (x : Haul) : (s.setHaul c n x).lockNext = s.lockNext := rfl
@[simp] theorem State.setHaul_stopped (s : State) (c : CoreId) (n : Nat) (x : Haul) : (s.setHaul c n x).stopped = s.stopped := rfl
@[simp] theorem State.setHaul_planes (s : State) (c : CoreId) (n : Nat) (x : Haul) : (s.setHaul c n x).planes = s.planes := rfl
@[simp] theorem State.setHaul_elems (s : State) (c : CoreId) (n : Nat) (x : Haul) : (s.setHaul c n x).elems = s.elems := rfl
@[simp] theorem State.setHaul_tiles (s : State) (c : CoreId) (n : Nat) (x : Haul) : (s.setHaul c n x).tiles = s.tiles := rfl
@[simp] theorem State.setHaul_gens (s : State) (c : CoreId) (n : Nat) (x : Haul) : (s.setHaul c n x).gens = s.gens := rfl
@[simp] theorem State.setHaul_slices (s : State) (c : CoreId) (n : Nat) (x : Haul) : (s.setHaul c n x).slices = s.slices := rfl
@[simp] theorem State.setHaul_joints (s : State) (c : CoreId) (n : Nat) (x : Haul) : (s.setHaul c n x).joints = s.joints := rfl
@[simp] theorem State.setHaul_hauls (s : State) (c : CoreId) (n : Nat) (x : Haul) : (s.setHaul c n x).hauls = tput s.hauls (c, n) x := rfl
@[simp] theorem State.setHaul_horder (s : State) (c : CoreId) (n : Nat) (x : Haul) : (s.setHaul c n x).horder = s.horder := rfl
@[simp] theorem State.setHaul_insts (s : State) (c : CoreId) (n : Nat) (x : Haul) : (s.setHaul c n x).insts = s.insts := rfl
@[simp] theorem State.setHaul_saves (s : State) (c : CoreId) (n : Nat) (x : Haul) : (s.setHaul c n x).saves = s.saves := rfl
@[simp] theorem State.setHaul_twins (s : State) (c : CoreId) (n : Nat) (x : Haul) : (s.setHaul c n x).twins = s.twins := rfl
@[simp] theorem State.setHaul_snaps (s : State) (c : CoreId) (n : Nat) (x : Haul) : (s.setHaul c n x).snaps = s.snaps := rfl
@[simp] theorem State.setHaul_colls (s : State) (c : CoreId) (n : Nat) (x : Haul) : (s.setHaul c n x).colls = s.colls := rfl
@[simp] theorem State.setHaul_groups (s : State) (c : CoreId) (n : Nat) (x : Haul) : (s.setHaul c n x).groups = s.groups := rfl
@[simp] theorem State.setHaul_egress (s : State) (c : CoreId) (n : Nat) (x : Haul) : (s.setHaul c n x).egress = s.egress := rfl
@[simp] theorem State.setHaul_links (s : State) (c : CoreId) (n : Nat) (x : Haul) : (s.setHaul c n x).links = s.links := rfl
@[simp] theorem State.setHaul_flows (s : State) (c : CoreId) (n : Nat) (x : Haul) : (s.setHaul c n x).flows = s.flows := rfl
@[simp] theorem State.setHaul_accepts (s : State) (c : CoreId) (n : Nat) (x : Haul) : (s.setHaul c n x).accepts = s.accepts := rfl
@[simp] theorem State.setHaul_meshq (s : State) (c : CoreId) (n : Nat) (x : Haul) : (s.setHaul c n x).meshq = s.meshq := rfl
@[simp] theorem State.setHaul_frames (s : State) (c : CoreId) (n : Nat) (x : Haul) : (s.setHaul c n x).frames = s.frames := rfl
@[simp] theorem State.setHaul_wins (s : State) (c : CoreId) (n : Nat) (x : Haul) : (s.setHaul c n x).wins = s.wins := rfl
@[simp] theorem State.setHaul_viols (s : State) (c : CoreId) (n : Nat) (x : Haul) : (s.setHaul c n x).viols = s.viols := rfl
@[simp] theorem State.setHaul_winReqs (s : State) (c : CoreId) (n : Nat) (x : Haul) : (s.setHaul c n x).winReqs = s.winReqs := rfl
@[simp] theorem State.setHaul_once (s : State) (c : CoreId) (n : Nat) (x : Haul) : (s.setHaul c n x).once = s.once := rfl
@[simp] theorem State.setHaul_rslots (s : State) (c : CoreId) (n : Nat) (x : Haul) : (s.setHaul c n x).rslots = s.rslots := rfl
@[simp] theorem State.setHaul_policy (s : State) (c : CoreId) (n : Nat) (x : Haul) : (s.setHaul c n x).policy = s.policy := rfl
@[simp] theorem State.setHaul_switches (s : State) (c : CoreId) (n : Nat) (x : Haul) : (s.setHaul c n x).switches = s.switches := rfl
@[simp] theorem State.setHaul_sessions (s : State) (c : CoreId) (n : Nat) (x : Haul) : (s.setHaul c n x).sessions = s.sessions := rfl
@[simp] theorem State.setHaul_spdm (s : State) (c : CoreId) (n : Nat) (x : Haul) : (s.setHaul c n x).spdm = s.spdm := rfl
@[simp] theorem State.setHaul_hiveSt (s : State) (c : CoreId) (n : Nat) (x : Haul) : (s.setHaul c n x).hiveSt = s.hiveSt := rfl
@[simp] theorem State.setHaul_moves (s : State) (c : CoreId) (n : Nat) (x : Haul) : (s.setHaul c n x).moves = s.moves := rfl
@[simp] theorem State.setHaul_scrubs (s : State) (c : CoreId) (n : Nat) (x : Haul) : (s.setHaul c n x).scrubs = s.scrubs := rfl
@[simp] theorem State.setHaul_ctl (s : State) (c : CoreId) (n : Nat) (x : Haul) : (s.setHaul c n x).ctl = s.ctl := rfl
@[simp] theorem State.setHaul_dcrOut (s : State) (c : CoreId) (n : Nat) (x : Haul) : (s.setHaul c n x).dcrOut = s.dcrOut := rfl
@[simp] theorem State.setHaul_ties (s : State) (c : CoreId) (n : Nat) (x : Haul) : (s.setHaul c n x).ties = s.ties := rfl
@[simp] theorem State.setHaul_dropped (s : State) (c : CoreId) (n : Nat) (x : Haul) : (s.setHaul c n x).dropped = s.dropped := rfl

/-! ## `setTag` -/

@[simp] theorem State.setTag_part (s : State) (c : CoreId) (n : Nat) (x : TagState) : (s.setTag c n x).part = s.part := rfl
@[simp] theorem State.setTag_node (s : State) (c : CoreId) (n : Nat) (x : TagState) : (s.setTag c n x).node = s.node := rfl
@[simp] theorem State.setTag_cycle (s : State) (c : CoreId) (n : Nat) (x : TagState) : (s.setTag c n x).cycle = s.cycle := rfl
@[simp] theorem State.setTag_readyAt (s : State) (c : CoreId) (n : Nat) (x : TagState) : (s.setTag c n x).readyAt = s.readyAt := rfl
@[simp] theorem State.setTag_mem (s : State) (c : CoreId) (n : Nat) (x : TagState) : (s.setTag c n x).mem = s.mem := rfl
@[simp] theorem State.setTag_poison (s : State) (c : CoreId) (n : Nat) (x : TagState) : (s.setTag c n x).poison = s.poison := rfl
@[simp] theorem State.setTag_free (s : State) (c : CoreId) (n : Nat) (x : TagState) : (s.setTag c n x).free = s.free := rfl
@[simp] theorem State.setTag_plan (s : State) (c : CoreId) (n : Nat) (x : TagState) : (s.setTag c n x).plan = s.plan := rfl
@[simp] theorem State.setTag_pending (s : State) (c : CoreId) (n : Nat) (x : TagState) : (s.setTag c n x).pending = s.pending := rfl
@[simp] theorem State.setTag_curT (s : State) (c : CoreId) (n : Nat) (x : TagState) : (s.setTag c n x).curT = s.curT := rfl
@[simp] theorem State.setTag_curR (s : State) (c : CoreId) (n : Nat) (x : TagState) : (s.setTag c n x).curR = s.curR := rfl
@[simp] theorem State.setTag_arg (s : State) (c : CoreId) (n : Nat) (x : TagState) : (s.setTag c n x).arg = s.arg := rfl
@[simp] theorem State.setTag_netOut (s : State) (c : CoreId) (n : Nat) (x : TagState) : (s.setTag c n x).netOut = s.netOut := rfl
@[simp] theorem State.setTag_ctxs (s : State) (c : CoreId) (n : Nat) (x : TagState) : (s.setTag c n x).ctxs = s.ctxs := rfl
@[simp] theorem State.setTag_cores (s : State) (c : CoreId) (n : Nat) (x : TagState) : (s.setTag c n x).cores = s.cores := rfl
@[simp] theorem State.setTag_jobs (s : State) (c : CoreId) (n : Nat) (x : TagState) : (s.setTag c n x).jobs = s.jobs := rfl
@[simp] theorem State.setTag_stations (s : State) (c : CoreId) (n : Nat) (x : TagState) : (s.setTag c n x).stations = s.stations := rfl
@[simp] theorem State.setTag_shoots (s : State) (c : CoreId) (n : Nat) (x : TagState) : (s.setTag c n x).shoots = s.shoots := rfl
@[simp] theorem State.setTag_snoop (s : State) (c : CoreId) (n : Nat) (x : TagState) : (s.setTag c n x).snoop = s.snoop := rfl
@[simp] theorem State.setTag_nextSerial (s : State) (c : CoreId) (n : Nat) (x : TagState) : (s.setTag c n x).nextSerial = s.nextSerial := rfl
@[simp] theorem State.setTag_tags (s : State) (c : CoreId) (n : Nat) (x : TagState) : (s.setTag c n x).tags = tput s.tags (c, n) x := rfl
@[simp] theorem State.setTag_wreqs (s : State) (c : CoreId) (n : Nat) (x : TagState) : (s.setTag c n x).wreqs = s.wreqs := rfl
@[simp] theorem State.setTag_wseq (s : State) (c : CoreId) (n : Nat) (x : TagState) : (s.setTag c n x).wseq = s.wseq := rfl
@[simp] theorem State.setTag_lockSends (s : State) (c : CoreId) (n : Nat) (x : TagState) : (s.setTag c n x).lockSends = s.lockSends := rfl
@[simp] theorem State.setTag_lockNext (s : State) (c : CoreId) (n : Nat) (x : TagState) : (s.setTag c n x).lockNext = s.lockNext := rfl
@[simp] theorem State.setTag_stopped (s : State) (c : CoreId) (n : Nat) (x : TagState) : (s.setTag c n x).stopped = s.stopped := rfl
@[simp] theorem State.setTag_planes (s : State) (c : CoreId) (n : Nat) (x : TagState) : (s.setTag c n x).planes = s.planes := rfl
@[simp] theorem State.setTag_elems (s : State) (c : CoreId) (n : Nat) (x : TagState) : (s.setTag c n x).elems = s.elems := rfl
@[simp] theorem State.setTag_tiles (s : State) (c : CoreId) (n : Nat) (x : TagState) : (s.setTag c n x).tiles = s.tiles := rfl
@[simp] theorem State.setTag_gens (s : State) (c : CoreId) (n : Nat) (x : TagState) : (s.setTag c n x).gens = s.gens := rfl
@[simp] theorem State.setTag_slices (s : State) (c : CoreId) (n : Nat) (x : TagState) : (s.setTag c n x).slices = s.slices := rfl
@[simp] theorem State.setTag_joints (s : State) (c : CoreId) (n : Nat) (x : TagState) : (s.setTag c n x).joints = s.joints := rfl
@[simp] theorem State.setTag_hauls (s : State) (c : CoreId) (n : Nat) (x : TagState) : (s.setTag c n x).hauls = s.hauls := rfl
@[simp] theorem State.setTag_horder (s : State) (c : CoreId) (n : Nat) (x : TagState) : (s.setTag c n x).horder = s.horder := rfl
@[simp] theorem State.setTag_insts (s : State) (c : CoreId) (n : Nat) (x : TagState) : (s.setTag c n x).insts = s.insts := rfl
@[simp] theorem State.setTag_saves (s : State) (c : CoreId) (n : Nat) (x : TagState) : (s.setTag c n x).saves = s.saves := rfl
@[simp] theorem State.setTag_twins (s : State) (c : CoreId) (n : Nat) (x : TagState) : (s.setTag c n x).twins = s.twins := rfl
@[simp] theorem State.setTag_snaps (s : State) (c : CoreId) (n : Nat) (x : TagState) : (s.setTag c n x).snaps = s.snaps := rfl
@[simp] theorem State.setTag_colls (s : State) (c : CoreId) (n : Nat) (x : TagState) : (s.setTag c n x).colls = s.colls := rfl
@[simp] theorem State.setTag_groups (s : State) (c : CoreId) (n : Nat) (x : TagState) : (s.setTag c n x).groups = s.groups := rfl
@[simp] theorem State.setTag_egress (s : State) (c : CoreId) (n : Nat) (x : TagState) : (s.setTag c n x).egress = s.egress := rfl
@[simp] theorem State.setTag_links (s : State) (c : CoreId) (n : Nat) (x : TagState) : (s.setTag c n x).links = s.links := rfl
@[simp] theorem State.setTag_flows (s : State) (c : CoreId) (n : Nat) (x : TagState) : (s.setTag c n x).flows = s.flows := rfl
@[simp] theorem State.setTag_accepts (s : State) (c : CoreId) (n : Nat) (x : TagState) : (s.setTag c n x).accepts = s.accepts := rfl
@[simp] theorem State.setTag_meshq (s : State) (c : CoreId) (n : Nat) (x : TagState) : (s.setTag c n x).meshq = s.meshq := rfl
@[simp] theorem State.setTag_frames (s : State) (c : CoreId) (n : Nat) (x : TagState) : (s.setTag c n x).frames = s.frames := rfl
@[simp] theorem State.setTag_wins (s : State) (c : CoreId) (n : Nat) (x : TagState) : (s.setTag c n x).wins = s.wins := rfl
@[simp] theorem State.setTag_viols (s : State) (c : CoreId) (n : Nat) (x : TagState) : (s.setTag c n x).viols = s.viols := rfl
@[simp] theorem State.setTag_winReqs (s : State) (c : CoreId) (n : Nat) (x : TagState) : (s.setTag c n x).winReqs = s.winReqs := rfl
@[simp] theorem State.setTag_once (s : State) (c : CoreId) (n : Nat) (x : TagState) : (s.setTag c n x).once = s.once := rfl
@[simp] theorem State.setTag_rslots (s : State) (c : CoreId) (n : Nat) (x : TagState) : (s.setTag c n x).rslots = s.rslots := rfl
@[simp] theorem State.setTag_policy (s : State) (c : CoreId) (n : Nat) (x : TagState) : (s.setTag c n x).policy = s.policy := rfl
@[simp] theorem State.setTag_switches (s : State) (c : CoreId) (n : Nat) (x : TagState) : (s.setTag c n x).switches = s.switches := rfl
@[simp] theorem State.setTag_sessions (s : State) (c : CoreId) (n : Nat) (x : TagState) : (s.setTag c n x).sessions = s.sessions := rfl
@[simp] theorem State.setTag_spdm (s : State) (c : CoreId) (n : Nat) (x : TagState) : (s.setTag c n x).spdm = s.spdm := rfl
@[simp] theorem State.setTag_hiveSt (s : State) (c : CoreId) (n : Nat) (x : TagState) : (s.setTag c n x).hiveSt = s.hiveSt := rfl
@[simp] theorem State.setTag_moves (s : State) (c : CoreId) (n : Nat) (x : TagState) : (s.setTag c n x).moves = s.moves := rfl
@[simp] theorem State.setTag_scrubs (s : State) (c : CoreId) (n : Nat) (x : TagState) : (s.setTag c n x).scrubs = s.scrubs := rfl
@[simp] theorem State.setTag_ctl (s : State) (c : CoreId) (n : Nat) (x : TagState) : (s.setTag c n x).ctl = s.ctl := rfl
@[simp] theorem State.setTag_dcrOut (s : State) (c : CoreId) (n : Nat) (x : TagState) : (s.setTag c n x).dcrOut = s.dcrOut := rfl
@[simp] theorem State.setTag_ties (s : State) (c : CoreId) (n : Nat) (x : TagState) : (s.setTag c n x).ties = s.ties := rfl
@[simp] theorem State.setTag_dropped (s : State) (c : CoreId) (n : Nat) (x : TagState) : (s.setTag c n x).dropped = s.dropped := rfl

/-! ## `setSlice` -/

@[simp] theorem State.setSlice_part (s : State) (h : HiveId) (m b : Nat) (x : Slice) : (s.setSlice h m b x).part = s.part := rfl
@[simp] theorem State.setSlice_node (s : State) (h : HiveId) (m b : Nat) (x : Slice) : (s.setSlice h m b x).node = s.node := rfl
@[simp] theorem State.setSlice_cycle (s : State) (h : HiveId) (m b : Nat) (x : Slice) : (s.setSlice h m b x).cycle = s.cycle := rfl
@[simp] theorem State.setSlice_readyAt (s : State) (h : HiveId) (m b : Nat) (x : Slice) : (s.setSlice h m b x).readyAt = s.readyAt := rfl
@[simp] theorem State.setSlice_mem (s : State) (h : HiveId) (m b : Nat) (x : Slice) : (s.setSlice h m b x).mem = s.mem := rfl
@[simp] theorem State.setSlice_poison (s : State) (h : HiveId) (m b : Nat) (x : Slice) : (s.setSlice h m b x).poison = s.poison := rfl
@[simp] theorem State.setSlice_free (s : State) (h : HiveId) (m b : Nat) (x : Slice) : (s.setSlice h m b x).free = s.free := rfl
@[simp] theorem State.setSlice_plan (s : State) (h : HiveId) (m b : Nat) (x : Slice) : (s.setSlice h m b x).plan = s.plan := rfl
@[simp] theorem State.setSlice_pending (s : State) (h : HiveId) (m b : Nat) (x : Slice) : (s.setSlice h m b x).pending = s.pending := rfl
@[simp] theorem State.setSlice_curT (s : State) (h : HiveId) (m b : Nat) (x : Slice) : (s.setSlice h m b x).curT = s.curT := rfl
@[simp] theorem State.setSlice_curR (s : State) (h : HiveId) (m b : Nat) (x : Slice) : (s.setSlice h m b x).curR = s.curR := rfl
@[simp] theorem State.setSlice_arg (s : State) (h : HiveId) (m b : Nat) (x : Slice) : (s.setSlice h m b x).arg = s.arg := rfl
@[simp] theorem State.setSlice_netOut (s : State) (h : HiveId) (m b : Nat) (x : Slice) : (s.setSlice h m b x).netOut = s.netOut := rfl
@[simp] theorem State.setSlice_ctxs (s : State) (h : HiveId) (m b : Nat) (x : Slice) : (s.setSlice h m b x).ctxs = s.ctxs := rfl
@[simp] theorem State.setSlice_cores (s : State) (h : HiveId) (m b : Nat) (x : Slice) : (s.setSlice h m b x).cores = s.cores := rfl
@[simp] theorem State.setSlice_jobs (s : State) (h : HiveId) (m b : Nat) (x : Slice) : (s.setSlice h m b x).jobs = s.jobs := rfl
@[simp] theorem State.setSlice_stations (s : State) (h : HiveId) (m b : Nat) (x : Slice) : (s.setSlice h m b x).stations = s.stations := rfl
@[simp] theorem State.setSlice_shoots (s : State) (h : HiveId) (m b : Nat) (x : Slice) : (s.setSlice h m b x).shoots = s.shoots := rfl
@[simp] theorem State.setSlice_snoop (s : State) (h : HiveId) (m b : Nat) (x : Slice) : (s.setSlice h m b x).snoop = s.snoop := rfl
@[simp] theorem State.setSlice_nextSerial (s : State) (h : HiveId) (m b : Nat) (x : Slice) : (s.setSlice h m b x).nextSerial = s.nextSerial := rfl
@[simp] theorem State.setSlice_tags (s : State) (h : HiveId) (m b : Nat) (x : Slice) : (s.setSlice h m b x).tags = s.tags := rfl
@[simp] theorem State.setSlice_wreqs (s : State) (h : HiveId) (m b : Nat) (x : Slice) : (s.setSlice h m b x).wreqs = s.wreqs := rfl
@[simp] theorem State.setSlice_wseq (s : State) (h : HiveId) (m b : Nat) (x : Slice) : (s.setSlice h m b x).wseq = s.wseq := rfl
@[simp] theorem State.setSlice_lockSends (s : State) (h : HiveId) (m b : Nat) (x : Slice) : (s.setSlice h m b x).lockSends = s.lockSends := rfl
@[simp] theorem State.setSlice_lockNext (s : State) (h : HiveId) (m b : Nat) (x : Slice) : (s.setSlice h m b x).lockNext = s.lockNext := rfl
@[simp] theorem State.setSlice_stopped (s : State) (h : HiveId) (m b : Nat) (x : Slice) : (s.setSlice h m b x).stopped = s.stopped := rfl
@[simp] theorem State.setSlice_planes (s : State) (h : HiveId) (m b : Nat) (x : Slice) : (s.setSlice h m b x).planes = s.planes := rfl
@[simp] theorem State.setSlice_elems (s : State) (h : HiveId) (m b : Nat) (x : Slice) : (s.setSlice h m b x).elems = s.elems := rfl
@[simp] theorem State.setSlice_tiles (s : State) (h : HiveId) (m b : Nat) (x : Slice) : (s.setSlice h m b x).tiles = s.tiles := rfl
@[simp] theorem State.setSlice_gens (s : State) (h : HiveId) (m b : Nat) (x : Slice) : (s.setSlice h m b x).gens = s.gens := rfl
@[simp] theorem State.setSlice_slices (s : State) (h : HiveId) (m b : Nat) (x : Slice) : (s.setSlice h m b x).slices = tput s.slices (h, m, b) x := rfl
@[simp] theorem State.setSlice_joints (s : State) (h : HiveId) (m b : Nat) (x : Slice) : (s.setSlice h m b x).joints = s.joints := rfl
@[simp] theorem State.setSlice_hauls (s : State) (h : HiveId) (m b : Nat) (x : Slice) : (s.setSlice h m b x).hauls = s.hauls := rfl
@[simp] theorem State.setSlice_horder (s : State) (h : HiveId) (m b : Nat) (x : Slice) : (s.setSlice h m b x).horder = s.horder := rfl
@[simp] theorem State.setSlice_insts (s : State) (h : HiveId) (m b : Nat) (x : Slice) : (s.setSlice h m b x).insts = s.insts := rfl
@[simp] theorem State.setSlice_saves (s : State) (h : HiveId) (m b : Nat) (x : Slice) : (s.setSlice h m b x).saves = s.saves := rfl
@[simp] theorem State.setSlice_twins (s : State) (h : HiveId) (m b : Nat) (x : Slice) : (s.setSlice h m b x).twins = s.twins := rfl
@[simp] theorem State.setSlice_snaps (s : State) (h : HiveId) (m b : Nat) (x : Slice) : (s.setSlice h m b x).snaps = s.snaps := rfl
@[simp] theorem State.setSlice_colls (s : State) (h : HiveId) (m b : Nat) (x : Slice) : (s.setSlice h m b x).colls = s.colls := rfl
@[simp] theorem State.setSlice_groups (s : State) (h : HiveId) (m b : Nat) (x : Slice) : (s.setSlice h m b x).groups = s.groups := rfl
@[simp] theorem State.setSlice_egress (s : State) (h : HiveId) (m b : Nat) (x : Slice) : (s.setSlice h m b x).egress = s.egress := rfl
@[simp] theorem State.setSlice_links (s : State) (h : HiveId) (m b : Nat) (x : Slice) : (s.setSlice h m b x).links = s.links := rfl
@[simp] theorem State.setSlice_flows (s : State) (h : HiveId) (m b : Nat) (x : Slice) : (s.setSlice h m b x).flows = s.flows := rfl
@[simp] theorem State.setSlice_accepts (s : State) (h : HiveId) (m b : Nat) (x : Slice) : (s.setSlice h m b x).accepts = s.accepts := rfl
@[simp] theorem State.setSlice_meshq (s : State) (h : HiveId) (m b : Nat) (x : Slice) : (s.setSlice h m b x).meshq = s.meshq := rfl
@[simp] theorem State.setSlice_frames (s : State) (h : HiveId) (m b : Nat) (x : Slice) : (s.setSlice h m b x).frames = s.frames := rfl
@[simp] theorem State.setSlice_wins (s : State) (h : HiveId) (m b : Nat) (x : Slice) : (s.setSlice h m b x).wins = s.wins := rfl
@[simp] theorem State.setSlice_viols (s : State) (h : HiveId) (m b : Nat) (x : Slice) : (s.setSlice h m b x).viols = s.viols := rfl
@[simp] theorem State.setSlice_winReqs (s : State) (h : HiveId) (m b : Nat) (x : Slice) : (s.setSlice h m b x).winReqs = s.winReqs := rfl
@[simp] theorem State.setSlice_once (s : State) (h : HiveId) (m b : Nat) (x : Slice) : (s.setSlice h m b x).once = s.once := rfl
@[simp] theorem State.setSlice_rslots (s : State) (h : HiveId) (m b : Nat) (x : Slice) : (s.setSlice h m b x).rslots = s.rslots := rfl
@[simp] theorem State.setSlice_policy (s : State) (h : HiveId) (m b : Nat) (x : Slice) : (s.setSlice h m b x).policy = s.policy := rfl
@[simp] theorem State.setSlice_switches (s : State) (h : HiveId) (m b : Nat) (x : Slice) : (s.setSlice h m b x).switches = s.switches := rfl
@[simp] theorem State.setSlice_sessions (s : State) (h : HiveId) (m b : Nat) (x : Slice) : (s.setSlice h m b x).sessions = s.sessions := rfl
@[simp] theorem State.setSlice_spdm (s : State) (h : HiveId) (m b : Nat) (x : Slice) : (s.setSlice h m b x).spdm = s.spdm := rfl
@[simp] theorem State.setSlice_hiveSt (s : State) (h : HiveId) (m b : Nat) (x : Slice) : (s.setSlice h m b x).hiveSt = s.hiveSt := rfl
@[simp] theorem State.setSlice_moves (s : State) (h : HiveId) (m b : Nat) (x : Slice) : (s.setSlice h m b x).moves = s.moves := rfl
@[simp] theorem State.setSlice_scrubs (s : State) (h : HiveId) (m b : Nat) (x : Slice) : (s.setSlice h m b x).scrubs = s.scrubs := rfl
@[simp] theorem State.setSlice_ctl (s : State) (h : HiveId) (m b : Nat) (x : Slice) : (s.setSlice h m b x).ctl = s.ctl := rfl
@[simp] theorem State.setSlice_dcrOut (s : State) (h : HiveId) (m b : Nat) (x : Slice) : (s.setSlice h m b x).dcrOut = s.dcrOut := rfl
@[simp] theorem State.setSlice_ties (s : State) (h : HiveId) (m b : Nat) (x : Slice) : (s.setSlice h m b x).ties = s.ties := rfl
@[simp] theorem State.setSlice_dropped (s : State) (h : HiveId) (m b : Nat) (x : Slice) : (s.setSlice h m b x).dropped = s.dropped := rfl

/-! ## `setHive` -/

@[simp] theorem State.setHive_part (s : State) (h : HiveId) (v : Nat) : (s.setHive h v).part = s.part := rfl
@[simp] theorem State.setHive_node (s : State) (h : HiveId) (v : Nat) : (s.setHive h v).node = s.node := rfl
@[simp] theorem State.setHive_cycle (s : State) (h : HiveId) (v : Nat) : (s.setHive h v).cycle = s.cycle := rfl
@[simp] theorem State.setHive_readyAt (s : State) (h : HiveId) (v : Nat) : (s.setHive h v).readyAt = s.readyAt := rfl
@[simp] theorem State.setHive_mem (s : State) (h : HiveId) (v : Nat) : (s.setHive h v).mem = s.mem := rfl
@[simp] theorem State.setHive_poison (s : State) (h : HiveId) (v : Nat) : (s.setHive h v).poison = s.poison := rfl
@[simp] theorem State.setHive_free (s : State) (h : HiveId) (v : Nat) : (s.setHive h v).free = s.free := rfl
@[simp] theorem State.setHive_plan (s : State) (h : HiveId) (v : Nat) : (s.setHive h v).plan = s.plan := rfl
@[simp] theorem State.setHive_pending (s : State) (h : HiveId) (v : Nat) : (s.setHive h v).pending = s.pending := rfl
@[simp] theorem State.setHive_curT (s : State) (h : HiveId) (v : Nat) : (s.setHive h v).curT = s.curT := rfl
@[simp] theorem State.setHive_curR (s : State) (h : HiveId) (v : Nat) : (s.setHive h v).curR = s.curR := rfl
@[simp] theorem State.setHive_arg (s : State) (h : HiveId) (v : Nat) : (s.setHive h v).arg = s.arg := rfl
@[simp] theorem State.setHive_netOut (s : State) (h : HiveId) (v : Nat) : (s.setHive h v).netOut = s.netOut := rfl
@[simp] theorem State.setHive_ctxs (s : State) (h : HiveId) (v : Nat) : (s.setHive h v).ctxs = s.ctxs := rfl
@[simp] theorem State.setHive_cores (s : State) (h : HiveId) (v : Nat) : (s.setHive h v).cores = s.cores := rfl
@[simp] theorem State.setHive_jobs (s : State) (h : HiveId) (v : Nat) : (s.setHive h v).jobs = s.jobs := rfl
@[simp] theorem State.setHive_stations (s : State) (h : HiveId) (v : Nat) : (s.setHive h v).stations = s.stations := rfl
@[simp] theorem State.setHive_shoots (s : State) (h : HiveId) (v : Nat) : (s.setHive h v).shoots = s.shoots := rfl
@[simp] theorem State.setHive_snoop (s : State) (h : HiveId) (v : Nat) : (s.setHive h v).snoop = s.snoop := rfl
@[simp] theorem State.setHive_nextSerial (s : State) (h : HiveId) (v : Nat) : (s.setHive h v).nextSerial = s.nextSerial := rfl
@[simp] theorem State.setHive_tags (s : State) (h : HiveId) (v : Nat) : (s.setHive h v).tags = s.tags := rfl
@[simp] theorem State.setHive_wreqs (s : State) (h : HiveId) (v : Nat) : (s.setHive h v).wreqs = s.wreqs := rfl
@[simp] theorem State.setHive_wseq (s : State) (h : HiveId) (v : Nat) : (s.setHive h v).wseq = s.wseq := rfl
@[simp] theorem State.setHive_lockSends (s : State) (h : HiveId) (v : Nat) : (s.setHive h v).lockSends = s.lockSends := rfl
@[simp] theorem State.setHive_lockNext (s : State) (h : HiveId) (v : Nat) : (s.setHive h v).lockNext = s.lockNext := rfl
@[simp] theorem State.setHive_stopped (s : State) (h : HiveId) (v : Nat) : (s.setHive h v).stopped = s.stopped := rfl
@[simp] theorem State.setHive_planes (s : State) (h : HiveId) (v : Nat) : (s.setHive h v).planes = s.planes := rfl
@[simp] theorem State.setHive_elems (s : State) (h : HiveId) (v : Nat) : (s.setHive h v).elems = s.elems := rfl
@[simp] theorem State.setHive_tiles (s : State) (h : HiveId) (v : Nat) : (s.setHive h v).tiles = s.tiles := rfl
@[simp] theorem State.setHive_gens (s : State) (h : HiveId) (v : Nat) : (s.setHive h v).gens = s.gens := rfl
@[simp] theorem State.setHive_slices (s : State) (h : HiveId) (v : Nat) : (s.setHive h v).slices = s.slices := rfl
@[simp] theorem State.setHive_joints (s : State) (h : HiveId) (v : Nat) : (s.setHive h v).joints = s.joints := rfl
@[simp] theorem State.setHive_hauls (s : State) (h : HiveId) (v : Nat) : (s.setHive h v).hauls = s.hauls := rfl
@[simp] theorem State.setHive_horder (s : State) (h : HiveId) (v : Nat) : (s.setHive h v).horder = s.horder := rfl
@[simp] theorem State.setHive_insts (s : State) (h : HiveId) (v : Nat) : (s.setHive h v).insts = s.insts := rfl
@[simp] theorem State.setHive_saves (s : State) (h : HiveId) (v : Nat) : (s.setHive h v).saves = s.saves := rfl
@[simp] theorem State.setHive_twins (s : State) (h : HiveId) (v : Nat) : (s.setHive h v).twins = s.twins := rfl
@[simp] theorem State.setHive_snaps (s : State) (h : HiveId) (v : Nat) : (s.setHive h v).snaps = s.snaps := rfl
@[simp] theorem State.setHive_colls (s : State) (h : HiveId) (v : Nat) : (s.setHive h v).colls = s.colls := rfl
@[simp] theorem State.setHive_groups (s : State) (h : HiveId) (v : Nat) : (s.setHive h v).groups = s.groups := rfl
@[simp] theorem State.setHive_egress (s : State) (h : HiveId) (v : Nat) : (s.setHive h v).egress = s.egress := rfl
@[simp] theorem State.setHive_links (s : State) (h : HiveId) (v : Nat) : (s.setHive h v).links = s.links := rfl
@[simp] theorem State.setHive_flows (s : State) (h : HiveId) (v : Nat) : (s.setHive h v).flows = s.flows := rfl
@[simp] theorem State.setHive_accepts (s : State) (h : HiveId) (v : Nat) : (s.setHive h v).accepts = s.accepts := rfl
@[simp] theorem State.setHive_meshq (s : State) (h : HiveId) (v : Nat) : (s.setHive h v).meshq = s.meshq := rfl
@[simp] theorem State.setHive_frames (s : State) (h : HiveId) (v : Nat) : (s.setHive h v).frames = s.frames := rfl
@[simp] theorem State.setHive_wins (s : State) (h : HiveId) (v : Nat) : (s.setHive h v).wins = s.wins := rfl
@[simp] theorem State.setHive_viols (s : State) (h : HiveId) (v : Nat) : (s.setHive h v).viols = s.viols := rfl
@[simp] theorem State.setHive_winReqs (s : State) (h : HiveId) (v : Nat) : (s.setHive h v).winReqs = s.winReqs := rfl
@[simp] theorem State.setHive_once (s : State) (h : HiveId) (v : Nat) : (s.setHive h v).once = s.once := rfl
@[simp] theorem State.setHive_rslots (s : State) (h : HiveId) (v : Nat) : (s.setHive h v).rslots = s.rslots := rfl
@[simp] theorem State.setHive_policy (s : State) (h : HiveId) (v : Nat) : (s.setHive h v).policy = s.policy := rfl
@[simp] theorem State.setHive_switches (s : State) (h : HiveId) (v : Nat) : (s.setHive h v).switches = s.switches := rfl
@[simp] theorem State.setHive_sessions (s : State) (h : HiveId) (v : Nat) : (s.setHive h v).sessions = s.sessions := rfl
@[simp] theorem State.setHive_spdm (s : State) (h : HiveId) (v : Nat) : (s.setHive h v).spdm = s.spdm := rfl
@[simp] theorem State.setHive_hiveSt (s : State) (h : HiveId) (v : Nat) : (s.setHive h v).hiveSt = tput s.hiveSt h v := rfl
@[simp] theorem State.setHive_moves (s : State) (h : HiveId) (v : Nat) : (s.setHive h v).moves = s.moves := rfl
@[simp] theorem State.setHive_scrubs (s : State) (h : HiveId) (v : Nat) : (s.setHive h v).scrubs = s.scrubs := rfl
@[simp] theorem State.setHive_ctl (s : State) (h : HiveId) (v : Nat) : (s.setHive h v).ctl = s.ctl := rfl
@[simp] theorem State.setHive_dcrOut (s : State) (h : HiveId) (v : Nat) : (s.setHive h v).dcrOut = s.dcrOut := rfl
@[simp] theorem State.setHive_ties (s : State) (h : HiveId) (v : Nat) : (s.setHive h v).ties = s.ties := rfl
@[simp] theorem State.setHive_dropped (s : State) (h : HiveId) (v : Nat) : (s.setHive h v).dropped = s.dropped := rfl

/-! ## `setColl` -/

@[simp] theorem State.setColl_part (s : State) (i : InstId) (n : Nat) (x : CollNode) : (s.setColl i n x).part = s.part := rfl
@[simp] theorem State.setColl_node (s : State) (i : InstId) (n : Nat) (x : CollNode) : (s.setColl i n x).node = s.node := rfl
@[simp] theorem State.setColl_cycle (s : State) (i : InstId) (n : Nat) (x : CollNode) : (s.setColl i n x).cycle = s.cycle := rfl
@[simp] theorem State.setColl_readyAt (s : State) (i : InstId) (n : Nat) (x : CollNode) : (s.setColl i n x).readyAt = s.readyAt := rfl
@[simp] theorem State.setColl_mem (s : State) (i : InstId) (n : Nat) (x : CollNode) : (s.setColl i n x).mem = s.mem := rfl
@[simp] theorem State.setColl_poison (s : State) (i : InstId) (n : Nat) (x : CollNode) : (s.setColl i n x).poison = s.poison := rfl
@[simp] theorem State.setColl_free (s : State) (i : InstId) (n : Nat) (x : CollNode) : (s.setColl i n x).free = s.free := rfl
@[simp] theorem State.setColl_plan (s : State) (i : InstId) (n : Nat) (x : CollNode) : (s.setColl i n x).plan = s.plan := rfl
@[simp] theorem State.setColl_pending (s : State) (i : InstId) (n : Nat) (x : CollNode) : (s.setColl i n x).pending = s.pending := rfl
@[simp] theorem State.setColl_curT (s : State) (i : InstId) (n : Nat) (x : CollNode) : (s.setColl i n x).curT = s.curT := rfl
@[simp] theorem State.setColl_curR (s : State) (i : InstId) (n : Nat) (x : CollNode) : (s.setColl i n x).curR = s.curR := rfl
@[simp] theorem State.setColl_arg (s : State) (i : InstId) (n : Nat) (x : CollNode) : (s.setColl i n x).arg = s.arg := rfl
@[simp] theorem State.setColl_netOut (s : State) (i : InstId) (n : Nat) (x : CollNode) : (s.setColl i n x).netOut = s.netOut := rfl
@[simp] theorem State.setColl_ctxs (s : State) (i : InstId) (n : Nat) (x : CollNode) : (s.setColl i n x).ctxs = s.ctxs := rfl
@[simp] theorem State.setColl_cores (s : State) (i : InstId) (n : Nat) (x : CollNode) : (s.setColl i n x).cores = s.cores := rfl
@[simp] theorem State.setColl_jobs (s : State) (i : InstId) (n : Nat) (x : CollNode) : (s.setColl i n x).jobs = s.jobs := rfl
@[simp] theorem State.setColl_stations (s : State) (i : InstId) (n : Nat) (x : CollNode) : (s.setColl i n x).stations = s.stations := rfl
@[simp] theorem State.setColl_shoots (s : State) (i : InstId) (n : Nat) (x : CollNode) : (s.setColl i n x).shoots = s.shoots := rfl
@[simp] theorem State.setColl_snoop (s : State) (i : InstId) (n : Nat) (x : CollNode) : (s.setColl i n x).snoop = s.snoop := rfl
@[simp] theorem State.setColl_nextSerial (s : State) (i : InstId) (n : Nat) (x : CollNode) : (s.setColl i n x).nextSerial = s.nextSerial := rfl
@[simp] theorem State.setColl_tags (s : State) (i : InstId) (n : Nat) (x : CollNode) : (s.setColl i n x).tags = s.tags := rfl
@[simp] theorem State.setColl_wreqs (s : State) (i : InstId) (n : Nat) (x : CollNode) : (s.setColl i n x).wreqs = s.wreqs := rfl
@[simp] theorem State.setColl_wseq (s : State) (i : InstId) (n : Nat) (x : CollNode) : (s.setColl i n x).wseq = s.wseq := rfl
@[simp] theorem State.setColl_lockSends (s : State) (i : InstId) (n : Nat) (x : CollNode) : (s.setColl i n x).lockSends = s.lockSends := rfl
@[simp] theorem State.setColl_lockNext (s : State) (i : InstId) (n : Nat) (x : CollNode) : (s.setColl i n x).lockNext = s.lockNext := rfl
@[simp] theorem State.setColl_stopped (s : State) (i : InstId) (n : Nat) (x : CollNode) : (s.setColl i n x).stopped = s.stopped := rfl
@[simp] theorem State.setColl_planes (s : State) (i : InstId) (n : Nat) (x : CollNode) : (s.setColl i n x).planes = s.planes := rfl
@[simp] theorem State.setColl_elems (s : State) (i : InstId) (n : Nat) (x : CollNode) : (s.setColl i n x).elems = s.elems := rfl
@[simp] theorem State.setColl_tiles (s : State) (i : InstId) (n : Nat) (x : CollNode) : (s.setColl i n x).tiles = s.tiles := rfl
@[simp] theorem State.setColl_gens (s : State) (i : InstId) (n : Nat) (x : CollNode) : (s.setColl i n x).gens = s.gens := rfl
@[simp] theorem State.setColl_slices (s : State) (i : InstId) (n : Nat) (x : CollNode) : (s.setColl i n x).slices = s.slices := rfl
@[simp] theorem State.setColl_joints (s : State) (i : InstId) (n : Nat) (x : CollNode) : (s.setColl i n x).joints = s.joints := rfl
@[simp] theorem State.setColl_hauls (s : State) (i : InstId) (n : Nat) (x : CollNode) : (s.setColl i n x).hauls = s.hauls := rfl
@[simp] theorem State.setColl_horder (s : State) (i : InstId) (n : Nat) (x : CollNode) : (s.setColl i n x).horder = s.horder := rfl
@[simp] theorem State.setColl_insts (s : State) (i : InstId) (n : Nat) (x : CollNode) : (s.setColl i n x).insts = s.insts := rfl
@[simp] theorem State.setColl_saves (s : State) (i : InstId) (n : Nat) (x : CollNode) : (s.setColl i n x).saves = s.saves := rfl
@[simp] theorem State.setColl_twins (s : State) (i : InstId) (n : Nat) (x : CollNode) : (s.setColl i n x).twins = s.twins := rfl
@[simp] theorem State.setColl_snaps (s : State) (i : InstId) (n : Nat) (x : CollNode) : (s.setColl i n x).snaps = s.snaps := rfl
@[simp] theorem State.setColl_colls (s : State) (i : InstId) (n : Nat) (x : CollNode) : (s.setColl i n x).colls = tput s.colls (i, n) { x with last := s.cycle } := rfl
@[simp] theorem State.setColl_groups (s : State) (i : InstId) (n : Nat) (x : CollNode) : (s.setColl i n x).groups = s.groups := rfl
@[simp] theorem State.setColl_egress (s : State) (i : InstId) (n : Nat) (x : CollNode) : (s.setColl i n x).egress = s.egress := rfl
@[simp] theorem State.setColl_links (s : State) (i : InstId) (n : Nat) (x : CollNode) : (s.setColl i n x).links = s.links := rfl
@[simp] theorem State.setColl_flows (s : State) (i : InstId) (n : Nat) (x : CollNode) : (s.setColl i n x).flows = s.flows := rfl
@[simp] theorem State.setColl_accepts (s : State) (i : InstId) (n : Nat) (x : CollNode) : (s.setColl i n x).accepts = s.accepts := rfl
@[simp] theorem State.setColl_meshq (s : State) (i : InstId) (n : Nat) (x : CollNode) : (s.setColl i n x).meshq = s.meshq := rfl
@[simp] theorem State.setColl_frames (s : State) (i : InstId) (n : Nat) (x : CollNode) : (s.setColl i n x).frames = s.frames := rfl
@[simp] theorem State.setColl_wins (s : State) (i : InstId) (n : Nat) (x : CollNode) : (s.setColl i n x).wins = s.wins := rfl
@[simp] theorem State.setColl_viols (s : State) (i : InstId) (n : Nat) (x : CollNode) : (s.setColl i n x).viols = s.viols := rfl
@[simp] theorem State.setColl_winReqs (s : State) (i : InstId) (n : Nat) (x : CollNode) : (s.setColl i n x).winReqs = s.winReqs := rfl
@[simp] theorem State.setColl_once (s : State) (i : InstId) (n : Nat) (x : CollNode) : (s.setColl i n x).once = s.once := rfl
@[simp] theorem State.setColl_rslots (s : State) (i : InstId) (n : Nat) (x : CollNode) : (s.setColl i n x).rslots = s.rslots := rfl
@[simp] theorem State.setColl_policy (s : State) (i : InstId) (n : Nat) (x : CollNode) : (s.setColl i n x).policy = s.policy := rfl
@[simp] theorem State.setColl_switches (s : State) (i : InstId) (n : Nat) (x : CollNode) : (s.setColl i n x).switches = s.switches := rfl
@[simp] theorem State.setColl_sessions (s : State) (i : InstId) (n : Nat) (x : CollNode) : (s.setColl i n x).sessions = s.sessions := rfl
@[simp] theorem State.setColl_spdm (s : State) (i : InstId) (n : Nat) (x : CollNode) : (s.setColl i n x).spdm = s.spdm := rfl
@[simp] theorem State.setColl_hiveSt (s : State) (i : InstId) (n : Nat) (x : CollNode) : (s.setColl i n x).hiveSt = s.hiveSt := rfl
@[simp] theorem State.setColl_moves (s : State) (i : InstId) (n : Nat) (x : CollNode) : (s.setColl i n x).moves = s.moves := rfl
@[simp] theorem State.setColl_scrubs (s : State) (i : InstId) (n : Nat) (x : CollNode) : (s.setColl i n x).scrubs = s.scrubs := rfl
@[simp] theorem State.setColl_ctl (s : State) (i : InstId) (n : Nat) (x : CollNode) : (s.setColl i n x).ctl = s.ctl := rfl
@[simp] theorem State.setColl_dcrOut (s : State) (i : InstId) (n : Nat) (x : CollNode) : (s.setColl i n x).dcrOut = s.dcrOut := rfl
@[simp] theorem State.setColl_ties (s : State) (i : InstId) (n : Nat) (x : CollNode) : (s.setColl i n x).ties = s.ties := rfl
@[simp] theorem State.setColl_dropped (s : State) (i : InstId) (n : Nat) (x : CollNode) : (s.setColl i n x).dropped = s.dropped := rfl

/-! ## `setWin` -/

@[simp] theorem State.setWin_part (s : State) (a b : Nat) (w : Win) : (s.setWin a b w).part = s.part := rfl
@[simp] theorem State.setWin_node (s : State) (a b : Nat) (w : Win) : (s.setWin a b w).node = s.node := rfl
@[simp] theorem State.setWin_cycle (s : State) (a b : Nat) (w : Win) : (s.setWin a b w).cycle = s.cycle := rfl
@[simp] theorem State.setWin_readyAt (s : State) (a b : Nat) (w : Win) : (s.setWin a b w).readyAt = s.readyAt := rfl
@[simp] theorem State.setWin_mem (s : State) (a b : Nat) (w : Win) : (s.setWin a b w).mem = s.mem := rfl
@[simp] theorem State.setWin_poison (s : State) (a b : Nat) (w : Win) : (s.setWin a b w).poison = s.poison := rfl
@[simp] theorem State.setWin_free (s : State) (a b : Nat) (w : Win) : (s.setWin a b w).free = s.free := rfl
@[simp] theorem State.setWin_plan (s : State) (a b : Nat) (w : Win) : (s.setWin a b w).plan = s.plan := rfl
@[simp] theorem State.setWin_pending (s : State) (a b : Nat) (w : Win) : (s.setWin a b w).pending = s.pending := rfl
@[simp] theorem State.setWin_curT (s : State) (a b : Nat) (w : Win) : (s.setWin a b w).curT = s.curT := rfl
@[simp] theorem State.setWin_curR (s : State) (a b : Nat) (w : Win) : (s.setWin a b w).curR = s.curR := rfl
@[simp] theorem State.setWin_arg (s : State) (a b : Nat) (w : Win) : (s.setWin a b w).arg = s.arg := rfl
@[simp] theorem State.setWin_netOut (s : State) (a b : Nat) (w : Win) : (s.setWin a b w).netOut = s.netOut := rfl
@[simp] theorem State.setWin_ctxs (s : State) (a b : Nat) (w : Win) : (s.setWin a b w).ctxs = s.ctxs := rfl
@[simp] theorem State.setWin_cores (s : State) (a b : Nat) (w : Win) : (s.setWin a b w).cores = s.cores := rfl
@[simp] theorem State.setWin_jobs (s : State) (a b : Nat) (w : Win) : (s.setWin a b w).jobs = s.jobs := rfl
@[simp] theorem State.setWin_stations (s : State) (a b : Nat) (w : Win) : (s.setWin a b w).stations = s.stations := rfl
@[simp] theorem State.setWin_shoots (s : State) (a b : Nat) (w : Win) : (s.setWin a b w).shoots = s.shoots := rfl
@[simp] theorem State.setWin_snoop (s : State) (a b : Nat) (w : Win) : (s.setWin a b w).snoop = s.snoop := rfl
@[simp] theorem State.setWin_nextSerial (s : State) (a b : Nat) (w : Win) : (s.setWin a b w).nextSerial = s.nextSerial := rfl
@[simp] theorem State.setWin_tags (s : State) (a b : Nat) (w : Win) : (s.setWin a b w).tags = s.tags := rfl
@[simp] theorem State.setWin_wreqs (s : State) (a b : Nat) (w : Win) : (s.setWin a b w).wreqs = s.wreqs := rfl
@[simp] theorem State.setWin_wseq (s : State) (a b : Nat) (w : Win) : (s.setWin a b w).wseq = s.wseq := rfl
@[simp] theorem State.setWin_lockSends (s : State) (a b : Nat) (w : Win) : (s.setWin a b w).lockSends = s.lockSends := rfl
@[simp] theorem State.setWin_lockNext (s : State) (a b : Nat) (w : Win) : (s.setWin a b w).lockNext = s.lockNext := rfl
@[simp] theorem State.setWin_stopped (s : State) (a b : Nat) (w : Win) : (s.setWin a b w).stopped = s.stopped := rfl
@[simp] theorem State.setWin_planes (s : State) (a b : Nat) (w : Win) : (s.setWin a b w).planes = s.planes := rfl
@[simp] theorem State.setWin_elems (s : State) (a b : Nat) (w : Win) : (s.setWin a b w).elems = s.elems := rfl
@[simp] theorem State.setWin_tiles (s : State) (a b : Nat) (w : Win) : (s.setWin a b w).tiles = s.tiles := rfl
@[simp] theorem State.setWin_gens (s : State) (a b : Nat) (w : Win) : (s.setWin a b w).gens = s.gens := rfl
@[simp] theorem State.setWin_slices (s : State) (a b : Nat) (w : Win) : (s.setWin a b w).slices = s.slices := rfl
@[simp] theorem State.setWin_joints (s : State) (a b : Nat) (w : Win) : (s.setWin a b w).joints = s.joints := rfl
@[simp] theorem State.setWin_hauls (s : State) (a b : Nat) (w : Win) : (s.setWin a b w).hauls = s.hauls := rfl
@[simp] theorem State.setWin_horder (s : State) (a b : Nat) (w : Win) : (s.setWin a b w).horder = s.horder := rfl
@[simp] theorem State.setWin_insts (s : State) (a b : Nat) (w : Win) : (s.setWin a b w).insts = s.insts := rfl
@[simp] theorem State.setWin_saves (s : State) (a b : Nat) (w : Win) : (s.setWin a b w).saves = s.saves := rfl
@[simp] theorem State.setWin_twins (s : State) (a b : Nat) (w : Win) : (s.setWin a b w).twins = s.twins := rfl
@[simp] theorem State.setWin_snaps (s : State) (a b : Nat) (w : Win) : (s.setWin a b w).snaps = s.snaps := rfl
@[simp] theorem State.setWin_colls (s : State) (a b : Nat) (w : Win) : (s.setWin a b w).colls = s.colls := rfl
@[simp] theorem State.setWin_groups (s : State) (a b : Nat) (w : Win) : (s.setWin a b w).groups = s.groups := rfl
@[simp] theorem State.setWin_egress (s : State) (a b : Nat) (w : Win) : (s.setWin a b w).egress = s.egress := rfl
@[simp] theorem State.setWin_links (s : State) (a b : Nat) (w : Win) : (s.setWin a b w).links = s.links := rfl
@[simp] theorem State.setWin_flows (s : State) (a b : Nat) (w : Win) : (s.setWin a b w).flows = s.flows := rfl
@[simp] theorem State.setWin_accepts (s : State) (a b : Nat) (w : Win) : (s.setWin a b w).accepts = s.accepts := rfl
@[simp] theorem State.setWin_meshq (s : State) (a b : Nat) (w : Win) : (s.setWin a b w).meshq = s.meshq := rfl
@[simp] theorem State.setWin_frames (s : State) (a b : Nat) (w : Win) : (s.setWin a b w).frames = s.frames := rfl
@[simp] theorem State.setWin_wins (s : State) (a b : Nat) (w : Win) : (s.setWin a b w).wins = tput s.wins (a, b) w := rfl
@[simp] theorem State.setWin_viols (s : State) (a b : Nat) (w : Win) : (s.setWin a b w).viols = s.viols := rfl
@[simp] theorem State.setWin_winReqs (s : State) (a b : Nat) (w : Win) : (s.setWin a b w).winReqs = s.winReqs := rfl
@[simp] theorem State.setWin_once (s : State) (a b : Nat) (w : Win) : (s.setWin a b w).once = s.once := rfl
@[simp] theorem State.setWin_rslots (s : State) (a b : Nat) (w : Win) : (s.setWin a b w).rslots = s.rslots := rfl
@[simp] theorem State.setWin_policy (s : State) (a b : Nat) (w : Win) : (s.setWin a b w).policy = s.policy := rfl
@[simp] theorem State.setWin_switches (s : State) (a b : Nat) (w : Win) : (s.setWin a b w).switches = s.switches := rfl
@[simp] theorem State.setWin_sessions (s : State) (a b : Nat) (w : Win) : (s.setWin a b w).sessions = s.sessions := rfl
@[simp] theorem State.setWin_spdm (s : State) (a b : Nat) (w : Win) : (s.setWin a b w).spdm = s.spdm := rfl
@[simp] theorem State.setWin_hiveSt (s : State) (a b : Nat) (w : Win) : (s.setWin a b w).hiveSt = s.hiveSt := rfl
@[simp] theorem State.setWin_moves (s : State) (a b : Nat) (w : Win) : (s.setWin a b w).moves = s.moves := rfl
@[simp] theorem State.setWin_scrubs (s : State) (a b : Nat) (w : Win) : (s.setWin a b w).scrubs = s.scrubs := rfl
@[simp] theorem State.setWin_ctl (s : State) (a b : Nat) (w : Win) : (s.setWin a b w).ctl = s.ctl := rfl
@[simp] theorem State.setWin_dcrOut (s : State) (a b : Nat) (w : Win) : (s.setWin a b w).dcrOut = s.dcrOut := rfl
@[simp] theorem State.setWin_ties (s : State) (a b : Nat) (w : Win) : (s.setWin a b w).ties = s.ties := rfl
@[simp] theorem State.setWin_dropped (s : State) (a b : Nat) (w : Win) : (s.setWin a b w).dropped = s.dropped := rfl

/-! ## `setRop` -/

@[simp] theorem State.setRop_part (s : State) (c : CoreId) (n : Nat) (x : RemoteOp) : (s.setRop c n x).part = s.part := rfl
@[simp] theorem State.setRop_node (s : State) (c : CoreId) (n : Nat) (x : RemoteOp) : (s.setRop c n x).node = s.node := rfl
@[simp] theorem State.setRop_cycle (s : State) (c : CoreId) (n : Nat) (x : RemoteOp) : (s.setRop c n x).cycle = s.cycle := rfl
@[simp] theorem State.setRop_readyAt (s : State) (c : CoreId) (n : Nat) (x : RemoteOp) : (s.setRop c n x).readyAt = s.readyAt := rfl
@[simp] theorem State.setRop_mem (s : State) (c : CoreId) (n : Nat) (x : RemoteOp) : (s.setRop c n x).mem = s.mem := rfl
@[simp] theorem State.setRop_poison (s : State) (c : CoreId) (n : Nat) (x : RemoteOp) : (s.setRop c n x).poison = s.poison := rfl
@[simp] theorem State.setRop_free (s : State) (c : CoreId) (n : Nat) (x : RemoteOp) : (s.setRop c n x).free = s.free := rfl
@[simp] theorem State.setRop_plan (s : State) (c : CoreId) (n : Nat) (x : RemoteOp) : (s.setRop c n x).plan = s.plan := rfl
@[simp] theorem State.setRop_pending (s : State) (c : CoreId) (n : Nat) (x : RemoteOp) : (s.setRop c n x).pending = s.pending := rfl
@[simp] theorem State.setRop_curT (s : State) (c : CoreId) (n : Nat) (x : RemoteOp) : (s.setRop c n x).curT = s.curT := rfl
@[simp] theorem State.setRop_curR (s : State) (c : CoreId) (n : Nat) (x : RemoteOp) : (s.setRop c n x).curR = s.curR := rfl
@[simp] theorem State.setRop_arg (s : State) (c : CoreId) (n : Nat) (x : RemoteOp) : (s.setRop c n x).arg = s.arg := rfl
@[simp] theorem State.setRop_netOut (s : State) (c : CoreId) (n : Nat) (x : RemoteOp) : (s.setRop c n x).netOut = s.netOut := rfl
@[simp] theorem State.setRop_ctxs (s : State) (c : CoreId) (n : Nat) (x : RemoteOp) : (s.setRop c n x).ctxs = s.ctxs := rfl
@[simp] theorem State.setRop_cores (s : State) (c : CoreId) (n : Nat) (x : RemoteOp) : (s.setRop c n x).cores = s.cores := rfl
@[simp] theorem State.setRop_jobs (s : State) (c : CoreId) (n : Nat) (x : RemoteOp) : (s.setRop c n x).jobs = s.jobs := rfl
@[simp] theorem State.setRop_stations (s : State) (c : CoreId) (n : Nat) (x : RemoteOp) : (s.setRop c n x).stations = s.stations := rfl
@[simp] theorem State.setRop_shoots (s : State) (c : CoreId) (n : Nat) (x : RemoteOp) : (s.setRop c n x).shoots = s.shoots := rfl
@[simp] theorem State.setRop_snoop (s : State) (c : CoreId) (n : Nat) (x : RemoteOp) : (s.setRop c n x).snoop = s.snoop := rfl
@[simp] theorem State.setRop_nextSerial (s : State) (c : CoreId) (n : Nat) (x : RemoteOp) : (s.setRop c n x).nextSerial = s.nextSerial := rfl
@[simp] theorem State.setRop_tags (s : State) (c : CoreId) (n : Nat) (x : RemoteOp) : (s.setRop c n x).tags = s.tags := rfl
@[simp] theorem State.setRop_wreqs (s : State) (c : CoreId) (n : Nat) (x : RemoteOp) : (s.setRop c n x).wreqs = s.wreqs := rfl
@[simp] theorem State.setRop_wseq (s : State) (c : CoreId) (n : Nat) (x : RemoteOp) : (s.setRop c n x).wseq = s.wseq := rfl
@[simp] theorem State.setRop_lockSends (s : State) (c : CoreId) (n : Nat) (x : RemoteOp) : (s.setRop c n x).lockSends = s.lockSends := rfl
@[simp] theorem State.setRop_lockNext (s : State) (c : CoreId) (n : Nat) (x : RemoteOp) : (s.setRop c n x).lockNext = s.lockNext := rfl
@[simp] theorem State.setRop_stopped (s : State) (c : CoreId) (n : Nat) (x : RemoteOp) : (s.setRop c n x).stopped = s.stopped := rfl
@[simp] theorem State.setRop_planes (s : State) (c : CoreId) (n : Nat) (x : RemoteOp) : (s.setRop c n x).planes = s.planes := rfl
@[simp] theorem State.setRop_elems (s : State) (c : CoreId) (n : Nat) (x : RemoteOp) : (s.setRop c n x).elems = s.elems := rfl
@[simp] theorem State.setRop_tiles (s : State) (c : CoreId) (n : Nat) (x : RemoteOp) : (s.setRop c n x).tiles = s.tiles := rfl
@[simp] theorem State.setRop_gens (s : State) (c : CoreId) (n : Nat) (x : RemoteOp) : (s.setRop c n x).gens = s.gens := rfl
@[simp] theorem State.setRop_slices (s : State) (c : CoreId) (n : Nat) (x : RemoteOp) : (s.setRop c n x).slices = s.slices := rfl
@[simp] theorem State.setRop_joints (s : State) (c : CoreId) (n : Nat) (x : RemoteOp) : (s.setRop c n x).joints = s.joints := rfl
@[simp] theorem State.setRop_hauls (s : State) (c : CoreId) (n : Nat) (x : RemoteOp) : (s.setRop c n x).hauls = s.hauls := rfl
@[simp] theorem State.setRop_horder (s : State) (c : CoreId) (n : Nat) (x : RemoteOp) : (s.setRop c n x).horder = s.horder := rfl
@[simp] theorem State.setRop_insts (s : State) (c : CoreId) (n : Nat) (x : RemoteOp) : (s.setRop c n x).insts = s.insts := rfl
@[simp] theorem State.setRop_saves (s : State) (c : CoreId) (n : Nat) (x : RemoteOp) : (s.setRop c n x).saves = s.saves := rfl
@[simp] theorem State.setRop_twins (s : State) (c : CoreId) (n : Nat) (x : RemoteOp) : (s.setRop c n x).twins = s.twins := rfl
@[simp] theorem State.setRop_snaps (s : State) (c : CoreId) (n : Nat) (x : RemoteOp) : (s.setRop c n x).snaps = s.snaps := rfl
@[simp] theorem State.setRop_colls (s : State) (c : CoreId) (n : Nat) (x : RemoteOp) : (s.setRop c n x).colls = s.colls := rfl
@[simp] theorem State.setRop_groups (s : State) (c : CoreId) (n : Nat) (x : RemoteOp) : (s.setRop c n x).groups = s.groups := rfl
@[simp] theorem State.setRop_egress (s : State) (c : CoreId) (n : Nat) (x : RemoteOp) : (s.setRop c n x).egress = s.egress := rfl
@[simp] theorem State.setRop_links (s : State) (c : CoreId) (n : Nat) (x : RemoteOp) : (s.setRop c n x).links = s.links := rfl
@[simp] theorem State.setRop_flows (s : State) (c : CoreId) (n : Nat) (x : RemoteOp) : (s.setRop c n x).flows = s.flows := rfl
@[simp] theorem State.setRop_accepts (s : State) (c : CoreId) (n : Nat) (x : RemoteOp) : (s.setRop c n x).accepts = s.accepts := rfl
@[simp] theorem State.setRop_meshq (s : State) (c : CoreId) (n : Nat) (x : RemoteOp) : (s.setRop c n x).meshq = s.meshq := rfl
@[simp] theorem State.setRop_frames (s : State) (c : CoreId) (n : Nat) (x : RemoteOp) : (s.setRop c n x).frames = s.frames := rfl
@[simp] theorem State.setRop_wins (s : State) (c : CoreId) (n : Nat) (x : RemoteOp) : (s.setRop c n x).wins = s.wins := rfl
@[simp] theorem State.setRop_viols (s : State) (c : CoreId) (n : Nat) (x : RemoteOp) : (s.setRop c n x).viols = s.viols := rfl
@[simp] theorem State.setRop_winReqs (s : State) (c : CoreId) (n : Nat) (x : RemoteOp) : (s.setRop c n x).winReqs = s.winReqs := rfl
@[simp] theorem State.setRop_once (s : State) (c : CoreId) (n : Nat) (x : RemoteOp) : (s.setRop c n x).once = s.once := rfl
@[simp] theorem State.setRop_rslots (s : State) (c : CoreId) (n : Nat) (x : RemoteOp) : (s.setRop c n x).rslots = tput s.rslots (c, n) x := rfl
@[simp] theorem State.setRop_policy (s : State) (c : CoreId) (n : Nat) (x : RemoteOp) : (s.setRop c n x).policy = s.policy := rfl
@[simp] theorem State.setRop_switches (s : State) (c : CoreId) (n : Nat) (x : RemoteOp) : (s.setRop c n x).switches = s.switches := rfl
@[simp] theorem State.setRop_sessions (s : State) (c : CoreId) (n : Nat) (x : RemoteOp) : (s.setRop c n x).sessions = s.sessions := rfl
@[simp] theorem State.setRop_spdm (s : State) (c : CoreId) (n : Nat) (x : RemoteOp) : (s.setRop c n x).spdm = s.spdm := rfl
@[simp] theorem State.setRop_hiveSt (s : State) (c : CoreId) (n : Nat) (x : RemoteOp) : (s.setRop c n x).hiveSt = s.hiveSt := rfl
@[simp] theorem State.setRop_moves (s : State) (c : CoreId) (n : Nat) (x : RemoteOp) : (s.setRop c n x).moves = s.moves := rfl
@[simp] theorem State.setRop_scrubs (s : State) (c : CoreId) (n : Nat) (x : RemoteOp) : (s.setRop c n x).scrubs = s.scrubs := rfl
@[simp] theorem State.setRop_ctl (s : State) (c : CoreId) (n : Nat) (x : RemoteOp) : (s.setRop c n x).ctl = s.ctl := rfl
@[simp] theorem State.setRop_dcrOut (s : State) (c : CoreId) (n : Nat) (x : RemoteOp) : (s.setRop c n x).dcrOut = s.dcrOut := rfl
@[simp] theorem State.setRop_ties (s : State) (c : CoreId) (n : Nat) (x : RemoteOp) : (s.setRop c n x).ties = s.ties := rfl
@[simp] theorem State.setRop_dropped (s : State) (c : CoreId) (n : Nat) (x : RemoteOp) : (s.setRop c n x).dropped = s.dropped := rfl

/-! ## `setSwitch` -/

@[simp] theorem State.setSwitch_part (s : State) (n : Nat) (x : Switch) : (s.setSwitch n x).part = s.part := rfl
@[simp] theorem State.setSwitch_node (s : State) (n : Nat) (x : Switch) : (s.setSwitch n x).node = s.node := rfl
@[simp] theorem State.setSwitch_cycle (s : State) (n : Nat) (x : Switch) : (s.setSwitch n x).cycle = s.cycle := rfl
@[simp] theorem State.setSwitch_readyAt (s : State) (n : Nat) (x : Switch) : (s.setSwitch n x).readyAt = s.readyAt := rfl
@[simp] theorem State.setSwitch_mem (s : State) (n : Nat) (x : Switch) : (s.setSwitch n x).mem = s.mem := rfl
@[simp] theorem State.setSwitch_poison (s : State) (n : Nat) (x : Switch) : (s.setSwitch n x).poison = s.poison := rfl
@[simp] theorem State.setSwitch_free (s : State) (n : Nat) (x : Switch) : (s.setSwitch n x).free = s.free := rfl
@[simp] theorem State.setSwitch_plan (s : State) (n : Nat) (x : Switch) : (s.setSwitch n x).plan = s.plan := rfl
@[simp] theorem State.setSwitch_pending (s : State) (n : Nat) (x : Switch) : (s.setSwitch n x).pending = s.pending := rfl
@[simp] theorem State.setSwitch_curT (s : State) (n : Nat) (x : Switch) : (s.setSwitch n x).curT = s.curT := rfl
@[simp] theorem State.setSwitch_curR (s : State) (n : Nat) (x : Switch) : (s.setSwitch n x).curR = s.curR := rfl
@[simp] theorem State.setSwitch_arg (s : State) (n : Nat) (x : Switch) : (s.setSwitch n x).arg = s.arg := rfl
@[simp] theorem State.setSwitch_netOut (s : State) (n : Nat) (x : Switch) : (s.setSwitch n x).netOut = s.netOut := rfl
@[simp] theorem State.setSwitch_ctxs (s : State) (n : Nat) (x : Switch) : (s.setSwitch n x).ctxs = s.ctxs := rfl
@[simp] theorem State.setSwitch_cores (s : State) (n : Nat) (x : Switch) : (s.setSwitch n x).cores = s.cores := rfl
@[simp] theorem State.setSwitch_jobs (s : State) (n : Nat) (x : Switch) : (s.setSwitch n x).jobs = s.jobs := rfl
@[simp] theorem State.setSwitch_stations (s : State) (n : Nat) (x : Switch) : (s.setSwitch n x).stations = s.stations := rfl
@[simp] theorem State.setSwitch_shoots (s : State) (n : Nat) (x : Switch) : (s.setSwitch n x).shoots = s.shoots := rfl
@[simp] theorem State.setSwitch_snoop (s : State) (n : Nat) (x : Switch) : (s.setSwitch n x).snoop = s.snoop := rfl
@[simp] theorem State.setSwitch_nextSerial (s : State) (n : Nat) (x : Switch) : (s.setSwitch n x).nextSerial = s.nextSerial := rfl
@[simp] theorem State.setSwitch_tags (s : State) (n : Nat) (x : Switch) : (s.setSwitch n x).tags = s.tags := rfl
@[simp] theorem State.setSwitch_wreqs (s : State) (n : Nat) (x : Switch) : (s.setSwitch n x).wreqs = s.wreqs := rfl
@[simp] theorem State.setSwitch_wseq (s : State) (n : Nat) (x : Switch) : (s.setSwitch n x).wseq = s.wseq := rfl
@[simp] theorem State.setSwitch_lockSends (s : State) (n : Nat) (x : Switch) : (s.setSwitch n x).lockSends = s.lockSends := rfl
@[simp] theorem State.setSwitch_lockNext (s : State) (n : Nat) (x : Switch) : (s.setSwitch n x).lockNext = s.lockNext := rfl
@[simp] theorem State.setSwitch_stopped (s : State) (n : Nat) (x : Switch) : (s.setSwitch n x).stopped = s.stopped := rfl
@[simp] theorem State.setSwitch_planes (s : State) (n : Nat) (x : Switch) : (s.setSwitch n x).planes = s.planes := rfl
@[simp] theorem State.setSwitch_elems (s : State) (n : Nat) (x : Switch) : (s.setSwitch n x).elems = s.elems := rfl
@[simp] theorem State.setSwitch_tiles (s : State) (n : Nat) (x : Switch) : (s.setSwitch n x).tiles = s.tiles := rfl
@[simp] theorem State.setSwitch_gens (s : State) (n : Nat) (x : Switch) : (s.setSwitch n x).gens = s.gens := rfl
@[simp] theorem State.setSwitch_slices (s : State) (n : Nat) (x : Switch) : (s.setSwitch n x).slices = s.slices := rfl
@[simp] theorem State.setSwitch_joints (s : State) (n : Nat) (x : Switch) : (s.setSwitch n x).joints = s.joints := rfl
@[simp] theorem State.setSwitch_hauls (s : State) (n : Nat) (x : Switch) : (s.setSwitch n x).hauls = s.hauls := rfl
@[simp] theorem State.setSwitch_horder (s : State) (n : Nat) (x : Switch) : (s.setSwitch n x).horder = s.horder := rfl
@[simp] theorem State.setSwitch_insts (s : State) (n : Nat) (x : Switch) : (s.setSwitch n x).insts = s.insts := rfl
@[simp] theorem State.setSwitch_saves (s : State) (n : Nat) (x : Switch) : (s.setSwitch n x).saves = s.saves := rfl
@[simp] theorem State.setSwitch_twins (s : State) (n : Nat) (x : Switch) : (s.setSwitch n x).twins = s.twins := rfl
@[simp] theorem State.setSwitch_snaps (s : State) (n : Nat) (x : Switch) : (s.setSwitch n x).snaps = s.snaps := rfl
@[simp] theorem State.setSwitch_colls (s : State) (n : Nat) (x : Switch) : (s.setSwitch n x).colls = s.colls := rfl
@[simp] theorem State.setSwitch_groups (s : State) (n : Nat) (x : Switch) : (s.setSwitch n x).groups = s.groups := rfl
@[simp] theorem State.setSwitch_egress (s : State) (n : Nat) (x : Switch) : (s.setSwitch n x).egress = s.egress := rfl
@[simp] theorem State.setSwitch_links (s : State) (n : Nat) (x : Switch) : (s.setSwitch n x).links = s.links := rfl
@[simp] theorem State.setSwitch_flows (s : State) (n : Nat) (x : Switch) : (s.setSwitch n x).flows = s.flows := rfl
@[simp] theorem State.setSwitch_accepts (s : State) (n : Nat) (x : Switch) : (s.setSwitch n x).accepts = s.accepts := rfl
@[simp] theorem State.setSwitch_meshq (s : State) (n : Nat) (x : Switch) : (s.setSwitch n x).meshq = s.meshq := rfl
@[simp] theorem State.setSwitch_frames (s : State) (n : Nat) (x : Switch) : (s.setSwitch n x).frames = s.frames := rfl
@[simp] theorem State.setSwitch_wins (s : State) (n : Nat) (x : Switch) : (s.setSwitch n x).wins = s.wins := rfl
@[simp] theorem State.setSwitch_viols (s : State) (n : Nat) (x : Switch) : (s.setSwitch n x).viols = s.viols := rfl
@[simp] theorem State.setSwitch_winReqs (s : State) (n : Nat) (x : Switch) : (s.setSwitch n x).winReqs = s.winReqs := rfl
@[simp] theorem State.setSwitch_once (s : State) (n : Nat) (x : Switch) : (s.setSwitch n x).once = s.once := rfl
@[simp] theorem State.setSwitch_rslots (s : State) (n : Nat) (x : Switch) : (s.setSwitch n x).rslots = s.rslots := rfl
@[simp] theorem State.setSwitch_policy (s : State) (n : Nat) (x : Switch) : (s.setSwitch n x).policy = s.policy := rfl
@[simp] theorem State.setSwitch_switches (s : State) (n : Nat) (x : Switch) : (s.setSwitch n x).switches = tput s.switches n x := rfl
@[simp] theorem State.setSwitch_sessions (s : State) (n : Nat) (x : Switch) : (s.setSwitch n x).sessions = s.sessions := rfl
@[simp] theorem State.setSwitch_spdm (s : State) (n : Nat) (x : Switch) : (s.setSwitch n x).spdm = s.spdm := rfl
@[simp] theorem State.setSwitch_hiveSt (s : State) (n : Nat) (x : Switch) : (s.setSwitch n x).hiveSt = s.hiveSt := rfl
@[simp] theorem State.setSwitch_moves (s : State) (n : Nat) (x : Switch) : (s.setSwitch n x).moves = s.moves := rfl
@[simp] theorem State.setSwitch_scrubs (s : State) (n : Nat) (x : Switch) : (s.setSwitch n x).scrubs = s.scrubs := rfl
@[simp] theorem State.setSwitch_ctl (s : State) (n : Nat) (x : Switch) : (s.setSwitch n x).ctl = s.ctl := rfl
@[simp] theorem State.setSwitch_dcrOut (s : State) (n : Nat) (x : Switch) : (s.setSwitch n x).dcrOut = s.dcrOut := rfl
@[simp] theorem State.setSwitch_ties (s : State) (n : Nat) (x : Switch) : (s.setSwitch n x).ties = s.ties := rfl
@[simp] theorem State.setSwitch_dropped (s : State) (n : Nat) (x : Switch) : (s.setSwitch n x).dropped = s.dropped := rfl

/-! ## `setStation` -/

@[simp] theorem State.setStation_part (s : State) (n : Nat) (x : Station) : (s.setStation n x).part = s.part := rfl
@[simp] theorem State.setStation_node (s : State) (n : Nat) (x : Station) : (s.setStation n x).node = s.node := rfl
@[simp] theorem State.setStation_cycle (s : State) (n : Nat) (x : Station) : (s.setStation n x).cycle = s.cycle := rfl
@[simp] theorem State.setStation_readyAt (s : State) (n : Nat) (x : Station) : (s.setStation n x).readyAt = s.readyAt := rfl
@[simp] theorem State.setStation_mem (s : State) (n : Nat) (x : Station) : (s.setStation n x).mem = s.mem := rfl
@[simp] theorem State.setStation_poison (s : State) (n : Nat) (x : Station) : (s.setStation n x).poison = s.poison := rfl
@[simp] theorem State.setStation_free (s : State) (n : Nat) (x : Station) : (s.setStation n x).free = s.free := rfl
@[simp] theorem State.setStation_plan (s : State) (n : Nat) (x : Station) : (s.setStation n x).plan = s.plan := rfl
@[simp] theorem State.setStation_pending (s : State) (n : Nat) (x : Station) : (s.setStation n x).pending = s.pending := rfl
@[simp] theorem State.setStation_curT (s : State) (n : Nat) (x : Station) : (s.setStation n x).curT = s.curT := rfl
@[simp] theorem State.setStation_curR (s : State) (n : Nat) (x : Station) : (s.setStation n x).curR = s.curR := rfl
@[simp] theorem State.setStation_arg (s : State) (n : Nat) (x : Station) : (s.setStation n x).arg = s.arg := rfl
@[simp] theorem State.setStation_netOut (s : State) (n : Nat) (x : Station) : (s.setStation n x).netOut = s.netOut := rfl
@[simp] theorem State.setStation_ctxs (s : State) (n : Nat) (x : Station) : (s.setStation n x).ctxs = s.ctxs := rfl
@[simp] theorem State.setStation_cores (s : State) (n : Nat) (x : Station) : (s.setStation n x).cores = s.cores := rfl
@[simp] theorem State.setStation_jobs (s : State) (n : Nat) (x : Station) : (s.setStation n x).jobs = s.jobs := rfl
@[simp] theorem State.setStation_stations (s : State) (n : Nat) (x : Station) : (s.setStation n x).stations = tput s.stations n x := rfl
@[simp] theorem State.setStation_shoots (s : State) (n : Nat) (x : Station) : (s.setStation n x).shoots = s.shoots := rfl
@[simp] theorem State.setStation_snoop (s : State) (n : Nat) (x : Station) : (s.setStation n x).snoop = s.snoop := rfl
@[simp] theorem State.setStation_nextSerial (s : State) (n : Nat) (x : Station) : (s.setStation n x).nextSerial = s.nextSerial := rfl
@[simp] theorem State.setStation_tags (s : State) (n : Nat) (x : Station) : (s.setStation n x).tags = s.tags := rfl
@[simp] theorem State.setStation_wreqs (s : State) (n : Nat) (x : Station) : (s.setStation n x).wreqs = s.wreqs := rfl
@[simp] theorem State.setStation_wseq (s : State) (n : Nat) (x : Station) : (s.setStation n x).wseq = s.wseq := rfl
@[simp] theorem State.setStation_lockSends (s : State) (n : Nat) (x : Station) : (s.setStation n x).lockSends = s.lockSends := rfl
@[simp] theorem State.setStation_lockNext (s : State) (n : Nat) (x : Station) : (s.setStation n x).lockNext = s.lockNext := rfl
@[simp] theorem State.setStation_stopped (s : State) (n : Nat) (x : Station) : (s.setStation n x).stopped = s.stopped := rfl
@[simp] theorem State.setStation_planes (s : State) (n : Nat) (x : Station) : (s.setStation n x).planes = s.planes := rfl
@[simp] theorem State.setStation_elems (s : State) (n : Nat) (x : Station) : (s.setStation n x).elems = s.elems := rfl
@[simp] theorem State.setStation_tiles (s : State) (n : Nat) (x : Station) : (s.setStation n x).tiles = s.tiles := rfl
@[simp] theorem State.setStation_gens (s : State) (n : Nat) (x : Station) : (s.setStation n x).gens = s.gens := rfl
@[simp] theorem State.setStation_slices (s : State) (n : Nat) (x : Station) : (s.setStation n x).slices = s.slices := rfl
@[simp] theorem State.setStation_joints (s : State) (n : Nat) (x : Station) : (s.setStation n x).joints = s.joints := rfl
@[simp] theorem State.setStation_hauls (s : State) (n : Nat) (x : Station) : (s.setStation n x).hauls = s.hauls := rfl
@[simp] theorem State.setStation_horder (s : State) (n : Nat) (x : Station) : (s.setStation n x).horder = s.horder := rfl
@[simp] theorem State.setStation_insts (s : State) (n : Nat) (x : Station) : (s.setStation n x).insts = s.insts := rfl
@[simp] theorem State.setStation_saves (s : State) (n : Nat) (x : Station) : (s.setStation n x).saves = s.saves := rfl
@[simp] theorem State.setStation_twins (s : State) (n : Nat) (x : Station) : (s.setStation n x).twins = s.twins := rfl
@[simp] theorem State.setStation_snaps (s : State) (n : Nat) (x : Station) : (s.setStation n x).snaps = s.snaps := rfl
@[simp] theorem State.setStation_colls (s : State) (n : Nat) (x : Station) : (s.setStation n x).colls = s.colls := rfl
@[simp] theorem State.setStation_groups (s : State) (n : Nat) (x : Station) : (s.setStation n x).groups = s.groups := rfl
@[simp] theorem State.setStation_egress (s : State) (n : Nat) (x : Station) : (s.setStation n x).egress = s.egress := rfl
@[simp] theorem State.setStation_links (s : State) (n : Nat) (x : Station) : (s.setStation n x).links = s.links := rfl
@[simp] theorem State.setStation_flows (s : State) (n : Nat) (x : Station) : (s.setStation n x).flows = s.flows := rfl
@[simp] theorem State.setStation_accepts (s : State) (n : Nat) (x : Station) : (s.setStation n x).accepts = s.accepts := rfl
@[simp] theorem State.setStation_meshq (s : State) (n : Nat) (x : Station) : (s.setStation n x).meshq = s.meshq := rfl
@[simp] theorem State.setStation_frames (s : State) (n : Nat) (x : Station) : (s.setStation n x).frames = s.frames := rfl
@[simp] theorem State.setStation_wins (s : State) (n : Nat) (x : Station) : (s.setStation n x).wins = s.wins := rfl
@[simp] theorem State.setStation_viols (s : State) (n : Nat) (x : Station) : (s.setStation n x).viols = s.viols := rfl
@[simp] theorem State.setStation_winReqs (s : State) (n : Nat) (x : Station) : (s.setStation n x).winReqs = s.winReqs := rfl
@[simp] theorem State.setStation_once (s : State) (n : Nat) (x : Station) : (s.setStation n x).once = s.once := rfl
@[simp] theorem State.setStation_rslots (s : State) (n : Nat) (x : Station) : (s.setStation n x).rslots = s.rslots := rfl
@[simp] theorem State.setStation_policy (s : State) (n : Nat) (x : Station) : (s.setStation n x).policy = s.policy := rfl
@[simp] theorem State.setStation_switches (s : State) (n : Nat) (x : Station) : (s.setStation n x).switches = s.switches := rfl
@[simp] theorem State.setStation_sessions (s : State) (n : Nat) (x : Station) : (s.setStation n x).sessions = s.sessions := rfl
@[simp] theorem State.setStation_spdm (s : State) (n : Nat) (x : Station) : (s.setStation n x).spdm = s.spdm := rfl
@[simp] theorem State.setStation_hiveSt (s : State) (n : Nat) (x : Station) : (s.setStation n x).hiveSt = s.hiveSt := rfl
@[simp] theorem State.setStation_moves (s : State) (n : Nat) (x : Station) : (s.setStation n x).moves = s.moves := rfl
@[simp] theorem State.setStation_scrubs (s : State) (n : Nat) (x : Station) : (s.setStation n x).scrubs = s.scrubs := rfl
@[simp] theorem State.setStation_ctl (s : State) (n : Nat) (x : Station) : (s.setStation n x).ctl = s.ctl := rfl
@[simp] theorem State.setStation_dcrOut (s : State) (n : Nat) (x : Station) : (s.setStation n x).dcrOut = s.dcrOut := rfl
@[simp] theorem State.setStation_ties (s : State) (n : Nat) (x : Station) : (s.setStation n x).ties = s.ties := rfl
@[simp] theorem State.setStation_dropped (s : State) (n : Nat) (x : Station) : (s.setStation n x).dropped = s.dropped := rfl

/-! ## `onCtl` -/

@[simp] theorem State.onCtl_part (s : State) (f : Ctl → Ctl) : (s.onCtl f).part = s.part := rfl
@[simp] theorem State.onCtl_node (s : State) (f : Ctl → Ctl) : (s.onCtl f).node = s.node := rfl
@[simp] theorem State.onCtl_cycle (s : State) (f : Ctl → Ctl) : (s.onCtl f).cycle = s.cycle := rfl
@[simp] theorem State.onCtl_readyAt (s : State) (f : Ctl → Ctl) : (s.onCtl f).readyAt = s.readyAt := rfl
@[simp] theorem State.onCtl_mem (s : State) (f : Ctl → Ctl) : (s.onCtl f).mem = s.mem := rfl
@[simp] theorem State.onCtl_poison (s : State) (f : Ctl → Ctl) : (s.onCtl f).poison = s.poison := rfl
@[simp] theorem State.onCtl_free (s : State) (f : Ctl → Ctl) : (s.onCtl f).free = s.free := rfl
@[simp] theorem State.onCtl_plan (s : State) (f : Ctl → Ctl) : (s.onCtl f).plan = s.plan := rfl
@[simp] theorem State.onCtl_pending (s : State) (f : Ctl → Ctl) : (s.onCtl f).pending = s.pending := rfl
@[simp] theorem State.onCtl_curT (s : State) (f : Ctl → Ctl) : (s.onCtl f).curT = s.curT := rfl
@[simp] theorem State.onCtl_curR (s : State) (f : Ctl → Ctl) : (s.onCtl f).curR = s.curR := rfl
@[simp] theorem State.onCtl_arg (s : State) (f : Ctl → Ctl) : (s.onCtl f).arg = s.arg := rfl
@[simp] theorem State.onCtl_netOut (s : State) (f : Ctl → Ctl) : (s.onCtl f).netOut = s.netOut := rfl
@[simp] theorem State.onCtl_ctxs (s : State) (f : Ctl → Ctl) : (s.onCtl f).ctxs = s.ctxs := rfl
@[simp] theorem State.onCtl_cores (s : State) (f : Ctl → Ctl) : (s.onCtl f).cores = s.cores := rfl
@[simp] theorem State.onCtl_jobs (s : State) (f : Ctl → Ctl) : (s.onCtl f).jobs = s.jobs := rfl
@[simp] theorem State.onCtl_stations (s : State) (f : Ctl → Ctl) : (s.onCtl f).stations = s.stations := rfl
@[simp] theorem State.onCtl_shoots (s : State) (f : Ctl → Ctl) : (s.onCtl f).shoots = s.shoots := rfl
@[simp] theorem State.onCtl_snoop (s : State) (f : Ctl → Ctl) : (s.onCtl f).snoop = s.snoop := rfl
@[simp] theorem State.onCtl_nextSerial (s : State) (f : Ctl → Ctl) : (s.onCtl f).nextSerial = s.nextSerial := rfl
@[simp] theorem State.onCtl_tags (s : State) (f : Ctl → Ctl) : (s.onCtl f).tags = s.tags := rfl
@[simp] theorem State.onCtl_wreqs (s : State) (f : Ctl → Ctl) : (s.onCtl f).wreqs = s.wreqs := rfl
@[simp] theorem State.onCtl_wseq (s : State) (f : Ctl → Ctl) : (s.onCtl f).wseq = s.wseq := rfl
@[simp] theorem State.onCtl_lockSends (s : State) (f : Ctl → Ctl) : (s.onCtl f).lockSends = s.lockSends := rfl
@[simp] theorem State.onCtl_lockNext (s : State) (f : Ctl → Ctl) : (s.onCtl f).lockNext = s.lockNext := rfl
@[simp] theorem State.onCtl_stopped (s : State) (f : Ctl → Ctl) : (s.onCtl f).stopped = s.stopped := rfl
@[simp] theorem State.onCtl_planes (s : State) (f : Ctl → Ctl) : (s.onCtl f).planes = s.planes := rfl
@[simp] theorem State.onCtl_elems (s : State) (f : Ctl → Ctl) : (s.onCtl f).elems = s.elems := rfl
@[simp] theorem State.onCtl_tiles (s : State) (f : Ctl → Ctl) : (s.onCtl f).tiles = s.tiles := rfl
@[simp] theorem State.onCtl_gens (s : State) (f : Ctl → Ctl) : (s.onCtl f).gens = s.gens := rfl
@[simp] theorem State.onCtl_slices (s : State) (f : Ctl → Ctl) : (s.onCtl f).slices = s.slices := rfl
@[simp] theorem State.onCtl_joints (s : State) (f : Ctl → Ctl) : (s.onCtl f).joints = s.joints := rfl
@[simp] theorem State.onCtl_hauls (s : State) (f : Ctl → Ctl) : (s.onCtl f).hauls = s.hauls := rfl
@[simp] theorem State.onCtl_horder (s : State) (f : Ctl → Ctl) : (s.onCtl f).horder = s.horder := rfl
@[simp] theorem State.onCtl_insts (s : State) (f : Ctl → Ctl) : (s.onCtl f).insts = s.insts := rfl
@[simp] theorem State.onCtl_saves (s : State) (f : Ctl → Ctl) : (s.onCtl f).saves = s.saves := rfl
@[simp] theorem State.onCtl_twins (s : State) (f : Ctl → Ctl) : (s.onCtl f).twins = s.twins := rfl
@[simp] theorem State.onCtl_snaps (s : State) (f : Ctl → Ctl) : (s.onCtl f).snaps = s.snaps := rfl
@[simp] theorem State.onCtl_colls (s : State) (f : Ctl → Ctl) : (s.onCtl f).colls = s.colls := rfl
@[simp] theorem State.onCtl_groups (s : State) (f : Ctl → Ctl) : (s.onCtl f).groups = s.groups := rfl
@[simp] theorem State.onCtl_egress (s : State) (f : Ctl → Ctl) : (s.onCtl f).egress = s.egress := rfl
@[simp] theorem State.onCtl_links (s : State) (f : Ctl → Ctl) : (s.onCtl f).links = s.links := rfl
@[simp] theorem State.onCtl_flows (s : State) (f : Ctl → Ctl) : (s.onCtl f).flows = s.flows := rfl
@[simp] theorem State.onCtl_accepts (s : State) (f : Ctl → Ctl) : (s.onCtl f).accepts = s.accepts := rfl
@[simp] theorem State.onCtl_meshq (s : State) (f : Ctl → Ctl) : (s.onCtl f).meshq = s.meshq := rfl
@[simp] theorem State.onCtl_frames (s : State) (f : Ctl → Ctl) : (s.onCtl f).frames = s.frames := rfl
@[simp] theorem State.onCtl_wins (s : State) (f : Ctl → Ctl) : (s.onCtl f).wins = s.wins := rfl
@[simp] theorem State.onCtl_viols (s : State) (f : Ctl → Ctl) : (s.onCtl f).viols = s.viols := rfl
@[simp] theorem State.onCtl_winReqs (s : State) (f : Ctl → Ctl) : (s.onCtl f).winReqs = s.winReqs := rfl
@[simp] theorem State.onCtl_once (s : State) (f : Ctl → Ctl) : (s.onCtl f).once = s.once := rfl
@[simp] theorem State.onCtl_rslots (s : State) (f : Ctl → Ctl) : (s.onCtl f).rslots = s.rslots := rfl
@[simp] theorem State.onCtl_policy (s : State) (f : Ctl → Ctl) : (s.onCtl f).policy = s.policy := rfl
@[simp] theorem State.onCtl_switches (s : State) (f : Ctl → Ctl) : (s.onCtl f).switches = s.switches := rfl
@[simp] theorem State.onCtl_sessions (s : State) (f : Ctl → Ctl) : (s.onCtl f).sessions = s.sessions := rfl
@[simp] theorem State.onCtl_spdm (s : State) (f : Ctl → Ctl) : (s.onCtl f).spdm = s.spdm := rfl
@[simp] theorem State.onCtl_hiveSt (s : State) (f : Ctl → Ctl) : (s.onCtl f).hiveSt = s.hiveSt := rfl
@[simp] theorem State.onCtl_moves (s : State) (f : Ctl → Ctl) : (s.onCtl f).moves = s.moves := rfl
@[simp] theorem State.onCtl_scrubs (s : State) (f : Ctl → Ctl) : (s.onCtl f).scrubs = s.scrubs := rfl
@[simp] theorem State.onCtl_ctl (s : State) (f : Ctl → Ctl) : (s.onCtl f).ctl = f s.ctl := rfl
@[simp] theorem State.onCtl_dcrOut (s : State) (f : Ctl → Ctl) : (s.onCtl f).dcrOut = s.dcrOut := rfl
@[simp] theorem State.onCtl_ties (s : State) (f : Ctl → Ctl) : (s.onCtl f).ties = s.ties := rfl
@[simp] theorem State.onCtl_dropped (s : State) (f : Ctl → Ctl) : (s.onCtl f).dropped = s.dropped := rfl

end Sys2Proof.Machine
end

