-- ==== Sys2Proof/Laws/Tables.lean ====
section
/-! SUPPORT. What the tables give back: a key just set, another key, a key taken out; and the same for threads, cores,
jobs and the other tables of the state. -/

namespace Sys2Proof.Machine

open Sys2Proof

variable {κ ν : Type} [DecidableEq κ]

@[simp] theorem tget_tput_same (t : Tbl κ ν) (d v : ν) (k : κ) : tget (tput t k v) d k = v := by
  induction t with
  | nil => simp [tput, tget]
  | cons e r ih =>
    obtain ⟨a, b⟩ := e
    by_cases h : a = k
    · simp [tput, tget, h]
    · simp [tput, tget, h, ih]

theorem tget_tput_other (t : Tbl κ ν) (d v : ν) {k k' : κ} (h : k' ≠ k) : tget (tput t k v) d k' = tget t d k' := by
  induction t with
  | nil => simp [tput, tget, Ne.symm h]
  | cons e r ih =>
    obtain ⟨a, b⟩ := e
    by_cases ha : a = k
    · subst ha
      simp [tput, tget, Ne.symm h]
    · simp only [tput, ha, if_false, tget, ih]

@[simp] theorem tfind_nil (k : κ) : tfind ([] : Tbl κ ν) k = none := rfl

theorem tfind_cons (a : κ) (b : ν) (r : Tbl κ ν) (k : κ) : tfind ((a, b) :: r) k = if a = k then some b else tfind r k := by
  by_cases h : a = k <;> simp [tfind, List.find?, h]

@[simp] theorem tfind_tput_same (t : Tbl κ ν) (v : ν) (k : κ) : tfind (tput t k v) k = some v := by
  induction t with
  | nil => simp [tput, tfind_cons]
  | cons e r ih =>
    obtain ⟨a, b⟩ := e
    by_cases h : a = k
    · simp [tput, tfind_cons, h]
    · simp [tput, tfind_cons, h, ih]

theorem tfind_tput_other (t : Tbl κ ν) (v : ν) {k k' : κ} (h : k' ≠ k) : tfind (tput t k v) k' = tfind t k' := by
  induction t with
  | nil => simp [tput, tfind_cons, Ne.symm h]
  | cons e r ih =>
    obtain ⟨a, b⟩ := e
    by_cases ha : a = k
    · subst ha
      simp [tput, tfind_cons, Ne.symm h]
    · simp [tput, tfind_cons, ha, ih]

@[simp] theorem tfind_tdel_same (t : Tbl κ ν) (k : κ) : tfind (tdel t k) k = none := by
  induction t with
  | nil => rfl
  | cons e r ih =>
    obtain ⟨a, b⟩ := e
    by_cases h : a = k
    · simpa [tdel, h] using ih
    · simpa [tdel, h, tfind_cons] using ih

theorem tfind_tdel_other (t : Tbl κ ν) {k k' : κ} (h : k' ≠ k) : tfind (tdel t k) k' = tfind t k' := by
  induction t with
  | nil => rfl
  | cons e r ih =>
    obtain ⟨a, b⟩ := e
    by_cases ha : a = k
    · subst ha
      simpa [tdel, tfind_cons, Ne.symm h] using ih
    · have hr : tdel ((a, b) :: r) k = (a, b) :: tdel r k := by simp [tdel, ha]
      simp [hr, tfind_cons, ih]

/-- A listed value is what a read with any default gives. -/
theorem tget_of_tfind {t : Tbl κ ν} {d v : ν} {k : κ} (h : tfind t k = some v) : tget t d k = v := by
  induction t with
  | nil => simp at h
  | cons e r ih =>
    obtain ⟨a, b⟩ := e
    by_cases ha : a = k
    · simpa [tfind_cons, tget, ha] using h
    · simp [tfind_cons, ha] at h
      simp [tget, ha, ih h]

/-- An unlisted key reads as the default. -/
theorem tget_of_tfind_none {t : Tbl κ ν} {d : ν} {k : κ} (h : tfind t k = none) : tget t d k = d := by
  induction t with
  | nil => rfl
  | cons e r ih =>
    obtain ⟨a, b⟩ := e
    by_cases ha : a = k
    · simp [tfind_cons, ha] at h
    · simp [tfind_cons, ha] at h
      simp [tget, ha, ih h]

/-! ## The state's tables -/

@[simp] theorem State.ctx_setCtx (s : State) (t : ThreadId) (c : Ctx) : (s.setCtx t c).ctx t = c := by
  simp [State.ctx]

theorem State.ctx_setCtx_other (s : State) {t u : ThreadId} (c : Ctx) (h : u ≠ t) : (s.setCtx t c).ctx u = s.ctx u := by
  simp [State.ctx, tget_tput_other _ _ _ h]

@[simp] theorem State.core_setCore (s : State) (c : CoreId) (k : Core) : (s.setCore c k).core c = k := by
  simp [State.core]

theorem State.core_setCore_other (s : State) {c d : CoreId} (k : Core) (h : d ≠ c) : (s.setCore c k).core d = s.core d := by
  simp [State.core, tget_tput_other _ _ _ h]

@[simp] theorem State.job_setJob (s : State) (n : Nat) (j : Job) : (s.setJob n j).job n = j := by
  simp [State.job]

theorem State.job_setJob_other (s : State) {n m : Nat} (j : Job) (h : m ≠ n) : (s.setJob n j).job m = s.job m := by
  simp [State.job, tget_tput_other _ _ _ h]

@[simp] theorem State.core_setCtx (s : State) (t : ThreadId) (c : Ctx) (k : CoreId) : (s.setCtx t c).core k = s.core k := rfl
@[simp] theorem State.job_setCtx (s : State) (t : ThreadId) (c : Ctx) (n : Nat) : (s.setCtx t c).job n = s.job n := rfl
@[simp] theorem State.handler_setCtx (s : State) (t : ThreadId) (c : Ctx) (n i : Nat) : (s.setCtx t c).handler n i = s.handler n i := rfl
@[simp] theorem State.ctx_setCore (s : State) (c : CoreId) (k : Core) (t : ThreadId) : (s.setCore c k).ctx t = s.ctx t := rfl
@[simp] theorem State.job_setCore (s : State) (c : CoreId) (k : Core) (n : Nat) : (s.setCore c k).job n = s.job n := rfl
@[simp] theorem State.ctx_setJob (s : State) (n : Nat) (j : Job) (t : ThreadId) : (s.setJob n j).ctx t = s.ctx t := rfl
@[simp] theorem State.core_setJob (s : State) (n : Nat) (j : Job) (k : CoreId) : (s.setJob n j).core k = s.core k := rfl
@[simp] theorem State.ctx_post (s : State) (ch : Chan) (e : Ev) (n : Nat) (t : ThreadId) : (s.post ch e n).ctx t = s.ctx t := rfl
@[simp] theorem State.core_post (s : State) (ch : Chan) (e : Ev) (n : Nat) (k : CoreId) : (s.post ch e n).core k = s.core k := rfl
@[simp] theorem State.job_post (s : State) (ch : Chan) (e : Ev) (n m : Nat) : (s.post ch e n).job m = s.job m := rfl

/-- Setting a context twice keeps the last. -/
theorem tput_tput (t : Tbl κ ν) (k : κ) (v w : ν) : tput (tput t k v) k w = tput t k w := by
  induction t with
  | nil => simp [tput]
  | cons e r ih =>
    obtain ⟨a, b⟩ := e
    by_cases h : a = k
    · simp [tput, h]
    · simp [tput, h, ih]

@[simp] theorem State.setCtx_setCtx (s : State) (t : ThreadId) (c d : Ctx) : (s.setCtx t c).setCtx t d = s.setCtx t d := by
  simp [State.setCtx, tput_tput]

@[simp] theorem State.setCore_setCore (s : State) (c : CoreId) (k l : Core) : (s.setCore c k).setCore c l = s.setCore c l := by
  simp [State.setCore, tput_tput]

end Sys2Proof.Machine
end

