-- ==== Sys2Proof/Laws/Memory.lean ====
section
/-! SUPPORT. Memory: a byte read after a write, every other byte as before, and the canonical form kept by every memory
operation (R219, R464). -/

namespace Sys2Proof.Machine

open Sys2Proof

/-! ## One byte -/

@[simp] theorem memGet_nil (k : Nat) : memGet [] k = Memory.unlisted := rfl

/-- Below every listed address nothing is listed. -/
theorem memGet_below (m : List Host.Cell) (k : Nat) (h : ∀ c ∈ m, k < c.1) : memGet m k = Memory.unlisted := by
  cases m with
  | nil => rfl
  | cons c r =>
    obtain ⟨a, b⟩ := c
    have : k < a := h (a, b) (by simp)
    simp [memGet, this, Nat.ne_of_gt this]

theorem memWf_tail {c : Host.Cell} {r : List Host.Cell} (h : Memory.wf (c :: r)) : Memory.wf r := by
  obtain ⟨h1, h2⟩ := h
  rw [List.map_cons, List.pairwise_cons] at h1
  exact ⟨h1.2, fun x hx => h2 x (List.mem_cons_of_mem _ hx)⟩

theorem memWf_head_lt {c : Host.Cell} {r : List Host.Cell} (h : Memory.wf (c :: r)) : ∀ x ∈ r, c.1 < x.1 := by
  obtain ⟨h1, _⟩ := h
  rw [List.map_cons, List.pairwise_cons] at h1
  exact fun x hx => h1.1 _ (List.mem_map_of_mem hx)

theorem memWf_cons {a : Nat} {b : Byte} {r : List Host.Cell} (hr : Memory.wf r) (hb : b ≠ Memory.unlisted)
    (h : ∀ x ∈ r, a < x.1) : Memory.wf ((a, b) :: r) := by
  refine ⟨?_, ?_⟩
  · rw [List.map_cons, List.pairwise_cons]
    refine ⟨fun y hy => ?_, hr.1⟩
    obtain ⟨x, hx, rfl⟩ := List.mem_map.1 hy
    exact h x hx
  · intro c hc
    rcases List.mem_cons.1 hc with rfl | hc
    · exact hb
    · exact hr.2 c hc

/-- The addresses after a write: the old ones and the one written. -/
theorem memSet_keys (m : List Host.Cell) (k : Nat) (v : Byte) : ∀ c ∈ memSet m k v, c.1 = k ∨ c ∈ m := by
  induction m with
  | nil => intro c hc; by_cases hv : v = Memory.unlisted <;> simp_all [memSet]
  | cons e r ih =>
    obtain ⟨a, b⟩ := e
    intro c hc
    simp only [memSet] at hc
    split at hc
    · split at hc
      · exact .inr (List.mem_cons_of_mem _ hc)
      · rcases List.mem_cons.1 hc with rfl | hc
        · exact .inl rfl
        · exact .inr (List.mem_cons_of_mem _ hc)
    · split at hc
      · split at hc
        · exact .inr hc
        · rcases List.mem_cons.1 hc with rfl | hc
          · exact .inl rfl
          · exact .inr hc
      · rcases List.mem_cons.1 hc with rfl | hc
        · exact .inr (by simp)
        · rcases ih c hc with h | h
          · exact .inl h
          · exact .inr (List.mem_cons_of_mem _ h)

/-- A write of one byte keeps the canonical form. -/
theorem memSet_wf {m : List Host.Cell} (h : Memory.wf m) (k : Nat) (v : Byte) : Memory.wf (memSet m k v) := by
  induction m with
  | nil => by_cases hv : v = Memory.unlisted <;> simp [memSet, hv, Memory.wf]
  | cons e r ih =>
    obtain ⟨a, b⟩ := e
    have hr := memWf_tail h
    have hl := memWf_head_lt h
    have hb : b ≠ Memory.unlisted := h.2 (a, b) (by simp)
    simp only [memSet]
    split
    · next hk =>
      subst hk
      split
      · exact hr
      · next hv => exact memWf_cons hr hv hl
    · next hk =>
      split
      · next hlt =>
        split
        · exact h
        · next hv =>
          refine memWf_cons h hv (fun x hx => ?_)
          rcases List.mem_cons.1 hx with rfl | hx
          · exact hlt
          · exact Nat.lt_trans hlt (hl x hx)
      · next hlt =>
        refine memWf_cons (ih hr) hb (fun x hx => ?_)
        rcases memSet_keys r k v x hx with h | h
        · rw [h]; omega
        · exact hl x h

/-- A byte written reads back. -/
theorem memGet_memSet_same {m : List Host.Cell} (h : Memory.wf m) (k : Nat) (v : Byte) : memGet (memSet m k v) k = v := by
  induction m with
  | nil => by_cases hv : v = Memory.unlisted <;> simp [memSet, memGet, hv]
  | cons e r ih =>
    obtain ⟨a, b⟩ := e
    have hl := memWf_head_lt h
    simp only [memSet]
    split
    · next hk =>
      subst hk
      split
      · next hv => rw [hv]; exact memGet_below r a hl
      · simp [memGet]
    · next hk =>
      split
      · next hlt =>
        split
        · next hv => simp [memGet, hk, hlt, hv]
        · simp [memGet]
      · next hlt => simp [memGet, hk, hlt, ih (memWf_tail h)]

/-- Every other byte reads as before. -/
theorem memGet_memSet_other {m : List Host.Cell} (h : Memory.wf m) {k j : Nat} (v : Byte) (hj : j ≠ k) :
    memGet (memSet m k v) j = memGet m j := by
  induction m with
  | nil => by_cases hv : v = Memory.unlisted <;> simp [memSet, memGet, hv, Ne.symm hj]
  | cons e r ih =>
    obtain ⟨a, b⟩ := e
    have hl := memWf_head_lt h
    simp only [memSet]
    split
    · next hk =>
      subst hk
      split
      · by_cases hlt : j < a
        · rw [memGet_below r j (fun c hc => Nat.lt_trans hlt (hl c hc))]
          simp [memGet, Ne.symm hj, hlt]
        · simp [memGet, Ne.symm hj, hlt]
      · simp [memGet, Ne.symm hj]
    · next hk =>
      split
      · next hlt =>
        split
        · rfl
        · by_cases h2 : j < k
          · have : j < a := Nat.lt_trans h2 hlt
            simp [memGet, Ne.symm hj, h2, this, Nat.ne_of_gt this]
          · simp [memGet, Ne.symm hj, h2]
      · next hlt => simp only [memGet, ih (memWf_tail h)]

/-! ## Runs of bytes -/

/-- A write of bytes keeps the canonical form. -/
theorem memWrite_wf (bs : List (Option Byte)) : ∀ {m : List Host.Cell} (_ : Memory.wf m) (k : Nat), Memory.wf (memWrite m k bs) := by
  induction bs with
  | nil => intro m h k; exact h
  | cons b r ih =>
    intro m h k
    cases b with
    | none => exact ih h (k + 1)
    | some v => exact ih (memSet_wf h k v) (k + 1)

/-- Bytes outside a write read as before. -/
theorem memGet_memWrite_outside (bs : List (Option Byte)) : ∀ {m : List Host.Cell} (_ : Memory.wf m) (k : Nat) {j : Nat},
    j < k ∨ k + bs.length ≤ j → memGet (memWrite m k bs) j = memGet m j := by
  induction bs with
  | nil => intro m _ k j _; rfl
  | cons b r ih =>
    intro m h k j hj
    have hj' : j < k + 1 ∨ k + 1 + r.length ≤ j := by
      simp only [List.length_cons] at hj; omega
    cases b with
    | none => exact ih h (k + 1) hj'
    | some v =>
      rw [memWrite, ih (memSet_wf h k v) (k + 1) hj', memGet_memSet_other h v]
      simp only [List.length_cons] at hj; omega

/-- A byte a write names reads back; one it does not name reads as before (R220). -/
theorem memGet_memWrite_at (bs : List (Option Byte)) : ∀ {m : List Host.Cell} (_ : Memory.wf m) (k : Nat) {i : Nat} {b : Option Byte},
    bs[i]? = some b → memGet (memWrite m k bs) (k + i) = b.getD (memGet m (k + i)) := by
  induction bs with
  | nil => intro m _ k i b hb; simp at hb
  | cons c r ih =>
    intro m h k i b hb
    cases i with
    | zero =>
      obtain rfl : c = b := by simpa using hb
      cases c with
      | none =>
        rw [memWrite, memGet_memWrite_outside r h (k + 1) (by omega)]
        rfl
      | some v =>
        rw [memWrite, memGet_memWrite_outside r (memSet_wf h k v) (k + 1) (by omega)]
        exact memGet_memSet_same h k v
    | succ i =>
      have hb' : r[i]? = some b := by simpa using hb
      have e : k + (i + 1) = k + 1 + i := by omega
      cases c with
      | none => rw [memWrite, e]; exact ih h (k + 1) hb'
      | some v =>
        rw [memWrite, e, ih (memSet_wf h k v) (k + 1) hb', memGet_memSet_other h v (by omega)]

/-- Clearing a range keeps the canonical form (R218, R485, R490). -/
theorem memClear_wf {m : List Host.Cell} (h : Memory.wf m) (lo hi : Nat) : Memory.wf (memClear m lo hi) := by
  refine ⟨?_, fun c hc => h.2 c (List.mem_filter.1 hc).1⟩
  exact List.Pairwise.sublist (List.Sublist.map _ List.filter_sublist) h.1

/-! ## The state's memory -/

/-- A store keeps the canonical form (R219). -/
theorem State.storeBytes_wf {s : State} (h : Memory.wf s.mem) (l : Loc) (bs : List (Option Byte)) (bad : Bool) :
    Memory.wf (s.storeBytes l bs bad).mem := memWrite_wf bs h l.key

theorem State.store_wf {s : State} (h : Memory.wf s.mem) (l : Loc) (bs : List Byte) (bad : Bool) :
    Memory.wf (s.store l bs bad).mem := memWrite_wf _ h l.key

/-- A byte outside a store reads as before. -/
theorem State.byte_store_outside {s : State} (h : Memory.wf s.mem) (l m : Loc) (bs : List Byte) (bad : Bool)
    (hm : m.key < l.key ∨ l.key + bs.length ≤ m.key) : (s.store l bs bad).byte m = s.byte m := by
  refine memGet_memWrite_outside (bs.map some) h l.key ?_
  simpa using hm

/-- A byte a store names reads back. -/
theorem State.memGet_store_at {s : State} (h : Memory.wf s.mem) (l : Loc) (bs : List Byte) (bad : Bool) {i : Nat} {b : Byte}
    (hb : bs[i]? = some b) : memGet (s.store l bs bad).mem (l.key + i) = b := by
  have := memGet_memWrite_at (bs.map some) h l.key (i := i) (b := some b) (by simp [hb])
  simpa [State.store, State.storeBytes] using this

theorem State.reset_wf : Memory.wf State.reset.mem := by decide

@[simp] theorem State.bytes_length (s : State) (l : Loc) (n : Nat) : (s.bytes l n).length = n := by
  simp [State.bytes, memRead]

end Sys2Proof.Machine
end

