-- ==== Sys2Proof/Laws/Thread.lean ====
section
/-! SUPPORT. What running a thread's instruction does (R43, R44, R184): one lemma for each shared operation, for the
meanings built over it. -/

namespace Sys2Proof.Machine

open Sys2Proof Sys2Proof.Safety

/-- The state in which the body of an instruction acts. -/
abbrev State.acting (s : State) : State := s.setCtx s.curT (begun s)

@[simp] theorem acting_ctx (s : State) : s.acting.ctx s.curT = begun s := by simp [State.acting]

@[simp] theorem begun_regs (s : State) : (begun s).regs = (cur s).regs := rfl
@[simp] theorem begun_pw (s : State) : (begun s).pw = (cur s).pw := rfl
@[simp] theorem begun_sid (s : State) : (begun s).sid = (cur s).sid := rfl
@[simp] theorem begun_lit (s : State) : (begun s).lit = (cur s).lit := rfl
@[simp] theorem begun_serial (s : State) : (begun s).serial = (cur s).serial := rfl
@[simp] theorem begun_buf (s : State) : (begun s).buf = (cur s).buf := rfl
@[simp] theorem begun_status (s : State) : (begun s).status = (cur s).status := rfl
@[simp] theorem begun_execs (s : State) : (begun s).execs = (cur s).execs + 1 := rfl
@[simp] theorem begun_pc (s : State) : (begun s).pc = nextPc (cur s).pc := rfl

/-- Counting an instruction changes no operand (R38). -/
@[simp] theorem rd_acting (s : State) (p : BitVec 5) : rd s.acting s.curT p = rd s s.curT p := by
  simp only [rd, acting_ctx, begun_regs, begun_pw, begun_sid, begun_lit]
  rfl

theorem reads_acting {s : State} {p : BitVec 5} {x : Word} (h : Reads s p x) : rd s.acting s.curT p = .ok x := by
  rw [rd_acting]; exact h

/-- An instruction that runs does what its body does. -/
theorem threadInstr_run {s : State} {i : Instr} {g : BitVec 4} (h : Runs s i g) (body : State → ThreadId → Except Stop State) :
    threadInstr i g body s =
      match body s.acting s.curT with
      | .ok t => .next t
      | .error x => .next (s.stop s.curT x (encode i)) := by
  obtain ⟨h1, h2, h3, h4, h5⟩ := h
  simp only [cur] at h1 h4 h5
  have h4' : ¬ 128 ≤ (s.ctx s.curT).execs := by omega
  simp only [threadInstr, h1, h2, h3, h4', h5, ne_eq, not_true_eq_false, if_false, Bool.not_true, Bool.false_eq_true]
  rfl

/-- The first check that fails decides (R44), then the limit of R184, then the guard (R43). -/
theorem threadInstr_port {s : State} {i : Instr} {g : BitVec 4} (body : State → ThreadId → Except Stop State)
    (h : (cur s).status = .ready) (hp : WellFormed.portsOk i = false) :
    threadInstr i g body s = .next (s.stop s.curT ⟨.illegalPort, none⟩ (encode i)) := by
  simp only [cur] at h
  simp [threadInstr, h, hp]

theorem threadInstr_form {s : State} {i : Instr} {g : BitVec 4} (body : State → ThreadId → Except Stop State)
    (h : (cur s).status = .ready) (hp : WellFormed.portsOk i = true) (hr : WellFormed.rangesOk i = false) :
    threadInstr i g body s = .next (s.stop s.curT ⟨.illegalForm, none⟩ (encode i)) := by
  simp only [cur] at h
  simp [threadInstr, h, hp, hr]

theorem threadInstr_long {s : State} {i : Instr} {g : BitVec 4} (body : State → ThreadId → Except Stop State)
    (h : (cur s).status = .ready) (hp : WellFormed.portsOk i = true) (hr : WellFormed.rangesOk i = true)
    (he : 128 ≤ (cur s).execs) :
    threadInstr i g body s = .next (s.stop s.curT ⟨.reachLong, none⟩ (encode i)) := by
  simp only [cur] at h he
  simp [threadInstr, h, hp, hr, he]

theorem threadInstr_guard {s : State} {i : Instr} {g : BitVec 4} (body : State → ThreadId → Except Stop State)
    (h : (cur s).status = .ready) (hp : WellFormed.portsOk i = true) (hr : WellFormed.rangesOk i = true)
    (he : (cur s).execs < 128) (hg : (cur s).guard g = false) :
    threadInstr i g body s = .next s.acting := by
  simp only [cur] at h he hg
  have he' : ¬ 128 ≤ (s.ctx s.curT).execs := by omega
  simp [threadInstr, h, hp, hr, he', hg, State.acting, begun, cur]

/-- An instruction on ports and its own context sets that context and nothing else. -/
theorem scalarInstr_run {s : State} {i : Instr} {g : BitVec 4} (h : Runs s i g) {f : State → ThreadId → Ctx → Except Stop Ctx}
    {c : Ctx} (hf : f s.acting s.curT (begun s) = .ok c) : scalarInstr i g f s = .next (s.setCtx s.curT c) := by
  rw [scalarInstr, threadInstr_run h]
  simp [hf, State.acting]

/-! ## The shapes of R159 -/

@[simp] theorem Ctx.flag_zero (c : Ctx) : c.flag 0 = c := by cases c; simp [Ctx.flag]

theorem aluRR_run {s : State} {i : Instr} {g : BitVec 4} {a b d : BitVec 5} {x y : Word} (h : Runs s i g) (ha : Reads s a x)
    (hb : Reads s b y) (f : Word → Word → Word × BitVec 7) :
    aluRR i g a b d f s = .next (s.setCtx s.curT (((begun s).wr d (f x y).1).flag (f x y).2)) := by
  rw [aluRR]; apply scalarInstr_run h; simp [reads_acting ha, reads_acting hb, bind, Except.bind]

theorem aluRK_run {s : State} {i : Instr} {g : BitVec 4} {a d : BitVec 5} {x : Word} (h : Runs s i g) (ha : Reads s a x)
    (f : Word → Word) : aluRK i g a d f s = .next (s.setCtx s.curT ((begun s).wr d (f x))) := by
  rw [aluRK]; apply scalarInstr_run h; simp [reads_acting ha, bind, Except.bind]

theorem cmpRR_run {s : State} {i : Instr} {g : BitVec 4} {a b d e : BitVec 5} {x y : Word} (h : Runs s i g) (ha : Reads s a x)
    (hb : Reads s b y) (f : Word → Word → Bool) :
    cmpRR i g a b d e f s = .next (s.setCtx s.curT
      (if e = 0 then (begun s).setPred d.toNat (f x y) else ((begun s).setPred d.toNat (f x y)).setPred e.toNat (!f x y))) := by
  rw [cmpRR]; apply scalarInstr_run h; simp [reads_acting ha, reads_acting hb, bind, Except.bind]

theorem cmpRK_run {s : State} {i : Instr} {g : BitVec 4} {a d : BitVec 5} {x : Word} (h : Runs s i g) (ha : Reads s a x)
    (f : Word → Bool) : cmpRK i g a d f s = .next (s.setCtx s.curT ((begun s).setPred d.toNat (f x))) := by
  rw [cmpRK]; apply scalarInstr_run h; simp [reads_acting ha, bind, Except.bind]

theorem predRR_run {s : State} {i : Instr} {g : BitVec 4} {a b d v : BitVec 5} (h : Runs s i g) (f : Bool → Bool → Bool) :
    predRR i g a b d v f s = .next (s.setCtx s.curT ((begun s).setPred d.toNat
      (f ((begun s).pred a.toNat != v.getLsbD 0) ((begun s).pred b.toNat != v.getLsbD 1)))) := by
  rw [predRR]; exact scalarInstr_run h rfl

theorem branch_run {s : State} {i : Instr} {g : BitVec 4} {a : BitVec 5} {x : Word} (h : Runs s i g) (ha : Reads s a x)
    (o : BitVec 15) (f : Word → Bool) :
    branch i g a o f s = .next (s.setCtx s.curT
      (if f x then { begun s with pc := branchPc (begun s).back.pc o } else begun s)) := by
  rw [branch]; apply scalarInstr_run h; simp [reads_acting ha, bind, Except.bind]

/-! ## The buffer of a reach (R189 to R191) -/

/-- A reach that has no closing effect and fewer than 32 effects takes another one. -/
theorem room_ok {c : Ctx} (h1 : c.buf.any (fun b => b.eff.closing) = false) (h2 : c.buf.length < 32) : c.room = .ok () := by
  have h2' : ¬ 32 ≤ c.buf.length := by omega
  simp [Ctx.room, h1, h2']

/-- An effect without a probe is appended, and nothing else changes. -/
theorem addEff_plain {s : State} {t : ThreadId} (h : (s.ctx t).room = .ok ()) (e : Eff) :
    s.addEff t e = .ok (s.setCtx t { s.ctx t with buf := (s.ctx t).buf ++ [⟨e, []⟩] }) := by
  simp [State.addEff, h, State.askProbes]

end Sys2Proof.Machine
end

