-- ==== Sys2Proof/Laws/Dispatch.lean ====
section
/-! SUPPORT. Every word of a thread runs under the checks of R44: its meaning is a body given to `threadInstr`. -/

namespace Sys2Proof.Machine

open Sys2Proof Sys2Proof.Safety

/-- A meaning that is a body given to `threadInstr`. -/
abbrev Checked (i : Instr) (g : BitVec 4) (m : State → Res) : Prop :=
  ∃ body, ∀ s, m s = threadInstr i g body s

theorem threadInstr_checked (i : Instr) (g : BitVec 4) (f : State → ThreadId → Except Stop State) :
    Checked i g (fun s => threadInstr i g f s) := ⟨f, fun _ => rfl⟩

theorem scalarInstr_checked (i : Instr) (g : BitVec 4) (f : State → ThreadId → Ctx → Except Stop Ctx) :
    Checked i g (fun s => scalarInstr i g f s) := threadInstr_checked _ _ _

theorem aluRR_checked (i : Instr) (t : BitVec 4) (a b d : BitVec 5) (f : Word → Word → Word × BitVec 7) :
    Checked i t (fun s => aluRR i t a b d f s) := scalarInstr_checked _ _ _

theorem aluRK_checked (i : Instr) (t : BitVec 4) (a d : BitVec 5) (f : Word → Word) :
    Checked i t (fun s => aluRK i t a d f s) := scalarInstr_checked _ _ _

theorem cmpRR_checked (i : Instr) (t : BitVec 4) (a b d e : BitVec 5) (f : Word → Word → Bool) :
    Checked i t (fun s => cmpRR i t a b d e f s) := scalarInstr_checked _ _ _

theorem cmpRK_checked (i : Instr) (t : BitVec 4) (a d : BitVec 5) (f : Word → Bool) :
    Checked i t (fun s => cmpRK i t a d f s) := scalarInstr_checked _ _ _

theorem predRR_checked (i : Instr) (t : BitVec 4) (a b d inv : BitVec 5) (f : Bool → Bool → Bool) :
    Checked i t (fun s => predRR i t a b d inv f s) := scalarInstr_checked _ _ _

theorem branch_checked (i : Instr) (t : BitVec 4) (a : BitVec 5) (o : BitVec 15) (f : Word → Bool) :
    Checked i t (fun s => branch i t a o f s) := scalarInstr_checked _ _ _

theorem loadK_checked (i : Instr) (t : BitVec 4) (a : BitVec 5) (k : BitVec 10) (d : BitVec 5) (n : Nat) :
    Checked i t (fun s => loadK i t a k d n s) := threadInstr_checked _ _ _

theorem storeK_checked (i : Instr) (t : BitVec 4) (a : BitVec 5) (k : BitVec 10) (d : BitVec 5) (n : Nat) :
    Checked i t (fun s => storeK i t a k d n s) := threadInstr_checked _ _ _

theorem atomic_checked (i : Instr) (t : BitVec 4) (op : AtomOp) (n : Nat) (a b c d : BitVec 5) :
    Checked i t (fun s => atomic i t op n a b c d s) := threadInstr_checked _ _ _

theorem haulOp_checked (i : Instr) (x : Bool) (t : BitVec 4) (a d : BitVec 5) :
    Checked i t (fun s => haulOp i x t a d s) := threadInstr_checked _ _ _

theorem remoteOp_checked (i : Instr) (op : Nat) (a d : BitVec 5) (t : BitVec 4) :
    Checked i t (fun s => remoteOp i op a d t s) := threadInstr_checked _ _ _

theorem queueOp_checked (i : Instr) (t : BitVec 4) (a : BitVec 5) (kind : State → ThreadId → Except Stop LoadKind) (push : Bool) :
    Checked i t (fun s => queueOp i t a kind push s) := threadInstr_checked _ _ _

theorem pushOp_checked (i : Instr) (t : BitVec 4) (scope : Nat) (a b d : BitVec 5) :
    Checked i t (fun s => pushOp i t scope a b d s) := queueOp_checked _ _ _ _ _

theorem popOp_checked (i : Instr) (t : BitVec 4) (scope : Nat) (a d e : BitVec 5) :
    Checked i t (fun s => popOp i t scope a d e s) := queueOp_checked _ _ _ _ _

theorem exec_checked {i : Instr} {g : BitVec 4} (h : threadTag i = some g) : Checked i g (exec i) := by
  cases i <;> simp only [threadTag, reduceCtorEq, Option.some.injEq] at h <;> subst h
  · exact (show Checked _ _ (fun s => execNop _ s) from scalarInstr_checked _ _ _)
  · exact (show Checked _ _ (fun s => execDone _ s) from threadInstr_checked _ _ _)
  · exact (show Checked _ _ (fun s => execTrap _ _ s) from threadInstr_checked _ _ _)
  · exact (show Checked _ _ (fun s => execCsrr _ _ _ s) from scalarInstr_checked _ _ _)
  · exact (show Checked _ _ (fun s => execCsrw _ _ _ s) from threadInstr_checked _ _ _)
  · exact (show Checked _ _ (fun s => execYield _ s) from scalarInstr_checked _ _ _)
  · exact (show Checked _ _ (fun s => execBrk _ _ s) from threadInstr_checked _ _ _)
  · exact (show Checked _ _ (fun s => execStat _ _ _ s) from scalarInstr_checked _ _ _)
  · exact (show Checked _ _ (fun s => execClk _ _ s) from scalarInstr_checked _ _ _)
  · exact (show Checked _ _ (fun s => execId _ _ _ s) from scalarInstr_checked _ _ _)
  · exact (show Checked _ _ (fun s => execAdd _ _ _ _ s) from aluRR_checked _ _ _ _ _ _)
  · exact (show Checked _ _ (fun s => execSub _ _ _ _ s) from aluRR_checked _ _ _ _ _ _)
  · exact (show Checked _ _ (fun s => execMul _ _ _ _ s) from aluRR_checked _ _ _ _ _ _)
  · exact (show Checked _ _ (fun s => execMulh _ _ _ _ s) from aluRR_checked _ _ _ _ _ _)
  · exact (show Checked _ _ (fun s => execMulhu _ _ _ _ s) from aluRR_checked _ _ _ _ _ _)
  · exact (show Checked _ _ (fun s => execDiv _ _ _ _ s) from aluRR_checked _ _ _ _ _ _)
  · exact (show Checked _ _ (fun s => execDivu _ _ _ _ s) from aluRR_checked _ _ _ _ _ _)
  · exact (show Checked _ _ (fun s => execRem _ _ _ _ s) from aluRR_checked _ _ _ _ _ _)
  · exact (show Checked _ _ (fun s => execRemu _ _ _ _ s) from aluRR_checked _ _ _ _ _ _)
  · exact (show Checked _ _ (fun s => execAnd _ _ _ _ s) from aluRR_checked _ _ _ _ _ _)
  · exact (show Checked _ _ (fun s => execOr _ _ _ _ s) from aluRR_checked _ _ _ _ _ _)
  · exact (show Checked _ _ (fun s => execXor _ _ _ _ s) from aluRR_checked _ _ _ _ _ _)
  · exact (show Checked _ _ (fun s => execShl _ _ _ _ s) from aluRR_checked _ _ _ _ _ _)
  · exact (show Checked _ _ (fun s => execShr _ _ _ _ s) from aluRR_checked _ _ _ _ _ _)
  · exact (show Checked _ _ (fun s => execSar _ _ _ _ s) from aluRR_checked _ _ _ _ _ _)
  · exact (show Checked _ _ (fun s => execAndn _ _ _ _ s) from aluRR_checked _ _ _ _ _ _)
  · exact (show Checked _ _ (fun s => execAddk _ _ _ _ s) from aluRK_checked _ _ _ _ _)
  · exact (show Checked _ _ (fun s => execAndk _ _ _ _ s) from aluRK_checked _ _ _ _ _)
  · exact (show Checked _ _ (fun s => execOrk _ _ _ _ s) from aluRK_checked _ _ _ _ _)
  · exact (show Checked _ _ (fun s => execXork _ _ _ _ s) from aluRK_checked _ _ _ _ _)
  · exact (show Checked _ _ (fun s => execShlk _ _ _ _ s) from aluRK_checked _ _ _ _ _)
  · exact (show Checked _ _ (fun s => execShrk _ _ _ _ s) from aluRK_checked _ _ _ _ _)
  · exact (show Checked _ _ (fun s => execSark _ _ _ _ s) from aluRK_checked _ _ _ _ _)
  · exact (show Checked _ _ (fun s => execLdk _ _ _ s) from scalarInstr_checked _ _ _)
  · exact (show Checked _ _ (fun s => execLdkh _ _ _ _ s) from aluRK_checked _ _ _ _ _)
  · exact (show Checked _ _ (fun s => execLdl _ _ _ s) from scalarInstr_checked _ _ _)
  · exact (show Checked _ _ (fun s => execMin _ _ _ _ s) from aluRR_checked _ _ _ _ _ _)
  · exact (show Checked _ _ (fun s => execMax _ _ _ _ s) from aluRR_checked _ _ _ _ _ _)
  · exact (show Checked _ _ (fun s => execMinu _ _ _ _ s) from aluRR_checked _ _ _ _ _ _)
  · exact (show Checked _ _ (fun s => execMaxu _ _ _ _ s) from aluRR_checked _ _ _ _ _ _)
  · exact (show Checked _ _ (fun s => execClz _ _ _ s) from aluRK_checked _ _ _ _ _)
  · exact (show Checked _ _ (fun s => execPopc _ _ _ s) from aluRK_checked _ _ _ _ _)
  · exact (show Checked _ _ (fun s => execSext _ _ _ _ s) from aluRK_checked _ _ _ _ _)
  · exact (show Checked _ _ (fun s => execZext _ _ _ _ s) from aluRK_checked _ _ _ _ _)
  · exact (show Checked _ _ (fun s => execSel _ _ _ _ _ s) from scalarInstr_checked _ _ _)
  · exact (show Checked _ _ (fun s => execMac _ _ _ _ s) from scalarInstr_checked _ _ _)
  · exact (show Checked _ _ (fun s => execAdds _ _ _ _ s) from aluRR_checked _ _ _ _ _ _)
  · exact (show Checked _ _ (fun s => execSubs _ _ _ _ s) from aluRR_checked _ _ _ _ _ _)
  · exact (show Checked _ _ (fun s => execCmpEq _ _ _ _ _ s) from cmpRR_checked _ _ _ _ _ _ _)
  · exact (show Checked _ _ (fun s => execCmpNe _ _ _ _ _ s) from cmpRR_checked _ _ _ _ _ _ _)
  · exact (show Checked _ _ (fun s => execCmpLt _ _ _ _ _ s) from cmpRR_checked _ _ _ _ _ _ _)
  · exact (show Checked _ _ (fun s => execCmpLtu _ _ _ _ _ s) from cmpRR_checked _ _ _ _ _ _ _)
  · exact (show Checked _ _ (fun s => execCmpLe _ _ _ _ _ s) from cmpRR_checked _ _ _ _ _ _ _)
  · exact (show Checked _ _ (fun s => execCmpLeu _ _ _ _ _ s) from cmpRR_checked _ _ _ _ _ _ _)
  · exact (show Checked _ _ (fun s => execCmpkEq _ _ _ _ s) from cmpRK_checked _ _ _ _ _)
  · exact (show Checked _ _ (fun s => execCmpkLt _ _ _ _ s) from cmpRK_checked _ _ _ _ _)
  · exact (show Checked _ _ (fun s => execPand _ _ _ _ _ s) from predRR_checked _ _ _ _ _ _ _)
  · exact (show Checked _ _ (fun s => execPor _ _ _ _ _ s) from predRR_checked _ _ _ _ _ _ _)
  · exact (show Checked _ _ (fun s => execPxor _ _ _ _ _ s) from predRR_checked _ _ _ _ _ _ _)
  · exact (show Checked _ _ (fun s => execPget _ _ _ s) from scalarInstr_checked _ _ _)
  · exact (show Checked _ _ (fun s => execPset _ _ _ s) from cmpRK_checked _ _ _ _ _)
  · exact (show Checked _ _ (fun s => execBr _ _ s) from branch_checked _ _ _ _ _)
  · exact (show Checked _ _ (fun s => execBrz _ _ _ s) from branch_checked _ _ _ _ _)
  · exact (show Checked _ _ (fun s => execBrnz _ _ _ s) from branch_checked _ _ _ _ _)
  · exact (show Checked _ _ (fun s => execJl _ _ s) from scalarInstr_checked _ _ _)
  · exact (show Checked _ _ (fun s => execJr _ _ s) from scalarInstr_checked _ _ _)
  · exact (show Checked _ _ (fun s => execLoop _ _ _ s) from scalarInstr_checked _ _ _)
  · exact (show Checked _ _ (fun s => execReach _ _ s) from threadInstr_checked _ _ _)
  · exact (show Checked _ _ (fun s => execFence _ _ s) from threadInstr_checked _ _ _)
  · exact (show Checked _ _ (fun s => execDrain _ s) from threadInstr_checked _ _ _)
  · exact (show Checked _ _ (fun s => execRetry _ s) from threadInstr_checked _ _ _)
  · exact (show Checked _ _ (fun s => execLdB _ _ _ _ s) from loadK_checked _ _ _ _ _ _)
  · exact (show Checked _ _ (fun s => execLdH _ _ _ _ s) from loadK_checked _ _ _ _ _ _)
  · exact (show Checked _ _ (fun s => execLdW _ _ _ _ s) from loadK_checked _ _ _ _ _ _)
  · exact (show Checked _ _ (fun s => execLdD _ _ _ _ s) from loadK_checked _ _ _ _ _ _)
  · exact (show Checked _ _ (fun s => execStB _ _ _ _ s) from storeK_checked _ _ _ _ _ _)
  · exact (show Checked _ _ (fun s => execStH _ _ _ _ s) from storeK_checked _ _ _ _ _ _)
  · exact (show Checked _ _ (fun s => execStW _ _ _ _ s) from storeK_checked _ _ _ _ _ _)
  · exact (show Checked _ _ (fun s => execStD _ _ _ _ s) from storeK_checked _ _ _ _ _ _)
  · exact (show Checked _ _ (fun s => execLdx _ _ _ _ _ s) from threadInstr_checked _ _ _)
  · exact (show Checked _ _ (fun s => execStx _ _ _ _ _ s) from threadInstr_checked _ _ _)
  · exact (show Checked _ _ (fun s => execLdV _ _ _ _ s) from threadInstr_checked _ _ _)
  · exact (show Checked _ _ (fun s => execStV _ _ _ _ s) from threadInstr_checked _ _ _)
  · exact (show Checked _ _ (fun s => execAtomAdd _ _ _ _ s) from atomic_checked _ _ _ _ _ _ _ _)
  · exact (show Checked _ _ (fun s => execAtomAnd _ _ _ _ s) from atomic_checked _ _ _ _ _ _ _ _)
  · exact (show Checked _ _ (fun s => execAtomOr _ _ _ _ s) from atomic_checked _ _ _ _ _ _ _ _)
  · exact (show Checked _ _ (fun s => execAtomXor _ _ _ _ s) from atomic_checked _ _ _ _ _ _ _ _)
  · exact (show Checked _ _ (fun s => execAtomMax _ _ _ _ s) from atomic_checked _ _ _ _ _ _ _ _)
  · exact (show Checked _ _ (fun s => execAtomMin _ _ _ _ s) from atomic_checked _ _ _ _ _ _ _ _)
  · exact (show Checked _ _ (fun s => execAtomXchg _ _ _ _ s) from atomic_checked _ _ _ _ _ _ _ _)
  · exact (show Checked _ _ (fun s => execAtomCas _ _ _ _ _ s) from atomic_checked _ _ _ _ _ _ _ _)
  · exact (show Checked _ _ (fun s => execAtomFadd _ _ _ _ s) from atomic_checked _ _ _ _ _ _ _ _)
  · exact (show Checked _ _ (fun s => execAtomBadd _ _ _ _ s) from atomic_checked _ _ _ _ _ _ _ _)
  · exact (show Checked _ _ (fun s => execPushCore _ _ _ _ s) from pushOp_checked _ _ _ _ _ _)
  · exact (show Checked _ _ (fun s => execPushHive _ _ _ _ s) from pushOp_checked _ _ _ _ _ _)
  · exact (show Checked _ _ (fun s => execPushDie _ _ _ _ s) from pushOp_checked _ _ _ _ _ _)
  · exact (show Checked _ _ (fun s => execPushDev _ _ _ _ s) from pushOp_checked _ _ _ _ _ _)
  · exact (show Checked _ _ (fun s => execPushSys _ _ _ _ s) from pushOp_checked _ _ _ _ _ _)
  · exact (show Checked _ _ (fun s => execPopCore _ _ _ _ s) from popOp_checked _ _ _ _ _ _)
  · exact (show Checked _ _ (fun s => execPopHive _ _ _ _ s) from popOp_checked _ _ _ _ _ _)
  · exact (show Checked _ _ (fun s => execPopDie _ _ _ _ s) from popOp_checked _ _ _ _ _ _)
  · exact (show Checked _ _ (fun s => execPopDev _ _ _ _ s) from popOp_checked _ _ _ _ _ _)
  · exact (show Checked _ _ (fun s => execPopSys _ _ _ _ s) from popOp_checked _ _ _ _ _ _)
  · exact (show Checked _ _ (fun s => execSend _ _ _ _ _ s) from threadInstr_checked _ _ _)
  · exact (show Checked _ _ (fun s => execPark _ _ s) from scalarInstr_checked _ _ _)
  · exact (show Checked _ _ (fun s => execWaitm _ s) from scalarInstr_checked _ _ _)
  · exact (show Checked _ _ (fun s => execGetm _ _ _ s) from threadInstr_checked _ _ _)
  · exact (show Checked _ _ (fun s => execSpawn _ _ _ _ _ s) from threadInstr_checked _ _ _)
  · exact (show Checked _ _ (fun s => execJoin _ _ _ s) from threadInstr_checked _ _ _)
  · exact (show Checked _ _ (fun s => execMigr _ _ s) from threadInstr_checked _ _ _)
  · exact (show Checked _ _ (fun s => execCount _ _ _ s) from threadInstr_checked _ _ _)
  · exact (show Checked _ _ (fun s => execCset _ _ _ s) from threadInstr_checked _ _ _)
  · exact (show Checked _ _ (fun s => execHaul _ _ _ s) from haulOp_checked _ _ _ _ _)
  · exact (show Checked _ _ (fun s => execHaulX _ _ _ s) from haulOp_checked _ _ _ _ _)
  · exact (show Checked _ _ (fun s => execHcancel _ _ s) from threadInstr_checked _ _ _)
  · exact (show Checked _ _ (fun s => execHslot _ _ s) from threadInstr_checked _ _ _)
  · exact (show Checked _ _ (fun s => execHstat _ _ _ s) from scalarInstr_checked _ _ _)
  · exact (show Checked _ _ (fun s => execGang _ _ s) from threadInstr_checked _ _ _)
  · exact (show Checked _ _ (fun s => execJzero _ _ s) from threadInstr_checked _ _ _)
  · exact (show Checked _ _ (fun s => execJdrain _ _ _ s) from threadInstr_checked _ _ _)
  · exact (show Checked _ _ (fun s => execJdrainO _ _ _ _ s) from threadInstr_checked _ _ _)
  · exact (show Checked _ _ (fun s => execJstat _ _ _ s) from scalarInstr_checked _ _ _)
  · exact (show Checked _ _ (fun s => execJred _ _ s) from scalarInstr_checked _ _ _)
  · exact (show Checked _ _ (fun s => execGload _ _ _ s) from threadInstr_checked _ _ _)
  · exact (show Checked _ _ (fun s => execGswap _ _ _ s) from threadInstr_checked _ _ _)
  · exact (show Checked _ _ (fun s => execGmark _ _ _ s) from threadInstr_checked _ _ _)
  · exact (show Checked _ _ (fun s => execGquiet _ _ _ s) from threadInstr_checked _ _ _)
  · exact (show Checked _ _ (fun s => execGctx _ _ _ s) from threadInstr_checked _ _ _)
  · exact (show Checked _ _ (fun s => execGsave _ _ _ s) from threadInstr_checked _ _ _)
  · exact (show Checked _ _ (fun s => execGrest _ _ _ s) from threadInstr_checked _ _ _)
  · exact (show Checked _ _ (fun s => execWopen _ _ _ s) from threadInstr_checked _ _ _)
  · exact (show Checked _ _ (fun s => execWclose _ _ s) from threadInstr_checked _ _ _)
  · exact (show Checked _ _ (fun s => execRget _ _ _ s) from remoteOp_checked _ _ _ _ _)
  · exact (show Checked _ _ (fun s => execRput _ _ _ s) from remoteOp_checked _ _ _ _ _)
  · exact (show Checked _ _ (fun s => execRatom _ _ _ s) from remoteOp_checked _ _ _ _ _)
  · exact (show Checked _ _ (fun s => execNstat _ _ _ s) from threadInstr_checked _ _ _)
  · exact (show Checked _ _ (fun s => execCjoin _ _ _ s) from threadInstr_checked _ _ _)
  · exact (show Checked _ _ (fun s => execCstat _ _ _ s) from threadInstr_checked _ _ _)

end Sys2Proof.Machine
end

