-- ==== Sys2Proof/Laws/Events.lean ====
section
/-! SUPPORT. What the frames around a step of the lockkeeper and of a link do: they run what they are given, or keep or count it. -/

namespace Sys2Proof.Machine

open Sys2Proof

/-- A lockkeeper that is free does what it is given. -/
theorem State.byLock_free {s : State} {d : Nat} (h : s.lkDown d = false) (f : State → State) : s.byLock d f = f s := by
  simp [State.byLock, h]

/-- One that is not keeps the step, and nothing else changes. -/
theorem State.byLock_waits {s : State} {d : Nat} (h : s.lkDown d = true) (f : State → State) :
    s.byLock d f = s.onCtl (fun c => { c with held := c.held ++ [(d, s.arg)] }) := by
  simp [State.byLock, h]

/-- What waited for a lockkeeper arrives again: only the steps in flight and those that wait change. -/
theorem State.relockDie_keeps (s : State) (d : Nat) :
    ∃ c l, s.relockDie d = { s with ctl := c, pending := l } := by
  simp only [State.relockDie]
  split
  · exact ⟨_, _, rfl⟩
  · split
    · exact ⟨_, _, rfl⟩
    · exact ⟨_, _, rfl⟩

theorem State.relock_keeps (s : State) : ∃ c l, s.relock = { s with ctl := c, pending := l } := by
  obtain ⟨c, l, h⟩ := s.relockDie_keeps 0
  obtain ⟨c', l', h'⟩ := (s.relockDie 0).relockDie_keeps 1
  exact ⟨c', l', by rw [State.relock, h', h]⟩

@[simp] theorem State.relock_mem (s : State) : s.relock.mem = s.mem := by
  obtain ⟨c, l, h⟩ := s.relock_keeps; rw [h]

/-- A message that comes by no link acts at once (R418). -/
@[simp] theorem State.received_none (s : State) (n : Nat) (f : State → State) : s.received none n f = f s := rfl

/-- One of a link acts when its last flit is taken. -/
theorem State.received_whole {s : State} {r : Rx} {n : Nat} (h : (s.receive r n).2 = true) (f : State → State) :
    s.received (some r) n f = f (s.receive r n).1 := by
  simp [State.received, h]

/-- Before that it has only been received. -/
theorem State.received_part {s : State} {r : Rx} {n : Nat} (h : (s.receive r n).2 = false) (f : State → State) :
    s.received (some r) n f = (s.receive r n).1 := by
  simp [State.received, h]

/-- A management message of a type and length of R459 acts as any other message does. -/
theorem State.managed_formed {s : State} {r : Rx} (h : r.formed = true) (f : State → State) :
    s.managed r f = s.received (some r) r.flits f := by
  simp [State.managed, h]

/-- A frame whose tag verifies acts; one whose tag fails is counted for its SID (R461). -/
theorem State.framed_intact {s : State} {rx : Option Rx} (h : rx.all Rx.intact = true) (sid : Nat) (f : State → State) :
    s.framed rx sid f = s.received rx 16 f := by
  simp [State.framed, h]

theorem State.framed_broken {s : State} {rx : Option Rx} (h : rx.all Rx.intact = false) (sid : Nat) (f : State → State) :
    s.framed rx sid f = s.received rx 16 (fun s => { s with viols := tput s.viols sid (tget s.viols 0 sid + 1) }) := by
  simp [State.framed, h]

end Sys2Proof.Machine
end

