-- ==== Sys2Proof/Laws/PerInstr.lean ====
section
/-! SUPPORT. For each instruction, what its word says of itself: the opcode in bits 31..24 (R31, R50, R51).
`opcode` is written from the opcode table. -/

namespace Sys2Proof.Laws

open Sys2Proof

/-- Bits of a word put together from two parts: those of the upper part, and those of the lower one. -/
theorem bits_hi {n k : Nat} (w v : Nat) (x : BitVec w) (y : BitVec v) (h : v ≤ n) :
    (x ++ y).extractLsb' n k = x.extractLsb' (n - v) k := BitVec.extractLsb'_append_eq_of_le h

theorem bits_lo {n k : Nat} (w v : Nat) (x : BitVec w) (y : BitVec v) (h : n + k ≤ v) :
    (x ++ y).extractLsb' n k = y.extractLsb' n k := BitVec.extractLsb'_append_eq_of_add_le h

theorem bits_self (w : Nat) (x : BitVec w) : x.extractLsb' 0 w = x := by simp

/-- The two parts of K10 (R32) put together again. -/
theorem bits_k (k : BitVec 10) : k.extractLsb' 5 5 ++ k.extractLsb' 0 5 = k :=
  (BitVec.extractLsb'_append_extractLsb'_eq_extractLsb' (by decide)).trans (by simp)

/-- The opcode of an instruction (R50, R51); a step without a word has none. -/
def opcode : Instr → BitVec 8
  | .nop _ => 0x01
  | .nopElement _ _ _ => 0x01
  | .done _ => 0x02
  | .trap _ _ => 0x03
  | .csrr _ _ _ => 0x04
  | .csrw _ _ _ => 0x05
  | .yield _ => 0x06
  | .brk _ _ => 0x07
  | .stat _ _ _ => 0x08
  | .statElement _ _ _ => 0x08
  | .clk _ _ => 0x09
  | .id _ _ _ => 0x0A
  | .add _ _ _ _ => 0x10
  | .sub _ _ _ _ => 0x11
  | .mul _ _ _ _ => 0x12
  | .mulh _ _ _ _ => 0x13
  | .mulhu _ _ _ _ => 0x14
  | .div _ _ _ _ => 0x15
  | .divu _ _ _ _ => 0x16
  | .rem _ _ _ _ => 0x17
  | .remu _ _ _ _ => 0x18
  | .and _ _ _ _ => 0x19
  | .or _ _ _ _ => 0x1A
  | .xor _ _ _ _ => 0x1B
  | .shl _ _ _ _ => 0x1C
  | .shr _ _ _ _ => 0x1D
  | .sar _ _ _ _ => 0x1E
  | .andn _ _ _ _ => 0x1F
  | .addk _ _ _ _ => 0x20
  | .andk _ _ _ _ => 0x21
  | .ork _ _ _ _ => 0x22
  | .xork _ _ _ _ => 0x23
  | .shlk _ _ _ _ => 0x24
  | .shrk _ _ _ _ => 0x25
  | .sark _ _ _ _ => 0x26
  | .ldk _ _ _ => 0x27
  | .ldkh _ _ _ _ => 0x28
  | .ldl _ _ _ => 0x29
  | .min _ _ _ _ => 0x2A
  | .max _ _ _ _ => 0x2B
  | .minu _ _ _ _ => 0x2C
  | .maxu _ _ _ _ => 0x2D
  | .clz _ _ _ => 0x2E
  | .popc _ _ _ => 0x2F
  | .sext _ _ _ _ => 0x30
  | .zext _ _ _ _ => 0x31
  | .sel _ _ _ _ _ => 0x32
  | .mac _ _ _ _ => 0x33
  | .adds _ _ _ _ => 0x34
  | .subs _ _ _ _ => 0x35
  | .cmpEq _ _ _ _ _ => 0x38
  | .cmpNe _ _ _ _ _ => 0x39
  | .cmpLt _ _ _ _ _ => 0x3A
  | .cmpLtu _ _ _ _ _ => 0x3B
  | .cmpLe _ _ _ _ _ => 0x3C
  | .cmpLeu _ _ _ _ _ => 0x3D
  | .cmpkEq _ _ _ _ => 0x3E
  | .cmpkLt _ _ _ _ => 0x3F
  | .pand _ _ _ _ _ => 0x40
  | .por _ _ _ _ _ => 0x41
  | .pxor _ _ _ _ _ => 0x42
  | .pget _ _ _ => 0x43
  | .pset _ _ _ => 0x44
  | .br _ _ => 0x48
  | .brz _ _ _ => 0x49
  | .brnz _ _ _ => 0x4A
  | .jl _ _ => 0x4B
  | .jr _ _ => 0x4C
  | .loop _ _ _ => 0x4D
  | .reach _ _ => 0x50
  | .fence _ _ => 0x51
  | .drain _ => 0x52
  | .retry _ => 0x53
  | .ldB _ _ _ _ => 0x58
  | .ldH _ _ _ _ => 0x59
  | .ldW _ _ _ _ => 0x5A
  | .ldD _ _ _ _ => 0x5B
  | .stB _ _ _ _ => 0x5C
  | .stH _ _ _ _ => 0x5D
  | .stW _ _ _ _ => 0x5E
  | .stD _ _ _ _ => 0x5F
  | .ldx _ _ _ _ _ => 0x60
  | .stx _ _ _ _ _ => 0x61
  | .ldV _ _ _ _ => 0x62
  | .stV _ _ _ _ => 0x63
  | .atomAdd _ _ _ _ => 0x68
  | .atomAnd _ _ _ _ => 0x69
  | .atomOr _ _ _ _ => 0x6A
  | .atomXor _ _ _ _ => 0x6B
  | .atomMax _ _ _ _ => 0x6C
  | .atomMin _ _ _ _ => 0x6D
  | .atomXchg _ _ _ _ => 0x6E
  | .atomCas _ _ _ _ _ => 0x6F
  | .atomFadd _ _ _ _ => 0x70
  | .atomBadd _ _ _ _ => 0x71
  | .pushCore _ _ _ _ => 0x78
  | .pushHive _ _ _ _ => 0x79
  | .pushDie _ _ _ _ => 0x7A
  | .pushDev _ _ _ _ => 0x7B
  | .pushSys _ _ _ _ => 0x7C
  | .popCore _ _ _ _ => 0x7D
  | .popHive _ _ _ _ => 0x7E
  | .popDie _ _ _ _ => 0x7F
  | .popDev _ _ _ _ => 0x80
  | .popSys _ _ _ _ => 0x81
  | .send _ _ _ _ _ => 0x88
  | .park _ _ => 0x89
  | .waitm _ => 0x8A
  | .getm _ _ _ => 0x8B
  | .spawn _ _ _ _ _ => 0x8C
  | .join _ _ _ => 0x8D
  | .migr _ _ => 0x8E
  | .count _ _ _ => 0x8F
  | .cset _ _ _ => 0x90
  | .haul _ _ _ => 0x98
  | .haulX _ _ _ => 0x99
  | .hcancel _ _ => 0x9A
  | .hslot _ _ => 0x9B
  | .hstat _ _ _ => 0x9C
  | .gang _ _ => 0xA0
  | .jzero _ _ => 0xA1
  | .jdrain _ _ _ => 0xA2
  | .jdrainO _ _ _ _ => 0xA3
  | .jstat _ _ _ => 0xA4
  | .jred _ _ => 0xA5
  | .gload _ _ _ => 0xA8
  | .gswap _ _ _ => 0xA9
  | .gmark _ _ _ => 0xAA
  | .gquiet _ _ _ => 0xAB
  | .gctx _ _ _ => 0xAC
  | .gsave _ _ _ => 0xAD
  | .grest _ _ _ => 0xAE
  | .wopen _ _ _ => 0xB0
  | .wclose _ _ => 0xB1
  | .rget _ _ _ => 0xB2
  | .rput _ _ _ => 0xB3
  | .ratom _ _ _ => 0xB4
  | .nstat _ _ _ => 0xB5
  | .cjoin _ _ _ => 0xB8
  | .cstat _ _ _ => 0xB9
  | .mov _ _ _ _ => 0xC0
  | .pick _ _ _ _ _ => 0xC1
  | .steer _ _ _ _ => 0xC2
  | .merge _ _ _ _ => 0xC3
  | .mergeu _ _ _ _ => 0xC4
  | .guard _ _ _ => 0xC5
  | .gen _ _ _ _ => 0xC6
  | .rep _ _ _ _ _ => 0xC7
  | .drop _ _ => 0xC8
  | .eos _ _ _ _ => 0xC9
  | .ctl _ _ _ _ => 0xCA
  | .sync _ _ _ _ => 0xCB
  | .vadd _ _ _ _ _ => 0xD0
  | .vsub _ _ _ _ _ => 0xD1
  | .vmul _ _ _ _ _ => 0xD2
  | .vfma _ _ _ _ _ => 0xD3
  | .vmax _ _ _ _ _ => 0xD4
  | .vmin _ _ _ _ _ => 0xD5
  | .vand _ _ _ _ _ => 0xD6
  | .vor _ _ _ _ _ => 0xD7
  | .vxor _ _ _ _ _ => 0xD8
  | .vshl _ _ _ _ _ => 0xD9
  | .vshr _ _ _ _ _ => 0xDA
  | .vcmpEq _ _ _ _ _ => 0xDB
  | .vcmpLt _ _ _ _ _ => 0xDC
  | .vabs _ _ _ _ => 0xDD
  | .vred _ _ _ _ => 0xDE
  | .vdot _ _ _ _ _ => 0xDF
  | .vcvt _ _ _ _ => 0xE0
  | .vrcp _ _ _ _ => 0xE1
  | .vrsq _ _ _ _ => 0xE2
  | .vexp2 _ _ _ _ => 0xE3
  | .vlog2 _ _ _ _ => 0xE4
  | .vperm _ _ _ _ _ => 0xE5
  | .vbcast _ _ _ _ _ => 0xE6
  | .vscan _ _ _ _ => 0xE7
  | .mld _ _ _ _ => 0xE8
  | .mst _ _ _ _ _ => 0xE9
  | .matom _ _ _ _ => 0xEA
  | .sld _ _ _ _ => 0xEB
  | .sst _ _ _ => 0xEC
  | .bmexp _ _ _ _ _ => 0xED
  | .isect _ _ _ _ _ => 0xEE
  | .xsend _ _ => 0xEF
  | .xrecv _ _ _ _ => 0xF0
  | .illegalOp
  | .fetchBounds
  | .launch
  | .spanJoin
  | .spanAnswer
  | .spanJoinTimeout
  | .spanLeadTimeout
  | .jobEnd
  | .jobEndTeardown
  | .completionDetect
  | .deadlockDetect
  | .quietReport
  | .activeReport
  | .freshReportRequest
  | .leadUnreachable
  | .spanKill
  | .bargeArrival
  | .busyReply
  | .bargeResend
  | .remoteReject
  | .promotion
  | .faultRedelivery
  | .dispatch
  | .deposit
  | .heldDepositApply
  | .loadReply
  | .completionArrival
  | .stealRequest
  | .stealVictim
  | .stealAnswer
  | .joinPerform
  | .counterArrival
  | .counterCarryFire
  | .commit
  | .effectRelease
  | .probeAnswer
  | .preemption
  | .preemptionEnd
  | .rank7Fault
  | .faultResume
  | .loadPerform
  | .storePerform
  | .storeAck
  | .atomicPerform
  | .queueReserve
  | .queueSettle
  | .snoopRecall
  | .companionRequest
  | .pushSend
  | .migrShip
  | .fenceDone
  | .drainDone
  | .translation
  | .pageWalk
  | .missRetry
  | .shootdown
  | .shot
  | .tokenArrival
  | .arcAck
  | .planeSwitch
  | .memNodeCompletion
  | .writePortToken
  | .bufferReopen
  | .passStart
  | .towpathStart
  | .towpathStop
  | .freedSlotNotice
  | .jointBarrier
  | .opHeadCheck
  | .opStart
  | .blockStart
  | .opComplete
  | .sliceStart
  | .jdrainComplete
  | .partialCombine
  | .haulStart
  | .haulAccessAnswer
  | .haulComplete
  | .haulCancel
  | .hslotPerform
  | .graphReserve
  | .gloadPerform
  | .gloadDone
  | .gswapPerform
  | .reconfPass
  | .swapEnd
  | .gmarkPerform
  | .nodeRecord
  | .cutComplete
  | .gsavePerform
  | .gsaveDone
  | .grestPerform
  | .grestDone
  | .gctxPerform
  | .replayRequest
  | .laneSpare
  | .laneSpareDone
  | .linkDown
  | .linkTrain
  | .routerAccept
  | .routerAck
  | .routerResend
  | .windowReserve
  | .windowPieceCheck
  | .wclosePerform
  | .windowFreed
  | .ratomPerform
  | .remoteAnswer
  | .remoteAttemptTimeout
  | .requestIdRelease
  | .requestIdExpiry
  | .cjoinReserve
  | .cjoinCheck
  | .pathCheck
  | .pathCheckAnswer
  | .pathCheckReask
  | .keyInstallAck
  | .contributionArrival
  | .resultArrival
  | .spdmResponse
  | .spdmTimeout
  | .spdmRequest
  | .policy
  | .elementError
  | .spareMove
  | .twin
  | .kill
  | .unpinnedError
  | .dieKill
  | .killDrainDone
  | .scrubDone
  | .lockkeeperMemoryError
  | .lockkeeperRestartDone
  | .powerGood
  | .calibrate
  | .memoryZeroInit
  | .elementSelfTest
  | .ready
  | .bargePortWrite
  | .unknownService
  | .claimWrite
  | .relinquish
  | .handover
  | .handoverTimeout
  | .ownerPathLost
  | .hiveFence
  | .hiveMoveDone
  | .hiveTest
  | .hiveTestDone
  | .hiveRepair
  | .hiveOnline
  | .linkOff
  | .rasClear
  | .hostBasinBase
  | .hostBasinHead
  | .powerCap
  | .powerEventClear
  | .thermalLimit
  | .dcrWrite
  | .thermalCrossing
  | .thermalTrip
  | .fwStage
  | .fwActivate
  | .capReached
  | .pathCheckTimeout
  | .linkFlitAck
  | .blockEnd
  | .leadSessionResponse
  | .switchErrorAnswer => 0

/-- The word of an instruction carries its opcode. -/
def Encoding.Statement (i : Instr) : Prop := (encode i).extractLsb' 24 8 = opcode i

theorem opcode_28_4 (x0 : BitVec 28) (x1 : BitVec 4) :
    (x0 ++ x1 : BitVec 32).extractLsb' 24 8 = x0.extractLsb' 20 8 := by
  simp (disch := decide) only [bits_hi 28 4, bits_self, Nat.reduceSub]

theorem opcode_18_5_5_4 (x0 : BitVec 18) (x1 : BitVec 5) (x2 : BitVec 5) (x3 : BitVec 4) :
    (x0 ++ x1 ++ x2 ++ x3 : BitVec 32).extractLsb' 24 8 = x0.extractLsb' 10 8 := by
  simp (disch := decide) only [bits_hi 28 4, bits_hi 23 5, bits_hi 18 5, bits_self, Nat.reduceSub]

theorem opcode_13_5_5_5_4 (x0 : BitVec 13) (x1 : BitVec 5) (x2 : BitVec 5) (x3 : BitVec 5) (x4 : BitVec 4) :
    (x0 ++ x1 ++ x2 ++ x3 ++ x4 : BitVec 32).extractLsb' 24 8 = x0.extractLsb' 5 8 := by
  simp (disch := decide) only [bits_hi 28 4, bits_hi 23 5, bits_hi 18 5, bits_hi 13 5, bits_self, Nat.reduceSub]

theorem opcode_8_5_5_5_5_4 (x0 : BitVec 8) (x1 : BitVec 5) (x2 : BitVec 5) (x3 : BitVec 5) (x4 : BitVec 5) (x5 : BitVec 4) :
    (x0 ++ x1 ++ x2 ++ x3 ++ x4 ++ x5 : BitVec 32).extractLsb' 24 8 = x0 := by
  simp (disch := decide) only [bits_hi 28 4, bits_hi 23 5, bits_hi 18 5, bits_hi 13 5, bits_hi 8 5, bits_self, Nat.reduceSub]

theorem opcode_13_15_4 (x0 : BitVec 13) (x1 : BitVec 15) (x2 : BitVec 4) :
    (x0 ++ x1 ++ x2 : BitVec 32).extractLsb' 24 8 = x0.extractLsb' 5 8 := by
  simp (disch := decide) only [bits_hi 28 4, bits_hi 13 15, bits_self, Nat.reduceSub]

theorem opcode_8_5_15_4 (x0 : BitVec 8) (x1 : BitVec 5) (x2 : BitVec 15) (x3 : BitVec 4) :
    (x0 ++ x1 ++ x2 ++ x3 : BitVec 32).extractLsb' 24 8 = x0 := by
  simp (disch := decide) only [bits_hi 28 4, bits_hi 13 15, bits_hi 8 5, bits_self, Nat.reduceSub]

theorem opcode_23_5_4 (x0 : BitVec 23) (x1 : BitVec 5) (x2 : BitVec 4) :
    (x0 ++ x1 ++ x2 : BitVec 32).extractLsb' 24 8 = x0.extractLsb' 15 8 := by
  simp (disch := decide) only [bits_hi 28 4, bits_hi 23 5, bits_self, Nat.reduceSub]

theorem opcode_8_5_10_5_4 (x0 : BitVec 8) (x1 : BitVec 5) (x2 : BitVec 10) (x3 : BitVec 5) (x4 : BitVec 4) :
    (x0 ++ x1 ++ x2 ++ x3 ++ x4 : BitVec 32).extractLsb' 24 8 = x0 := by
  simp (disch := decide) only [bits_hi 28 4, bits_hi 23 5, bits_hi 13 10, bits_hi 8 5, bits_self, Nat.reduceSub]

theorem opcode_8_5_5_10_4 (x0 : BitVec 8) (x1 : BitVec 5) (x2 : BitVec 5) (x3 : BitVec 10) (x4 : BitVec 4) :
    (x0 ++ x1 ++ x2 ++ x3 ++ x4 : BitVec 32).extractLsb' 24 8 = x0 := by
  simp (disch := decide) only [bits_hi 28 4, bits_hi 18 10, bits_hi 13 5, bits_hi 8 5, bits_self, Nat.reduceSub]

theorem opcode_8_5_5_5_9 (x0 : BitVec 8) (x1 : BitVec 5) (x2 : BitVec 5) (x3 : BitVec 5) (x4 : BitVec 9) :
    (x0 ++ x1 ++ x2 ++ x3 ++ x4 : BitVec 32).extractLsb' 24 8 = x0 := by
  simp (disch := decide) only [bits_hi 23 9, bits_hi 18 5, bits_hi 13 5, bits_hi 8 5, bits_self, Nat.reduceSub]

theorem Encoding.nop (t : BitVec 4) : Encoding.Statement (.nop t) := opcode_28_4 0x100000#28 t
theorem Encoding.nopElement (d : BitVec 5) (e : BitVec 5) (t : BitVec 4) : Encoding.Statement (.nopElement d e t) := opcode_18_5_5_4 0x400#18 d e t
theorem Encoding.done (t : BitVec 4) : Encoding.Statement (.done t) := opcode_28_4 0x200000#28 t
theorem Encoding.trap (k : BitVec 10) (t : BitVec 4) : Encoding.Statement (.trap k t) := opcode_13_5_5_5_4 0x60#13 (k.extractLsb' 5 5) 0x0#5 (k.extractLsb' 0 5) t
theorem Encoding.csrr (k : BitVec 10) (d : BitVec 5) (t : BitVec 4) : Encoding.Statement (.csrr k d t) := opcode_13_5_5_5_4 0x80#13 (k.extractLsb' 5 5) d (k.extractLsb' 0 5) t
theorem Encoding.csrw (a : BitVec 5) (k : BitVec 10) (t : BitVec 4) : Encoding.Statement (.csrw a k t) := opcode_8_5_5_5_5_4 0x5#8 a (k.extractLsb' 5 5) 0x0#5 (k.extractLsb' 0 5) t
theorem Encoding.yield (t : BitVec 4) : Encoding.Statement (.yield t) := opcode_28_4 0x600000#28 t
theorem Encoding.brk (k : BitVec 10) (t : BitVec 4) : Encoding.Statement (.brk k t) := opcode_13_5_5_5_4 0xE0#13 (k.extractLsb' 5 5) 0x0#5 (k.extractLsb' 0 5) t
theorem Encoding.stat (k : BitVec 10) (d : BitVec 5) (t : BitVec 4) : Encoding.Statement (.stat k d t) := opcode_13_5_5_5_4 0x100#13 (k.extractLsb' 5 5) d (k.extractLsb' 0 5) t
theorem Encoding.statElement (k : BitVec 10) (d : BitVec 5) (t : BitVec 4) : Encoding.Statement (.statElement k d t) := opcode_13_5_5_5_4 0x100#13 (k.extractLsb' 5 5) d (k.extractLsb' 0 5) t
theorem Encoding.clk (d : BitVec 5) (t : BitVec 4) : Encoding.Statement (.clk d t) := opcode_18_5_5_4 0x2400#18 d 0x0#5 t
theorem Encoding.id (d : BitVec 5) (k : BitVec 5) (t : BitVec 4) : Encoding.Statement (.id d k t) := opcode_18_5_5_4 0x2800#18 d k t
theorem Encoding.add (a : BitVec 5) (b : BitVec 5) (d : BitVec 5) (t : BitVec 4) : Encoding.Statement (.add a b d t) := opcode_8_5_5_5_5_4 0x10#8 a b d 0x0#5 t
theorem Encoding.sub (a : BitVec 5) (b : BitVec 5) (d : BitVec 5) (t : BitVec 4) : Encoding.Statement (.sub a b d t) := opcode_8_5_5_5_5_4 0x11#8 a b d 0x0#5 t
theorem Encoding.mul (a : BitVec 5) (b : BitVec 5) (d : BitVec 5) (t : BitVec 4) : Encoding.Statement (.mul a b d t) := opcode_8_5_5_5_5_4 0x12#8 a b d 0x0#5 t
theorem Encoding.mulh (a : BitVec 5) (b : BitVec 5) (d : BitVec 5) (t : BitVec 4) : Encoding.Statement (.mulh a b d t) := opcode_8_5_5_5_5_4 0x13#8 a b d 0x0#5 t
theorem Encoding.mulhu (a : BitVec 5) (b : BitVec 5) (d : BitVec 5) (t : BitVec 4) : Encoding.Statement (.mulhu a b d t) := opcode_8_5_5_5_5_4 0x14#8 a b d 0x0#5 t
theorem Encoding.div (a : BitVec 5) (b : BitVec 5) (d : BitVec 5) (t : BitVec 4) : Encoding.Statement (.div a b d t) := opcode_8_5_5_5_5_4 0x15#8 a b d 0x0#5 t
theorem Encoding.divu (a : BitVec 5) (b : BitVec 5) (d : BitVec 5) (t : BitVec 4) : Encoding.Statement (.divu a b d t) := opcode_8_5_5_5_5_4 0x16#8 a b d 0x0#5 t
theorem Encoding.rem (a : BitVec 5) (b : BitVec 5) (d : BitVec 5) (t : BitVec 4) : Encoding.Statement (.rem a b d t) := opcode_8_5_5_5_5_4 0x17#8 a b d 0x0#5 t
theorem Encoding.remu (a : BitVec 5) (b : BitVec 5) (d : BitVec 5) (t : BitVec 4) : Encoding.Statement (.remu a b d t) := opcode_8_5_5_5_5_4 0x18#8 a b d 0x0#5 t
theorem Encoding.and (a : BitVec 5) (b : BitVec 5) (d : BitVec 5) (t : BitVec 4) : Encoding.Statement (.and a b d t) := opcode_8_5_5_5_5_4 0x19#8 a b d 0x0#5 t
theorem Encoding.or (a : BitVec 5) (b : BitVec 5) (d : BitVec 5) (t : BitVec 4) : Encoding.Statement (.or a b d t) := opcode_8_5_5_5_5_4 0x1A#8 a b d 0x0#5 t
theorem Encoding.xor (a : BitVec 5) (b : BitVec 5) (d : BitVec 5) (t : BitVec 4) : Encoding.Statement (.xor a b d t) := opcode_8_5_5_5_5_4 0x1B#8 a b d 0x0#5 t
theorem Encoding.shl (a : BitVec 5) (b : BitVec 5) (d : BitVec 5) (t : BitVec 4) : Encoding.Statement (.shl a b d t) := opcode_8_5_5_5_5_4 0x1C#8 a b d 0x0#5 t
theorem Encoding.shr (a : BitVec 5) (b : BitVec 5) (d : BitVec 5) (t : BitVec 4) : Encoding.Statement (.shr a b d t) := opcode_8_5_5_5_5_4 0x1D#8 a b d 0x0#5 t
theorem Encoding.sar (a : BitVec 5) (b : BitVec 5) (d : BitVec 5) (t : BitVec 4) : Encoding.Statement (.sar a b d t) := opcode_8_5_5_5_5_4 0x1E#8 a b d 0x0#5 t
theorem Encoding.andn (a : BitVec 5) (b : BitVec 5) (d : BitVec 5) (t : BitVec 4) : Encoding.Statement (.andn a b d t) := opcode_8_5_5_5_5_4 0x1F#8 a b d 0x0#5 t
theorem Encoding.addk (a : BitVec 5) (k : BitVec 10) (d : BitVec 5) (t : BitVec 4) : Encoding.Statement (.addk a k d t) := opcode_8_5_5_5_5_4 0x20#8 a (k.extractLsb' 5 5) d (k.extractLsb' 0 5) t
theorem Encoding.andk (a : BitVec 5) (k : BitVec 10) (d : BitVec 5) (t : BitVec 4) : Encoding.Statement (.andk a k d t) := opcode_8_5_5_5_5_4 0x21#8 a (k.extractLsb' 5 5) d (k.extractLsb' 0 5) t
theorem Encoding.ork (a : BitVec 5) (k : BitVec 10) (d : BitVec 5) (t : BitVec 4) : Encoding.Statement (.ork a k d t) := opcode_8_5_5_5_5_4 0x22#8 a (k.extractLsb' 5 5) d (k.extractLsb' 0 5) t
theorem Encoding.xork (a : BitVec 5) (k : BitVec 10) (d : BitVec 5) (t : BitVec 4) : Encoding.Statement (.xork a k d t) := opcode_8_5_5_5_5_4 0x23#8 a (k.extractLsb' 5 5) d (k.extractLsb' 0 5) t
theorem Encoding.shlk (a : BitVec 5) (k : BitVec 10) (d : BitVec 5) (t : BitVec 4) : Encoding.Statement (.shlk a k d t) := opcode_8_5_5_5_5_4 0x24#8 a (k.extractLsb' 5 5) d (k.extractLsb' 0 5) t
theorem Encoding.shrk (a : BitVec 5) (k : BitVec 10) (d : BitVec 5) (t : BitVec 4) : Encoding.Statement (.shrk a k d t) := opcode_8_5_5_5_5_4 0x25#8 a (k.extractLsb' 5 5) d (k.extractLsb' 0 5) t
theorem Encoding.sark (a : BitVec 5) (k : BitVec 10) (d : BitVec 5) (t : BitVec 4) : Encoding.Statement (.sark a k d t) := opcode_8_5_5_5_5_4 0x26#8 a (k.extractLsb' 5 5) d (k.extractLsb' 0 5) t
theorem Encoding.ldk (k : BitVec 10) (d : BitVec 5) (t : BitVec 4) : Encoding.Statement (.ldk k d t) := opcode_13_5_5_5_4 0x4E0#13 (k.extractLsb' 5 5) d (k.extractLsb' 0 5) t
theorem Encoding.ldkh (a : BitVec 5) (k : BitVec 10) (d : BitVec 5) (t : BitVec 4) : Encoding.Statement (.ldkh a k d t) := opcode_8_5_5_5_5_4 0x28#8 a (k.extractLsb' 5 5) d (k.extractLsb' 0 5) t
theorem Encoding.ldl (k : BitVec 10) (d : BitVec 5) (t : BitVec 4) : Encoding.Statement (.ldl k d t) := opcode_13_5_5_5_4 0x520#13 (k.extractLsb' 5 5) d (k.extractLsb' 0 5) t
theorem Encoding.min (a : BitVec 5) (b : BitVec 5) (d : BitVec 5) (t : BitVec 4) : Encoding.Statement (.min a b d t) := opcode_8_5_5_5_5_4 0x2A#8 a b d 0x0#5 t
theorem Encoding.max (a : BitVec 5) (b : BitVec 5) (d : BitVec 5) (t : BitVec 4) : Encoding.Statement (.max a b d t) := opcode_8_5_5_5_5_4 0x2B#8 a b d 0x0#5 t
theorem Encoding.minu (a : BitVec 5) (b : BitVec 5) (d : BitVec 5) (t : BitVec 4) : Encoding.Statement (.minu a b d t) := opcode_8_5_5_5_5_4 0x2C#8 a b d 0x0#5 t
theorem Encoding.maxu (a : BitVec 5) (b : BitVec 5) (d : BitVec 5) (t : BitVec 4) : Encoding.Statement (.maxu a b d t) := opcode_8_5_5_5_5_4 0x2D#8 a b d 0x0#5 t
theorem Encoding.clz (a : BitVec 5) (d : BitVec 5) (t : BitVec 4) : Encoding.Statement (.clz a d t) := opcode_8_5_5_5_5_4 0x2E#8 a 0x0#5 d 0x0#5 t
theorem Encoding.popc (a : BitVec 5) (d : BitVec 5) (t : BitVec 4) : Encoding.Statement (.popc a d t) := opcode_8_5_5_5_5_4 0x2F#8 a 0x0#5 d 0x0#5 t
theorem Encoding.sext (a : BitVec 5) (k : BitVec 10) (d : BitVec 5) (t : BitVec 4) : Encoding.Statement (.sext a k d t) := opcode_8_5_5_5_5_4 0x30#8 a (k.extractLsb' 5 5) d (k.extractLsb' 0 5) t
theorem Encoding.zext (a : BitVec 5) (k : BitVec 10) (d : BitVec 5) (t : BitVec 4) : Encoding.Statement (.zext a k d t) := opcode_8_5_5_5_5_4 0x31#8 a (k.extractLsb' 5 5) d (k.extractLsb' 0 5) t
theorem Encoding.sel (a : BitVec 5) (b : BitVec 5) (d : BitVec 5) (e : BitVec 5) (t : BitVec 4) : Encoding.Statement (.sel a b d e t) := opcode_8_5_5_5_5_4 0x32#8 a b d e t
theorem Encoding.mac (a : BitVec 5) (b : BitVec 5) (d : BitVec 5) (t : BitVec 4) : Encoding.Statement (.mac a b d t) := opcode_8_5_5_5_5_4 0x33#8 a b d 0x0#5 t
theorem Encoding.adds (a : BitVec 5) (b : BitVec 5) (d : BitVec 5) (t : BitVec 4) : Encoding.Statement (.adds a b d t) := opcode_8_5_5_5_5_4 0x34#8 a b d 0x0#5 t
theorem Encoding.subs (a : BitVec 5) (b : BitVec 5) (d : BitVec 5) (t : BitVec 4) : Encoding.Statement (.subs a b d t) := opcode_8_5_5_5_5_4 0x35#8 a b d 0x0#5 t
theorem Encoding.cmpEq (a : BitVec 5) (b : BitVec 5) (d : BitVec 5) (e : BitVec 5) (t : BitVec 4) : Encoding.Statement (.cmpEq a b d e t) := opcode_8_5_5_5_5_4 0x38#8 a b d e t
theorem Encoding.cmpNe (a : BitVec 5) (b : BitVec 5) (d : BitVec 5) (e : BitVec 5) (t : BitVec 4) : Encoding.Statement (.cmpNe a b d e t) := opcode_8_5_5_5_5_4 0x39#8 a b d e t
theorem Encoding.cmpLt (a : BitVec 5) (b : BitVec 5) (d : BitVec 5) (e : BitVec 5) (t : BitVec 4) : Encoding.Statement (.cmpLt a b d e t) := opcode_8_5_5_5_5_4 0x3A#8 a b d e t
theorem Encoding.cmpLtu (a : BitVec 5) (b : BitVec 5) (d : BitVec 5) (e : BitVec 5) (t : BitVec 4) : Encoding.Statement (.cmpLtu a b d e t) := opcode_8_5_5_5_5_4 0x3B#8 a b d e t
theorem Encoding.cmpLe (a : BitVec 5) (b : BitVec 5) (d : BitVec 5) (e : BitVec 5) (t : BitVec 4) : Encoding.Statement (.cmpLe a b d e t) := opcode_8_5_5_5_5_4 0x3C#8 a b d e t
theorem Encoding.cmpLeu (a : BitVec 5) (b : BitVec 5) (d : BitVec 5) (e : BitVec 5) (t : BitVec 4) : Encoding.Statement (.cmpLeu a b d e t) := opcode_8_5_5_5_5_4 0x3D#8 a b d e t
theorem Encoding.cmpkEq (a : BitVec 5) (k : BitVec 10) (d : BitVec 5) (t : BitVec 4) : Encoding.Statement (.cmpkEq a k d t) := opcode_8_5_5_5_5_4 0x3E#8 a (k.extractLsb' 5 5) d (k.extractLsb' 0 5) t
theorem Encoding.cmpkLt (a : BitVec 5) (k : BitVec 10) (d : BitVec 5) (t : BitVec 4) : Encoding.Statement (.cmpkLt a k d t) := opcode_8_5_5_5_5_4 0x3F#8 a (k.extractLsb' 5 5) d (k.extractLsb' 0 5) t
theorem Encoding.pand (a : BitVec 5) (b : BitVec 5) (d : BitVec 5) (i : BitVec 5) (t : BitVec 4) : Encoding.Statement (.pand a b d i t) := opcode_8_5_5_5_5_4 0x40#8 a b d i t
theorem Encoding.por (a : BitVec 5) (b : BitVec 5) (d : BitVec 5) (i : BitVec 5) (t : BitVec 4) : Encoding.Statement (.por a b d i t) := opcode_8_5_5_5_5_4 0x41#8 a b d i t
theorem Encoding.pxor (a : BitVec 5) (b : BitVec 5) (d : BitVec 5) (i : BitVec 5) (t : BitVec 4) : Encoding.Statement (.pxor a b d i t) := opcode_8_5_5_5_5_4 0x42#8 a b d i t
theorem Encoding.pget (a : BitVec 5) (d : BitVec 5) (t : BitVec 4) : Encoding.Statement (.pget a d t) := opcode_8_5_5_5_5_4 0x43#8 a 0x0#5 d 0x0#5 t
theorem Encoding.pset (a : BitVec 5) (d : BitVec 5) (t : BitVec 4) : Encoding.Statement (.pset a d t) := opcode_8_5_5_5_5_4 0x44#8 a 0x0#5 d 0x0#5 t
theorem Encoding.br (o : BitVec 15) (t : BitVec 4) : Encoding.Statement (.br o t) := opcode_13_15_4 0x900#13 o t
theorem Encoding.brz (a : BitVec 5) (o : BitVec 15) (t : BitVec 4) : Encoding.Statement (.brz a o t) := opcode_8_5_15_4 0x49#8 a o t
theorem Encoding.brnz (a : BitVec 5) (o : BitVec 15) (t : BitVec 4) : Encoding.Statement (.brnz a o t) := opcode_8_5_15_4 0x4A#8 a o t
theorem Encoding.jl (o : BitVec 15) (t : BitVec 4) : Encoding.Statement (.jl o t) := opcode_13_15_4 0x960#13 o t
theorem Encoding.jr (a : BitVec 5) (t : BitVec 4) : Encoding.Statement (.jr a t) := opcode_8_5_15_4 0x4C#8 a 0x0#15 t
theorem Encoding.loop (a : BitVec 5) (o : BitVec 15) (t : BitVec 4) : Encoding.Statement (.loop a o t) := opcode_8_5_15_4 0x4D#8 a o t
theorem Encoding.reach (k : BitVec 10) (t : BitVec 4) : Encoding.Statement (.reach k t) := opcode_13_5_5_5_4 0xA00#13 (k.extractLsb' 5 5) 0x0#5 (k.extractLsb' 0 5) t
theorem Encoding.fence (k : BitVec 5) (t : BitVec 4) : Encoding.Statement (.fence k t) := opcode_23_5_4 0x288000#23 k t
theorem Encoding.drain (t : BitVec 4) : Encoding.Statement (.drain t) := opcode_28_4 0x5200000#28 t
theorem Encoding.retry (t : BitVec 4) : Encoding.Statement (.retry t) := opcode_28_4 0x5300000#28 t
theorem Encoding.ldB (a : BitVec 5) (k : BitVec 10) (d : BitVec 5) (t : BitVec 4) : Encoding.Statement (.ldB a k d t) := opcode_8_5_5_5_5_4 0x58#8 a (k.extractLsb' 5 5) d (k.extractLsb' 0 5) t
theorem Encoding.ldH (a : BitVec 5) (k : BitVec 10) (d : BitVec 5) (t : BitVec 4) : Encoding.Statement (.ldH a k d t) := opcode_8_5_5_5_5_4 0x59#8 a (k.extractLsb' 5 5) d (k.extractLsb' 0 5) t
theorem Encoding.ldW (a : BitVec 5) (k : BitVec 10) (d : BitVec 5) (t : BitVec 4) : Encoding.Statement (.ldW a k d t) := opcode_8_5_5_5_5_4 0x5A#8 a (k.extractLsb' 5 5) d (k.extractLsb' 0 5) t
theorem Encoding.ldD (a : BitVec 5) (k : BitVec 10) (d : BitVec 5) (t : BitVec 4) : Encoding.Statement (.ldD a k d t) := opcode_8_5_5_5_5_4 0x5B#8 a (k.extractLsb' 5 5) d (k.extractLsb' 0 5) t
theorem Encoding.stB (a : BitVec 5) (k : BitVec 10) (s : BitVec 5) (t : BitVec 4) : Encoding.Statement (.stB a k s t) := opcode_8_5_5_5_5_4 0x5C#8 a (k.extractLsb' 5 5) s (k.extractLsb' 0 5) t
theorem Encoding.stH (a : BitVec 5) (k : BitVec 10) (s : BitVec 5) (t : BitVec 4) : Encoding.Statement (.stH a k s t) := opcode_8_5_5_5_5_4 0x5D#8 a (k.extractLsb' 5 5) s (k.extractLsb' 0 5) t
theorem Encoding.stW (a : BitVec 5) (k : BitVec 10) (s : BitVec 5) (t : BitVec 4) : Encoding.Statement (.stW a k s t) := opcode_8_5_5_5_5_4 0x5E#8 a (k.extractLsb' 5 5) s (k.extractLsb' 0 5) t
theorem Encoding.stD (a : BitVec 5) (k : BitVec 10) (s : BitVec 5) (t : BitVec 4) : Encoding.Statement (.stD a k s t) := opcode_8_5_5_5_5_4 0x5F#8 a (k.extractLsb' 5 5) s (k.extractLsb' 0 5) t
theorem Encoding.ldx (a : BitVec 5) (b : BitVec 5) (d : BitVec 5) (e : BitVec 5) (t : BitVec 4) : Encoding.Statement (.ldx a b d e t) := opcode_8_5_5_5_5_4 0x60#8 a b d e t
theorem Encoding.stx (a : BitVec 5) (b : BitVec 5) (s : BitVec 5) (e : BitVec 5) (t : BitVec 4) : Encoding.Statement (.stx a b s e t) := opcode_8_5_5_5_5_4 0x61#8 a b s e t
theorem Encoding.ldV (a : BitVec 5) (d : BitVec 5) (e : BitVec 5) (t : BitVec 4) : Encoding.Statement (.ldV a d e t) := opcode_8_5_5_5_5_4 0x62#8 a 0x0#5 d e t
theorem Encoding.stV (a : BitVec 5) (s : BitVec 5) (e : BitVec 5) (t : BitVec 4) : Encoding.Statement (.stV a s e t) := opcode_8_5_5_5_5_4 0x63#8 a 0x0#5 s e t
theorem Encoding.atomAdd (a : BitVec 5) (b : BitVec 5) (d : BitVec 5) (t : BitVec 4) : Encoding.Statement (.atomAdd a b d t) := opcode_8_5_5_5_5_4 0x68#8 a b d 0x0#5 t
theorem Encoding.atomAnd (a : BitVec 5) (b : BitVec 5) (d : BitVec 5) (t : BitVec 4) : Encoding.Statement (.atomAnd a b d t) := opcode_8_5_5_5_5_4 0x69#8 a b d 0x0#5 t
theorem Encoding.atomOr (a : BitVec 5) (b : BitVec 5) (d : BitVec 5) (t : BitVec 4) : Encoding.Statement (.atomOr a b d t) := opcode_8_5_5_5_5_4 0x6A#8 a b d 0x0#5 t
theorem Encoding.atomXor (a : BitVec 5) (b : BitVec 5) (d : BitVec 5) (t : BitVec 4) : Encoding.Statement (.atomXor a b d t) := opcode_8_5_5_5_5_4 0x6B#8 a b d 0x0#5 t
theorem Encoding.atomMax (a : BitVec 5) (b : BitVec 5) (d : BitVec 5) (t : BitVec 4) : Encoding.Statement (.atomMax a b d t) := opcode_8_5_5_5_5_4 0x6C#8 a b d 0x0#5 t
theorem Encoding.atomMin (a : BitVec 5) (b : BitVec 5) (d : BitVec 5) (t : BitVec 4) : Encoding.Statement (.atomMin a b d t) := opcode_8_5_5_5_5_4 0x6D#8 a b d 0x0#5 t
theorem Encoding.atomXchg (a : BitVec 5) (b : BitVec 5) (d : BitVec 5) (t : BitVec 4) : Encoding.Statement (.atomXchg a b d t) := opcode_8_5_5_5_5_4 0x6E#8 a b d 0x0#5 t
theorem Encoding.atomCas (a : BitVec 5) (b : BitVec 5) (d : BitVec 5) (c : BitVec 5) (t : BitVec 4) : Encoding.Statement (.atomCas a b d c t) := opcode_8_5_5_5_5_4 0x6F#8 a b d c t
theorem Encoding.atomFadd (a : BitVec 5) (b : BitVec 5) (d : BitVec 5) (t : BitVec 4) : Encoding.Statement (.atomFadd a b d t) := opcode_8_5_5_5_5_4 0x70#8 a b d 0x0#5 t
theorem Encoding.atomBadd (a : BitVec 5) (b : BitVec 5) (d : BitVec 5) (t : BitVec 4) : Encoding.Statement (.atomBadd a b d t) := opcode_8_5_5_5_5_4 0x71#8 a b d 0x0#5 t
theorem Encoding.pushCore (a : BitVec 5) (b : BitVec 5) (d : BitVec 5) (t : BitVec 4) : Encoding.Statement (.pushCore a b d t) := opcode_8_5_5_5_5_4 0x78#8 a b d 0x0#5 t
theorem Encoding.pushHive (a : BitVec 5) (b : BitVec 5) (d : BitVec 5) (t : BitVec 4) : Encoding.Statement (.pushHive a b d t) := opcode_8_5_5_5_5_4 0x79#8 a b d 0x0#5 t
theorem Encoding.pushDie (a : BitVec 5) (b : BitVec 5) (d : BitVec 5) (t : BitVec 4) : Encoding.Statement (.pushDie a b d t) := opcode_8_5_5_5_5_4 0x7A#8 a b d 0x0#5 t
theorem Encoding.pushDev (a : BitVec 5) (b : BitVec 5) (d : BitVec 5) (t : BitVec 4) : Encoding.Statement (.pushDev a b d t) := opcode_8_5_5_5_5_4 0x7B#8 a b d 0x0#5 t
theorem Encoding.pushSys (a : BitVec 5) (b : BitVec 5) (d : BitVec 5) (t : BitVec 4) : Encoding.Statement (.pushSys a b d t) := opcode_8_5_5_5_5_4 0x7C#8 a b d 0x0#5 t
theorem Encoding.popCore (a : BitVec 5) (d : BitVec 5) (e : BitVec 5) (t : BitVec 4) : Encoding.Statement (.popCore a d e t) := opcode_8_5_5_5_5_4 0x7D#8 a 0x0#5 d e t
theorem Encoding.popHive (a : BitVec 5) (d : BitVec 5) (e : BitVec 5) (t : BitVec 4) : Encoding.Statement (.popHive a d e t) := opcode_8_5_5_5_5_4 0x7E#8 a 0x0#5 d e t
theorem Encoding.popDie (a : BitVec 5) (d : BitVec 5) (e : BitVec 5) (t : BitVec 4) : Encoding.Statement (.popDie a d e t) := opcode_8_5_5_5_5_4 0x7F#8 a 0x0#5 d e t
theorem Encoding.popDev (a : BitVec 5) (d : BitVec 5) (e : BitVec 5) (t : BitVec 4) : Encoding.Statement (.popDev a d e t) := opcode_8_5_5_5_5_4 0x80#8 a 0x0#5 d e t
theorem Encoding.popSys (a : BitVec 5) (d : BitVec 5) (e : BitVec 5) (t : BitVec 4) : Encoding.Statement (.popSys a d e t) := opcode_8_5_5_5_5_4 0x81#8 a 0x0#5 d e t
theorem Encoding.send (a : BitVec 5) (b : BitVec 5) (d : BitVec 5) (e : BitVec 5) (t : BitVec 4) : Encoding.Statement (.send a b d e t) := opcode_8_5_5_5_5_4 0x88#8 a b d e t
theorem Encoding.park (k : BitVec 10) (t : BitVec 4) : Encoding.Statement (.park k t) := opcode_13_5_5_5_4 0x1120#13 (k.extractLsb' 5 5) 0x0#5 (k.extractLsb' 0 5) t
theorem Encoding.waitm (t : BitVec 4) : Encoding.Statement (.waitm t) := opcode_28_4 0x8A00000#28 t
theorem Encoding.getm (d : BitVec 5) (e : BitVec 5) (t : BitVec 4) : Encoding.Statement (.getm d e t) := opcode_18_5_5_4 0x22C00#18 d e t
theorem Encoding.spawn (a : BitVec 5) (b : BitVec 5) (d : BitVec 5) (e : BitVec 5) (t : BitVec 4) : Encoding.Statement (.spawn a b d e t) := opcode_8_5_5_5_5_4 0x8C#8 a b d e t
theorem Encoding.join (a : BitVec 5) (d : BitVec 5) (t : BitVec 4) : Encoding.Statement (.join a d t) := opcode_8_5_5_5_5_4 0x8D#8 a 0x0#5 d 0x0#5 t
theorem Encoding.migr (a : BitVec 5) (t : BitVec 4) : Encoding.Statement (.migr a t) := opcode_8_5_15_4 0x8E#8 a 0x0#15 t
theorem Encoding.count (a : BitVec 5) (k : BitVec 10) (t : BitVec 4) : Encoding.Statement (.count a k t) := opcode_8_5_5_5_5_4 0x8F#8 a (k.extractLsb' 5 5) 0x0#5 (k.extractLsb' 0 5) t
theorem Encoding.cset (a : BitVec 5) (d : BitVec 5) (t : BitVec 4) : Encoding.Statement (.cset a d t) := opcode_8_5_5_5_5_4 0x90#8 a 0x0#5 d 0x0#5 t
theorem Encoding.haul (a : BitVec 5) (d : BitVec 5) (t : BitVec 4) : Encoding.Statement (.haul a d t) := opcode_8_5_5_5_5_4 0x98#8 a 0x0#5 d 0x0#5 t
theorem Encoding.haulX (a : BitVec 5) (d : BitVec 5) (t : BitVec 4) : Encoding.Statement (.haulX a d t) := opcode_8_5_5_5_5_4 0x99#8 a 0x0#5 d 0x0#5 t
theorem Encoding.hcancel (a : BitVec 5) (t : BitVec 4) : Encoding.Statement (.hcancel a t) := opcode_8_5_15_4 0x9A#8 a 0x0#15 t
theorem Encoding.hslot (a : BitVec 5) (t : BitVec 4) : Encoding.Statement (.hslot a t) := opcode_8_5_15_4 0x9B#8 a 0x0#15 t
theorem Encoding.hstat (a : BitVec 5) (d : BitVec 5) (t : BitVec 4) : Encoding.Statement (.hstat a d t) := opcode_8_5_5_5_5_4 0x9C#8 a 0x0#5 d 0x0#5 t
theorem Encoding.gang (a : BitVec 5) (t : BitVec 4) : Encoding.Statement (.gang a t) := opcode_8_5_15_4 0xA0#8 a 0x0#15 t
theorem Encoding.jzero (e : BitVec 5) (t : BitVec 4) : Encoding.Statement (.jzero e t) := opcode_23_5_4 0x508000#23 e t
theorem Encoding.jdrain (a : BitVec 5) (e : BitVec 5) (t : BitVec 4) : Encoding.Statement (.jdrain a e t) := opcode_8_5_10_5_4 0xA2#8 a 0x0#10 e t
theorem Encoding.jdrainO (g : BitVec 5) (k : BitVec 10) (b : BitVec 5) (t : BitVec 4) : Encoding.Statement (.jdrainO g k b t) := opcode_8_5_5_5_5_4 0xA3#8 g (k.extractLsb' 5 5) b (k.extractLsb' 0 5) t
theorem Encoding.jstat (d : BitVec 5) (e : BitVec 5) (t : BitVec 4) : Encoding.Statement (.jstat d e t) := opcode_18_5_5_4 0x29000#18 d e t
theorem Encoding.jred (d : BitVec 5) (t : BitVec 4) : Encoding.Statement (.jred d t) := opcode_18_5_5_4 0x29400#18 d 0x0#5 t
theorem Encoding.gload (a : BitVec 5) (d : BitVec 5) (t : BitVec 4) : Encoding.Statement (.gload a d t) := opcode_8_5_5_5_5_4 0xA8#8 a 0x0#5 d 0x0#5 t
theorem Encoding.gswap (a : BitVec 5) (b : BitVec 5) (t : BitVec 4) : Encoding.Statement (.gswap a b t) := opcode_8_5_5_10_4 0xA9#8 a b 0x0#10 t
theorem Encoding.gmark (a : BitVec 5) (b : BitVec 5) (t : BitVec 4) : Encoding.Statement (.gmark a b t) := opcode_8_5_5_10_4 0xAA#8 a b 0x0#10 t
theorem Encoding.gquiet (a : BitVec 5) (d : BitVec 5) (t : BitVec 4) : Encoding.Statement (.gquiet a d t) := opcode_8_5_5_5_5_4 0xAB#8 a 0x0#5 d 0x0#5 t
theorem Encoding.gctx (a : BitVec 5) (b : BitVec 5) (t : BitVec 4) : Encoding.Statement (.gctx a b t) := opcode_8_5_5_10_4 0xAC#8 a b 0x0#10 t
theorem Encoding.gsave (a : BitVec 5) (b : BitVec 5) (t : BitVec 4) : Encoding.Statement (.gsave a b t) := opcode_8_5_5_10_4 0xAD#8 a b 0x0#10 t
theorem Encoding.grest (a : BitVec 5) (b : BitVec 5) (t : BitVec 4) : Encoding.Statement (.grest a b t) := opcode_8_5_5_10_4 0xAE#8 a b 0x0#10 t
theorem Encoding.wopen (a : BitVec 5) (d : BitVec 5) (t : BitVec 4) : Encoding.Statement (.wopen a d t) := opcode_8_5_5_5_5_4 0xB0#8 a 0x0#5 d 0x0#5 t
theorem Encoding.wclose (a : BitVec 5) (t : BitVec 4) : Encoding.Statement (.wclose a t) := opcode_8_5_15_4 0xB1#8 a 0x0#15 t
theorem Encoding.rget (a : BitVec 5) (d : BitVec 5) (t : BitVec 4) : Encoding.Statement (.rget a d t) := opcode_8_5_5_5_5_4 0xB2#8 a 0x0#5 d 0x0#5 t
theorem Encoding.rput (a : BitVec 5) (d : BitVec 5) (t : BitVec 4) : Encoding.Statement (.rput a d t) := opcode_8_5_5_5_5_4 0xB3#8 a 0x0#5 d 0x0#5 t
theorem Encoding.ratom (a : BitVec 5) (d : BitVec 5) (t : BitVec 4) : Encoding.Statement (.ratom a d t) := opcode_8_5_5_5_5_4 0xB4#8 a 0x0#5 d 0x0#5 t
theorem Encoding.nstat (a : BitVec 5) (d : BitVec 5) (t : BitVec 4) : Encoding.Statement (.nstat a d t) := opcode_8_5_5_5_5_4 0xB5#8 a 0x0#5 d 0x0#5 t
theorem Encoding.cjoin (a : BitVec 5) (d : BitVec 5) (t : BitVec 4) : Encoding.Statement (.cjoin a d t) := opcode_8_5_5_5_5_4 0xB8#8 a 0x0#5 d 0x0#5 t
theorem Encoding.cstat (a : BitVec 5) (d : BitVec 5) (t : BitVec 4) : Encoding.Statement (.cstat a d t) := opcode_8_5_5_5_5_4 0xB9#8 a 0x0#5 d 0x0#5 t
theorem Encoding.mov (a : BitVec 5) (d : BitVec 5) (e : BitVec 5) (t : BitVec 4) : Encoding.Statement (.mov a d e t) := opcode_8_5_5_5_5_4 0xC0#8 a 0x0#5 d e t
theorem Encoding.pick (a : BitVec 5) (b : BitVec 5) (d : BitVec 5) (e : BitVec 5) (t : BitVec 4) : Encoding.Statement (.pick a b d e t) := opcode_8_5_5_5_5_4 0xC1#8 a b d e t
theorem Encoding.steer (a : BitVec 5) (b : BitVec 5) (d : BitVec 5) (e : BitVec 5) : Encoding.Statement (.steer a b d e) := opcode_8_5_5_5_5_4 0xC2#8 a b d e 0x1#4
theorem Encoding.merge (a : BitVec 5) (k : BitVec 10) (d : BitVec 5) (t : BitVec 4) : Encoding.Statement (.merge a k d t) := opcode_8_5_5_5_5_4 0xC3#8 a (k.extractLsb' 5 5) d (k.extractLsb' 0 5) t
theorem Encoding.mergeu (a : BitVec 5) (b : BitVec 5) (d : BitVec 5) (t : BitVec 4) : Encoding.Statement (.mergeu a b d t) := opcode_8_5_5_5_5_4 0xC4#8 a b d 0x0#5 t
theorem Encoding.guard (a : BitVec 5) (b : BitVec 5) (d : BitVec 5) : Encoding.Statement (.guard a b d) := opcode_8_5_5_5_9 0xC5#8 a b d 0x0#9
theorem Encoding.gen (a : BitVec 5) (d : BitVec 5) (e : BitVec 5) (t : BitVec 4) : Encoding.Statement (.gen a d e t) := opcode_8_5_5_5_5_4 0xC6#8 a 0x0#5 d e t
theorem Encoding.rep (a : BitVec 5) (b : BitVec 5) (d : BitVec 5) (e : BitVec 5) (t : BitVec 4) : Encoding.Statement (.rep a b d e t) := opcode_8_5_5_5_5_4 0xC7#8 a b d e t
theorem Encoding.drop (a : BitVec 5) (t : BitVec 4) : Encoding.Statement (.drop a t) := opcode_8_5_15_4 0xC8#8 a 0x0#15 t
theorem Encoding.eos (a : BitVec 5) (d : BitVec 5) (e : BitVec 5) (t : BitVec 4) : Encoding.Statement (.eos a d e t) := opcode_8_5_5_5_5_4 0xC9#8 a 0x0#5 d e t
theorem Encoding.ctl (a : BitVec 5) (d : BitVec 5) (e : BitVec 5) (t : BitVec 4) : Encoding.Statement (.ctl a d e t) := opcode_8_5_5_5_5_4 0xCA#8 a 0x0#5 d e t
theorem Encoding.sync (a : BitVec 5) (d : BitVec 5) (e : BitVec 5) (t : BitVec 4) : Encoding.Statement (.sync a d e t) := opcode_8_5_5_5_5_4 0xCB#8 a 0x0#5 d e t
theorem Encoding.vadd (a : BitVec 5) (b : BitVec 5) (d : BitVec 5) (e : BitVec 5) (t : BitVec 4) : Encoding.Statement (.vadd a b d e t) := opcode_8_5_5_5_5_4 0xD0#8 a b d e t
theorem Encoding.vsub (a : BitVec 5) (b : BitVec 5) (d : BitVec 5) (e : BitVec 5) (t : BitVec 4) : Encoding.Statement (.vsub a b d e t) := opcode_8_5_5_5_5_4 0xD1#8 a b d e t
theorem Encoding.vmul (a : BitVec 5) (b : BitVec 5) (d : BitVec 5) (e : BitVec 5) (t : BitVec 4) : Encoding.Statement (.vmul a b d e t) := opcode_8_5_5_5_5_4 0xD2#8 a b d e t
theorem Encoding.vfma (a : BitVec 5) (b : BitVec 5) (d : BitVec 5) (e : BitVec 5) (t : BitVec 4) : Encoding.Statement (.vfma a b d e t) := opcode_8_5_5_5_5_4 0xD3#8 a b d e t
theorem Encoding.vmax (a : BitVec 5) (b : BitVec 5) (d : BitVec 5) (e : BitVec 5) (t : BitVec 4) : Encoding.Statement (.vmax a b d e t) := opcode_8_5_5_5_5_4 0xD4#8 a b d e t
theorem Encoding.vmin (a : BitVec 5) (b : BitVec 5) (d : BitVec 5) (e : BitVec 5) (t : BitVec 4) : Encoding.Statement (.vmin a b d e t) := opcode_8_5_5_5_5_4 0xD5#8 a b d e t
theorem Encoding.vand (a : BitVec 5) (b : BitVec 5) (d : BitVec 5) (e : BitVec 5) (t : BitVec 4) : Encoding.Statement (.vand a b d e t) := opcode_8_5_5_5_5_4 0xD6#8 a b d e t
theorem Encoding.vor (a : BitVec 5) (b : BitVec 5) (d : BitVec 5) (e : BitVec 5) (t : BitVec 4) : Encoding.Statement (.vor a b d e t) := opcode_8_5_5_5_5_4 0xD7#8 a b d e t
theorem Encoding.vxor (a : BitVec 5) (b : BitVec 5) (d : BitVec 5) (e : BitVec 5) (t : BitVec 4) : Encoding.Statement (.vxor a b d e t) := opcode_8_5_5_5_5_4 0xD8#8 a b d e t
theorem Encoding.vshl (a : BitVec 5) (b : BitVec 5) (d : BitVec 5) (e : BitVec 5) (t : BitVec 4) : Encoding.Statement (.vshl a b d e t) := opcode_8_5_5_5_5_4 0xD9#8 a b d e t
theorem Encoding.vshr (a : BitVec 5) (b : BitVec 5) (d : BitVec 5) (e : BitVec 5) (t : BitVec 4) : Encoding.Statement (.vshr a b d e t) := opcode_8_5_5_5_5_4 0xDA#8 a b d e t
theorem Encoding.vcmpEq (a : BitVec 5) (b : BitVec 5) (d : BitVec 5) (e : BitVec 5) (t : BitVec 4) : Encoding.Statement (.vcmpEq a b d e t) := opcode_8_5_5_5_5_4 0xDB#8 a b d e t
theorem Encoding.vcmpLt (a : BitVec 5) (b : BitVec 5) (d : BitVec 5) (e : BitVec 5) (t : BitVec 4) : Encoding.Statement (.vcmpLt a b d e t) := opcode_8_5_5_5_5_4 0xDC#8 a b d e t
theorem Encoding.vabs (a : BitVec 5) (d : BitVec 5) (e : BitVec 5) (t : BitVec 4) : Encoding.Statement (.vabs a d e t) := opcode_8_5_5_5_5_4 0xDD#8 a 0x0#5 d e t
theorem Encoding.vred (a : BitVec 5) (d : BitVec 5) (e : BitVec 5) (t : BitVec 4) : Encoding.Statement (.vred a d e t) := opcode_8_5_5_5_5_4 0xDE#8 a 0x0#5 d e t
theorem Encoding.vdot (a : BitVec 5) (b : BitVec 5) (d : BitVec 5) (e : BitVec 5) (t : BitVec 4) : Encoding.Statement (.vdot a b d e t) := opcode_8_5_5_5_5_4 0xDF#8 a b d e t
theorem Encoding.vcvt (a : BitVec 5) (k : BitVec 10) (d : BitVec 5) (t : BitVec 4) : Encoding.Statement (.vcvt a k d t) := opcode_8_5_5_5_5_4 0xE0#8 a (k.extractLsb' 5 5) d (k.extractLsb' 0 5) t
theorem Encoding.vrcp (a : BitVec 5) (d : BitVec 5) (e : BitVec 5) (t : BitVec 4) : Encoding.Statement (.vrcp a d e t) := opcode_8_5_5_5_5_4 0xE1#8 a 0x0#5 d e t
theorem Encoding.vrsq (a : BitVec 5) (d : BitVec 5) (e : BitVec 5) (t : BitVec 4) : Encoding.Statement (.vrsq a d e t) := opcode_8_5_5_5_5_4 0xE2#8 a 0x0#5 d e t
theorem Encoding.vexp2 (a : BitVec 5) (d : BitVec 5) (e : BitVec 5) (t : BitVec 4) : Encoding.Statement (.vexp2 a d e t) := opcode_8_5_5_5_5_4 0xE3#8 a 0x0#5 d e t
theorem Encoding.vlog2 (a : BitVec 5) (d : BitVec 5) (e : BitVec 5) (t : BitVec 4) : Encoding.Statement (.vlog2 a d e t) := opcode_8_5_5_5_5_4 0xE4#8 a 0x0#5 d e t
theorem Encoding.vperm (a : BitVec 5) (b : BitVec 5) (d : BitVec 5) (e : BitVec 5) (t : BitVec 4) : Encoding.Statement (.vperm a b d e t) := opcode_8_5_5_5_5_4 0xE5#8 a b d e t
theorem Encoding.vbcast (a : BitVec 5) (b : BitVec 5) (d : BitVec 5) (e : BitVec 5) (t : BitVec 4) : Encoding.Statement (.vbcast a b d e t) := opcode_8_5_5_5_5_4 0xE6#8 a b d e t
theorem Encoding.vscan (a : BitVec 5) (d : BitVec 5) (e : BitVec 5) (t : BitVec 4) : Encoding.Statement (.vscan a d e t) := opcode_8_5_5_5_5_4 0xE7#8 a 0x0#5 d e t
theorem Encoding.mld (a : BitVec 5) (d : BitVec 5) (e : BitVec 5) (t : BitVec 4) : Encoding.Statement (.mld a d e t) := opcode_8_5_5_5_5_4 0xE8#8 a 0x0#5 d e t
theorem Encoding.mst (a : BitVec 5) (b : BitVec 5) (d : BitVec 5) (e : BitVec 5) (t : BitVec 4) : Encoding.Statement (.mst a b d e t) := opcode_8_5_5_5_5_4 0xE9#8 a b d e t
theorem Encoding.matom (a : BitVec 5) (k : BitVec 10) (d : BitVec 5) (t : BitVec 4) : Encoding.Statement (.matom a k d t) := opcode_8_5_5_5_5_4 0xEA#8 a (k.extractLsb' 5 5) d (k.extractLsb' 0 5) t
theorem Encoding.sld (s : BitVec 5) (d : BitVec 5) (e : BitVec 5) (t : BitVec 4) : Encoding.Statement (.sld s d e t) := opcode_13_5_5_5_4 0x1D60#13 s d e t
theorem Encoding.sst (a : BitVec 5) (g : BitVec 5) (t : BitVec 4) : Encoding.Statement (.sst a g t) := opcode_8_5_5_10_4 0xEC#8 a g 0x0#10 t
theorem Encoding.bmexp (a : BitVec 5) (b : BitVec 5) (d : BitVec 5) (e : BitVec 5) (t : BitVec 4) : Encoding.Statement (.bmexp a b d e t) := opcode_8_5_5_5_5_4 0xED#8 a b d e t
theorem Encoding.isect (a : BitVec 5) (b : BitVec 5) (d : BitVec 5) (e : BitVec 5) (t : BitVec 4) : Encoding.Statement (.isect a b d e t) := opcode_8_5_5_5_5_4 0xEE#8 a b d e t
theorem Encoding.xsend (a : BitVec 5) (d : BitVec 5) : Encoding.Statement (.xsend a d) := opcode_8_5_5_5_9 0xEF#8 a 0x0#5 d 0x0#9
theorem Encoding.xrecv (a : BitVec 5) (d : BitVec 5) (e : BitVec 5) (t : BitVec 4) : Encoding.Statement (.xrecv a d e t) := opcode_8_5_5_5_5_4 0xF0#8 a 0x0#5 d e t
theorem Encoding.illegalOp : Encoding.Statement .illegalOp := rfl
theorem Encoding.fetchBounds : Encoding.Statement .fetchBounds := rfl
theorem Encoding.launch : Encoding.Statement .launch := rfl
theorem Encoding.spanJoin : Encoding.Statement .spanJoin := rfl
theorem Encoding.spanAnswer : Encoding.Statement .spanAnswer := rfl
theorem Encoding.spanJoinTimeout : Encoding.Statement .spanJoinTimeout := rfl
theorem Encoding.spanLeadTimeout : Encoding.Statement .spanLeadTimeout := rfl
theorem Encoding.jobEnd : Encoding.Statement .jobEnd := rfl
theorem Encoding.jobEndTeardown : Encoding.Statement .jobEndTeardown := rfl
theorem Encoding.completionDetect : Encoding.Statement .completionDetect := rfl
theorem Encoding.deadlockDetect : Encoding.Statement .deadlockDetect := rfl
theorem Encoding.quietReport : Encoding.Statement .quietReport := rfl
theorem Encoding.activeReport : Encoding.Statement .activeReport := rfl
theorem Encoding.freshReportRequest : Encoding.Statement .freshReportRequest := rfl
theorem Encoding.leadUnreachable : Encoding.Statement .leadUnreachable := rfl
theorem Encoding.spanKill : Encoding.Statement .spanKill := rfl
theorem Encoding.bargeArrival : Encoding.Statement .bargeArrival := rfl
theorem Encoding.busyReply : Encoding.Statement .busyReply := rfl
theorem Encoding.bargeResend : Encoding.Statement .bargeResend := rfl
theorem Encoding.remoteReject : Encoding.Statement .remoteReject := rfl
theorem Encoding.promotion : Encoding.Statement .promotion := rfl
theorem Encoding.faultRedelivery : Encoding.Statement .faultRedelivery := rfl
theorem Encoding.dispatch : Encoding.Statement .dispatch := rfl
theorem Encoding.deposit : Encoding.Statement .deposit := rfl
theorem Encoding.heldDepositApply : Encoding.Statement .heldDepositApply := rfl
theorem Encoding.loadReply : Encoding.Statement .loadReply := rfl
theorem Encoding.completionArrival : Encoding.Statement .completionArrival := rfl
theorem Encoding.stealRequest : Encoding.Statement .stealRequest := rfl
theorem Encoding.stealVictim : Encoding.Statement .stealVictim := rfl
theorem Encoding.stealAnswer : Encoding.Statement .stealAnswer := rfl
theorem Encoding.joinPerform : Encoding.Statement .joinPerform := rfl
theorem Encoding.counterArrival : Encoding.Statement .counterArrival := rfl
theorem Encoding.counterCarryFire : Encoding.Statement .counterCarryFire := rfl
theorem Encoding.commit : Encoding.Statement .commit := rfl
theorem Encoding.effectRelease : Encoding.Statement .effectRelease := rfl
theorem Encoding.probeAnswer : Encoding.Statement .probeAnswer := rfl
theorem Encoding.preemption : Encoding.Statement .preemption := rfl
theorem Encoding.preemptionEnd : Encoding.Statement .preemptionEnd := rfl
theorem Encoding.rank7Fault : Encoding.Statement .rank7Fault := rfl
theorem Encoding.faultResume : Encoding.Statement .faultResume := rfl
theorem Encoding.loadPerform : Encoding.Statement .loadPerform := rfl
theorem Encoding.storePerform : Encoding.Statement .storePerform := rfl
theorem Encoding.storeAck : Encoding.Statement .storeAck := rfl
theorem Encoding.atomicPerform : Encoding.Statement .atomicPerform := rfl
theorem Encoding.queueReserve : Encoding.Statement .queueReserve := rfl
theorem Encoding.queueSettle : Encoding.Statement .queueSettle := rfl
theorem Encoding.snoopRecall : Encoding.Statement .snoopRecall := rfl
theorem Encoding.companionRequest : Encoding.Statement .companionRequest := rfl
theorem Encoding.pushSend : Encoding.Statement .pushSend := rfl
theorem Encoding.migrShip : Encoding.Statement .migrShip := rfl
theorem Encoding.fenceDone : Encoding.Statement .fenceDone := rfl
theorem Encoding.drainDone : Encoding.Statement .drainDone := rfl
theorem Encoding.translation : Encoding.Statement .translation := rfl
theorem Encoding.pageWalk : Encoding.Statement .pageWalk := rfl
theorem Encoding.missRetry : Encoding.Statement .missRetry := rfl
theorem Encoding.shootdown : Encoding.Statement .shootdown := rfl
theorem Encoding.shot : Encoding.Statement .shot := rfl
theorem Encoding.tokenArrival : Encoding.Statement .tokenArrival := rfl
theorem Encoding.arcAck : Encoding.Statement .arcAck := rfl
theorem Encoding.planeSwitch : Encoding.Statement .planeSwitch := rfl
theorem Encoding.memNodeCompletion : Encoding.Statement .memNodeCompletion := rfl
theorem Encoding.writePortToken : Encoding.Statement .writePortToken := rfl
theorem Encoding.bufferReopen : Encoding.Statement .bufferReopen := rfl
theorem Encoding.passStart : Encoding.Statement .passStart := rfl
theorem Encoding.towpathStart : Encoding.Statement .towpathStart := rfl
theorem Encoding.towpathStop : Encoding.Statement .towpathStop := rfl
theorem Encoding.freedSlotNotice : Encoding.Statement .freedSlotNotice := rfl
theorem Encoding.jointBarrier : Encoding.Statement .jointBarrier := rfl
theorem Encoding.opHeadCheck : Encoding.Statement .opHeadCheck := rfl
theorem Encoding.opStart : Encoding.Statement .opStart := rfl
theorem Encoding.blockStart : Encoding.Statement .blockStart := rfl
theorem Encoding.opComplete : Encoding.Statement .opComplete := rfl
theorem Encoding.sliceStart : Encoding.Statement .sliceStart := rfl
theorem Encoding.jdrainComplete : Encoding.Statement .jdrainComplete := rfl
theorem Encoding.partialCombine : Encoding.Statement .partialCombine := rfl
theorem Encoding.haulStart : Encoding.Statement .haulStart := rfl
theorem Encoding.haulAccessAnswer : Encoding.Statement .haulAccessAnswer := rfl
theorem Encoding.haulComplete : Encoding.Statement .haulComplete := rfl
theorem Encoding.haulCancel : Encoding.Statement .haulCancel := rfl
theorem Encoding.hslotPerform : Encoding.Statement .hslotPerform := rfl
theorem Encoding.graphReserve : Encoding.Statement .graphReserve := rfl
theorem Encoding.gloadPerform : Encoding.Statement .gloadPerform := rfl
theorem Encoding.gloadDone : Encoding.Statement .gloadDone := rfl
theorem Encoding.gswapPerform : Encoding.Statement .gswapPerform := rfl
theorem Encoding.reconfPass : Encoding.Statement .reconfPass := rfl
theorem Encoding.swapEnd : Encoding.Statement .swapEnd := rfl
theorem Encoding.gmarkPerform : Encoding.Statement .gmarkPerform := rfl
theorem Encoding.nodeRecord : Encoding.Statement .nodeRecord := rfl
theorem Encoding.cutComplete : Encoding.Statement .cutComplete := rfl
theorem Encoding.gsavePerform : Encoding.Statement .gsavePerform := rfl
theorem Encoding.gsaveDone : Encoding.Statement .gsaveDone := rfl
theorem Encoding.grestPerform : Encoding.Statement .grestPerform := rfl
theorem Encoding.grestDone : Encoding.Statement .grestDone := rfl
theorem Encoding.gctxPerform : Encoding.Statement .gctxPerform := rfl
theorem Encoding.replayRequest : Encoding.Statement .replayRequest := rfl
theorem Encoding.laneSpare : Encoding.Statement .laneSpare := rfl
theorem Encoding.laneSpareDone : Encoding.Statement .laneSpareDone := rfl
theorem Encoding.linkDown : Encoding.Statement .linkDown := rfl
theorem Encoding.linkTrain : Encoding.Statement .linkTrain := rfl
theorem Encoding.routerAccept : Encoding.Statement .routerAccept := rfl
theorem Encoding.routerAck : Encoding.Statement .routerAck := rfl
theorem Encoding.routerResend : Encoding.Statement .routerResend := rfl
theorem Encoding.windowReserve : Encoding.Statement .windowReserve := rfl
theorem Encoding.windowPieceCheck : Encoding.Statement .windowPieceCheck := rfl
theorem Encoding.wclosePerform : Encoding.Statement .wclosePerform := rfl
theorem Encoding.windowFreed : Encoding.Statement .windowFreed := rfl
theorem Encoding.ratomPerform : Encoding.Statement .ratomPerform := rfl
theorem Encoding.remoteAnswer : Encoding.Statement .remoteAnswer := rfl
theorem Encoding.remoteAttemptTimeout : Encoding.Statement .remoteAttemptTimeout := rfl
theorem Encoding.requestIdRelease : Encoding.Statement .requestIdRelease := rfl
theorem Encoding.requestIdExpiry : Encoding.Statement .requestIdExpiry := rfl
theorem Encoding.cjoinReserve : Encoding.Statement .cjoinReserve := rfl
theorem Encoding.cjoinCheck : Encoding.Statement .cjoinCheck := rfl
theorem Encoding.pathCheck : Encoding.Statement .pathCheck := rfl
theorem Encoding.pathCheckAnswer : Encoding.Statement .pathCheckAnswer := rfl
theorem Encoding.pathCheckReask : Encoding.Statement .pathCheckReask := rfl
theorem Encoding.keyInstallAck : Encoding.Statement .keyInstallAck := rfl
theorem Encoding.contributionArrival : Encoding.Statement .contributionArrival := rfl
theorem Encoding.resultArrival : Encoding.Statement .resultArrival := rfl
theorem Encoding.spdmResponse : Encoding.Statement .spdmResponse := rfl
theorem Encoding.spdmTimeout : Encoding.Statement .spdmTimeout := rfl
theorem Encoding.spdmRequest : Encoding.Statement .spdmRequest := rfl
theorem Encoding.policy : Encoding.Statement .policy := rfl
theorem Encoding.elementError : Encoding.Statement .elementError := rfl
theorem Encoding.spareMove : Encoding.Statement .spareMove := rfl
theorem Encoding.twin : Encoding.Statement .twin := rfl
theorem Encoding.kill : Encoding.Statement .kill := rfl
theorem Encoding.unpinnedError : Encoding.Statement .unpinnedError := rfl
theorem Encoding.dieKill : Encoding.Statement .dieKill := rfl
theorem Encoding.killDrainDone : Encoding.Statement .killDrainDone := rfl
theorem Encoding.scrubDone : Encoding.Statement .scrubDone := rfl
theorem Encoding.lockkeeperMemoryError : Encoding.Statement .lockkeeperMemoryError := rfl
theorem Encoding.lockkeeperRestartDone : Encoding.Statement .lockkeeperRestartDone := rfl
theorem Encoding.powerGood : Encoding.Statement .powerGood := rfl
theorem Encoding.calibrate : Encoding.Statement .calibrate := rfl
theorem Encoding.memoryZeroInit : Encoding.Statement .memoryZeroInit := rfl
theorem Encoding.elementSelfTest : Encoding.Statement .elementSelfTest := rfl
theorem Encoding.ready : Encoding.Statement .ready := rfl
theorem Encoding.bargePortWrite : Encoding.Statement .bargePortWrite := rfl
theorem Encoding.unknownService : Encoding.Statement .unknownService := rfl
theorem Encoding.claimWrite : Encoding.Statement .claimWrite := rfl
theorem Encoding.relinquish : Encoding.Statement .relinquish := rfl
theorem Encoding.handover : Encoding.Statement .handover := rfl
theorem Encoding.handoverTimeout : Encoding.Statement .handoverTimeout := rfl
theorem Encoding.ownerPathLost : Encoding.Statement .ownerPathLost := rfl
theorem Encoding.hiveFence : Encoding.Statement .hiveFence := rfl
theorem Encoding.hiveMoveDone : Encoding.Statement .hiveMoveDone := rfl
theorem Encoding.hiveTest : Encoding.Statement .hiveTest := rfl
theorem Encoding.hiveTestDone : Encoding.Statement .hiveTestDone := rfl
theorem Encoding.hiveRepair : Encoding.Statement .hiveRepair := rfl
theorem Encoding.hiveOnline : Encoding.Statement .hiveOnline := rfl
theorem Encoding.linkOff : Encoding.Statement .linkOff := rfl
theorem Encoding.rasClear : Encoding.Statement .rasClear := rfl
theorem Encoding.hostBasinBase : Encoding.Statement .hostBasinBase := rfl
theorem Encoding.hostBasinHead : Encoding.Statement .hostBasinHead := rfl
theorem Encoding.powerCap : Encoding.Statement .powerCap := rfl
theorem Encoding.powerEventClear : Encoding.Statement .powerEventClear := rfl
theorem Encoding.thermalLimit : Encoding.Statement .thermalLimit := rfl
theorem Encoding.dcrWrite : Encoding.Statement .dcrWrite := rfl
theorem Encoding.thermalCrossing : Encoding.Statement .thermalCrossing := rfl
theorem Encoding.thermalTrip : Encoding.Statement .thermalTrip := rfl
theorem Encoding.fwStage : Encoding.Statement .fwStage := rfl
theorem Encoding.fwActivate : Encoding.Statement .fwActivate := rfl
theorem Encoding.capReached : Encoding.Statement .capReached := rfl
theorem Encoding.pathCheckTimeout : Encoding.Statement .pathCheckTimeout := rfl
theorem Encoding.linkFlitAck : Encoding.Statement .linkFlitAck := rfl
theorem Encoding.blockEnd : Encoding.Statement .blockEnd := rfl
theorem Encoding.leadSessionResponse : Encoding.Statement .leadSessionResponse := rfl
theorem Encoding.switchErrorAnswer : Encoding.Statement .switchErrorAnswer := rfl

end Sys2Proof.Laws
end

