-- ==== Sys2Proof/Laws/Rule.lean ====
section
/-! SUPPORT. What a firing of a rule does: the shared operations of the rule instructions, once. -/

namespace Sys2Proof.Laws

open Sys2Proof Sys2Proof.Machine Sys2Proof.Safety

/-- A rule that fires does its instruction's action, with its word and its trigger entry. -/
theorem elemInstr_of_fires {s : State} {i : Instr} {t : BitVec 32} (h : Fires s i t) (act : State → RuleId → BitVec 32 → BitVec 32 → State) :
    elemInstr i act s = .next (act s s.curR (encode i) t) := by
  obtain ⟨h1, h2, h3⟩ := h
  simp only [elemInstr, h1, h2, h3]; simp

/-- A memory rule whose access still holds its operands is not ready: it fires again once the translation has answered (R277). -/
theorem unheld_of_holds {s : State} {r : RuleId} {a : NodeAcc} (h : a ∈ (s.plane r.plane).accs) (hold : a.holds = true)
    (own : a.slot = r.slot) : s.unheld r = false := by
  have taken : (s.plane r.plane).accs.any (fun b => s.takes r b || (b.slot = r.slot && b.st = .nacked)) = true :=
    List.any_eq_true.mpr ⟨a, h, by simp [State.takes, hold, own]⟩
  simp [State.unheld, taken]

/-- A change of the tokens changes the writes of a tag action in the same way. -/
theorem tagWrites_map (w : BitVec 32) (x y : Token) (m : Token → Token) :
    (tagWrites w x y).map (fun q => (q.1, m q.2)) = tagWrites w (m x) (m y) := by
  simp only [tagWrites]
  repeat' split
  all_goals simp

/-- The one firing of the instructions that read up to two sources: the sources are read, the plane is as the instruction's function
gives it, the writes carry the sources' poison, then come the q update, acc and the pops. -/
theorem stdFire_of_fires {s : State} {i : Instr} {t : BitVec 32} (h : Fires s i t) (a b : Option (BitVec 5))
    (f : Plane → Nat → BitVec 32 → Token → Token → Fired) :
    stdFire i a b f s = .next (
      let z0 := sources s t a b
      let z := f { mine s with sp := z0.2.2 } s.cycle t z0.1 z0.2.1
      let bad := z0.1.poison || z0.2.1.poison
      let mark (k : Token) : Token := { k with poison := k.poison || bad }
      let u := puts ((counted s).setPlane s.curR.plane z.p) s.curR ((z.writes.getD (tagWrites (encode i) z.x z.y)).map (fun q => (q.1, mark q.2)))
      let u := u.onPlane s.curR.plane (qAction (encode i) (laneTest (trFmt t) z.x.data))
      let u := match z.acc with | some v => u.onPlane s.curR.plane (fun p => { p with acc := v }) | none => u
      popped u s.curR (z.pops.getD (maskList (trPop t)))) := by
  rw [stdFire, elemInstr_of_fires h]
  simp only [sources, mine, counted, puts, popped, List.foldl_map]
  rfl

/-- The same where the instruction gives one result and nothing else is special. -/
theorem stdFire_one {s : State} {i : Instr} {t : BitVec 32} (h : Fires s i t) {a b : Option (BitVec 5)}
    {f : Plane → Nat → BitVec 32 → Token → Token → Fired} {p : Plane} {x v : Token}
    (hf : f { mine s with sp := (sources s t a b).2.2 } s.cycle t (sources s t a b).1 (sources s t a b).2.1 = one p x)
    (hv : v = { x with poison := x.poison || ((sources s t a b).1.poison || (sources s t a b).2.1.poison) }) :
    stdFire i a b f s = .next (yields s i t p v) := by
  subst hv
  rw [stdFire_of_fires h]
  simp only [hf, one, Option.getD, yields, landed]
  have := tagWrites_map (encode i) x x (fun k => { k with poison := k.poison || ((sources s t a b).1.poison || (sources s t a b).2.1.poison) })
  rw [this]

end Sys2Proof.Laws
end

