-- ==== Sys2Proof/Tests/Slice0.lean ====
section
/-! SUPPORT. Tests: ill-formed terms, words written out from the spec's encodings, single steps, and for each obligation with
hypotheses a state and operands that meet them. -/

namespace Sys2Proof.Tests

set_option Elab.async false

open Sys2Proof Sys2Proof.Machine Sys2Proof.Safety

/-- Whether an outcome is a next state of which something holds. -/
def nextIs (o : Host.Outcome State Fault Refusal) (p : State → Bool) : Bool := match o with | .next t => p t | _ => false

/-! ## Words (expected from R31, R32, R50 and each description's fields) -/

theorem test_words_system : decodeThread 0x02000000 = .ok (.done 0) ∧ decodeThread 0x04004400 = .ok (.csrr 0x020 2 0) ∧
    decodeThread 0x03000050 = .ok (.trap 5 0) ∧ decodeThread 0x07000050 = .ok (.brk 5 0) ∧
    decodeThread 0x08000610 = .ok (.stat 1 3 0) ∧ decodeThread 0x09000800 = .ok (.clk 4 0) ∧
    decodeThread 0x0A000440 = .ok (.id 2 4 0) := ⟨rfl, rfl, rfl, rfl, rfl, rfl, rfl⟩
theorem test_words_alu : decodeThread 0x150A8600 = .ok (.div 1 10 3 0) ∧ decodeThread 0x1A828400 = .ok (.or 16 10 2 0) ∧
    decodeThread 0x30104200 = .ok (.sext 2 32 1 0) ∧ decodeThread 0x27008280 = .ok (.ldk 72 1 0) := ⟨rfl, rfl, rfl, rfl⟩
theorem test_words_guard : decodeThread 0x1010C203 = .ok (.add 2 3 1 3) := rfl
theorem test_words_compare : decodeThread 0x3B190220 = .ok (.cmpLtu 3 4 1 2 0) ∧ decodeThread 0x40088610 = .ok (.pand 1 2 3 1 0) ∧
    decodeThread 0x44300A00 = .ok (.pset 6 5 0) ∧ decodeThread 0x43380000 = .ok (.pget 7 0 0) := ⟨rfl, rfl, rfl, rfl⟩
theorem test_words_branch : decodeThread 0x4C480000 = .ok (.jr 9 0) ∧ decodeThread 0x4B000080 = .ok (.jl 8 0) ∧
    decodeThread 0x49000030 = .ok (.brz 0 3 0) := ⟨rfl, rfl, rfl⟩
theorem test_words_memory : decodeThread 0x50000010 = .ok (.reach 1 0) ∧ decodeThread 0x68090400 = .ok (.atomAdd 1 4 2 0) := ⟨rfl, rfl⟩
theorem test_words_message : decodeThread 0x88448020 = .ok (.send 8 18 0 2 0) ∧ decodeThread 0x89000030 = .ok (.park 3 0) ∧
    decodeThread 0x8D200200 = .ok (.join 4 1 0) := ⟨rfl, rfl, rfl⟩
theorem test_words_rule : decodeElement 0xEC008003 = .ok (.sst 0 2 3) ∧ decodeElement 0xEB008200 = .ok (.sld 2 1 0 0) ∧
    decodeElement 0xD3005000 = .ok (.vfma 0 1 8 0 0) := ⟨rfl, rfl, rfl⟩
theorem test_words_other : decodeThread 0xA1000010 = .ok (.jzero 1 0) ∧ decodeThread 0x8A000000 = .ok (.waitm 0) ∧
    decodeThread 0x98180600 = .ok (.haul 3 3 0) ∧ decodeElement 0xC0080400 = .ok (.mov 1 2 0 0) ∧ decodeElement 0xC8080003 = .ok (.drop 1 3) :=
  ⟨rfl, rfl, rfl, rfl, rfl⟩
theorem test_zero_word : decodeThread 0 = .error .illegalOp ∧ decodeElement 0 = .error .illegalOp := ⟨rfl, rfl⟩
theorem test_thread_refuses_rules_words : decodeThread 0xC0000000 = .error .illegalOp := rfl
theorem test_bytes_little_endian : decodeBytes [0x00, 0x00, 0x00, 0x02, 0x07] = .ok (.done 0, [0x07]) := rfl

/-! ## Ill-formed terms -/

theorem test_ports_source : WellFormed.ok (.add 13 0 0 0) = false ∧ WellFormed.ok (.add 12 0 0 0) = true := by decide
theorem test_ports_destination : WellFormed.ok (.add 0 0 12 0) = false ∧ WellFormed.ok (.add 0 0 11 0) = true := by decide
theorem test_ports_register_only : WellFormed.ok (.loop 10 0 0) = false := by decide
theorem test_ports_element : WellFormed.portsOk (.mov 24 0 0 0) = false ∧ WellFormed.portsOk (.mov 0 14 0 0) = false := by decide
theorem test_ranges_predicate : WellFormed.ok (.pset 1 0 0) = false ∧ WellFormed.ok (.pset 1 8 0) = false ∧ WellFormed.ok (.pset 1 7 0) = true := by
  decide
theorem test_ranges_shift : WellFormed.ok (.shlk 1 64 2 0) = false ∧ WellFormed.ok (.shlk 1 63 2 0) = true := by decide
theorem test_ranges_csr : WellFormed.ok (.csrr 0x007 1 0) = false ∧ WellFormed.ok (.csrw 1 0x010 0) = false := by decide
theorem test_ranges_selector : WellFormed.ok (.stat 2 1 0) = false := by decide
theorem test_ranges_tag : WellFormed.ok (.guard 0 1 2) = true ∧ WellFormed.ok (.statElement 1 0 1) = false := by decide
theorem test_ranges_convert : WellFormed.ok (.vcvt 0 0x80 0 0) = true ∧ WellFormed.ok (.vcvt 0 0x100 0 0) = false ∧
    WellFormed.ok (.vcvt 0 13 0 0) = false := by decide

/-! ## A thread -/

/-- Handler core 0 of hive 0, its context 0. -/
def t0 : ThreadId := ⟨.hc 0 0 0, 0⟩

/-- A job with hives 0 and 1, one handler and one literal. -/
def j0 : Job :=
  { state := .running, hives := [⟨0, 0⟩, ⟨0, 1⟩], members := [0], dom := 1, span := { devices := 1 },
    handlers := [(0, { rank := 0, units := 0, edge := 0xFFFF, entry := 0, code := [0x02000000], lits := [72] })] }

/-- A READY thread: h1 = −7, h2 = 2, h3 a local address, h4 a global one, h5 a word address of another core, p1 set. -/
def c0 : Ctx :=
  { status := .ready, sid := 1, pw := 3, reachlim := 16, snap := { reachlim := 16 }, serial := 1,
    regs := { h1 := -7, h2 := 2, h3 := 0x40, h4 := 0x8000000000000040, h5 := 0x4000000040000040 } }

/-- The machine with that thread and nothing in flight. -/
def s0 : State :=
  { State.reset with pending := [], readyAt := some 0, cycle := 100, jobs := [(1, j0)], ctxs := [(t0, c0)], curT := t0 }

/-- The same with another context. -/
def sc (f : Ctx → Ctx) : State := { s0 with ctxs := [(t0, f c0)] }

/-- The same with something for the core. -/
def sk (f : Core → Core) : State := { s0 with cores := [(t0.core, f {})] }

/-- The same with a step's operands. -/
def se (e : Ev) : State := { s0 with arg := e }

/-- An effect a reach holds. -/
def e0 : Buffered := ⟨.hcancel 0, []⟩

/-! ## States and records the witnesses use -/

/-- A record of n bytes with fields (offset, length, value), zero elsewhere. -/
def mk (n : Nat) (l : List (Nat × Nat × Nat)) : List Byte :=
  l.foldl (fun bs f => bs.take f.1 ++ bytesOf f.2.1 f.2.2 ++ bs.drop (f.1 + f.2.1)) (List.replicate n 0)

/-- A place of core 0's memory. -/
def here (a : Nat) : Loc := .tile ⟨0, 0, 0⟩ a

/-- A job with an image of 4 by 4 elements. -/
def jg : Job := { j0 with graphs := [mk 64 [(0x0A, 1, 4), (0x0B, 1, 4)]] }

/-- The thread with a word in h3, and memory that lists these cells (core 0's memory is at 0x40000000000000000). -/
def at3 (v : Word) (m : List Host.Cell) : State :=
  { s0 with jobs := [(1, jg)], ctxs := [(t0, { c0 with regs := { c0.regs with h3 := v } })], mem := m }

/-- A haul descriptor: tag 5, eight elements of 8 bytes from tile 1's memory to a global address. -/
def haulRec : List (Nat × Nat × Nat) := [(0, 1, 1), (1, 1, 3), (4, 2, 5), (8, 8, 0x4000000040000000), (0x10, 8, 0x8000000000001000), (0x40, 8, 8), (0xC0, 8, 8), (0x140, 4, 8), (0x180, 4, 8)]

/-- The same through two rings of tile 1. -/
def haulXRec : List (Nat × Nat × Nat) :=
  [(0, 1, 1), (1, 1, 3), (4, 2, 5), (8, 8, 0x4000000040000000), (0x10, 8, 0x8000000000001000), (0x28, 8, 0x4000000040000000), (0x30, 8, 0x4000000050000000),
    (0x38, 1, 1), (0x39, 1, 1), (0x40, 8, 8), (0xC0, 8, 8), (0x140, 4, 8), (0x180, 4, 8)]

/-- An op of one K block of E4M3, member 0. -/
def gangRec : List (Nat × Nat × Nat) := [(0, 2, 1), (8, 2, 16), (13, 1, 0xFF), (14, 1, 0xFF), (16, 1, 1), (18, 1, 0xFF), (19, 1, 0xFF)]

/-- A drain to generator 0 in FP32; a window of 256 bytes; a copy of 64 bytes from a window of node 0; an atomic; a group record. -/
def drainRec : List (Nat × Nat × Nat) := []
def winRec : List (Nat × Nat × Nat) := [(0, 8, 0x8000000000000100), (8, 8, 256), (0x10, 1, 3), (0x11, 1, 7)]
def rgetRec : List (Nat × Nat × Nat) := [(8, 8, 0x1000), (0x10, 8, 0xC000000000000000), (0x18, 4, 64)]
def ratomRec : List (Nat × Nat × Nat) := [(0x10, 8, 0xC000000000000008), (0x20, 8, 9)]
def joinRec : List (Nat × Nat × Nat) := [(0, 2, 7), (2, 2, 1), (0x10, 8, 0x8000000000002000), (0x18, 8, 9)]

/-- A queue's header: capacity 4, one entry. -/
def qRec : List (Nat × Nat × Nat) := [(0, 4, 4), (16, 8, 1)]

/-- An answer of a check, from a test of it. -/
theorem ok_of {ε α : Type} [DecidableEq α] {x : Except ε α} {v : α} (h : (match x with | .ok y => decide (y = v) | .error _ => false) = true) :
    x = .ok v := by
  cases x with
  | ok y => simpa using h
  | error _ => simp at h

/-- The cells of `haulRec` at 0x400. -/
def haulCells : List Host.Cell :=
  [(0x40000000000000400, 0x1), (0x40000000000000401, 0x3), (0x40000000000000404, 0x5), (0x4000000000000040B, 0x40), (0x4000000000000040F, 0x40),
  (0x40000000000000411, 0x10), (0x40000000000000417, 0x80), (0x40000000000000440, 0x8), (0x400000000000004C0, 0x8), (0x40000000000000540, 0x8),
  (0x40000000000000580, 0x8)]

/-- The cells of `haulXRec` at 0x400. -/
def haulXCells : List Host.Cell :=
  [(0x40000000000000400, 0x1), (0x40000000000000401, 0x3), (0x40000000000000404, 0x5), (0x4000000000000040B, 0x40), (0x4000000000000040F, 0x40),
  (0x40000000000000411, 0x10), (0x40000000000000417, 0x80), (0x4000000000000042B, 0x40), (0x4000000000000042F, 0x40), (0x40000000000000433, 0x50),
  (0x40000000000000437, 0x40), (0x40000000000000438, 0x1), (0x40000000000000439, 0x1), (0x40000000000000440, 0x8), (0x400000000000004C0, 0x8),
  (0x40000000000000540, 0x8), (0x40000000000000580, 0x8)]

/-- The cells of `gangRec` at 0x400. -/
def gangCells : List Host.Cell :=
  [(0x40000000000000400, 0x1), (0x40000000000000408, 0x10), (0x4000000000000040D, 0xFF), (0x4000000000000040E, 0xFF), (0x40000000000000410, 0x1),
  (0x40000000000000412, 0xFF), (0x40000000000000413, 0xFF)]

/-- The cells of `drainRec` at 0x400. -/
def drainCells : List Host.Cell :=
  []

/-- The cells of `winRec` at 0x400. -/
def winCells : List Host.Cell :=
  [(0x40000000000000401, 0x1), (0x40000000000000407, 0x80), (0x40000000000000409, 0x1), (0x40000000000000410, 0x3), (0x40000000000000411, 0x7)]

/-- The cells of `rgetRec` at 0x400. -/
def rgetCells : List Host.Cell :=
  [(0x40000000000000409, 0x10), (0x40000000000000417, 0xC0), (0x40000000000000418, 0x40)]

/-- The cells of `ratomRec` at 0x400. -/
def ratomCells : List Host.Cell :=
  [(0x40000000000000410, 0x8), (0x40000000000000417, 0xC0), (0x40000000000000420, 0x9)]

/-- The cells of `joinRec` at 0x400. -/
def joinCells : List Host.Cell :=
  [(0x40000000000000400, 0x7), (0x40000000000000402, 0x1), (0x40000000000000411, 0x20), (0x40000000000000417, 0x80), (0x40000000000000418, 0x9)]

/-- The cells of `qRec` at 0x400. -/
def qCells : List Host.Cell :=
  [(0x40000000000000400, 0x4), (0x40000000000000410, 0x1)]

/-- Queues of capacity 4, one full and one empty. -/
def qFull : List Host.Cell := [(0x40000000000000400, 0x4), (0x40000000000000410, 0x4)]
def qEmpty : List Host.Cell := [(0x40000000000000400, 0x4)]

/-- A record in the thread's own memory, with no store before it in the buffer. -/
theorem record_here {s : State} {t : ThreadId} {ea : Word} {al n : Nat} (l : Loc) (h1 : bitsN ea 63 62 = 0)
    (h2 : checkAddr s t ea al n false = .ok (.here l)) (h3 : s.poisoned l n = false) (h4 : (s.ctx t).buf = []) :
    readRecord s t ea al n = .ok (s.bytes l n) := by
  have h5 : ∀ bs : List Byte, forward s t ea bs = bs := by
    intro bs
    apply List.ext_getElem
    · simp [forward]
    · intro i _ _
      simp [forward, fwdByte, h4]
  simp only [readRecord, h1, h2, h5]
  change Except.ok (if s.poisoned l n then [] else s.bytes l n) = _
  simp [h3]

/-- A token's format and mode in a trigger entry. -/
def tf (f : Nat) (md : Nat := 0) : BitVec 32 := BitVec.ofNat 32 (f * 2 ^ 25 + md * 2 ^ 29)

/-- The instance of the rules below. -/
def i0 : InstId := ⟨0, 0, 0⟩
def x0 : Inst := { st := .active, image := 0, sid := 1, origin := ⟨0, 0⟩, width := 4, height := 4 }

/-- An element whose first rule is a word, chosen in this cycle, with a zero token at every channel. -/
def fr (i : Instr) (t : BitVec 32) (f : Plane → Plane := id) : State :=
  { State.reset with
    pending := [], readyAt := some 0, cycle := 100, curR := slotRule, jobs := [(1, jg)], insts := [(i0, x0)],
    planes := [(slotRule.plane, f { inst := some i0, rules := [(encode i, t)], latch := (List.range 8).map (fun c => (c, ⟨{}, 0⟩)) })],
    tiles := [(slotRule.plane.elem.tile, { chosen := [slotRule] })],
    gens := [(⟨slotRule.plane.elem.tile.pair, 0⟩, { rport := some ⟨{}, 0⟩ })] }

/-- The channels' latches with another token at channel 0. -/
def lat (v : Token) : Tbl Nat Latch := (0, ⟨v, 0⟩) :: (List.range 7).map (fun c => (c + 1, ⟨{}, 0⟩))

/-- The machine with a step's operands, another core 0 and another context. -/
def sx (e : Ev) (k : Core := {}) (c : Ctx := c0) : State := { s0 with arg := e, cores := [(t0.core, k)], ctxs := [(t0, c)] }

/-- A barge and a packet for handler 0, the same on their way, and a core that keeps them. -/
def b0 : Barge := { route := 0, ctl := 0x0002000000000000, payload := [1, 2], src := 0, sid := 1, origin := none }
def pk0 : Packet :=
  { h := List.replicate 10 3, pw := 1, fstat := 0, pc := 0, sid := 1, litBase := 0, reachlim := 16, prio := 2, ctl := 0, src := 0, duties := [],
    origin := s0.originOf t0 }
def bf : Barge := { b0 with fault := true }
def it (l : Load) (p : Nat := 2) : Item := ⟨l, 7, none, p, 0⟩
def kSend (l : Load) (tries : Nat := 0) : Core := { sends := [(7, { item := it l, dst := t0.core, tries := tries })] }
/-- A slot of a basin that has waited 4,096 cycles. -/
def sl (p : Nat) : Slot := ⟨.barge b0, p, 0⟩

/-- A thread that waits for an answer to what it asked for. -/
def lw0 : LoadWait := { kind := .scalar 4 8, addr := 0x40, pieces := [] }
def cl0 : Ctx := { c0 with status := .loadWait, loadWait := some lw0 }

/-- A completion that no reach has reserved. -/
def comp0 : CompEntry := ⟨{ w0 := 1, w1 := 2, tag := none, sid := 1 }, none⟩

/-- Core 1. -/
def c1 : CoreId := .hc 0 0 1

/-- A generator of store tile 1 with a record of a mode, two slots of 16 bytes or 32. -/
def g0 : GenId := ⟨⟨0, 0, 1⟩, 0⟩
def gc (mode : Nat) (reader : Bool) (size : Nat := 16) : GenCfg := { inst := i0, recd := { mode := mode, base := 0, size := size, count := 2 }, reader := reader, writer := true }
def sg (e : Ev) (x : Gen) : State := { se e with gens := [(g0, x)] }

/-- An operation on a place by a word, and an instance i0 of core 0's hive in a state. -/
def gop (op : Nat) (other : Option Word := none) : GraphOp := { op := op, place := 0, other := other, arg := 0x8000000000010000, thread := t0, serial := 1, origin := s0.originOf t0 }
def si (e : Ev) (x : Inst) (c : Ctx := c0) : State := { s0 with arg := e, jobs := [(1, jg)], insts := [(i0, x)], ctxs := [(t0, c)] }

/-- The machine 4,900 cycles later. -/
def late (s : State) : State := { s with cycle := 5000 }

/-- A node beside node 0, a link to it and a packet from it. -/
def ln (l : Link) (e : Ev) : State := { se e with links := [(0, { l with st := 2 })] }

theorem goes_of {o : Host.Outcome State Fault Refusal} (h : nextIs o (fun _ => true) = true) : ∃ t, o = .next t := by
  cases o with
  | next t => exact ⟨t, rfl⟩
  | _ => simp [nextIs] at h

/-- The companion, whose link is UP, is the owner of a device that runs. -/
def sd (e : Ev) (f : Ctl → Ctl := id) : State := { se e with links := [(24, { st := 2 })], ctl := f { phase := 5, owner := 1, rack := 2 } }
/-- Requests at core 0's memory. -/
def rq (op : MemOp) (k : Asker) (l : Loc := here 0x40) : MemReq := { asker := k, sid := 1, loc := l, addr := 0x40, op := op, dep := some (t0, 3, 0), origin := some (s0.originOf t0) }
/-- A queue's header at 0x400 with these cells. -/
def qs (m : List Host.Cell) (op : MemOp) (k : Asker) (settle : Bool := false) : State :=
  { se (if settle then .queueSettle (rq op k (here 0x400)) else .queueReserve (rq op k (here 0x400))) with mem := m }

/-! ## Witnesses: a state and operands that meet the hypotheses of each obligation -/

theorem witness_PortsOfAThread : s0.handler (cur s0).sid (cur s0).lit = some { rank := 0, units := 0, edge := 0xFFFF, entry := 0, code := [0x02000000], lits := [72] } ∧
    Reads s0 0 0 ∧ Reads s0 9 0 ∧ Reads s0 10 0 ∧ Reads s0 11 3 ∧ Reads s0 16 72 := ⟨rfl, rfl, rfl, rfl, rfl, rfl⟩

/-- The scalar instructions of the current thread. -/
def scalars : List Instr :=
  [.add 1 2 3 0, .sub 1 2 3 0, .mul 1 2 3 0, .mulh 1 2 3 0, .mulhu 1 2 3 0, .div 1 2 3 0, .divu 1 2 3 0, .rem 1 2 3 0, .remu 1 2 3 0, .and 1 2 3 0,
   .or 1 2 3 0, .xor 1 2 3 0, .shl 1 2 3 0, .shr 1 2 3 0, .sar 1 2 3 0, .andn 1 2 3 0, .min 1 2 3 0, .max 1 2 3 0, .minu 1 2 3 0, .maxu 1 2 3 0,
   .clz 1 3 0, .popc 1 3 0, .sext 1 63 3 0, .sext 1 1 3 0, .zext 1 63 3 0, .sel 1 2 3 7 0, .mac 1 2 3 0, .adds 1 2 3 0, .subs 1 2 3 0, .addk 1 0x200 3 0,
   .andk 1 0x1FF 3 0, .ork 1 1 3 0, .xork 1 1 3 0, .shlk 1 63 3 0, .shrk 1 0 3 0, .sark 1 63 3 0, .ldk 0x200 3 0, .ldkh 3 1023 3 0, .ldl 0 3 0, .ldl 1 3 0]

theorem witness_ScalarResults : Reads s0 1 (-7) ∧ Reads s0 2 2 ∧ (∀ i ∈ scalars, Runs s0 i 0) ∧
    s0.handler (cur s0).sid (cur s0).lit = some { rank := 0, units := 0, edge := 0xFFFF, entry := 0, code := [0x02000000], lits := [72] } := by
  refine ⟨rfl, rfl, ?_, rfl⟩
  unfold Runs
  decide +kernel

theorem witness_PredicatesAndBranches : Reads s0 1 (-7) ∧ Reads s0 2 2 ∧ (cur s0).pc.toNat < 2 ^ 28 ∧ (cur s0).pc.toNat % 4 = 0 ∧
    ∀ i ∈ [Instr.cmpEq 1 2 1 0 0, .cmpNe 1 2 7 1 0, .cmpLt 1 2 1 2 0, .cmpLtu 1 2 1 2 0, .cmpLe 1 2 1 2 0, .cmpLeu 1 2 1 2 0, .cmpkEq 1 0x200 1 0, .cmpkLt 1 0x1FF 7 0,
      .pset 1 7 0, .pand 1 2 3 1 0, .por 1 2 3 2 0, .pxor 0 7 3 3 0, .pget 7 3 0, .br 0x3FFF 0, .brz 1 0 0, .brnz 1 0x4000 0, .jl 8 0, .loop 1 0 0, .nop 0, .jr 3 0],
      Runs s0 i 0 := by
  refine ⟨rfl, rfl, by decide +kernel, by decide +kernel, ?_⟩
  unfold Runs
  decide +kernel

theorem witness_LoopCountsDown : (cur s0).pc.toNat < 2 ^ 28 ∧ (cur s0).pc.toNat % 4 = 0 ∧ (cur s0).status = .ready ∧ 9 < (10 : BitVec 5).toNat ∧
    Runs s0 (.loop 2 8 0) 0 ∧ (cur s0).regs.get 2 - 1 ≠ 0 ∧ Runs s0 (.loop 0 8 0) 0 ∧ (cur s0).regs.get 0 = 0 ∧
    Runs (sc (fun c => { c with regs := { h1 := 1 } })) (.loop 1 8 0) 0 ∧ (cur (sc (fun c => { c with regs := { h1 := 1 } }))).regs.get 1 - 1 = 0 := by
  unfold Runs
  decide +kernel

theorem witness_ImmediateCompares : (cur s0).status = .ready ∧ Reads s0 1 (-7) ∧ WellFormed.srcH 1 = true ∧ (0 : BitVec 5).toNat = 0 ∧ 7 < (8 : BitVec 5).toNat ∧
    Runs s0 (.cmpkEq 1 0x200 1 0) 0 ∧ Runs s0 (.cmpkLt 1 0x1FF 7 0) 0 := by
  refine ⟨rfl, rfl, rfl, rfl, by decide +kernel, ?_⟩
  unfold Runs
  decide +kernel

theorem witness_OrderOfChecks : (cur s0).status = .ready ∧ threadTag (.add 13 0 0 0) = some 0 ∧ WellFormed.portsOk (.add 13 0 0 0) = false ∧
    threadTag (.pset 1 0 0) = some 0 ∧ WellFormed.portsOk (.pset 1 0 0) = true ∧ WellFormed.rangesOk (.pset 1 0 0) = false ∧
    WellFormed.portsOk (.nop 10) = true ∧ WellFormed.rangesOk (.nop 10) = true ∧ threadTag (.nop 9) = some 9 ∧
    (cur s0).pred ((9 : BitVec 4).toNat % 8) = (9 : BitVec 4).getLsbD 3 ∧ (cur s0).execs < 128 ∧
    128 ≤ (cur (sc (fun c => { c with execs := 128 }))).execs ∧ (cur (sc (fun c => { c with execs := 128 }))).status = .ready := by decide +kernel

theorem witness_SystemWords : (∀ i ∈ [0x000, 0x001, 0x002, 0x003, 0x010, 0x011, 0x012, 0x013, 0x020, 0x031, 0x050, 0x051, 0x060].map (fun k => Instr.csrr k 1 0), Runs s0 i 0) ∧
    s0.curT.core.isHandler = true ∧ Reads s0 2 2 ∧ (∀ i ∈ [0x011, 0x020, 0x050, 0x051].map (fun k => Instr.csrw 2 k 0), Runs s0 i 0) ∧ (cur s0).room = .ok () ∧
    (∀ i ∈ [Instr.stat 0 1 0, .stat 1 1 0, .clk 1 0, .id 1 0 0, .id 1 4 0, .yield 0], Runs s0 i 0) ∧ s0.readyAt = some 0 := by
  refine ⟨?_, rfl, rfl, ?_, rfl, ?_, rfl⟩ <;> unfold Runs <;> decide +kernel

/-- The same job with a handler whose faults go to its handler 5. -/
def j5 : Job := { j0 with handlers := [(0, { rank := 2, units := 0, edge := 5, entry := 0, code := [], lits := [] })] }

theorem witness_TrapsAndEndings : (∀ i ∈ [Instr.trap 1023 0, .brk 0 0, .done 0], Runs s0 i 0) ∧
    s0.handler (s0.ctx t0).sid (s0.ctx t0).lit = some { rank := 0, units := 0, edge := 0xFFFF, entry := 0, code := [0x02000000], lits := [72] } ∧
    s0.redirectCore (s0.ctx t0).sid t0.core = t0.core ∧
    ({ s0 with jobs := [(1, j5)] } : State).handler 1 0 = some { rank := 2, units := 0, edge := 5, entry := 0, code := [], lits := [] } ∧
    (cur s0).buf = [] ∧ (cur s0).duties = [] ∧ (∀ r ∈ (s0.core s0.curT.core).relq, r.serial ≠ (cur s0).serial) ∧
    (se (.illegalOp 7)).arg = .illegalOp 7 ∧ (se .fetchBounds).arg = .fetchBounds := by
  refine ⟨?_, rfl, by decide +kernel, rfl, rfl, rfl, by decide +kernel, rfl, rfl⟩
  unfold Runs
  decide +kernel

theorem witness_ReachWords : Runs s0 (.reach 1023 0) 0 ∧ (∀ b ∈ (cur s0).buf, b.probes = []) ∧ s0.commitRoom s0.curT = true ∧ (s0.core t0.core).relq = [] ∧
    Runs (sc (fun c => { c with buf := [e0] })) (.reach 1 0) 0 ∧ (∀ b ∈ [e0], b.probes = []) ∧
    (sc (fun c => { c with buf := [e0] })).commitRoom t0 = true ∧ [e0].filter (fun b => !b.eff.local_) ≠ [] ∧
    Runs s0 (.retry 0) 0 ∧ (cur s0).buf = [] ∧ (cur s0).reachcnt + 1 ≤ (cur s0).snap.reachlim ∧
    Runs (sc (fun c => { c with reachcnt := 16 })) (.retry 0) 0 ∧ (16 : Nat) < (cur (sc (fun c => { c with reachcnt := 16 }))).reachcnt + 1 ∧
    Runs s0 (.fence 0 0) 0 ∧ Runs s0 (.drain 0) 0 := by
  unfold Runs
  decide +kernel

theorem witness_AddressChecks : t0.core = .hc 0 0 0 ∧ (0x3FFFF : Word).toNat < 2 ^ 62 ∧ 2 ^ 62 ≤ (0x4000000040000040 : Word).toNat ∧
    (0x4000000040000040 : Word).toNat < 2 ^ 63 ∧ 2 ^ 63 ≤ (0x8000000000000040 : Word).toNat ∧ (0x8000000000000040 : Word).toNat < 2 ^ 63 + 2 ^ 62 ∧
    2 ^ 63 + 2 ^ 62 ≤ (0xC000000000000000 : Word).toNat ∧ (ThreadId.mk (.ec 0 3) 2).core = .ec 0 3 ∧
    (0xC000000600000040 : Word).toNat / 2 ^ 41 % 2 ^ 21 % 256 < 144 ∧ 144 ≤ (0xC001200000000000 : Word).toNat / 2 ^ 41 % 2 ^ 21 % 256 ∧
    0 ∈ (s0.job (s0.ctx t0).sid).members ∧ 1 ∉ (s0.job (s0.ctx t0).sid).members := by decide +kernel

theorem witness_LoadsOfAThread : Reads s0 3 0x40 ∧ Reads s0 0 0 ∧ Reads s0 4 0x8000000000000040 ∧ Reads s0 5 0x4000000040000040 ∧
    (∀ i ∈ [Instr.ldB 3 0x1FF 1 0, .ldH 3 0 1 0, .ldW 3 0x3F0 1 0, .ldD 3 1 1 0, .ldx 3 0 1 3 0, .ldV 3 6 4 0, .ldB 5 0 1 0, .ldD 4 0 1 0], Runs s0 i 0) ∧
    checkAddr s0 t0 0x40 8 8 true = .ok (.here (here 0x40)) ∧ s0.poisoned (here 0x40) 8 = false ∧ (0x40 : Word).toNat < 2 ^ 62 ∧
    checkAddr s0 t0 0x40000 8 8 true = .error ⟨.addrForm, some 0x40000⟩ ∧
    s0.curT.core.isHandler = true ∧ 0x40 % 8 = 0 ∧ 0x40 + 8 * (4 : BitVec 5).toNat ≤ 2 ^ 18 ∧ s0.curT.core.tile? = some ⟨0, 0, 0⟩ ∧
    checkAddr s0 t0 0x4000000040000040 1 1 true = .ok (.here (.tile ⟨0, 0, 1⟩ 0x40)) ∧ 2 ^ 62 ≤ (0x4000000040000040 : Word).toNat ∧
    checkAddr s0 t0 0x8000000000000040 8 8 true = .ok (.global 0x40) := by
  and_intros <;> (first | decide +kernel | rfl | (unfold Runs; decide +kernel))

/-- R189: byte 0 is the newer store's, byte 1 the older one's, byte 2 the home's. -/
theorem witness_LoadsOfAThread_own :
    let s := sc (fun c => { c with buf := [⟨.store 0x40 [1, 2], []⟩, ⟨.store 0x40 [9], []⟩] })
    (s.ctx t0).buf = [⟨.store 0x40 [1, 2], []⟩] ++ ⟨.store 0x40 [9], []⟩ :: [] ∧ fwdKey s t0 0x40 ≤ fwdKey s t0 0x40 + 0 ∧
    fwdKey s t0 0x40 + 1 < fwdKey s t0 0x40 + [(1 : Byte), 2].length ∧ forward s t0 0x40 [7, 7, 7] = [9, 2, 7] := by
  and_intros <;> decide +kernel

theorem witness_StoresAndAtomicsAreBuffered : Reads s0 3 0x40 ∧ Reads s0 2 2 ∧ Reads s0 1 (-7) ∧ Reads s0 0 0 ∧ Room s0 ∧
    (∀ i ∈ [Instr.stB 3 0x1FF 1 0, .stH 3 0 1 0, .stW 3 0 1 0, .stD 3 0 1 0, .stx 3 0 1 3 0, .stV 3 6 4 0, .atomAdd 3 2 1 0, .atomAnd 3 2 1 0, .atomOr 3 2 1 0,
      .atomXor 3 2 1 0, .atomMax 3 2 1 0, .atomMin 3 2 1 0, .atomXchg 3 2 1 0, .atomFadd 3 2 1 0, .atomBadd 3 2 1 0, .atomCas 3 2 1 5 0], Runs s0 i 0) ∧
    checkAddr s0 t0 0x40 8 8 true = .ok (.here (here 0x40)) ∧ checkAddr s0 t0 0x41 8 8 true = .error ⟨.align, some 0x41⟩ ∧
    (∃ tg l, checkRange s0 t0 0x40 4 = .ok (tg :: l)) ∧ checkAddr s0 t0 0x40 8 8 false = .ok (.here (here 0x40)) ∧
    checkAddr s0 t0 0x40 4 4 false = .ok (.here (here 0x40)) := by
  refine ⟨rfl, rfl, rfl, rfl, by unfold Room; decide +kernel, ?_, rfl, rfl, ⟨_, _, rfl⟩, rfl, rfl⟩
  unfold Runs
  decide +kernel

/-- The thread at a queue with one entry, at one that is full, and at an empty one. -/
def q1 : State := at3 0x400 qCells
def q4 : State := at3 0x400 qFull
def q0 : State := at3 0x400 qEmpty

theorem witness_LocalQueues : Reads q1 3 0x400 ∧ Reads q1 2 2 ∧ Room q1 ∧ checkAddr q1 t0 0x400 32 32 false = .ok (.here (here 0x400)) ∧
    (0x400 : Word).toNat < 2 ^ 62 ∧ q1.poisoned (here 0x400) 32 = false ∧ qcheck (here 0x400) (q1.qhead (here 0x400)) = none ∧
    (∀ i ∈ [Instr.pushCore 3 2 1 0, .pushHive 3 2 1 0, .pushDie 3 2 1 0, .pushDev 3 2 1 0, .pushSys 3 2 1 0, .popCore 3 1 6 0, .popHive 3 1 6 0, .popDie 3 1 6 0,
      .popDev 3 1 6 0, .popSys 3 1 6 0], Runs q1 i 0) ∧ (q1.qhead (here 0x400)).used + (q1.qhead (here 0x400)).pushres < (q1.qhead (here 0x400)).cap ∧
    (q1.qhead (here 0x400)).popres = 0 ∧ 0 < (q1.qhead (here 0x400)).used ∧ q1.poisoned (here 0x420) 8 = false ∧
    qcheck (here 0x400) (q4.qhead (here 0x400)) = none ∧ (q4.qhead (here 0x400)).cap ≤ (q4.qhead (here 0x400)).used + (q4.qhead (here 0x400)).pushres ∧
    Runs q4 (.pushCore 3 2 1 0) 0 ∧ qcheck (here 0x400) (q0.qhead (here 0x400)) = none ∧ (q0.qhead (here 0x400)).used = 0 ∧ Runs q0 (.popSys 3 1 6 0) 0 := by
  and_intros <;> (first | decide +kernel | rfl | (unfold Room; decide +kernel) | (unfold Runs; decide +kernel) | exact ⟨_, rfl⟩)

theorem witness_WordsLeaveMemory : threadTag (.stD 3 0 1 0) = some 0 ∧ (∃ t, exec (.stD 3 0 1 0) s0 = .next t) ∧
    ∀ a b d, Instr.stD 3 0 1 0 ≠ .pushCore a b d 0 ∧ Instr.stD 3 0 1 0 ≠ .pushHive a b d 0 ∧ Instr.stD 3 0 1 0 ≠ .pushDie a b d 0 ∧
      Instr.stD 3 0 1 0 ≠ .pushDev a b d 0 ∧ Instr.stD 3 0 1 0 ≠ .pushSys a b d 0 ∧ Instr.stD 3 0 1 0 ≠ .popCore a b d 0 ∧ Instr.stD 3 0 1 0 ≠ .popHive a b d 0 ∧
      Instr.stD 3 0 1 0 ≠ .popDie a b d 0 ∧ Instr.stD 3 0 1 0 ≠ .popDev a b d 0 ∧ Instr.stD 3 0 1 0 ≠ .popSys a b d 0 :=
  ⟨rfl, ⟨_, rfl⟩, fun _ _ _ => ⟨nofun, nofun, nofun, nofun, nofun, nofun, nofun, nofun, nofun, nofun⟩⟩

/-- The thread with route and control words: this core's route is h1, a global address's h2, a form that is none h5, a control word of
handler 0 h4; a counter's operand, and another core's address. -/
def sb : State := sc (fun c => { c with regs :=
  { h2 := 0x6000000000000000, h4 := 0x0002000000000000, h5 := 1, h6 := 0x1040, h7 := 0x4000000040000000, h8 := 0x1000 } })

theorem witness_MessageWords : Reads sb 1 0 ∧ Reads sb 2 0x6000000000000000 ∧ Reads sb 4 0x0002000000000000 ∧ Reads sb 5 1 ∧ Reads sb 8 0x1000 ∧ Reads sb 7 0x4000000040000000 ∧
    Room sb ∧ (∀ i ∈ [Instr.send 1 4 4 6 0, .send 2 4 0 0 0, .send 5 4 0 0 0, .count 1 127 0, .park 1 0, .waitm 0, .getm 8 7 0, .spawn 4 0 1 0 0, .cset 8 7 0,
      .join 3 1 0, .migr 7 0], Runs sb i 0) ∧
    checkBarge sb t0.core 0 1 0 (withCount 0x0002000000000000 6) = .ok (.core t0.core) ∧
    checkBarge sb t0.core 0 1 0x6000000000000000 (withCount 0x0002000000000000 0) = .ok (.global 0) ∧
    (∃ q, checkBarge sb t0.core 0 1 1 (withCount 0x0002000000000000 0) = .error q) ∧
    countDest sb t0 1 0 = .ok (.core t0.core) ∧ (cur sb).buf = [] ∧
    Runs (sc (fun c => { c with buf := [e0] })) (.park 3 0) 0 ∧ Runs (sc (fun c => { c with buf := [e0] })) (.waitm 0) 0 ∧ (sb.core t0.core).comps = [] ∧
    Runs (sk (fun k => { k with comps := [comp0] })) (.waitm 0) 0 ∧ ((sk (fun k => { k with comps := [comp0] })).core t0.core).comps = [] ++ comp0 :: [] ∧
    Runs (sk (fun k => { k with comps := [comp0] })) (.getm 8 7 0) 0 ∧ comp0.comp.poison = false ∧
    ctlCont 0x0002000000000000 = false ∧ ctlForm sb 1 0 false (withCount 0x0002000000000000 0) = true ∧ sb.curT.core.isHandler = true ∧
    (sb.core t0.core).deque.length < 64 ∧ csetForm 0x1000 = true ∧ (tget (sb.core t0.core).counters {} 0).by_ = none ∧
    checkAddr sb t0 0 16 16 false = .ok (.here (here 0)) ∧ addrDest sb t0.core 0 1 0x4000000040000000 = .ok (.core t0.core) ∧
    (∀ r ∈ (sb.core t0.core).relq, r.serial ≠ (cur sb).serial) ∧ (cur sb).outst + (cur sb).hold.length < 4 := by
  and_intros <;> (first | decide +kernel | rfl | (unfold Room; decide +kernel) | (unfold Runs; decide +kernel) | exact ⟨_, rfl⟩)

/-- An edge core's thread. -/
def te : ThreadId := ⟨.ec 0 0, 0⟩
def sedge : State := { s0 with ctxs := [(te, c0)], curT := te }

theorem witness_EngineWords : Reads (at3 0x400 haulCells) 3 0x400 ∧ (at3 0x400 haulCells).curT.core.isHandler = true ∧
    (∃ bs, readRecord (at3 0x400 haulCells) t0 0x400 64 512 = .ok bs ∧ bs ≠ [] ∧ (Desc.of bs).check (at3 0x400 haulCells) 1 false = .ok () ∧ (Desc.of bs).tag = 5) ∧
    (∃ bs, readRecord (at3 0x400 haulXCells) t0 0x400 64 512 = .ok bs ∧ bs ≠ [] ∧ (Desc.of bs).check (at3 0x400 haulXCells) 1 true = .ok ()) ∧
    tget s0.tags .free (t0.core, 5) = .free ∧ Room (at3 0x400 haulCells) ∧ Runs (at3 0x400 haulCells) (.haul 3 1 0) 0 ∧ Runs (at3 0x400 haulXCells) (.haulX 3 7 0) 0 ∧
    (2047 : Word).toNat < 2048 ∧ Runs s0 (.hcancel 2 0) 0 ∧ Reads s0 2 2 ∧ Runs s0 (.hstat 2 1 0) 0 ∧
    ringCheck s0 1 0x4000000040000000 true = .ok () ∧ Runs sb (.hslot 7 0) 0 ∧
    (∃ r, readRecord (at3 0x400 gangCells) t0 0x400 64 64 = .ok r ∧ r ≠ [] ∧ (OpRec.of r).check r s0.part.caps t0.core.member = none) ∧
    Runs (at3 0x400 gangCells) (.gang 3 0) 0 ∧ ((cur s0).buf.filter (fun b => b.eff.joint)).length < 16 ∧ Runs s0 (.jzero 1 0) 0 ∧
    (∃ r, readRecord (at3 0x400 drainCells) t0 0x400 32 32 = .ok r ∧ r ≠ [] ∧ (DrainRec.of r).form r = true ∧ (DrainRec.of r).target = 0) ∧
    Runs (at3 0x400 drainCells) (.jdrain 3 1 0) 0 ∧ Runs s0 (.jdrainO 3 1 1 0) 0 ∧ t0.core.hive? = some ⟨0, 0⟩ ∧ Runs s0 (.jstat 1 1 0) 0 ∧ Runs s0 (.jred 1 0) 0 ∧
    sedge.curT.core.isHandler = false ∧
    (∀ i ∈ [Instr.jzero 1 0, .jdrainO 3 1 1 0, .jstat 1 1 0, .jred 1 0, .gang 3 0, .jdrain 3 1 0], Runs sedge i 0) := by
  refine ⟨rfl, rfl, ⟨_, record_here (here 0x400) rfl (ok_of (by decide +kernel)) (by decide +kernel) rfl, by decide +kernel, ok_of (by decide +kernel), by decide +kernel⟩, ⟨_, record_here (here 0x400) rfl (ok_of (by decide +kernel)) (by decide +kernel) rfl, by decide +kernel, ok_of (by decide +kernel)⟩, rfl, by unfold Room; decide +kernel, by unfold Runs; decide +kernel, by unfold Runs; decide +kernel, by decide +kernel,
    by unfold Runs; decide +kernel, rfl, by unfold Runs; decide +kernel, rfl, by unfold Runs; decide +kernel, ⟨_, record_here (here 0x400) rfl (ok_of (by decide +kernel)) (by decide +kernel) rfl, by decide +kernel, by decide +kernel⟩, by unfold Runs; decide +kernel, by decide +kernel, by unfold Runs; decide +kernel,
    ⟨_, record_here (here 0x400) rfl (ok_of (by decide +kernel)) (by decide +kernel) rfl, by decide +kernel, by decide +kernel, by decide +kernel⟩, by unfold Runs; decide +kernel, by unfold Runs; decide +kernel, rfl, by unfold Runs; decide +kernel, by unfold Runs; decide +kernel, rfl, by unfold Runs; decide +kernel⟩

theorem witness_GraphWords : Reads (at3 0 []) 3 0 ∧ placeCheck (at3 0 []) 1 0 = .ok () ∧ recN ((at3 0 []).image 1 0) 0x16 2 = 0 ∧ Room (at3 0 []) ∧
    (∀ i ∈ [Instr.gload 3 1 0, .gswap 3 10 0, .gswap 3 0 0, .gmark 3 2 0, .gsave 3 4 0, .grest 3 10 0, .grest 3 4 0, .gctx 5 2 0, .gquiet 2 1 0, .wopen 3 1 0, .wclose 2 0,
      .rget 3 1 0, .rput 3 1 0, .ratom 3 1 0, .nstat 2 1 0, .cjoin 3 1 0, .cstat 3 1 0], Runs (at3 0 []) i 0) ∧
    (0xFFFF : Word).toNat < 65536 ∧ areaCheck 0x8000000000001000 = .ok () ∧
    checkAddr s0 t0 0x4000000080000000 1 1 false = .ok (.here (.tile ⟨0, 0, 2⟩ 0)) ∧ isCompute 2 = true ∧ (2 : Word).toNat % 16 = 2 ∧
    (∃ r, readRecord (at3 0x400 winCells) t0 0x400 32 32 = .ok r ∧ r ≠ [] ∧ winForm r = true) ∧ (255 : Word).toNat < 256 ∧
    (∃ r ps, readRecord (at3 0x400 rgetCells) t0 0x400 64 64 = .ok r ∧ r ≠ [] ∧ remoteCheck (at3 0x400 rgetCells) t0 0xB2 r 0x400 = .ok ps ∧
      remoteCheck (at3 0x400 rgetCells) t0 0xB3 r 0x400 = .ok ps) ∧ s0.freeSlot t0.core = some 0 ∧
    (∃ r ps, readRecord (at3 0x400 ratomCells) t0 0x400 64 64 = .ok r ∧ r ≠ [] ∧ remoteCheck (at3 0x400 ratomCells) t0 0xB4 r 0x400 = .ok ps) ∧
    (∃ r, readRecord (at3 0x400 joinCells) t0 0x400 64 64 = .ok r ∧ r ≠ [] ∧ cjoinForm ((List.range 8).map (fun i => recW r (8 * i))) = true ∧
      placeCheck (at3 0x400 joinCells) 1 (cPlace ((List.range 8).map (fun i => recW r (8 * i)))) = .ok ()) ∧
    Reads (at3 1 []) 3 1 ∧ s0.groups.filter (fun e => e.1.1 = (cur s0).sid && e.1.2.1 = 0) = [] := by
  refine ⟨rfl, rfl, by decide +kernel, by unfold Room; decide +kernel, by unfold Runs; decide +kernel, by decide +kernel, rfl, rfl, rfl, by decide +kernel, ⟨_, record_here (here 0x400) rfl (ok_of (by decide +kernel)) (by decide +kernel) rfl, by decide +kernel, by decide +kernel⟩, by decide +kernel,
    ⟨_, _, record_here (here 0x400) rfl (ok_of (by decide +kernel)) (by decide +kernel) rfl, by decide +kernel, rfl, rfl⟩, by decide +kernel, ⟨_, _, record_here (here 0x400) rfl (ok_of (by decide +kernel)) (by decide +kernel) rfl, by decide +kernel, rfl⟩,
    ⟨_, record_here (here 0x400) rfl (ok_of (by decide +kernel)) (by decide +kernel) rfl, by decide +kernel, by decide +kernel, ok_of (by decide +kernel)⟩, rfl, by decide +kernel⟩

/-- Every remote slot of the core is taken. -/
def sfull : State :=
  { at3 0x400 rgetCells with rslots := (List.range 256).map (fun n => ((t0.core, n), { op := 0, desc := [], sid := 1, origin := s0.originOf t0 })) }

theorem witness_GraphWords_full : sfull.freeSlot t0.core = none ∧ Reads sfull 3 0x400 ∧ Runs sfull (.rget 3 1 0) 0 := by
  refine ⟨by decide +kernel, rfl, by unfold Runs; decide +kernel⟩

/-- A plane with two literals and wires to another tile and to another element of its own. -/
def pl : Plane :=
  { latch := [(0, ⟨{ data := 7 }, 0⟩)], lits := [5, 0xFFFFFFFE], dst := [(0, .arc ⟨⟨⟨0, 0, 2⟩, 0⟩, 0⟩ 3), (1, .arc ⟨⟨⟨0, 0, 0⟩, 1⟩, 0⟩ 3)] }

theorem witness_FiringOfARule :
    (∃ l, tfind pl.latch (0 : BitVec 5).toNat = some l) ∧ (∀ n ∈ [8, 9, 10, 11, 12, 13], (BitVec.ofNat 5 n).toNat = n) ∧
    pl.lits[(17 : BitVec 5).toNat - 16]? = some 0xFFFFFFFE ∧ NFmt.flt e4m3 ∈ [NFmt.flt fp32, .flt bf16, .flt fp16, .flt e4m3, .flt e5m2] ∧ 15 < (NFmt.flt e4m3).lanes ∧
    (tfind ((fr (.mov 0 1 0 0) 0 (fun _ => pl)).plane slotRule.plane).dst 2 = none ∧ tfind pl.dst 0 = some (.arc ⟨⟨⟨0, 0, 2⟩, 0⟩, 0⟩ 3) ∧ (2 : Nat) ≠ slotRule.plane.elem.tile.tile) ∧
    (tfind pl.dst 1 = some (.arc ⟨⟨⟨0, 0, 0⟩, 1⟩, 0⟩ 3) ∧ slotRule.plane.elem.tile = ⟨0, 0, 0⟩ ∧ (⟨⟨⟨0, 0, 0⟩, 1⟩, 0⟩ : PlaneId) ≠ slotRule.plane ∧
      ({} : Token).marker = false ∧ ((fr (.mov 0 1 0 0) 0 (fun _ => pl)).plane ⟨⟨⟨0, 0, 0⟩, 1⟩, 0⟩).isects = []) ∧
    ruleWord (.mov 0 1 0 0) = true ∧ (State.reset.tile slotRule.plane.elem.tile).chosen.contains slotRule = false := by
  and_intros <;> (first | decide +kernel | rfl | exact ⟨_, rfl⟩)

/-- A rule of which nothing but its word and its format is special. -/
def plain (x : Instr × BitVec 32) : Prop := Fires (fr x.1 x.2) x.1 x.2

theorem witness_StreamRules :
    (∀ x ∈ [(Instr.nopElement 1 2 1, tf 0), (.statElement 2 1 0, 0), (.statElement 1 1 0, 0), (.statElement 0 1 0, 0), (.mov 0 1 0 0, 0), (.drop 0 0, 0), (.eos 0 1 0 0, 0),
      (.ctl 0 1 0 0, 0), (.sync 0 1 2 1, 0), (.pick 0 1 2 3 0, 0), (.steer 0 1 2 3, tf 5), (.guard 0 1 2, tf 5), (.merge 0 0x0A 3 0, 0), (.mergeu 0 1 2 0, 0),
      (.rep 0 1 2 3 0, 0), (.gen 0 1 2 0, tf 0), (.gen 0 1 2 0, tf 5)], plain x) ∧
    (∃ c, tfind (mine (fr (.merge 0 0x0A 3 0) 0)).latch (0 : BitVec 5).toNat = some c) ∧ (0 : BitVec 5).toNat ≤ 7 ∧
    (∃ l, tfind (mine (fr (.merge 0 0x0A 3 0) 0)).latch 1 = some l) ∧
    (∃ x y, (mine (fr (.mergeu 0 1 2 0) 0)).headAt 0 100 = some x ∧ x.tok.kind ≠ .eos ∧ (mine (fr (.mergeu 0 1 2 0) 0)).headAt 1 100 = some y ∧ y.tok.kind ≠ .eos) ∧
    (let s := fr (.mergeu 0 1 2 0) 0 (fun p => { p with latch := lat { kind := .eos } })
     Fires s (.mergeu 0 1 2 0) 0 ∧ (mine s).headAt 0 100 = some ⟨{ kind := .eos }, 0⟩ ∧ (∃ y, (mine s).headAt 1 100 = some y ∧ y.tok.kind ≠ .eos)) ∧
    (let s := fr (.mergeu 1 0 2 0) 0 (fun p => { p with latch := lat { kind := .eos } })
     Fires s (.mergeu 1 0 2 0) 0 ∧ (mine s).headAt 0 100 = some ⟨{ kind := .eos }, 0⟩ ∧ (∃ y, (mine s).headAt 1 100 = some y ∧ y.tok.kind ≠ .eos)) := by
  refine ⟨by unfold plain Fires; decide +kernel, ⟨_, rfl⟩, by decide +kernel, ⟨_, rfl⟩, ⟨_, _, rfl, nofun, rfl, nofun⟩, ⟨by unfold Fires; decide +kernel, rfl, _, rfl, nofun⟩,
    by unfold Fires; decide +kernel, rfl, _, rfl, nofun⟩

theorem witness_LaneResults :
    ∀ f ∈ [0, 4, 5, 8, 9], ∀ i ∈ [Instr.vadd 0 1 2 3 0, .vsub 0 1 2 3 0, .vmul 0 1 2 3 0, .vfma 0 1 2 3 0, .vmax 0 1 2 3 0, .vmin 0 1 2 3 0, .vshl 0 1 2 3 0,
      .vshr 0 1 2 3 0, .vcmpEq 0 1 2 3 0, .vcmpLt 0 1 2 3 0, .vand 0 1 2 3 0, .vor 0 1 2 3 0, .vxor 0 1 2 3 0], plain (i, tf f) := by
  unfold plain Fires
  decide +kernel

theorem witness_LaneFunctions :
    (∀ f ∈ [0, 4, 5, 8, 9], ∀ i ∈ [Instr.vabs 0 2 3 0, .vred 0 2 3 0, .vdot 0 1 2 3 0, .vscan 0 2 3 0, .vcvt 0 0x81 2 0, .vcvt 0 12 2 0, .vperm 0 1 2 3 0,
      .vbcast 0 1 2 3 0], plain (i, tf f)) ∧
    (∀ i ∈ [Instr.vrcp 0 2 3 0, .vrsq 0 2 3 0, .vexp2 0 2 3 0, .vlog2 0 2 3 0], plain (i, tf 0)) ∧ Mode.ofCode (0x81 / 16 % 8) ≠ .sr ∧
    plain (.vcvt 0 0x41 2 0, tf 0) ∧ Mode.ofCode ((0x41 : BitVec 10).toNat / 16 % 8) = .sr ∧ trFmt (tf 5) = .int ⟨32, true⟩ ∧ trFmt (tf 4) = .flt e5m2 := by
  refine ⟨by unfold plain Fires; decide +kernel, by unfold plain Fires; decide +kernel, by decide +kernel, by unfold plain Fires; decide +kernel, by decide +kernel,
    by decide +kernel, by decide +kernel⟩

theorem witness_RoundingAndClamping : e4m3 ∈ [fp32, bf16, fp16, e4m3, e5m2] ∧ (0x7E < 2 ^ e4m3.bits ∧ e4m3.decode 0x7E ≠ .nan) ∧ (0x7F < 2 ^ e4m3.bits ∧ e4m3.decode 0x7F = .nan) ∧
    (⟨8, false⟩ : IFmt) ∈ [⟨32, true⟩, ⟨16, true⟩, ⟨8, true⟩, ⟨8, false⟩, ⟨64, true⟩] := by
  decide +kernel

/-- A rule with a token at channel 0. -/
def frv (i : Instr) (v : Token) : State := fr i 0 (fun p => { p with latch := lat v })

/-- A rule of `bmexp` in a phase, with tokens at channels 0 and 1. -/
def frb (m : BmState) (v w : Token) : State :=
  fr (.bmexp 0 1 2 3 0) 0 (fun p => { p with bm := m, latch := [(0, ⟨v, 0⟩), (1, ⟨w, 0⟩)] })

theorem witness_StoreStreamsAndNodes :
    (∀ x ∈ [(Instr.sld 0 1 2 0, (0 : BitVec 32)), (.sld 4 1 2 0, 0), (.sst 0 3 0, 0), (.isect 0 1 2 3 0, 0), (.xsend 0 1, 0), (.xrecv 0 1 2 0, 0), (.mld 0 1 2 0, 0),
      (.mst 0 1 2 3 0, 0), (.matom 0 0 1 0, 0), (.matom 0 8 1 0, 0), (.matom 0 7 1 0, 0)], plain x) ∧
    (∃ l, ((fr (.sld 0 1 2 0) 0).gen ⟨slotRule.plane.elem.tile.pair, 0⟩).rport = some l) ∧
    ((fr (.mld 0 1 2 0) 0).plane slotRule.plane).inst = some i0 ∧ (fr (.mld 0 1 2 0) 0).inst i0 = some x0 ∧
    (∃ y, checkAddrOf (fr (.mld 0 1 2 0) 0) slotRule.plane.elem.tile.core 0 1 0 16 16 true = .ok y) ∧
    (∃ y, checkAddrOf (fr (.matom 0 7 1 0) 0) slotRule.plane.elem.tile.core 0 1 0 4 4 false = .ok y) ∧
    Fires (frv (.mld 0 1 2 0) { data := 1 }) (.mld 0 1 2 0) 0 ∧ (sources (frv (.mld 0 1 2 0) { data := 1 }) 0 (some 0) none).1.data.extractLsb' 0 64 = 1 ∧
    (∃ y, checkAddrOf (frv (.mld 0 1 2 0) { data := 1 }) slotRule.plane.elem.tile.core 0 1 1 16 16 true = .error y) ∧ (fr (.xsend 0 1) 0).twins = [] ∧
    (fr (.mld 0 1 2 0) 0).dispatches 1 = true ∧ Fires (frv (.mld 0 1 2 0) { data := 0x8000000000000000 }) (.mld 0 1 2 0) 0 ∧
    (∃ va, checkAddrOf (frv (.mld 0 1 2 0) { data := 0x8000000000000000 }) slotRule.plane.elem.tile.core 0 1 0x8000000000000000 16 16 true = .ok (.global va)) := by
  refine ⟨by unfold plain Fires; decide +kernel, ⟨_, rfl⟩, rfl, rfl, ⟨_, rfl⟩, ⟨_, rfl⟩, by unfold Fires; decide +kernel, by decide +kernel, ⟨_, rfl⟩, rfl, rfl, by unfold Fires; decide +kernel, _, rfl⟩

/-- R26, R333: after a JOB_END no access begins at a window. -/
theorem witness_StoreStreamsAndNodes_ending :
    let s := { frv (.mld 0 1 2 0) { data := 0xC000000600000040 } with jobs := [(1, { jg with state := .ending 0 })] }
    Fires s (.mld 0 1 2 0) 0 ∧ s.dispatches 1 = false ∧ (sources s 0 (some 0) none).1.data.extractLsb' 0 64 = 0xC000000600000040 ∧
    checkAddrOf s slotRule.plane.elem.tile.core 0 1 0xC000000600000040 16 16 true = .ok (.window 0xC000000600000040) := by
  refine ⟨by unfold Fires; decide +kernel, by decide +kernel, by decide +kernel, rfl⟩

theorem witness_StoreStreamsAndNodes_bitmaps :
    (∀ x ∈ [(({} : BmState), ({ data := 2 } : Token), ({} : Token)), ({}, { kind := .eos }, { kind := .eos }), ({ phase := 1, n := 2 }, { data := 3 }, {}),
      ({ phase := 1, n := 1 }, { data := 3 }, {}), ({ phase := 2, n := 2, bitmap := 3 }, {}, {}), ({ phase := 3 }, {}, {})],
      Fires (frb x.1 x.2.1 x.2.2) (.bmexp 0 1 2 3 0) 0 ∧ tfind (mine (frb x.1 x.2.1 x.2.2)).latch 0 = some ⟨x.2.1, 0⟩ ∧
        tfind (mine (frb x.1 x.2.1 x.2.2)).latch 1 = some ⟨x.2.2, 0⟩ ∧ (mine (frb x.1 x.2.1 x.2.2)).bm = x.1) ∧
    (3 : BitVec 128).cpop.toNat = 2 ∧ (3 : BitVec 128).getLsbD 0 = true := by
  refine ⟨by unfold Fires; decide +kernel, by decide +kernel, by decide +kernel⟩

theorem witness_BargesArrive :
    t0.core.isHandler = true ∧ s0.alive b0.sid = true ∧ ctlCont b0.ctl = false ∧
    (∀ p, (sx (.bargeArrival t0.core (.core t0.core) ⟨.barge b0, 7, none, p, 0⟩)).arg = .bargeArrival t0.core (.core t0.core) ⟨.barge b0, 7, none, p, 0⟩) ∧
    ({} : Core).mustSpill t0.core 1 2 = false ∧ (let k : Core := { basin := List.replicate 32 (sl 2) }
      k.mustSpill t0.core 1 2 = true ∧ (k.spilled t0.core 1).length < 5632) ∧
    (let k : Core := { spill := List.replicate 5632 (sl 2) }; k.mustSpill t0.core 1 2 = true ∧ 5632 ≤ (k.spilled t0.core 1).length) ∧
    ({} : Core).level 0 < 32 ∧ 32 ≤ ({ basin := List.replicate 32 (sl 0) } : Core).level 0 ∧ bf.fault = true ∧ b0.fault = false ∧
    (let held (n : Nat) : Nat := ((List.replicate n (sl 0)).filter (fun x => x.prio = 0 && !x.load.isFault)).length
     held 23 < 24 ∧ 24 ≤ held 24) ∧ Keyed ({} : Core) ∧ Keyed (kSend (.barge b0)) ∧ Keyed (kSend (.packet pk0) 15) ∧
    tfind (kSend (.barge b0)).sends 7 = some { item := it (.barge b0), dst := t0.core } ∧ tfind (kSend (.packet pk0) 15).sends 7 = some { item := it (.packet pk0), dst := t0.core, tries := 15 } ∧
    (it (.barge b0)).load.away s0.node = false ∧ b0.origin = none ∧ (0 : Nat) + 1 < 16 ∧ 16 ≤ 15 + 1 := by
  refine ⟨rfl, ?_, ?_, fun _ => rfl, ?_⟩ <;> (try unfold Keyed) <;> decide +kernel

theorem witness_BasinsServe :
    (let s := late (sx (.promotion t0.core 2) { basin := [sl 2] })
     (s.core t0.core).basin.find? (fun x => x.prio = 2) = some (sl 2) ∧ (sl 2).at_ + 4096 ≤ s.cycle ∧ (s.core t0.core).mayHold t0.core (sl 2).load.sid (2 - 1) = true) ∧
    (let s := late (sx (.faultRedelivery t0.core) { basin := [sl 0] })
     (s.core t0.core).basin.find? (fun x => x.prio = 0 && x.at_ + 4096 ≤ s.cycle) = some (sl 0) ∧ s.ctl.down.contains t0.core.die = false) ∧
    (∀ e ∈ [sl 2, ⟨.packet pk0, 2, 0⟩], let s := sx (.dispatch t0.core) { basin := [e] }
      (s.core t0.core).lastDispatch ≠ some s.cycle ∧ s.moving t0.core = false ∧ (s.freeSlots t0.core).head? = some 1 ∧ s.nextItem t0.core = some e) ∧
    (let s := sx (.dispatch t0.core) { steal := some 3, stolen := some b0 }
     s.stolenItem t0.core = some (3, b0) ∧ (s.core t0.core).lastDispatch ≠ some s.cycle) ∧ (sx (.dispatch t0.core) { basin := [sl 2] }).stolenItem t0.core = none ∧
    (let k : Core := { basin := [sl 0, sl 2, sl 0] }
     k.basin = [sl 0] ++ sl 2 :: [sl 0] ∧ k.spill = [] ∧ k.faults = [] ∧ (∀ x ∈ [sl 0], x.prio ≠ 2)) ∧ (s0.handler 1 (ctlHandler b0.ctl)).isSome = true ∧
    b0.payload[1]? = some 2 ∧ b0.payload[2]? = none ∧ pk0.h.length = 10 := by
  and_intros <;> decide +kernel

/-- Deposits of two values from h1 on, of generation 0, for the thread's slot. -/
def d0 : Deposit := { slot := 0, first := 1, vals := [5, 6], gen := 0, ctl := none, sid := 1, serial := some 1 }
/-- Core 1 asks for work: core 0 has entries in its deque, the first still reserved. -/
def steal (e : Ev) (k : Core) : State := { s0 with arg := e, cores := [(t0.core, { deque := [⟨b0, some 3⟩, ⟨b0, none⟩] }), (c1, k)] }

theorem witness_DepositsStealsCounters :
    (let s := sx (.deposit t0.core d0) {} { c0 with status := .parkWait 2 }
     (s.ctx ⟨t0.core, d0.slot⟩).status = .parkWait 2 ∧ d0.gen = (s.ctx ⟨t0.core, d0.slot⟩).gen ∧ d0.fits = true ∧ (s.ctx ⟨t0.core, d0.slot⟩).status ≠ .free ∧
       d0.serial = some (s.ctx ⟨t0.core, d0.slot⟩).serial) ∧
    ({ d0 with gen := 1 } : Deposit).gen ≠ (s0.ctx t0).gen ∧ ((sx (.deposit t0.core { d0 with slot := 4 })).ctx ⟨t0.core, 4⟩).status = .free ∧
    (let s := sx (.heldDepositApply t0) {} { c0 with status := .parkWait 1, hold := [d0] }
     (s.ctx t0).status = .parkWait 1 ∧ (s.ctx t0).nextIssue ≤ s.cycle ∧ (s.ctx t0).heldAt ≤ s.cycle ∧ (s.ctx t0).hold = d0 :: []) ∧
    (let s := sx (.heldDepositApply t0) { lane := [d0] } { c0 with status := .parkWait 1 }
     (s.ctx t0).hold = [] ∧ (s.core t0.core).lane.find? (fun y => y.slot = 0) = some d0) ∧
    s0.alive comp0.comp.sid = true ∧ s0.alive ({ comp0.comp with sid := 9 } : Completion).sid = false ∧
    (let s := sx (.completionArrival t0.core comp0.comp) {} { c0 with status := .mwait }
     (s.ctx ⟨t0.core, 0⟩).status = .mwait ∧ (s.ctx ⟨t0.core, 0⟩).preemptPending = false) ∧
    (let s := steal (.stealRequest c1 t0.core) {}
     c1.hive?.bind s.sidOf = some 1 ∧ (s.freeSlots c1).head? = some 0 ∧ s.moving c1 = false ∧ (s.core c1).basin = [] ∧ (s.core c1).spill = [] ∧ (s.core c1).faults = [] ∧
       (s.core c1).deque = [] ∧ (s.core c1).steal = none ∧ (s.core c1).stolen = none ∧ s.keepsLast c1 = false ∧ c1 ≠ t0.core ∧ s.dispatches 1 = true ∧ s.sameDomain 1 c1 t0.core = true) ∧
    (let s := steal (.stealVictim t0.core c1) {}
     (s.core t0.core).deque = [⟨b0, some 3⟩] ++ ⟨b0, none⟩ :: [] ∧ (∀ y ∈ [(⟨b0, some 3⟩ : DqEntry)], y.by_ ≠ none) ∧ (⟨b0, none⟩ : DqEntry) ∉ [(⟨b0, some 3⟩ : DqEntry)]) ∧
    (∀ y ∈ ((steal (.stealVictim c1 t0.core) {}).core c1).deque, y.by_ ≠ none) ∧
    (let s := steal (.stealAnswer c1 (some b0)) { steal := some 0 }
     (s.core c1).steal = some 0 ∧ s.dispatches b0.sid = true ∧ c1.isHandler = true ∧ (s.core c1).lastDispatch ≠ some s.cycle ∧
       s.moving c1 = false) ∧ ((steal (.stealAnswer c1 (some b0)) { steal := some 0, lastDispatch := some 100 }).core c1).lastDispatch = some s0.cycle ∧
    (({ d0 with first := 9 } : Deposit).fits = false ∧ ({ d0 with first := 9 } : Deposit).gen = (s0.ctx t0).gen) ∧
    (let s := sx (.counterCarryFire t0.core 3) { counters := [(3, { target := 2, count := 3, action := 3, arg := 5 })] }
     (tget (s.core t0.core).counters {} 3).target ≠ 0 ∧ (tget (s.core t0.core).counters {} 3).target ≤ (tget (s.core t0.core).counters {} 3).count ∧
       (tget (s.core t0.core).counters {} 3).action = 3 ∧ t0.core.hive? = some ⟨0, 0⟩) ∧
    (let x : Counter := { target := 2, barrier := true, count := 1 }
     (x.target ≠ 0 ∧ x.target ≤ x.count + 1 ∧ x.action = 0) ∧ (1 ≠ x.phase ∧ x.next < x.target ∧ x.count < x.target)) ∧
    (let x : Counter := { target := 2, barrier := true, count := 1, next := 2 }; 1 ≠ x.phase ∧ x.next = x.target ∧ x.count < x.target) := by
  and_intros <;> decide +kernel

/-- A store of the thread that its core releases: to the core's own memory, and to another core's. -/
def rel0 (e : Eff) : Released := { eff := 0, slot := 0, serial := 1, gen := 0, sid := 1, origin := s0.originOf t0, buf := ⟨e, []⟩ }

theorem witness_CommitsReleaseEffects :
    (let s := sx (.commit t0) {} { c0 with status := .running (.commit .done) }
     (s.ctx t0).status = .running (.commit .done) ∧ s.commitReady t0 = true ∧ (s.ctx t0).badProbe = none) ∧
    (let s := sx (.commit t0) {} { c0 with status := .running (.commit .done), buf := [⟨.store 0 [1], [⟨0, .write, .waiting⟩]⟩] }
     s.commitReady t0 = false) ∧
    (∀ x ∈ [Cause.pageFault, .access],
      let s := sx (.commit t0) {} { c0 with status := .running (.commit .done), buf := [⟨.store 0x8000000000000000 [1], [⟨0, .write, .bad x⟩]⟩] }
      s.commitReady t0 = true ∧ (s.ctx t0).badProbe = some (x, 0x8000000000000000)) ∧
    (∀ x ∈ [((0x40 : Word), (Loc.tile ⟨0, 0, 0⟩ 0x40)), (0x4000000080000040, .tile ⟨0, 0, 2⟩ 0x40)],
      let s := sx (.effectRelease t0.core) { relq := [rel0 (.store x.1 [9])] }
      (s.core t0.core).relq = rel0 (.store x.1 [9]) :: [] ∧ bitsN x.1 63 62 ≠ 3 ∧ x.1.toNat % 32 + 1 ≤ 32 ∧ s.placeOf t0.core 1 [] x.1 = some x.2 ∧
        s.releaseReady t0.core = true) ∧
    (sx (.effectRelease t0.core) { relq := [rel0 (.store 0x40 [9])], lastRel := some 100 }).releaseReady t0.core = false ∧
    (∀ p ∈ s0.pending, p.chan ≠ .access t0.core 1 (.core t0.core)) ∧ (∀ e ∈ s0.wreqs, e.2.req.core ≠ t0.core) ∧
    (Loc.tile ⟨0, 0, 0⟩ 0x40).home = .core t0.core ∧ (Loc.tile ⟨0, 0, 2⟩ 0x40).home ≠ .core t0.core ∧
    (let k : Core := { relq := [rel0 (.push 0x4000000080000040 5 1 (.tile ⟨0, 0, 2⟩ 0x40))] }
     let o : Out := { rel := 0, eff := 0, serial := 1, cls := .memory, home := .core c1, need := 1, sid := 1, data := true }
     (sx (.pushSend t0.core) k).releaseReady t0.core = true ∧ (Loc.tile ⟨0, 0, 2⟩ 0x40).home ≠ .core t0.core ∧ (o.serial = 1 ∧ o.data = true ∧ inScope t0.core 1 o.home = true)) := by
  and_intros <;> decide +kernel

/-- The thread in a wait. -/
def cw (w : Wait) : Ctx := { c0 with status := .running w }
/-- A core whose released effects are not all performed; one with the duty of a thread that has ended. -/
def kOut : Core := { outs := [{ rel := 0, eff := 0, serial := 1, cls := .memory, home := .core c1, need := 1, sid := 1 }] }
def kDuty : Core := { resumes := [(9, [.thread t0 1])] }

theorem witness_WaitsAndPreemption :
    ((sx (.fenceDone t0) {} (cw (.fence 2))).ctx t0).status = .running (.fence 2) ∧ ((sx (.drainDone t0) {} (cw .drain)).ctx t0).status = .running .drain ∧
    (let s := sx (.migrShip t0) {} { cw .ship with shipTo := some c1 }
     (s.ctx t0).status = .running .ship ∧ (s.ctx t0).shipTo = some c1 ∧ (s.core t0.core).drained (s.ctx t0).serial = true) ∧
    ((sx (.migrShip t0) kOut { cw .ship with shipTo := some c1 }).core t0.core).drained 1 = false ∧
    ((s0.ctx t0).status = .ready ∧ (s0.ctx t0).nextIssue ≤ s0.cycle ∧ (s0.ctx t0).shield = false ∧ (s0.ctx t0).buf = [] ∧ (s0.ctx t0).reachcnt + 1 ≤ (s0.ctx t0).snap.reachlim) ∧
    ((sx (.preemption t0) {} { c0 with status := .mwait }).ctx t0).status = .mwait ∧
    (let s := sx (.faultResume (.thread t0 1)) kDuty { c0 with status := .suspended, faulted := true }
     s.cores.find? (fun e => e.2.resumes.any (fun r => r.2.contains (.thread t0 1) && e.2.drained r.1)) = some (t0.core, kDuty) ∧
       (s.ctx t0).serial = 1 ∧ (s.ctx t0).faulted = true) ∧
    ((sx (.preemption t0) {} {}).ctx t0).status = .free ∧ s0.cycle < ((sx (.preemption t0) {} { c0 with nextIssue := 200 }).ctx t0).nextIssue ∧
    ((sx (.preemption t0) {} { c0 with status := .suspended }).ctx t0).status = .suspended ∧
    ((s0.ctx t0).epoch ≠ 5 ∧ (s0.ctx t0).epoch = 0) ∧ ((sx (.commit t0) {} (cw (.commit .done))).ctx t0).status = .running (.commit .done) ∧
    (let s := sx (.probeAnswer t0 0 1 0 (.ok (.hbm 0))) {} { cw (.route b0 64) with buf := [⟨.hcancel 0, []⟩] }
     (s.ctx t0).status = .running (.route b0 64) ∧ 1 = (s.ctx t0).buf.length ∧ 0 ≠ (s.ctx t0).buf.length ∧ (s.ctx t0).room = .ok () ∧
       ctlForm s 1 1 false b0.ctl = true ∧ ctlForm s 1 1 false 0xFF00 = false) := by
  and_intros <;> (first | rfl | decide +kernel)

/-- A join record with two awaited, whose continuation goes to core 0. -/
def sj : State := { se (.joinPerform (rq .join (.effect c1 4))) with mem := [(0x40000000000000040, 2), (0x4000000000000004E, 2)] }

theorem witness_HomesPerform :
    (∀ op k, (rq op k).op = op ∧ (rq op k).asker = k ∧ (rq op k).dep = some (t0, 3, 0)) ∧ Memory.wf s0.mem ∧ (∃ t, exec .storePerform (se (.storePerform (rq (.store [some 1] false) (.effect c1 4)))) = .next t) ∧ s0.poisoned (here 0x40) 8 = false ∧ sj.poisoned (rq .join (.effect c1 4)).loc 16 = false ∧
    (BitVec.ofNat 64 (natOf (sj.bytes (here 0x40) 8)) : Word) = 2 ∧ bitsN (2 : Word) 63 62 = 0 ∧ (BitVec.ofNat 64 (natOf (sj.bytes ((here 0x40).plus 8) 8)) : Word) = 0x0002000000000000 ∧
    ctlCont 0x0002000000000000 = false ∧ ctlCount 0x0002000000000000 ≤ 1 ∧ checkBarge sj t0.core 0 1 (2 &&& ~~~(fld (2 ^ 30 - 1) 0)) 0x0002000000000000 = .ok (.core t0.core) := by
  refine ⟨fun _ _ => ⟨rfl, rfl, rfl⟩, by decide +kernel, goes_of (by decide +kernel), ?_⟩
  and_intros <;> (first | rfl | decide +kernel)

def qHeld : List Host.Cell := [(0x40000000000000400, 4), (0x40000000000000410, 1), (0x40000000000000418, 1), (0x4000000000000041C, 1)]

theorem witness_QueuesAndReplies :
    (∀ m ∈ [qCells, qFull, qEmpty, qHeld], let s := qs m .pushReserve (.reserve t0 ⟨1, 0⟩)
      s.poisoned (here 0x400) 32 = false ∧ qcheck (here 0x400) (s.qhead (here 0x400)) = none ∧
      s.poisoned ((here 0x400).plus (32 + 8 * ((s.qhead (here 0x400)).head % (s.qhead (here 0x400)).cap))) 8 = false) ∧
    (let q := (qs qCells .pushReserve .none).qhead (here 0x400); q.used + q.pushres < q.cap ∧ q.popres = 0 ∧ 0 < q.used) ∧
    (let q := (qs qFull .pushReserve .none).qhead (here 0x400); q.cap ≤ q.used + q.pushres) ∧ ((qs qEmpty .popReserve .none).qhead (here 0x400)).used = 0 ∧
    (let q := (qs qHeld (.pushSettle 5) .none true).qhead (here 0x400); q.pushres ≠ 0 ∧ q.popres ≠ 0) ∧
    (let l : LoadWait := { kind := .scalar 4 8, addr := 0x40, pieces := [⟨0x40, 8, none⟩] }
     let s (b : Bool) := sx (.loadReply t0 ⟨1, 0⟩ 0 (.data (List.replicate 8 1) false)) {}
       { c0 with status := .loadWait, epoch := 1, loadWait := some l, preemptPending := b }
     ((s true).ctx t0).epoch = 1 ∧ ((s true).ctx t0).status = .loadWait ∧ ((s true).ctx t0).loadWait = some l ∧ ((s true).ctx t0).buf = [] ∧
       (List.replicate 8 (1 : Byte)).length = 8 ∧ l.pieces[0]? = some ⟨0x40, 8, none⟩ ∧ ((s true).ctx t0).preemptPending = true ∧
       ((s true).ctx t0).shield = false ∧ ((s false).ctx t0).preemptPending = false) ∧
    (s0.ctx t0).status ≠ .loadWait ∧ (s0.ctx t0).status ≠ .free ∧ (s0.ctx t0).gen = 0 ∧ ((sx (.commit t0) {} {}).ctx t0).status = .free ∧ (tget s0.snoop [] (hbmLine 0).1).length ≤ 16384 := by
  and_intros <;> decide +kernel

/-- A station of die 0 with a cached page of the job, one whose walks are all taken, one with one walk at a table. -/
def xr : XReq := { asker := .none, sid := 1, va := 0x10000, acc := .read }
def sst (st : Station) (m : List Host.Cell := []) : State := { se (.translation 0 xr) with stations := [(0, st)], mem := m }
def wk : Walk := { id := 3, sid := 1, va := 0x10000, level := 4, table := 0x2000, waiters := [xr] }
def sw (m : List Host.Cell) (w : Walk := wk) : State := { sst { walks := [w] } m with arg := .pageWalk 0 3 }
def sh (waits : List (CoreId × Nat)) (host : Bool) : Shoot := { sid := 1, va := 0, all := true, size := 0, waits := waits, host := host, born := 0 }
def ssh (x : Shoot) : State := { se (.shot 2) with shoots := [(2, x)], cores := [(t0.core, kOut)] }

theorem witness_Translation :
    (let e : Word := 0x3F; e.getLsbD 4 = true) ∧ (let e : Word := 0x05; e.getLsbD 1 = false ∧ e.getLsbD 4 = false) ∧ (let e : Word := 0x0F; e.getLsbD 3 = true) ∧
    ((sst { cache := [⟨1, 0x10000, 0, 7⟩] }).station 0).cache.find? (fun e => e.covers xr.sid xr.va) = some ⟨1, 0x10000, 0, 7⟩ ∧
    (((sst {}).station 0).cache.find? (fun e => e.covers xr.sid xr.va) = none ∧ ((sst {}).station 0).walks = []) ∧
    (let w : Walk := { wk with va := 0x90000 }
     let st (n : Nat) : Station := { walks := List.replicate 64 w, waitq := List.replicate n xr }
     (∀ w ∈ ((sst (st 3)).station 0).walks, w.shares xr.sid xr.va = false) ∧ 64 ≤ ((sst (st 3)).station 0).walks.length ∧
       ((sst (st 3)).station 0).waitq.length < 1024 ∧ 1024 ≤ ((sst (st 1024)).station 0).waitq.length) ∧
    ((sw []).station 0).walks.find? (fun w => w.shares xr.sid xr.va) = some wk ∧ ((ssh (sh [] false)).job (sh [] false).sid).killDies = [] ∧
    (∀ m ∈ [([] : List Host.Cell), [(0x2008, 1)], [(0x2008, 5)]], let s := sw m
      (s.station 0).walks.find? (fun w => w.id = 3) = some wk ∧ s.poisoned (.hbm (wk.table + 8 * levelIndex wk.va wk.level)) 8 = false) ∧
    (let e (m : List Host.Cell) : Word := BitVec.ofNat 64 (natOf ((sw m).bytes (.hbm (wk.table + 8 * levelIndex wk.va wk.level)) 8))
     (e []).getLsbD 0 = false ∧ ((e [(0x2008, 5)]).getLsbD 0 = true ∧ entryForm s0.part (e [(0x2008, 5)]) wk.level = true ∧ (e [(0x2008, 5)]).getLsbD 2 = true)) ∧
    (let w : Walk := { wk with level := 3 }
     let e : Word := BitVec.ofNat 64 (natOf ((sw [(0x2000, 1)] w).bytes (.hbm (w.table + 8 * levelIndex w.va w.level)) 8))
     e.getLsbD 0 = true ∧ entryForm s0.part e w.level = true ∧ e.getLsbD 2 = false ∧
       (∀ r ∈ w.waiters, ({ w with level := w.level + 1 } : Walk).shares r.sid r.va = true)) ∧
    s0.lkDown 0 = false ∧ (let p0 : Word := 0x30001; p0.toNat < 2 ^ 18 ∧ bitsN p0 17 16 = 3) ∧ (s0.job 1).hives = [⟨0, 0⟩, ⟨0, 1⟩] ∧
    (tfind (ssh (sh [] true)).shoots 2 = some (sh [] true) ∧ (ssh (sh [] true)).shotReady (sh [] true) = true ∧ (ssh (sh [] false)).shotReady (sh [] false) = true ∧
      (ssh (sh [(t0.core, 0)] true)).shotReady (sh [(t0.core, 0)] true) = false) := by
  and_intros <;> decide +kernel

/-- A rule's access whose completion comes back while its plane is being recorded; a plane fed by another. -/
def na : NodeAcc := { slot := 0, seq := 0, addr := 0, op := .load 16, tok := {} }
def pB : PlaneId := ⟨⟨⟨0, 0, 0⟩, 1⟩, 0⟩

theorem witness_ArcsAndSequencers :
    (({} : Token).marker = false ∧ ({ kind := .mark } : Token).marker = true ∧ (s0.plane pB).isects = []) ∧
    (let s := { se (.arcAck ⟨pB, 3⟩) with planes := [(pB, { src := [(3, .arc slotRule.plane 1)] })] }
     tfind (s.plane pB).src 3 = some (.arc slotRule.plane 1) ∧ (s.plane slotRule.plane).accs = []) ∧
    (let s := { se (.memNodeCompletion slotRule 0 (.data [] false)) with planes := [(slotRule.plane, { accs := [na], recorded := true })] }
     (s.plane slotRule.plane).accs.find? (fun x => x.seq = 0 && x.slot = slotRule.slot) = some na ∧ na.late = false ∧ (s.plane slotRule.plane).recorded = true ∧ s.silent slotRule = false) ∧
    (let s := { fr (.mld 0 1 2 0) 0 (fun p => { p with accs := [na], dst := [(1, .arc ⟨⟨⟨0, 0, 2⟩, 0⟩, 0⟩ 3)] }) with arg := .memNodeCompletion slotRule 0 (.data [1] false) }
     let p := s.plane slotRule.plane
     let w : BitVec 32 := encode (.mld 0 1 2 0)
     p.accs = [na] ∧ na.seq = 0 ∧ na.slot = slotRule.slot ∧ na.late = false ∧ p.recorded = false ∧ s.held slotRule.plane.elem = false ∧ s.rule slotRule = some (w, 0) ∧
       wT w = 0 ∧ (wD w).toNat = 1 ∧ p.free 1 = true ∧ tfind p.dst 1 = some (.arc ⟨⟨⟨0, 0, 2⟩, 0⟩, 0⟩ 3) ∧ (2 : Nat) ≠ slotRule.plane.elem.tile.tile) ∧
    (let s := { se (.planeSwitch ⟨0, 0, 0⟩) with tiles := [] }
     (s.tile ⟨0, 0, 0⟩).chosen = [] ∧ (s.tile ⟨0, 0, 0⟩).last ≠ some s.cycle ∧ (s.tile ⟨0, 0, 0⟩).left = 0 ∧ (∀ e, e < 4 → s.eligible ⟨0, 0, 0⟩ e = false)) ∧
    (let s := { fr (.mov 0 1 0 0) 0 with arg := .planeSwitch ⟨0, 0, 0⟩, tiles := [(⟨0, 0, 0⟩, { cur := 3 })] }
     (s.tile ⟨0, 0, 0⟩).chosen = [] ∧ (s.tile ⟨0, 0, 0⟩).left = 0 ∧ s.eligible ⟨0, 0, 0⟩ ((3 + 1 + 0) % 4) = true) := by
  and_intros <;> decide +kernel

theorem witness_StoreTilesMove :
    (let s := sg (.writePortToken g0) { cfg := some (gc 1 false), wport := some {} }
     (s.gen g0).cfg = some (gc 1 false) ∧ (s.gen g0).wport = some {} ∧ s.portReady g0 = true) ∧
    (let s := sg (.writePortToken g0) { cfg := some (gc 0 true), wport := some { kind := .eos }, full := [0] }
     s.portReady g0 = false ∧ (s.gen g0).fill ∈ (s.gen g0).full) ∧
    (∀ k ∈ [Kind.data, .ctrl, .eos], ∀ n ∈ [16, 32], ∀ m ∈ [0, 1], (sg (.writePortToken g0) { cfg := some (gc 0 true n), wport := some { kind := k }, part := m }).portReady g0 = true) ∧
    (gc 0 true 16).recd.words = 1 ∧ (gc 0 true 32).recd.words = 2 ∧
    (let x : Gen := { cfg := some (gc 0 true), full := [0] }
     x.run = true ∧ x.pass = none ∧ x.passable (gc 0 true).recd = true ∧ x.recorded = false ∧ x.rport = none ∧ 0 < (x.program (gc 0 true).recd).e2 ∧
       (sg (.passStart g0) { x with run := false }).passReady g0 = false) ∧
    (sg (.bufferReopen g0) { cfg := some (gc 0 true) }).reopenReady g0 = false ∧ (sg (.bufferReopen g0) { cfg := some (gc 0 true), closed := true }).reopenReady g0 = true ∧
    (s0.gen g0).prod = none ∧ ((sg (.freedSlotNotice ⟨g0, 0, 0⟩) { prod := some (.array ⟨0, 0⟩) }).gen g0).prod = some (.array ⟨0, 0⟩) ∧ (s0.joint ⟨0, 0⟩).runs = [] := by
  and_intros <;> decide +kernel

/-- An op's record, the members' queues of such, an op, and a hive's array. -/
def gr (seq : Nat := 1) : List Byte := mk 64 [(0, 2, seq), (8, 2, 16), (12, 3, 0xFFFFFF), (16, 1, 1)]
def gq (l : List (List Byte)) : Tbl Nat (List JEntry) := l.mapIdx (fun m r => (m, [⟨.gang r, s0.originOf t0⟩]))
def op0 (r : List Byte := gr) : Op := { recs := List.replicate 8 r, origins := List.replicate 8 (s0.originOf t0) }
def h0 : HiveId := ⟨0, 0⟩
def sJ (e : Ev) (j : Joint) (x : Gen := { cfg := some (gc 0 false 4096), full := [0] }) : State := { sg e x with joints := [(h0, j)] }

theorem witness_JointArrayRuns :
    (s0.joint h0).gangHeads = none ∧
    (let s := sJ (.jointBarrier h0) { queues := gq (List.replicate 8 gr) }
     (∃ hs, (s.joint h0).gangHeads = some hs ∧ hs.head? = some (gr, s0.originOf t0) ∧ ∀ e ∈ hs, sharedOf e.1 = sharedOf gr)) ∧
    (let s := sJ (.jointBarrier h0) { queues := gq (List.replicate 7 gr ++ [gr 2]) }
     (∃ hs, (s.joint h0).gangHeads = some hs ∧ hs.head? = some (gr, s0.originOf t0) ∧ ∃ e ∈ hs, sharedOf e.1 ≠ sharedOf gr)) ∧
    4 ≤ [op0, op0, op0, op0].length ∧
    ((op0 (mk 64 [(8, 2, 16)])).headFault s0 h0 = some 1 ∧ (op0 (mk 64 [(8, 2, 16)])).checked = false) ∧ (op0 gr).headFault (sJ (.opHeadCheck h0) {}) h0 = none ∧ ((op0 gr).gens h0).any s0.reconfPassed = false ∧
    ({ ops := [op0] } : Joint).startReady = false ∧
    (let o := { op0 with checked := true }
     o.checked = true ∧ o.started = false ∧ o.rec0.opt 4 = false ∧ o.rec0.mode = 0 ∧ thas s0.moves h0 = false) ∧
    (op0 (mk 64 [(2, 1, 1), (7, 1, 16)])).rec0.mode = 1 ∧
    (sJ (.blockStart h0) { ops := [{ op0 with started := true }] }).blockReady h0 = true ∧ (sJ (.blockStart h0) { ops := [op0] }).blockReady h0 = false ∧
    (let s := sJ (.blockEnd h0) { ops := [{ op0 with started := true, busy := true }] } { cfg := some (gc 0 false 8192), full := [0] }
     (0 + 1) % op0.perSlot s h0 ≠ 0) ∧
    ({ ops := [{ op0 with started := true, blk := 1 }] } : Joint).endReady h0 = true ∧ ({ ops := [op0] } : Joint).endReady h0 = false ∧
    (OpRec.of (mk 64 [(4, 1, 5)])).fa = 5 ∧ (List.replicate 16 (200 : Nat)).length = 16 ∧ (∀ x ∈ List.replicate 16 (200 : Nat), x < 256) := by
  refine ⟨by decide +kernel, ⟨_, rfl, by decide +kernel, by decide +kernel⟩, ⟨_, rfl, by decide +kernel, by decide +kernel⟩, ?_⟩
  and_intros <;> decide +kernel

/-- A slice instruction at the head of member 2's queue, one that runs, and a ring of partial sums. -/
def jRun (e : Eff) (need : Nat) : Joint := { runs := [(2, { entry := ⟨e, s0.originOf t0⟩, need := need, wrote := true })] }
def gp (full : List Nat) : State :=
  { se (.partialCombine h0 2) with joints := [(h0, { jRun (.jdrainO 1 0 2) 0 with part := [((memberGen h0 2 0, 0), 2)] })],
                                   gens := [(memberGen h0 2 0, { cfg := some (gc 0 false 32768), full := full })] }

theorem witness_JointArrayRuns_slices :
    (let j : Joint := { queues := [(2, [⟨.jzero 1, s0.originOf t0⟩])] }
     j.sliceReady 2 = true ∧ tget j.queues [] 2 = ⟨.jzero 1, s0.originOf t0⟩ :: []) ∧ (s0.joint h0).sliceReady 2 = false ∧ thas s0.moves h0 = false ∧
    (tfind (jRun (.jdrain 1 (mk 32 [(0, 1, 1)])) 0).runs 2 = some ⟨⟨.jdrain 1 (mk 32 [(0, 1, 1)]), s0.originOf t0⟩, 0, true, 0⟩ ∧
      (DrainRec.of (mk 32 [(0, 1, 1)])).target = 1) ∧
    tfind (jRun (.jdrain 1 []) 3).runs 2 = some ⟨⟨.jdrain 1 [], s0.originOf t0⟩, 2 + 1, true, 0⟩ ∧
    (gp []).combineReady h0 2 = false ∧ tfind ((gp [0, 1]).joint h0).runs 2 = some ⟨⟨.jdrainO 1 0 2, s0.originOf t0⟩, 0, true, 0⟩ ∧
    (∀ i, i < 2 → i ∈ ((gp [0, 1]).gen (memberGen h0 2 0)).full) ∧ tget ((gp [0, 1]).joint h0).part 1 (memberGen h0 2 0, 0) = 2 := by
  and_intros <;> decide +kernel

/-- A haul of tag 5 on core 0 in a tag state. -/
def hl : Haul := { x := false, desc := mk 512 haulRec, sid := 1, origin := s0.originOf t0, serial := 1, order := 0 }
def lg (k : Nat) (st : HStage) : Leg :=
  { src := .mem 0x4000000040000000, dst := .mem 0x8000000000001000, esz := 8, bsrc := true, bdst := false, fly := [(k, st)] }
def sH (e : Ev) (h : Haul) (st : TagState) : State := { se e with hauls := [((t0.core, 5), h)], tags := [((t0.core, 5), st)] }
def hFar : Haul := { hl with desc := mk 512 [(0, 1, 1), (1, 1, 3), (4, 2, 5), (8, 8, 0x400000004007FFF8), (0x10, 8, 0x8000000000001000), (0x40, 8, 8), (0xC0, 8, 8), (0x140, 4, 8), (0x180, 4, 8)] }

theorem witness_HaulVisitOrder : (Desc.of (mk 512 haulRec)).transpose = false ∧
    (∀ c ∈ (Desc.of (mk 512 haulRec)).cnt.take (Desc.of (mk 512 haulRec)).rank, c ≠ 0) ∧ 7 < (Desc.of (mk 512 haulRec)).total := by
  and_intros <;> decide +kernel

theorem witness_HaulsMove :
    s0.nextHaul t0.core = none ∧
    (∀ h ∈ [hl, hFar], (sH (.haulStart t0.core) h .queued).nextHaul t0.core = some 5 ∧ tfind (sH (.haulStart t0.core) h .queued).hauls (t0.core, 5) = some h ∧ h.resumed = false) ∧
    ((Desc.of hFar.desc).ends hFar.x).findSome? ((Desc.of hFar.desc).preEnd ((sH (.haulStart t0.core) hFar .queued).setTag t0.core 5 .running) t0.core 1) = some .copyAddrOvf ∧
    (((Desc.of hl.desc).ends hl.x).findSome? ((Desc.of hl.desc).preEnd ((sH (.haulStart t0.core) hl .queued).setTag t0.core 5 .running) t0.core 1) = none ∧
      (Desc.of hl.desc).srcRing = false ∧ (Desc.of hl.desc).dstRing = false ∧ hl.stopping = false ∧ hl.x = false) ∧
    (let h : Haul := { hl with resumed := true, legs := [lg 3 .readNack] }
     (sH (.haulStart t0.core) h .queued).nextHaul t0.core = some 5 ∧ tfind (sH (.haulStart t0.core) h .queued).hauls (t0.core, 5) = some h) ∧
    (∀ st ∈ [HStage.reading, .writing [1] false], let h : Haul := { hl with legs := [lg 3 st] }
      tfind (sH (.haulAccessAnswer t0.core 5 6 .nack) h .running).hauls (t0.core, 5) = some h ∧ h.ending = false ∧
        (lg 3 st).src = .mem 0x4000000040000000 ∧ (lg 3 st).dst = .mem 0x8000000000001000 ∧
        (lg 3 st).fly.find? (fun f => f.1 = 3) = some (3, st) ∧ (lg 3 st).bdst = false) ∧ 3 < padKey ∧
    ({ hl with legs := [{ lg 3 .reading with fly := [], idx := 8 }] } : Haul).finished = true ∧ ({ hl with legs := [lg 3 .reading] } : Haul).finished = false ∧
    tget (sH (.haulComplete t0.core 5) hl .running).tags .free (t0.core, 5) = .running ∧ (∀ st ∈ [TagState.stopped, .queued, .running, .complete], tget (sH (.haulCancel t0.core 5 4) hl st).tags .free (t0.core, 5) = st) ∧ hl.ending = false ∧
    (let w : Word := 0x4000000040000000
     (sg (.hslotPerform t0.core w (s0.originOf t0) 4) { cfg := some (gc 0 false), full := [0] }).ringAt 1 w = g0 ∧ (0 : Nat) = bitsN w 23 16 ∧ 1 ∉ [0]) := by
  and_intros <;> decide +kernel

def i3 : InstId := ⟨0, 0, 3⟩
/-- A save or a restore of nothing. -/
def v0 (op : Nat) : Save := { op := gop op, va := 0x8000000000010000, bytes := [], want := 0 }
/-- An old instance on plane 0 with one node and a new one on plane 3. -/
def s2i (e : Ev) (x y : Inst) (rec : Bool := false) : State :=
  { si e x with insts := [(i0, x), (i3, y)], planes := [(slotRule.plane, { inst := some i0, rules := [(encode (.mov 0 1 0 0), 1)], recorded := rec })] }
def nd : NodeId := .plane slotRule.plane
def wv (passed : List NodeId) (sent : List NodeId := []) : Wave := { op := gop 0xA9, new := some i3, now := true, passed := passed, sent := sent }

theorem witness_InstancesLoadAndSwap :
    (let s := at3 0 []
     i0 = s.placeInst (gop 0xA8).origin.sid (gop 0xA8).place ∧ s.behind [i0] = none ∧ s.inst i0 = none ∧ thas s.saves i0 = false ∧
      (s.setInst i0 (s.newInst 1 0 .reserved)).judge i0 (s.image 1 (s.newInst 1 0 .reserved).image) = .ok ∧
      ({ s with planes := [(slotRule.plane, { inst := some i3 })] }.setInst i0 (s.newInst 1 0 .reserved)).judge i0 (s.image 1 (s.newInst 1 0 .reserved).image) = .no) ∧
    (let s := si (.graphReserve (gop 0xA8)) x0 cl0
     (s.ctx (gop 0xA8).thread).awaiting (gop 0xA8).ask = some lw0 ∧ s.inTurn (gop 0xA8) = true ∧ s.inst i0 = some x0 ∧ thas s.saves i0 = false ∧
       ({ s with pending := [⟨.graph 0, 0, .graphReserve (gop 0xA8)⟩] } : State).inTurn (gop 0xA8) = false ∧
       (s0.ctx (gop 0xA8).thread).awaiting (gop 0xA8).ask = none ∧ thas ({ s with saves := [(i0, v0 0xAD)] } : State).saves i0 = true) ∧
    (si (.gloadPerform (gop 0xA8)) { x0 with st := .reserved }).inst i0 = some { x0 with st := .reserved } ∧
    ((si (.gloadDone i0) { x0 with st := .loading, wave := some { op := gop 0xA8 } }).inst i0 = some { x0 with st := .loading, wave := some { op := gop 0xA8 } } ∧ (gop 0xA8).op < 256) ∧
    (let s := { si (.graphReserve (gop 0xA8)) { x0 with waitq := [gop 0xA9 (some 0)] } with insts := [(i3, { x0 with waitq := [gop 0xA9 (some 0)] })] }
     s.inst i0 = none ∧ s.behind [i0] = some i3) ∧
    ((si (.gswapPerform (gop 0xA9)) { x0 with st := .loading }).mustWait (gop 0xA9) = some i0 ∧ (si (.gswapPerform (gop 0xA9)) { x0 with st := .shadow }).mustWait (gop 0xA9) = none ∧
      (s2i (.gswapPerform (gop 0xA9 (some 0xC000))) { x0 with st := .shadow } x0).mustWait (gop 0xA9 (some 0xC000)) = none ∧
      (si (.gswapPerform (gop 0xA9)) { x0 with st := .loading }).unsettled i0 = true ∧ s0.inTurn (gop 0xA9) = true ∧
      ({ s0 with pending := [⟨.graph 0, 0, .graphReserve (gop 0xA8)⟩] } : State).inTurn (gop 0xA9) = false) ∧
    ((si (.gswapPerform (gop 0xA9)) { x0 with st := .shadow }).unsettled i0 = false ∧ (si (.gswapPerform (gop 0xA9)) { x0 with st := .shadow }).gens = []) ∧
    (let s := s2i (.gswapPerform (gop 0xA9 (some 0xC000))) { x0 with st := .shadow } x0
     i3 = s.placeInst 1 0xC000 ∧ s.unsettled i3 = false ∧ s.unsettled i0 = false ∧ s.inst i3 = some x0) ∧
    (s2i (.reconfPass i0 nd) x0 x0).passNow i0 nd = false ∧
    (let x := { x0 with st := .swapping, wave := some (wv []) }
     let s := s2i (.reconfPass i0 nd) x { x0 with st := .shadow }
     s.passNow i0 nd = true ∧ s.inst i0 = some x ∧ s.swapOver i0 = false) ∧
    (let x := { x0 with st := .swapping, wave := some (wv [nd]) }
     let s := s2i (.swapEnd i0) x { x0 with st := .shadow } true
     s.swapOver i0 = true ∧ s.inst i0 = some x ∧ (wv [nd]).strays = [] ∧ (wv [nd]).new = some i3 ∧ i3 ≠ i0 ∧ s.inst i3 = some { x0 with st := .shadow }) := by
  and_intros <;> decide +kernel

/-- A save or a restore of i0. -/
def sv (op : Nat) (v : Save) : State := { si (if op = 0xAD then .gsaveDone i0 else .grestDone i0) { x0 with st := .cut } with saves := [(i0, v)] }
/-- An area of no plane, no generator and no node of graph 0. -/
def area0 : List Byte := mk 64 [(0, 4, 0x43555447), (4, 2, 1), (0x0C, 2, 1), (0x20, 8, 64)]

theorem witness_InstancesCutAndRestore :
    ((si (.gmarkPerform (gop 0xAA)) x0).inst i0 = some x0 ∧ i0 = (si (.gmarkPerform (gop 0xAA)) x0).placeInst 1 0 ∧ (gop 0xAA).op < 256 ∧
      (si (.gmarkPerform (gop 0xAA)) x0).unsettled i0 = false ∧ s0.inTurn (gop 0xAA) = true ∧ x0.st = .active ∧
      (∀ st ∈ [InstState.active, .cut], (si (.gmarkPerform (gop 0xAA)) { x0 with st := st }).mustWait (gop 0xAA) = none)) ∧
    (s2i (.nodeRecord i0 nd) x0 x0).nodeReady i0 nd = false ∧
    (let x := { x0 with st := .marking, wave := some (wv []) }
     (s2i (.nodeRecord i0 nd) x x0).nodeReady i0 nd = true ∧ (s2i (.nodeRecord i0 nd) x x0).inst i0 = some x ∧ nd ∉ (wv []).passed ∧
       (s2i (.cutComplete i0) x x0).cutOver i0 = false) ∧
    (let x := { x0 with st := .marking, wave := some (wv [nd] [nd]) }
     (s2i (.cutComplete i0) x x0 true).cutOver i0 = true) ∧
    (let s := si (.gsavePerform (gop 0xAD)) { x0 with st := .cut, area := [1, 2] }
     s.mustWait (gop 0xAD) = none ∧ s.jointBound i0 = false ∧ areaFits (gop 0xAD).arg 2 = true) ∧
    (gop 0xAE).other = none ∧ areaFits 0x8000000000010000 64 = true ∧
    (tfind (sv 0xAD (v0 0xAD)).saves i0 = some (v0 0xAD) ∧ (v0 0xAD).ended = true ∧ ({ v0 0xAD with fly := [0] } : Save).ended = false ∧
      ({ v0 0xAD with failed := 1 } : Save).ended = true ∧ (v0 0xAE).ended = true ∧ (v0 0xAE).want ≠ 64 ∧ (v0 0xAE).bad = []) := by
  and_intros <;> decide +kernel

theorem witness_InstancesCutAndRestore_rebuild :
    (match ({ at3 0 [] with arg := .grestDone i0, saves := [(i0, v0 0xAE)] } : State).rebuild (gop 0xAE) i0 area0 with | .ok _ => true | .error _ => false) = true := by
  decide +kernel

/-- A link with four flits to be acknowledged, and what its receiver finds of a message. -/
def lo : LinkOut := { link := 0, first := 6, flits := 4, msg := .flitAck 0 }
def lb : Link := { st := 2, seq := 10, buf := [lo], rseq := 5 }
def rx5 : Rx := { link := 0, seq := 5 }
def np (dst : Nat) (seq : Nat := 0) : NetPkt := { src := 1, dst := dst, vnet := 0, prio := 2, seq := seq, sid := some 1, body := .ack t0.core 3 }
def kp (sent : Bool) : KeptPkt := { pkt := np 1, die := 0, flits := 2, sent := sent, at_ := 0 }

theorem witness_LinksAndRouters :
    (let s := ln lb (.replayRequest 0 8)
     s.link 0 = lb ∧ s.linkUp 0 = true ∧ s0.linkUp 0 = false ∧ rx5.seq = lb.rseq ∧ rx5.bad = none ∧ ({ rx5 with seq := 4 } : Rx).seq ≠ lb.rseq ∧
       ({ rx5 with bad := some (3, 2) } : Rx).bad = some (3, 2)) ∧
    (lb.before 8 < lb.unacked - lb.held ∧ lb.unacked - lb.held ≤ lb.before 3 ∧ ¬(0 < lb.tries ∧ lb.tryOf = 8) ∧
      (let l := { lb with tries := 15, tryOf := 8 }; 0 < l.tries ∧ l.tryOf = BitVec.ofNat 12 8 ∧ 16 ≤ l.tries + 1) ∧
      lb.change = none ∧ ({ lb with change := some 9 } : Link).change ≠ none) ∧
    3 ≤ lb.unacked - lb.held ∧ lb.blamed 2 = false ∧ lb.spared = false ∧ ({ lb with rflits := 64, blame := List.replicate 64 (2, 5) } : Link).blamed 2 = true ∧
    lb.again = none ∧ ({ lb with again := some 8 } : Link).again = some 8 ∧
    (linkAbsent s0.part 0 = false ∧ (s0.link 0).st ≠ 2 ∧ (s0.link 0).st ≠ 1 ∧ (s0.link 0).off = false ∧ (s0.link 0).train ≤ s0.cycle ∧
      s0.cycle < ({ train := 200 } : Link).train ∧ ({ st := 1 } : Link).st = 1) ∧
    (∀ n ∈ [1, 16], ((ln lb (.routerAccept rx5 (np 5) true)).receive rx5 n).2 = true ∧
      ((ln lb (.routerAccept rx5 (np 5) true)).receive { rx5 with bad := some (0, 2) } n).2 = false) ∧
    (np 5).dst ≠ s0.node ∧ (np 0).dst = s0.node ∧ (np 0).sid = some 1 ∧ thas s0.jobs 1 = true ∧ (np 0).ordered = true ∧
    (∀ r, (np 0).body ≠ .window r) ∧
    (np 0).seq = tget s0.accepts 0 ((np 0).src, (np 0).vnet, (np 0).prio) ∧ (np 0 7).seq ≠ tget s0.accepts 0 ((np 0).src, (np 0).vnet, (np 0).prio) ∧
    (let s : State := { se (.routerResend 1 0 2) with cycle := 70000, flows := [((1, 0, 2), { kept := [kp true] })] }
     (tget s.flows {} (1, 0, 2)).kept = kp true :: [] ∧ (kp true).sent = true ∧ (kp true).at_ + 65536 ≤ s.cycle) := by
  and_intros <;> (first | decide +kernel | exact fun _ => nofun)

/-- Pieces at window 3 of this node, an entry of it, and one of the exactly-once table. -/
def wr (op : MemOp) (addr : Word := 0xC000000600000040) (off : Nat := 0x40) : WinReq :=
  { node := 0, core := t0.core, slot := 0, seq := 4, attempt := 1, asker := .none, sid := 1, addr := addr, off := off, key := 9, op := op, ident := 0 }
def w3 : Win := { st := 2, base := 0x1000, len := 256, rights := 7, key := 9 }
def sW (e : Ev) (w : Win) (l : List Once := []) : State := { se e with wins := [((1, 3), w)], once := l }
def wop (release : Bool) : WinOp := { id := 3, release := release, args := [0, 0, 0, 0], thread := t0, serial := 1, sid := 1, origin := s0.originOf t0 }

theorem witness_WindowsCheckPieces :
    (let s := sx (.windowReserve (wop false)) {} cl0
     (s.ctx (wop false).thread).awaiting (wop false).ask ≠ none ∧ (s.win 1 3).st = 0) ∧
    winId (wr (.load 8)).addr = 3 ∧ (sW (.windowPieceCheck (wr (.load 8))) w3).win 1 3 = w3 ∧ (wr (.load 8)).once = false ∧ w3.admits (wr (.load 8)) = true ∧
    (w3.admits (wr (.load 8) 0xC0000006000000FC 0xFC) = false ∧ w3.st = 2 ∧ (wr (.load 8) 0xC0000006000000FC 0xFC).once = false ∧ ({ w3 with st := 1 } : Win).admits (wr (.load 8)) = false) ∧
    (let s := sW (.windowPieceCheck (wr (.atomic .add 1 0))) w3
     s.once.find? (fun e => e.req.same (wr (.atomic .add 1 0))) = none ∧ s.once.length < 4096 ∧ w3.admits (wr (.atomic .add 1 0)) = true ∧
       ({ w3 with st := 1 } : Win).admits (wr (.atomic .add 1 0)) = false) ∧
    (wr (.atomic .add 1 0)).once = true ∧ [({ req := wr (.atomic .add 1 0) } : Once)].find? (fun e => e.req.same (wr (.atomic .add 1 0))) = some { req := wr (.atomic .add 1 0) } ∧
    ({ w3 with st := 3, closing := some (wop true) } : Win).closing = some (wop true) := by
  and_intros <;> decide +kernel

theorem witness_WindowsCheckPieces_full :
    4096 ≤ (List.replicate 4096 ({ req := { wr (.load 8) with seq := 9 } } : Once)).length ∧
    (List.replicate 4096 ({ req := { wr (.load 8) with seq := 9 } } : Once)).find? (fun e => e.req.same (wr (.atomic .add 1 0))) = none := by
  refine ⟨Nat.le_of_eq List.length_replicate.symm, ?_⟩
  rw [List.find?_eq_none]
  intro x hx
  rw [List.eq_of_mem_replicate hx]
  decide +kernel

/-- An operation of core 0 at a window that waits for its answer. -/
def wa (op : MemOp) (addr : Word := 0xC000000600000040) (due : Nat := 50) : WinAttempt :=
  { num := 0, req := wr op addr, nretry := 6, rtimeout := 100, due := due, origin := s0.originOf t0 }
def sR (e : Ev) (a : WinAttempt) : State := { se e with wreqs := [((t0.core, 0, 4), a)] }

theorem witness_RemoteAttempts :
    tfind ({ se (.ratomPerform 6) with winReqs := [(6, { req := wr (.load 8), loc := some (.hbm 0x1000) })] } : State).winReqs 6 =
      some { req := wr (.load 8), loc := some (.hbm 0x1000) } ∧
    tfind s0.wreqs (t0.core, 0, 4) = none ∧ tfind (sR (.remoteAnswer (wr (.load 8)) .refused) (wa (.load 8))).wreqs ((wr (.load 8)).core, (wr (.load 8)).slot, (wr (.load 8)).seq) = some (wa (.load 8)) ∧
    ({ wr (.load 8) with attempt := 2 } : WinReq).attempt ≠ (wa (.load 8)).req.attempt ∧ ({ wr (.load 8) with copy := 1 } : WinReq).copy ≠ (wa (.load 8)).req.copy ∧
    (wr (.load 8)).once = false ∧ (wr (.atomic .add 1 0)).once = true ∧ bitsN (wr (.load 8)).addr 61 41 = s0.node ∧ bitsN (wr (.load 8) 0xC000020600000040).addr 61 41 ≠ s0.node ∧
    ((wa (.load 8)).due ≤ s0.cycle ∧ s0.cycle < (wa (.load 8) 0xC000000600000040 500).due) ∧
    (let s := { se (.requestIdExpiry 0 t0.core 0 4) with once := [{ req := wr (.load 8) }] }
     ∀ e ∈ s.once, s.cycle < e.born + 2 ^ 30) ∧ (0 : Nat) + 2 ^ 30 ≤ ({ s0 with cycle := 2 ^ 30 } : State).cycle := by
  and_intros <;> decide +kernel

/-- A node of group 7 of two ranks, rank 0, bound on instance i0. -/
def gk : Group := { st := 3, by_ := t0, n := 2, inst := i0, node := 0 }
def cn : CollNode := { op := 0, fmt := 0, group := 7, inp := slotRule.plane, inCh := 0, out := slotRule.plane, outCh := 1, p := 0, q := 0, gw := 0, rank := some 0 }
def cm (tok : Token := {}) (src : Nat := 0) : CollMsg := { sid := 1, group := 7, src := src, dst := 0, epoch := 0, index := 0, tok := tok }
def sC (e : Ev) (c : CollNode) (g : Group := gk) : State := { si e x0 with colls := [((i0, 0), c)], groups := [((1, 7, 0), g)] }
/-- A join of the group by rank 0. -/
def cj (release : Bool) : CollOp := { die := 0, release := release, args := [0x0000000000020007, 0, 0, 0, 0, 0, 0, 0], thread := t0, serial := 1, sid := 1, origin := s0.originOf t0 }
def pm : PathMsg := { node := 1, sid := 1, group := 7, rank := 0, peer := 1, digest := 0 }
/-- The group while it is joined, its node before that, and memory with a page of all addresses and a rank table of zeros at 0x10000. -/
def gj : Group := { gk with st := 1 }
def cn1 : CollNode := { cn with rank := none, p := 1, q := 1 }
def cj1 : CollOp := { cj true with args := [0x0000000000020007, 0, 0x10000, 0, 0, 0, 0, 0] }
def sP : State := { sC (.cjoinCheck cj1) cn1 gj with mem := [(0, 1), (1, 0x10), (0x1000, 5)] }

theorem witness_CollectivesAndGroups :
    (let s := sC (.contributionArrival (cm {} 1) none) cn
     s.nodeOf 1 7 0 = some (gk, cn) ∧ gk.st = 3 ∧ tfind cn.sums (0, 0) = none ∧ (0 < gk.n ∧ tfind (tput cn.parts (0, 1, 0) {}) (0, 0, 0) = none)) ∧
    (sC (.contributionArrival (cm {} 1) none) { cn with rank := some 0 } { gk with st := 2 }).nodeOf 1 7 0 = some ({ gk with st := 2 }, cn) ∧
    tfind ({ cn with sums := [((0, 0), {})] } : CollNode).sums (0, 0) = some {} ∧
    ((ln lb (.contributionArrival (cm {} 1) (some rx5))).receive rx5 16).2 = true ∧ rx5.intact = true ∧ ({ rx5 with intact := false } : Rx).intact = false ∧
    (∀ r, r < gk.n → tfind (tput [((0, 0, 0), ({} : Token))] (0, 1, 0) {}) (0, r, 0) = some {}) ∧
    (cm { kind := .eos }).tok.kind = .eos ∧ (cm).epoch < ({ cn with depoch := 1 } : CollNode).depoch ∧ cn.depoch ≤ (cm).epoch ∧ collReduces cn.op = true ∧
    tfind cn.res (0, 0, 0) = none ∧ tfind ({ cn with res := [((0, 0, 0), {})] } : CollNode).res (0, 0, 0) ≠ none ∧ cn.parts = [] ∧
    (let s := sx (.cjoinReserve (cj false)) {} cl0
     s.lkDown (cj false).die = false ∧ (s.ctx (cj false).thread).awaiting (cj false).ask ≠ none ∧
       thas s.groups (cj false).key = false ∧ (s.groups.filter (fun e => e.2.die = (cj false).die)).length < 64 ∧ (cj false).key = (1, 7, 0)) ∧
    (let s := { se (.cjoinCheck (cj true)) with groups := [((1, 7, 0), gk)] }
     tfind s.groups (cj true).key = some gk ∧ s.instSt (s.placeInst 1 (cPlace (cj true).args)) = none) ∧
    (({ gk with st := 2, peers := [(1, .asked 0 50)] } : Group).asks 1 = true ∧ gk.asks 1 = false) ∧
    (let g : Group := { gk with peers := [(1, .notYet 50)] }; (∀ p ∈ gk.peers, ∀ d, p.2 = .notYet d → s0.cycle < d) ∧ g.peers = [(1, .notYet 50)] ∧ 50 ≤ s0.cycle) ∧
    (let g : Group := { gk with peers := [(1, .asked 6 50)] }; g.nretry ≤ 6 ∧ 5 < g.nretry) := by
  and_intros <;> (first | decide +kernel | exact nofun)

theorem witness_CollectivesAndGroups_join :
    sP.lkDown cj1.die = false ∧ tfind sP.groups cj1.key = some gj ∧ i0 = sP.placeInst 1 (cPlace cj1.args) ∧ sP.instSt i0 = some .active ∧
    sP.colls.find? (fun e => e.1.1 = i0 && e.2.group = cGroup cj1.args && e.2.rank.isNone) = some ((i0, 0), cn1) ∧
    sP.vaBytes 1 (bitsN (cTable cj1.args) 56 0) (16 * cN cj1.args) = some (List.replicate 32 0) ∧
    readTable (List.replicate 32 0) (cN cj1.args) = some [(0, 0), (0, 0)] ∧
    [(0, 0), (0, 0)][cRank cj1.args]? = some (sP.node, (cPlace cj1.args).toNat) ∧ (cn1.p, cn1.q) = collRatio cn1.op (cN cj1.args) ∧
    cKeyNode cj1.args = (sP.job 1).span.lead ∧ (∀ e ∈ [(0, 0), (0, 0)], (sP.job 1).members.contains e.1 = true) ∧
    ((∀ e ∈ [((0 : Nat), (0 : Nat)), (0, 0)], e.1 / 256 = sP.node / 256) ∧ ({ sP with part := .hz480 } : State).part ≠ .hz960 ∧ (0x100 : Nat) / 256 ≠ sP.node / 256) := by
  and_intros <;> decide +kernel

/-- A switch being attested, and a policy of one anchor in companion memory. -/
def sS (e : Ev) (w : Switch) : State := { se e with switches := [(2, w)] }
def pol : List Host.Cell := [(2 ^ 64, 0x59), (2 ^ 64 + 1, 0x4C), (2 ^ 64 + 2, 0x4F), (2 ^ 64 + 3, 0x50), (2 ^ 64 + 4, 1), (2 ^ 64 + 8, 1)]

theorem witness_SwitchesAreAttested :
    (let w : Switch := { step := 4, tries := 1, due := 50 }
     let s := { sS (.spdmResponse { plane := 2, step := 4 } rx5) w with links := [(0, lb)] }
     s.switch 2 = w ∧ rx5.formed = true ∧ ({ rx5 with kind := 3 } : Rx).formed = false ∧ s.spdmReason w.td { plane := 2, step := 4 } = 0 ∧
       s.spdmReason w.td { plane := 2, step := 5 } = 4 ∧ ({ w with step := 5 } : Switch).step = 5 ∧ ({ w with step := 11 } : Switch).step = 11 ∧
       (s.receive rx5 rx5.flits).2 = true ∧ (s.receive { rx5 with bad := some (0, 1) } rx5.flits).2 = false ∧ w.step ≠ 0 ∧ w.due ≤ s0.cycle ∧ w.tries < 3 ∧ 3 ≤ ({ w with tries := 3 } : Switch).tries) ∧
    (s0.switch 2).step = 0 ∧ s0.lkDown 0 = false ∧
    (let s := { se (.spdmRequest 5 { plane := 0, step := 11, chain := true, ecdsa := some 0 } rx5) with links := [(0, lb)], spdm := [(5, 10)] }
     (s.receive rx5 rx5.flits).2 = true ∧ tget s.spdm 0 5 = 10 ∧ tget s0.spdm 0 5 ≠ 10 ∧ ({ plane := 0, step := 11, ecdsa := some 0 } : SpdmMsg).ecdsa = some 0) ∧
    (let s := { se (.policy 0 0 112) with mem := pol }
     (Policy.read (s.bytes (.comp (0 : Word).toNat) (112 : Word).toNat)).isSome = true ∧ (112 : Word).toNat ≤ policyMax ∧ (0 : Word).toNat % 64 = 0 ∧ bitsN (0 : Word) 63 52 = 0) ∧
    Policy.read (s0.bytes (.comp 0) 112) = none ∧ s0.groups = [] ∧ (1 : Word).toNat % 64 ≠ 0 ∧
    (let g : Group := { gk with st := 2, keys := [2], switches := [2] }
     let s := { sS (.keyInstallAck 2 1 7 rx5) { keys := [1] } with links := [(0, lb)], groups := [((1, 7, 0), g)] }
     (s.receive rx5 rx5.flits).2 = true ∧ 1 ∈ (s.switch 2).keys ∧ s.groups = [((1, 7, 0), g)] ∧ g.st = 2 ∧ g.keys = [2] ∧ 2 ∈ g.switches) ∧
    (let g : Group := { gk with st := 2, keys := [2], switches := [2] }
     let s := { sS (.switchErrorAnswer 2 1 7 rx5) {} with links := [(0, lb)], groups := [((1, 7, 0), g)] }
     (s.receive rx5 rx5.flits).2 = true ∧ s.groups = [((1, 7, 0), g)] ∧ 2 ∈ g.switches ∧ g.st ≠ 3 ∧ ({ g with st := 3 } : Group).st = 3) ∧
    (∀ e ∈ [((1, 7, 0), gk)], e.1.1 ≠ 1 ∨ e.1.2.1 ≠ 7 ∨ 2 ∉ e.2.switches) := by
  and_intros <;> decide +kernel

/-- A manifest of one hive, one handler and one initial barge at address 0 of companion memory. -/
def man : List Host.Cell :=
  [(0x10000000000000000, 0x4D), (0x10000000000000001, 0x4B), (0x10000000000000002, 0x45), (0x10000000000000003, 0x4C), (0x10000000000000004, 0x1),
  (0x10000000000000008, 0x1), (0x1000000000000000A, 0x1), (0x10000000000000018, 0x40), (0x1000000000000001C, 0x1), (0x10000000000000030, 0xC0),
  (0x10000000000000034, 0x1), (0x10000000000000040, 0x4E), (0x10000000000000041, 0x44), (0x10000000000000042, 0x4C), (0x10000000000000043, 0x48),
  (0x10000000000000044, 0x1), (0x1000000000000004A, 0xFF), (0x1000000000000004B, 0xFF), (0x1000000000000004C, 0x1), (0x10000000000000060, 0x40),
  (0x1000000000000006C, 0x44), (0x10000000000000083, 0x2), (0x100000000000000CE, 0x2)]
/-- The route word of a host barge. -/
def hr : Word := 0x8000000000000000
def sM : State := { se (.launch hr 0x0002C00000000000 0 0x100 0) with mem := man, jobs := [] }
/-- A job of one device, one of two devices whose lead is node 1 or this one, in a state. -/
def jS (lead : Nat) (st : JobState := .launching) (due : Option Nat := some 50) : Job :=
  { j0 with state := st, members := [lead], span := { devices := 2, lead := lead, deadline := due } }
def jO (st : JobState := .running) : Job := { j0 with state := st, span := { devices := 1 } }
def sB (e : Ev) (j : Job) : State := { se e with jobs := [(1, j)] }
def sjm (node : Nat := 2) : SpanMsg := { sid := 1, devices := 2, node := node, digest := 0 }

theorem witness_LaunchesAndSpans_plan :
    (match sM.plan_ hr 0x0002C00000000000 0 0x100 0 with | .ok p => p.sid == 1 && p.job.hives == [⟨0, 0⟩] && p.job.start.length == 1 | .error _ => false) = true ∧
    (match s0.plan_ hr 0x0002C00000000000 0 0x100 0 with | .ok _ => false | .error w => w == some .illegalForm) = true ∧ (1 : Word).toNat % 64 ≠ 0 ∧ sM.lkDown 0 = false ∧ sM.lkDown 1 = false ∧ sM.ctl.trip = false ∧
    hostRoute sM.node hr = true ∧ (match s0.plan_ 0 0x0002C00000000000 0 0x100 0 with | .ok _ => false | .error w => w == some .illegalForm) = true := by
  and_intros <;> decide +kernel

theorem witness_LaunchesAndSpans :
    (let s := sB (.spanJoin sjm) (jS 0)
     s.leading = some 1 ∧ (s.job 1).span.lead = s.node ∧ (s.job 1).span.devices = sjm.devices ∧ (s.job 1).span.digest = sjm.digest ∧
       (s.job 1).span.joined.contains sjm.node = false) ∧
    (s0.leading = none ∧ thas s0.jobs 1 = true) ∧ State.reset.leading = none ∧ thas State.reset.jobs 1 = false ∧ (sjm 3).sid ≠ 2 ∧
    (let s := sB (.spanAnswer 1 [1] 0 true) (jS 1)
     s.spanning 1 = true ∧ (s.job 1).span.lead ≠ s.node ∧ s.spanLate 1 = true) ∧ (sB (.spanLeadTimeout 1) (jS 0)).spanLate 1 = true ∧
    (sB (.spanJoinTimeout 1) (jS 1 .launching none)).spanLate 1 = false ∧ 
    (let s := sB (.leadSessionResponse 1 { plane := 0, step := 11 }) { jS 1 with span := { (jS 1).span with session := 11 } }
     s.spanning 1 = true ∧ (s.job 1).span.lead ≠ s.node ∧ (s.job 1).span.asking = false ∧ (s.job 1).span.session = 11) ∧
    (s0.spdmReason 0 { plane := 0, step := 1, versions := [13] } = 0 ∧ s0.spdmReason 0 { plane := 0, step := 1 } ≠ 0 ∧
      ({ (jS 1).span with session := 1 } : Span).session = 1) := by
  and_intros <;> decide +kernel

theorem witness_JobsEnd :
    (let s := sB (.jobEnd 0 1 none) { jO with members := [0] }
     thas s.jobs 1 = true ∧ (s.job 1).state = .running ∧ (s.job 1).span.lead = s.node ∧ (s.job 1).members = [s.node] ∧ s.lkDown 1 = false) ∧
    ((sB (.jobEnd 0 1 none) (jS 1 .running)).job 1).span.lead ≠ s0.node ∧ { jO with members := [0, 3] }.others 0 = [3] ∧
    (let s := sB (.jobEndTeardown 0 1) (jO (.ending 0))
     s.teardownReady 1 = true ∧ (s.job 1).state = .ending 0 ∧ (s.job 1).killDies = [] ∧ s.part.dies = 2 ∧ ({ s with part := .hz480 } : State).part.dies = 1 ∧
       ({ s with hauls := [((t0.core, 5), { x := false, desc := [], sid := 1, origin := s0.originOf t0, serial := 1, order := 0 })],
                 tags := [((t0.core, 5), .running)] } : State).teardownReady 1 = false) ∧
    (let s := sB (.jobEndTeardown 1 1) { jO (.ending 0) with killDies := [1] }
     s.lkDown 1 = false ∧ (s.job 1).state = .ending 0 ∧ (s.job 1).killDies = [1]) ∧
    (sB (.completionDetect 1) jO).completeNow 1 = false ∧ (late (sB (.completionDetect 1) { jO with quietSince := some 0 })).completeNow 1 = true := by
  and_intros <;> decide +kernel

/-- A fault barge of the job at rank 7, a report, a page being scrubbed. -/
def b7 : Barge := { b0 with payload := [0x1F, 0, 0, 0, 0, 0] }
def rp : SpanReport := { sid := 1, node := 1, quiet := false, idle := false, sent := 0, received := 0, round := none }
def sq : Scrub := { sid := 1, va := 0x10000, leaf := 0x2000, size := 0 }

theorem witness_DetectorsAndKills :
    (1 < (jS 1 .running).span.devices ∧ thas (sB (.completionDetect 1) (jS 1 .running)).jobs 1 = true ∧ (jS 1 .running).span.lead ≠ s0.node ∧ (jS 0 .running).span.lead = s0.node ∧
      (jS 0 .running).span.asked = false ∧ 1 ∈ (jS 1 .running).members ∧ rp.sid = 1 ∧ rp.quiet = false) ∧
    (let s := { sB (.deadlockDetect 1) { jO with idleSince := some 0 } with cycle := 2 ^ 25 }
     s.idleNow 1 = true ∧ (s.job 1).quietSince = none ∧ (s.job 1).span.devices = 1) ∧ (sB (.deadlockDetect 1) jO).idleNow 1 = false ∧
    (b7.sid = 1 ∧ bitsN (1 : Word) 15 0 = 1 ∧ (jS 0 .running).members = [s0.node] ∧ (jS 0 .running).others s0.node = [] ∧ s0.servedBy 1 .turso = [1] ∧ s0.servedBy 0 (.edge 2) = [1] ∧ Cause.linkTimeout ≠ .deadlock ∧ s0.part.dies = 2 ∧ s0.lkDown 1 = false) ∧
    (let j := { jO (.killed .killed) with killDies := [0] }
     0 ∈ j.killDies ∧ thas j.counts 0 = false ∧ 1 ∉ j.killDies ∧ thas ({ j with counts := [(0, (0, 0, 0))] } : Job).counts 0 = true) ∧
    ((∃ x ∈ [sq], x.sid = 1) ∧ (∀ x ∈ s0.scrubs, x.sid ≠ 1) ∧ (∀ x ∈ s0.shoots, x.2.sid ≠ 1 ∨ x.2.host = true) ∧ (jO).frame = none ∧ [sq].find? (fun x => x.sid = 1 && x.va = 0x10000) = some sq ∧ (jO).killDies = []) := by
  refine ⟨?_, ?_, ?_, ?_, ?_, ⟨sq, by simp, rfl⟩, ?_⟩ <;> decide +kernel

theorem witness_DetectorsAndKills_frame : s0.leavesOf 0x1000 4 1 0x100000 0 = [] := by decide +kernel

def hb : HostBasin := { base := 0x1000 }

theorem witness_HostBasinsAndBarges :
    (let s := sd .ready (fun c => { c with basins := [(2, hb)] })
     s.hostBasin 2 = hb ∧ Memory.wf s.mem ∧ hb.room = true ∧ (∀ e ∈ s.ctl.hold, e.1 ≠ 2) ∧ (List.replicate 8 (1 : Word)).length = 8) ∧
    ({} : HostBasin).room = false ∧ s0.ctl.hold.length < 256 ∧ 256 ≤ (List.replicate 256 ((1, []) : Nat × List Word)).length ∧
    State.reset.readyAt = none ∧ s0.readyAt.isSome = true ∧ (sd .ready).linkUp 24 = true ∧ s0.linkUp 24 = false ∧ s0.ctl.trip = false ∧ (sd .ready (fun c => { c with trip := true })).ctl.trip = true ∧ s0.ctl.hostBusy = false ∧ s0.ctl.hostq = [] ∧
    (sd .ready).dcrReaches 1 0 = true ∧ bitsN (0x1002 : Word) 5 4 = 0 ∧ bitsN (0x1002 : Word) 3 0 ≤ 12 := by
  refine ⟨⟨rfl, by decide +kernel, by decide +kernel, nofun, rfl⟩, by decide +kernel, by decide +kernel, Nat.le_of_eq List.length_replicate.symm, ?_⟩
  and_intros <;> decide +kernel

theorem witness_StartUp :
    (∀ n ∈ [2, 3, 4, 5], ({ State.reset with ctl := { State.reset.ctl with phase := n } } : State).starting n = true) ∧ Memory.wf State.reset.mem ∧
    (let e : ElemId := ⟨⟨0, 0, 0⟩, 5⟩
     isCompute e.tile.tile = true ∧ e.elem < 16 ∧ e.tile.tile < 16 ∧ e.tile.hive < 64 ∧ e.tile.die < s0.part.dies ∧ (s0.tile e.tile).spare = none) ∧ (∀ h ∈ s0.hiveSt, h.2 ≠ 1) ∧
    (let s := { State.reset with hiveSt := [(⟨0, 3⟩, 1)] }; s.hiveSt = [(⟨0, 3⟩, 1)] ∧ s.spoiled ⟨0, 3⟩ = false) := by
  and_intros <;> decide +kernel

/-- R486: an image that passes, and one whose signatures verify over another digest. -/
theorem witness_StartUp_image : ({} : FwSig).check Config.fwMinSec = 0 ∧ ({ digest := 1 } : FwSig).check 0 ≠ 0 := by
  refine ⟨by simp [FwSig.check], by decide +kernel⟩

theorem witness_OwnersChange :
    (let s := sd (.claimWrite 1 0 1) (fun c => { c with owner := 0 })
     s.lkDown 0 = false ∧ s.dcrReaches 1 0 = true ∧ s.ctl.owner = 0) ∧
    (let s := sd (.claimWrite 2 0 1) (fun c => { c with pending := 2, handDue := some 500 })
     s.dcrReaches 2 0 = true ∧ s.ctl.owner ≠ 0 ∧ s.ctl.pending = 2 ∧ s.ctl.handDue = some 500 ∧ s.cycle < 500) ∧
    (sd (.claimWrite 3 0 1)).dcrReaches 3 0 = false ∧ (sd (.relinquish 2 0)).owns 2 0 = false ∧ (sd (.relinquish 1 0)).owns 1 0 = true ∧
    (sd .ready).pathUp = true ∧ (sd .ready (fun c => { c with owner := 3 })).pathUp = false ∧ (sd .ready (fun c => { c with owner := 3 })).ctl.owner = 3 ∧
    (bitsN (2 : Word) 63 2 = 0 ∧ (2 : Word).toNat ≠ (sd (.handover 1 0 2)).ctl.owner) ∧ (sd .handoverTimeout).handoverLate = false ∧
    (sd .handoverTimeout (fun c => { c with pending := 2, handDue := some 50 })).handoverLate = true := by
  and_intros <;> decide +kernel

theorem witness_ClaimsMakeOwners : (sd (.claimWrite 2 0 1) (fun c => { c with owner := 0 })).dcrReaches 2 0 = true ∧
    (sd (.claimWrite 2 0 1)).ctl.owner ≠ 0 ∧ (sd (.claimWrite 2 0 1)).ctl.pending ≠ 2 ∧ (sd (.claimWrite 2 0 1)).ctl.handDue = none ∧ s0.lkDown 0 = false := by
  and_intros <;> decide +kernel

theorem witness_PowerCapWrites : 300 ≤ (300 : Word).toNat ∧ (1600 : Word).toNat ≤ 1600 ∧ (sd (.powerCap 1 0 1600)).owns 1 0 = true ∧
    (sd (.powerCap 2 0 300)).owns 2 0 = false ∧ (BitVec.ofNat 64 (sd (.powerCap 2 0 300)).ctl.rack).getLsbD (2 - 1) = true ∧
    (300 : Word).toNat < (sd (.powerCap 2 0 300)).ctl.pwrCap ∧ (sd (.powerCap 2 0 1600)).ctl.pwrCap ≤ (1600 : Word).toNat := by
  and_intros <;> decide +kernel

/-- Hive 5 in a state, and hive 0 being moved to it. -/
def sv5 (e : Ev) (n : Nat) : State := { sd e with hiveSt := [(⟨0, 5⟩, n)] }
def smv (x : Ctx) : State := { sd (.hiveMoveDone ⟨0, 0⟩) with moves := [(⟨0, 0⟩, { dest := ⟨0, 5⟩, sid := 1, threads := [], insts := [] })], ctxs := [(t0, x)] }

theorem witness_HivesAreServiced :
    (HiveId.mk 0 5 = ⟨5 / 64, 5 % 64⟩ ∧ 5 < 64 * s0.part.dies ∧ (sd (.hiveFence 2 0 5)).owns 2 0 = false ∧ (sd (.hiveFence 1 0 5)).owns 1 0 = true) ∧
    ((sv5 (.hiveFence 1 0 5) 0).hiveState ⟨0, 5⟩ = 0 ∧ thas (sv5 (.hiveFence 1 0 5) 0).moves ⟨0, 5⟩ = false ∧ (sv5 (.hiveFence 1 0 5) 0).sidOf ⟨0, 5⟩ = none ∧
      (sv5 (.hiveFence 1 0 5) 0).moves = []) ∧ (sd (.hiveFence 1 0 0)).sidOf ⟨0, 0⟩ = some 1 ∧
    (∀ n ∈ [1, 2, 3], (sv5 (.hiveTest 1 0 5) n).hiveState ⟨0, 5⟩ = n) ∧ tfind s0.moves ⟨0, 0⟩ = none ∧
    (tfind (smv {}).moves ⟨0, 0⟩).isSome = true ∧ (smv {}).moveReady ⟨0, 0⟩ = true ∧ (smv c0).moveReady ⟨0, 0⟩ = false := by
  and_intros <;> decide +kernel

theorem witness_DeviceRegisters :
    (1600 < (1601 : Word).toNat ∧ (299 : Word).toNat < 300) ∧ ((sd .ready).owns 2 0 = false ∧ (sd .ready).owns 1 0 = true ∧ (sd .ready).dcrReaches 1 0 = true) ∧
    (bitsN (0x1E : Word) 15 5 = 0 ∧ bitsN (0x1E : Word) 63 32 = 0) ∧ (bitsN (0x3C000000 : Word) 63 34 = 0 ∧ 60 ≤ bitsN (0x3C000000 : Word) 31 24 ∧ bitsN (0x3C000000 : Word) 31 24 ≤ 105) ∧
    (s0.heated 0 50).ctl.throttling = s0.ctl.throttling ∧ (s0.heated 0 100).ctl.throttling ≠ s0.ctl.throttling ∧ (s0.heated 3 120).ctl.throttling = true ∧
    ({ s0 with jobs := [] } : State).jobs = [] ∧ s0.jobs = [(1, j0)] ∧ j0.state = .running ∧ j0.others s0.node = [] ∧ (s0.job 1).span.lead = s0.node ∧
    (∀ e ∈ s0.ctl.pwrLog, e.2 ≤ 0xFFFF) ∧ ((sd .ready).dcrReaches 1 0 = true ∧ s0.dcrReaches 1 0 = false ∧ State.reset.ctl.phase < 2) ∧ ¬((0 : Nat) = 1 ∧ s0.part.dies = 1) ∧ 0 < s0.part.dies ∧ (linkAbsent s0.part 3 = false ∧ s0.linkUp 3 = false) ∧
    (ln {} (.linkOff 1 0 0 true)).linkUp 0 = true ∧ (bitsN (0xC00 : Word) 63 13 = 0 ∧ bitsN (0xC00 : Word) 7 7 = 0) ∧
    (({ s0 with stopped := true } : State).stopped = true ∧ (Turn.tick 1).whileStopped = false) := by
  and_intros <;> decide +kernel

/-- A compute element, and a state in which it has had errors. -/
def e5 : ElemId := ⟨⟨0, 0, 0⟩, 5⟩
def sE (e : Ev) (x : Elem) (spare : Option Nat := none) : State := { se e with elems := [(e5, x)], tiles := [(e5.tile, { spare := spare })] }
def i1 : InstId := ⟨0, 1, 0⟩

theorem witness_ElementsAndLockkeepers :
    (s0.elem e5).dead = false ∧ (s0.elem e5).heldTo ≤ s0.cycle ∧ e5.elem < 16 ∧ isCompute e5.tile.tile = true ∧ (s0.elem e5).lastErr = none ∧
    (let s := sE (.elementError e5) { lastErr := some 90 }
     (s.elem e5).lastErr = some 90 ∧ s.cycle ≤ 90 + 1250000 ∧ (s.tile e5.tile).spare = none) ∧
    (let s := sE (.elementError e5) { lastErr := some 90 } (some 4)
     (s.tile e5.tile).spare = some 4 ∧ s.planes = []) ∧
    (let s := sE (.spareMove e5) { lastErr := some 90, heldTo := 90 + 4096 }
     (s.elem e5).dead = false ∧ (s.elem e5).heldTo = 90 + 4096 ∧ s.lkDown 0 = false) ∧ [slotRule].find? (fun q => q.plane.elem = slotRule.plane.elem) = some slotRule ∧
    (let s := { si (.twin 0 1 0x0040000000000000) x0 with insts := [(i0, x0), (i1, { x0 with origin := ⟨0, 1⟩ })] }
     s.twinInst 1 0 = some i0 ∧ s.twinInst 1 (bitsN (0x0001000000000000 >>> 0 : Word) 54 32) = some i1 ∧ s.twinOk i0 i1 = true ∧ bitsN (1 : Word) 63 16 = 0 ∧
       bitsN (1 : Word) 15 0 = 1 ∧ bitsN (0x0001000000000000 : Word) 31 23 = 0 ∧ bitsN (0x0001000000000000 : Word) 63 55 = 0) ∧
    State.reset.jobs = [] ∧ s0.jobs = [(1, j0)] ∧ (∃ h ∈ j0.hives, h.die = 0) ∧ s0.lkDown 0 = false ∧
    (sd (.lockkeeperRestartDone 0) (fun c => { c with down := [0] })).restarting 0 = true ∧ s0.ctl.fwGo = false ∧ s0.restarting 0 = false ∧
    (let s := sd .ready (fun c => { c with down := [1], held := [(0, .jobEnd 0 1 none), (1, .ready)] })
     s.ctl.held = [(0, .jobEnd 0 1 none), (1, .ready)] ∧ s.lkDown 0 = false ∧ s.lkDown 1 = true) ∧
    ((sd (.fwStage 0 0x1000 0x100)).ctl.owner = 1 ∧ s0.ctl.owner ≠ 1 ∧ (0x1000 : Word).toNat % 4096 = 0 ∧ bitsN (0x1000 : Word) 63 52 = 0 ∧ (0x100 : Word).toNat ≤ 2 ^ 24 ∧ (sd (.fwStage 0 0x1000 0x100)).linkUp 24 = true ∧ s0.linkUp 24 = false) ∧
    ((sd (.fwActivate 0)).ctl.fwStaged = false ∧ (sd (.fwActivate 0) (fun c => { c with fwStaged := true })).ctl.fwStaged = true) := by
  have h : ∃ h ∈ j0.hives, h.die = 0 := ⟨⟨0, 0⟩, by simp [j0], rfl⟩
  and_intros <;> (first | exact h | decide +kernel)

theorem witness_WordsRoundTrip : threadTag (.add 12 31 11 3) = some 3 ∧ WellFormed.ok (.add 12 31 11 3) = true ∧ ruleWord (.mov 23 13 0 15) = true ∧
    WellFormed.ok (.mov 23 13 0 15) = true ∧ decodeThread 0x02000000 = .ok (.done 0) ∧ decodeElement 0xEC008003 = .ok (.sst 0 2 3) :=
  ⟨rfl, by decide +kernel, rfl, by decide +kernel, rfl, rfl⟩

theorem witness_ZeroOpcodeIsIllegal : (0x00ABCDEF : BitVec 32).extractLsb' 24 8 = 0 := by decide +kernel

theorem witness_ReservedOpcodesAndSamples : (0xBFFFFFFF : BitVec 32).toNat / 2 ^ 24 = 0xBF ∧ (0xF1000000 : BitVec 32).toNat / 2 ^ 24 = 0xF1 ∧
    (0x09000000 : BitVec 32).toNat / 2 ^ 24 = 9 := by decide +kernel

/-- The thread's core has the next turn, its code one word. -/
def sT (w : BitVec 32) : State := { s0 with plan := [.issue t0.core], jobs := [(1, { j0 with handlers := [(0, { rank := 0, units := 0, edge := 0xFFFF, entry := 0, code := [w], lits := [] })] })] }
/-- What core 0's turn finds in a word. -/
def finds (w : BitVec 32) : Bool :=
  let v : State := { sT w with plan := [] }
  (v.core t0.core).lastIssue ≠ some v.cycle && v.issuer t0.core = some t0 && (v.issued t0).codeWord ((v.issued t0).ctx t0).sid ((v.issued t0).ctx t0).pc = some w

theorem witness_AStepRunsTheDecodedInstruction :
    [0x02000000, 0x10680000, 0x0E000000, (0 : BitVec 32)].all finds = true ∧ decodeThread 0x02000000 = .ok (.done 0) ∧
    decodeThread 0x10680000 = .error .illegalPort ∧ decodeThread 0x0E000000 = .error .illegalOp := by
  refine ⟨by decide +kernel, rfl, rfl, rfl⟩

theorem witness_AStepRunsTheDecodedInstruction_other :
    (let v := fr (.mov 0 1 0 0) 1
     (v.tile slotRule.plane.elem.tile).chosen = [slotRule] ∧ v.rule slotRule = some (encode (.mov 0 1 0 0), 1) ∧ v.ready slotRule = true) ∧
    decodeElement (encode (.mov 0 1 0 0)) = .ok (.mov 0 1 0 0) ∧ State.reset.open_[0]? = some 0 ∧ State.reset.pending[0]?.isSome = true ∧
    (∀ p ∈ State.reset.pending, State.reset.netTie p = none) ∧ (∀ e ∈ State.reset.tiles, e.2.chosen = []) ∧ s0.mayAct (.linkDown 3) = true ∧ s0.stopped = false := by
  refine ⟨by decide +kernel, rfl, by decide +kernel, by decide +kernel, by decide +kernel, by decide +kernel, by decide +kernel, rfl⟩

/-- R463, R465, R466: an uncorrectable granule is poisoned and counted; a thread's detected error discards its reach once. -/
theorem test_upset :
    (let s := s0.upset (.granule (.hbm 70))
     s.poisoned (.hbm 64) 8 = true ∧ s.poisoned (.hbm 96) 8 = false ∧ s.dcrRead 0x300 = 0x10000) ∧
    ((sT 0x02000000).upset (.thread t0)).ctx t0 = { (((sT 0x02000000).upset (.thread t0)).ctx t0) with poisoned := true, reachcnt := 1, status := .ready } ∧
    ((((sT 0x02000000).upset (.thread t0)).upset (.thread t0)).ctx t0).status = .free := by
  refine ⟨by decide +kernel, by decide +kernel, by decide +kernel⟩

theorem witness_DetectorsWatchEveryStep : (∃ t, step (sT 0x02000000) = .next t) ∧ (s0.job 1).state = .running ∧ thas s0.jobs 1 = true ∧ s0.jobQuiet 1 = false ∧
    (let s := { s0 with ctxs := [], jobs := [(1, { j0 with quietSince := some 50, idleSince := some 40 })] }
     (s.job 1).quietSince = some 50 ∧ s.jobQuiet 1 = true ∧ (s.job 1).idleSince = some 40) := by
  refine ⟨goes_of (by decide +kernel), by decide +kernel, by decide +kernel, by decide +kernel, by decide +kernel⟩

/-! ## Single steps -/

/-- What a register of the current thread holds after an instruction. -/
def gives (i : Instr) (n : Nat) (v : Word) : Bool := nextIs (exec i s0) (fun t => (cur t).regs.get n == v)

/-- R161, Example 2: h1 = −7, h2 = 2. -/
theorem test_mul : gives (.mul 1 2 3 0) 3 0xFFFFFFFFFFFFFFF2 = true := by decide +kernel
theorem test_mulh : gives (.mulh 1 2 3 0) 3 0xFFFFFFFFFFFFFFFF = true := by decide +kernel
theorem test_mulhu : gives (.mulhu 1 2 3 0) 3 1 = true := by decide +kernel
theorem test_div : gives (.div 1 2 3 0) 3 (-3) = true := by decide +kernel
theorem test_rem : gives (.rem 1 2 3 0) 3 (-1) = true := by decide +kernel
theorem test_divu : gives (.divu 1 2 3 0) 3 0x7FFFFFFFFFFFFFFC = true := by decide +kernel
theorem test_remu : gives (.remu 1 2 3 0) 3 1 = true := by decide +kernel
theorem test_sar : gives (.sar 1 2 3 0) 3 0xFFFFFFFFFFFFFFFE = true := by decide +kernel
theorem test_shr : gives (.shr 1 2 3 0) 3 0x3FFFFFFFFFFFFFFE = true := by decide +kernel
/-- R161, Example 2: dz is bit 1 of the flags (R86), pending until the commit (R87). -/
theorem test_div_zero : gives (.div 1 10 3 0) 3 0xFFFFFFFFFFFFFFFF = true ∧ nextIs (exec (.div 1 10 3 0) s0) (fun t => (cur t).flags == 2) = true := by
  and_intros <;> decide +kernel
/-- R165, Example 3: chunk 5 of 0x0123_4567_89AB_CDEF is 72, and the next chunk is shifted in below it. -/
theorem test_ldk : gives (.ldk 72 1 0) 1 72 = true := by decide +kernel
theorem test_ldkh : nextIs (exec (.ldkh 1 837 1 0) (sc (fun c => { c with regs := { h1 := 72 } }))) (fun t => (cur t).regs.h1 == 0x12345) = true := by decide +kernel

/-- Numbers, Examples 1 to 3: FP32 1.0 in five formats, ties to BF16, and E4M3 at its largest value. -/
theorem test_convert_one : (bf16.ofVal .rne false (fp32.decode 0x3F800000) 0).1 = 0x3F80 ∧ (fp16.ofVal .rne false (fp32.decode 0x3F800000) 0).1 = 0x3C00 ∧
    (e4m3.ofVal .rne false (fp32.decode 0x3F800000) 0).1 = 0x38 ∧ (e5m2.ofVal .rne false (fp32.decode 0x3F800000) 0).1 = 0x3C ∧
    (e2m3.ofVal .rne true (fp32.decode 0x3F800000) 0).1 = 0x08 ∧ (e3m2.ofVal .rne true (fp32.decode 0x3F800000) 0).1 = 0x0C ∧
    (e2m1.ofVal .rne true (fp32.decode 0x3F800000) 0).1 = 2 := by decide +kernel
theorem test_convert_ties : (bf16.ofVal .rne false (fp32.decode 0x3F808000) 0).1 = 0x3F80 ∧ (bf16.ofVal .rne false (fp32.decode 0x3F818000) 0).1 = 0x3F82 := by
  decide +kernel
theorem test_convert_random : (bf16.ofVal .sr false (fp32.decode 0x3F804000) 0xC123).1 = 0x3F81 ∧ (bf16.ofVal .sr false (fp32.decode 0x3F804000) 0x1234).1 = 0x3F80 := by
  decide +kernel
/-- FP32 464 is 0x43E8_0000, and 470 is 0x43EB_0000. -/
theorem test_convert_edge : (e4m3.ofVal .rne false (fp32.decode 0x43E80000) 0).1 = 0x7E ∧ (e4m3.ofVal .rne false (fp32.decode 0x43EB0000) 0).1 = 0x7F ∧
    (e4m3.ofVal .rne true (fp32.decode 0x43EB0000) 0).1 = 0x7E ∧ (e4m3.ofVal .rz false (fp32.decode 0x43EB0000) 0).1 = 0x7E := by decide +kernel
/-- R98, Example 5: 2^24 + 1 in FP32 is 2^24 to nearest even. -/
theorem test_ordered_sum : (fp32.add .rne 0x4B800000 0x3F800000).1 = 0x4B800000 ∧ (fp32.add .rne (fp32.add .rne 0x4B800000 0xCB800000).1 0x3F800000).1 = 0x3F800000 := by
  decide +kernel

/-- Instruction words, Examples 2 and 3. -/
theorem test_compare_to_p0 : decodeThread 0x3A110035 = .error .illegalForm := rfl
theorem test_rule_words : decodeElement 0xD3005000 = .ok (.vfma 0 1 8 0 0) ∧ decodeElement 0xD0144605 = .ok (.vadd 2 17 3 0 5) ∧ trFmt 0x02000303 = .flt bf16 ∧
    trFmt 0x0A000404 = .int ⟨32, true⟩ := ⟨rfl, rfl, rfl, rfl⟩
/-- Homes, Example 1. -/
theorem test_homes : (Loc.tile ⟨1, 19, 11⟩ 0x100).home = .core (.hc 1 19 5) ∧ (Loc.hbm 0x4000012345).home = .core (.ec 1 35) := by decide +kernel
theorem test_fabric_address : (checkAddr { s0 with jobs := [(1, { j0 with hives := [⟨0, 0⟩, ⟨1, 19⟩] })] } t0 0x4000014EC0000100 8 8 true).toOption = some (.here (.tile ⟨1, 19, 11⟩ 0x100)) := by
  decide +kernel
/-- Counters, Example 2: the arrival of cycle 18 fills the phase, and the early one counts in the next. -/
theorem test_counter_phase : nextIs (exec .counterArrival (sx (.counterArrival t0.core ⟨5, 0, none, 0, none, none⟩)
    { counters := [(5, { target := 3, barrier := true, count := 2, next := 1 })] }))
    (fun t => let x := tget (t.core t0.core).counters {} 5; x.count == 1 && x.next == 0 && x.phase == 1) = true := by decide +kernel
/-- Queues, Example 3, cycle 120: two reservations fill a queue of capacity 2. -/
theorem test_queue_full : nextIs (exec .queueReserve (qs [(0x40000000000000400, 2), (0x40000000000000418, 2)] .pushReserve (.reserve t0 ⟨1, 0⟩)))
    (fun t => t.pending.any (fun p => match p.ev with | .loadReply _ _ _ .refused => true | _ => false)) = true := by decide +kernel
/-- Atomics, Example 2: the sum wraps. -/
theorem test_atomic_wraps : atomicNew .add 0x7FFFFFFFFFFFFFFE 5 0 = 0x8000000000000003 := by decide +kernel
/-- Device control, Example 1: who owns the device after the claim, and with a handover pending. -/
theorem test_claim : nextIs (exec .claimWrite (sd (.claimWrite 1 0 1) (fun c => { c with owner := 0 }))) (fun t => t.dcrRead 0x020 == 0x801) = true := by decide +kernel
theorem test_handover : nextIs (exec .handover (sd (.handover 1 0 3))) (fun t => t.dcrRead 0x020 == 0xB01) = true := by decide +kernel
theorem test_cap : nextIs (exec .powerCap (sd (.powerCap 2 0 900) (fun c => { c with pwrCap := 1200 }))) (fun t => t.dcrRead 0x100 == 0x384) = true ∧
    nextIs (exec .powerCap (sd (.powerCap 2 0 1000) (fun c => { c with pwrCap := 900 }))) (fun t => t.dcrRead 0x100 == 0x384) = true := by
  and_intros <;> decide +kernel

end Sys2Proof.Tests
end

section
/-! PROOF of O59. What the detectors note after each step (R410). -/

namespace Sys2Proof.Machine

open Sys2Proof

/-- Since when a condition has held: noted while it holds, from the cycle in which it began. -/
def sinceNote (cycle : Nat) (b : Bool) (o : Option Nat) : Option Nat := if b then some (o.getD cycle) else none

@[simp] theorem sinceNote_isSome (cycle : Nat) (b : Bool) (o : Option Nat) : (sinceNote cycle b o).isSome = b := by
  cases b <;> rfl

/-- A job with what the detectors note of it after a step. -/
def State.noted (s : State) (act : Option Nat) (sid : Nat) (j : Job) : Job :=
  if j.state ≠ .running then j
  else
    { j with
      quietSince := sinceNote s.cycle (s.jobQuiet sid) j.quietSince,
      idleSince := if act = some sid then some s.cycle else some (j.idleSince.getD s.cycle),
      span := { j.span with routeLostAt := sinceNote s.cycle (s.leadLost j) j.span.routeLostAt } }

theorem State.observe_jobs (s : State) (act : Option Nat) :
    (s.observe act).jobs = s.jobs.map (fun e => (e.1, s.noted act e.1 e.2)) := by
  refine List.map_congr_left (fun e _ => ?_)
  by_cases h : e.2.state = .running
  · simp only [State.noted, h, ne_eq, not_true_eq_false, if_false]; rfl
  · simp [State.noted, h]

theorem State.noted_running {s : State} {j : Job} (h : j.state = .running) (act : Option Nat) (sid : Nat) :
    s.noted act sid j =
      { j with
        quietSince := sinceNote s.cycle (s.jobQuiet sid) j.quietSince,
        idleSince := if act = some sid then some s.cycle else some (j.idleSince.getD s.cycle),
        span := { j.span with routeLostAt := sinceNote s.cycle (s.leadLost j) j.span.routeLostAt } } := by
  simp [State.noted, h]

@[simp] theorem State.noted_state (s : State) (act : Option Nat) (sid : Nat) (j : Job) : (s.noted act sid j).state = j.state := by
  unfold State.noted; split <;> rfl

@[simp] theorem State.noted_hives (s : State) (act : Option Nat) (sid : Nat) (j : Job) : (s.noted act sid j).hives = j.hives := by
  unfold State.noted; split <;> rfl

/-- Noting leaves alone what tells whether a job is complete: no hive changes its holder. -/
@[simp] theorem State.observe_sidOf (s : State) (act : Option Nat) (h : HiveId) : (s.observe act).sidOf h = s.sidOf h := by
  simp only [State.sidOf, State.observe_jobs, List.find?_map, Function.comp_def, State.noted_hives, Option.map_map]

@[simp] theorem State.observe_jobQuiet (s : State) (act : Option Nat) (sid : Nat) :
    (s.observe act).jobQuiet sid = s.jobQuiet sid := by
  simp only [State.jobQuiet, State.observe_sidOf]; rfl

/-- A value read after every entry has been changed. -/
theorem tget_map {κ ν : Type} [DecidableEq κ] (f : κ → ν → ν) {d : ν} {k : κ} {t : Tbl κ ν} (h : thas t k = true) :
    tget (t.map (fun e => (e.1, f e.1 e.2))) d k = f k (tget t d k) := by
  induction t with
  | nil => simp [thas] at h
  | cons e r ih =>
    by_cases hk : e.1 = k
    · subst hk; simp [tget]
    · have hr : thas r k = true := by simpa [thas, hk] using h
      simp [tget, hk, ih hr]

theorem State.observe_job {s : State} {sid : Nat} (h : thas s.jobs sid = true) (act : Option Nat) :
    (s.observe act).job sid = s.noted act sid (s.job sid) := by
  rw [State.job, State.observe_jobs, tget_map _ h]; rfl

/-- After the detectors have noted, each RUNNING job's notes match what they are of. -/
theorem State.observe_watches (s : State) (act : Option Nat) :
    ∀ e ∈ (s.observe act).jobs, e.2.state = .running →
      e.2.quietSince.isSome = (s.observe act).jobQuiet e.1 ∧ e.2.idleSince.isSome = true ∧
      e.2.span.routeLostAt.isSome = (s.observe act).leadLost e.2 := by
  intro e he hrun
  rw [State.observe_jobs] at he
  obtain ⟨x, -, rfl⟩ := List.mem_map.1 he
  have hx : x.2.state = .running := by simpa using hrun
  rw [State.noted_running hx, State.observe_jobQuiet]
  refine ⟨sinceNote_isSome _ _ _, ?_, sinceNote_isSome _ _ _⟩
  dsimp only
  split <;> rfl

/-- Every step that goes on ends with the detectors' notes (R410). -/
theorem step_observes {s t : State} (h : step s = .next t) : ∃ u act, t = State.observe u act := by
  unfold step State.run at h
  split at h
  · cases h
  · split at h
    · cases h; exact ⟨_, _, rfl⟩
    · cases h
    · cases h

end Sys2Proof.Machine

namespace Sys2Proof
open Machine

/-- Settles O59: a step ends with `observe`, which notes of each RUNNING job what then holds. -/
theorem detectorsWatchEveryStep : Obligations.DetectorsWatchEveryStep := by
  refine ⟨fun s t h => ?_, fun s a sid c hrun hhas => ?_⟩
  · obtain ⟨u, act, rfl⟩ := step_observes h
    exact u.observe_watches act
  · rw [State.observe_job hhas, State.noted_running hrun]
    refine ⟨fun hc hq => ?_, fun hc ha => ?_, fun hq => ?_, fun ha => ?_⟩
    · simp [sinceNote, hc, hq]
    · simp [hc, ha]
    · simp [sinceNote, hq]
    · simp [ha]

end Sys2Proof
end

section
/-! SUPPORT. What leaves the jobs alone. A packet for another node counts for its job (R28), so whatever may send one keeps the
jobs but for their counts: their `roster`. -/

namespace Sys2Proof.Machine

open Sys2Proof

/-- A job without its counts of packets. -/
def Job.uncounted (j : Job) : Job := { j with span := { j.span with sent := 0, received := 0 } }

/-- The jobs without their counts of packets. -/
def roster (t : Tbl Nat Job) : Tbl Nat Job := t.map (fun e => (e.1, e.2.uncounted))

theorem tget_roster (t : Tbl Nat Job) (k : Nat) : tget (roster t) {} k = (tget t {} k).uncounted := by
  induction t with
  | nil => rfl
  | cons e r ih =>
    by_cases h : e.1 = k
    · simp [roster, tget, h]
    · simpa [roster, tget, h] using ih

theorem thas_roster (t : Tbl Nat Job) (k : Nat) : thas (roster t) k = thas t k := by
  simp [thas, roster, Function.comp_def]

/-- With the roster a job's fields but its counts are as they were. -/
theorem State.job_of_roster {s t : State} (h : roster t.jobs = roster s.jobs) (sid : Nat) :
    (t.job sid).uncounted = (s.job sid).uncounted := by
  simp only [State.job, ← tget_roster, h]

theorem State.thas_of_roster {s t : State} (h : roster t.jobs = roster s.jobs) (sid : Nat) : thas t.jobs sid = thas s.jobs sid := by
  rw [← thas_roster, h, thas_roster]

/-- Replacing a listed job by one that differs in its counts alone. -/
theorem roster_tput {t : Tbl Nat Job} {k : Nat} {i j : Job} (hk : tfind t k = some i) (h : j.uncounted = i.uncounted) :
    roster (tput t k j) = roster t := by
  induction t with
  | nil => simp at hk
  | cons e r ih =>
    obtain ⟨a, b⟩ := e
    by_cases ha : a = k
    · obtain rfl : b = i := by simpa [tfind_cons, ha] using hk
      simp [roster, tput, ha, h]
    · rw [tfind_cons, if_neg ha] at hk
      simpa [roster, tput, ha] using ih hk

/-- What each step of a fold keeps, the fold keeps. -/
theorem foldl_keeps {σ τ α : Type} (g : σ → τ) {f : σ → α → σ} (h : ∀ s x, g (f s x) = g s) (l : List α) (s : σ) :
    g (l.foldl f s) = g s := by
  induction l generalizing s with
  | nil => rfl
  | cons x r ih => rw [List.foldl_cons, ih, h]

@[simp] theorem State.ite_jobs (p : Prop) [Decidable p] (s t : State) : (if p then s else t).jobs = if p then s.jobs else t.jobs :=
  apply_ite State.jobs p s t

@[simp] theorem roster_ite (p : Prop) [Decidable p] (t u : Tbl Nat Job) : roster (if p then t else u) = if p then roster t else roster u :=
  apply_ite roster p t u

theorem State.foldl_jobs {α : Type} {f : State → α → State} (h : ∀ s x, (f s x).jobs = s.jobs) (l : List α) (s : State) :
    (l.foldl f s).jobs = s.jobs := foldl_keeps State.jobs h l s

theorem State.foldl_roster {α : Type} {f : State → α → State} (h : ∀ s x, roster (f s x).jobs = roster s.jobs) (l : List α) (s : State) :
    roster (l.foldl f s).jobs = roster s.jobs := foldl_keeps (fun u => roster u.jobs) h l s

/-! ## Links and the router -/

@[simp] theorem State.linkTake_jobs (s : State) (n : Nat) (o : LinkOut) : (s.linkTake n o).1.jobs = s.jobs := by
  simp only [State.linkTake]; split <;> rfl

@[simp] theorem State.linkPump_jobs (s : State) (n : Nat) : (s.linkPump n).jobs = s.jobs := by
  have queue (l : List LinkOut) (a : State × List LinkOut) : (l.foldl (fun (b : State × List LinkOut) o =>
      if b.2 ≠ [] then (b.1, b.2 ++ [o]) else b.1.linkTake n o) a).1.jobs = a.1.jobs :=
    foldl_keeps (fun b => b.1.jobs) (fun b o => by split <;> simp) l a
  simp only [State.linkPump]
  split
  · rfl
  · rw [State.setLink_jobs, queue]
    split
    · split <;> simp
    · rfl

@[simp] theorem State.linkGive_jobs (s : State) (n : Nat) (m : LinkMsg) (k : Nat) : (s.linkGive n m k).jobs = s.jobs := by
  simp [State.linkGive]

theorem State.emit_jobs {s t : State} {n : Nat} {m : LinkMsg} {k : Nat} (h : s.emit n m k = some t) : t.jobs = s.jobs := by
  simp only [State.emit] at h
  split at h
  · cases h; simp
  · cases h

@[simp] theorem State.countFrames_jobs (s : State) (sid n : Nat) (l : List Frame) : (s.countFrames sid n l).jobs = s.jobs := by
  simp [State.countFrames]

theorem State.sendPkt_jobs {s t : State} {p : NetPkt} {via : Option Nat} (h : s.sendPkt p via = some t) : t.jobs = s.jobs := by
  simp only [State.sendPkt] at h
  split at h
  · cases h
  · obtain ⟨u, hu, rfl⟩ := Option.map_eq_some_iff.1 h
    simp [State.emit_jobs hu]

@[simp] theorem State.pumpFlow_jobs (s : State) (k : Nat × Nat × Nat) : (s.pumpFlow k).jobs = s.jobs := by
  refine foldl_keeps (fun a : State × List KeptPkt × Bool => a.1.jobs) (fun a x => ?_) _ (s, [], false)
  split
  · rfl
  · split
    · next h => exact State.sendPkt_jobs h
    · rfl

@[simp] theorem State.pumpWait_jobs (s : State) (w : NetWait) : (s.pumpWait w).jobs = s.jobs := by
  simp only [State.pumpWait]
  split
  · rfl
  · split
    · split <;> simp
    · cases h : s.sendPkt w.pkt w.via with
      | none => rfl
      | some t => exact State.sendPkt_jobs h

/-- A packet counts for its job, and changes nothing else of it. -/
@[simp] theorem State.countNet_roster (s : State) (sid : Option Nat) (out : Bool) : roster (s.countNet sid out).jobs = roster s.jobs := by
  cases sid with
  | none => rfl
  | some k =>
    simp only [State.countNet]
    split
    · next j hj =>
      rw [State.setJob_jobs]
      exact roster_tput hj (by cases out <;> rfl)
    · rfl

@[simp] theorem State.toNet_roster (s : State) (dst : Nat) (sid : Option Nat) (b : NetBody) :
    roster (s.toNet dst sid b).jobs = roster s.jobs := by
  simp only [State.toNet, State.pumpWait_jobs]
  split <;> simp

theorem State.sendCopy_roster {s t : State} {x : EgressCopy} (h : s.sendCopy x = some t) : roster t.jobs = roster s.jobs := by
  simp only [State.sendCopy] at h
  split at h
  · obtain ⟨u, hu, rfl⟩ := Option.map_eq_some_iff.1 h
    simp [State.emit_jobs hu]
  · split at h
    · cases h; simp
    · cases h

@[simp] theorem State.sendCopies_roster (l : List EgressCopy) (s : State) : roster (s.sendCopies l).1.jobs = roster s.jobs := by
  induction l generalizing s with
  | nil => rfl
  | cons x r ih =>
    simp only [State.sendCopies]
    split
    · next t ht => rw [ih, State.sendCopy_roster ht]
    · rfl

@[simp] theorem State.pumpEgress_roster (s : State) (k : Nat × Nat × Nat) : roster (s.pumpEgress k).jobs = roster s.jobs := by
  refine foldl_keeps (fun a : State × List (List EgressCopy) => roster a.1.jobs) (fun a t => ?_) _ (s, [])
  dsimp only
  split <;> simp

@[simp] theorem State.toEgress_roster (s : State) (k : Nat × Nat × Nat) (t : List EgressCopy) :
    roster (s.toEgress k t).jobs = roster s.jobs := by
  simp only [State.toEgress]; split <;> simp

/-! ## Barges and faults -/

@[simp] theorem State.setSendRec_jobs (s : State) (src : Sender) (id : Nat) (r : Option SendRec) : (s.setSendRec src id r).jobs = s.jobs := by
  cases src <;> rfl

@[simp] theorem State.pumpSends_roster (s : State) (src : Sender) : roster (s.pumpSends src).jobs = roster s.jobs := by
  refine foldl_keeps (fun a : State × List SendRec => roster a.1.jobs) (fun a r => ?_) _ (s, [])
  dsimp only
  split <;> simp

@[simp] theorem State.dispatchItem_roster (s : State) (src : Sender) (dst : CoreId) (it : Item) (first : Bool) :
    roster (s.dispatchItem src dst it first).jobs = roster s.jobs := by
  simp only [State.dispatchItem]
  split
  · split <;> simp
  · split <;> simp

@[simp] theorem State.sendFrom_roster (s : State) (src dst : CoreId) (l : Load) (prio : Nat) (rel : Option Nat) :
    roster (s.sendFrom src dst l prio rel).jobs = roster s.jobs := by
  simp [State.sendFrom]

@[simp] theorem State.sendLock_roster (s : State) (die : Nat) (dst : CoreId) (b : Barge) :
    roster (s.sendLock die dst b).jobs = roster s.jobs := by
  simp [State.sendLock]

@[simp] theorem State.performed_jobs (s : State) (c : CoreId) (rel : Nat) : (s.performed c rel).jobs = s.jobs := rfl

@[simp] theorem State.sendTo_roster (s : State) (c : CoreId) (b : Barge) (d : Dest) (rel : Option Nat) :
    roster (s.sendTo c b d rel).jobs = roster s.jobs := by
  cases d with
  | core x => simp [State.sendTo]
  | node n x => simp [State.sendTo]
  | any => simp [State.sendTo]
  | lock n die => cases rel <;> simp only [State.sendTo] <;> split <;> simp
  | global va => rfl

@[simp] theorem State.deliverFault_roster (s : State) (o : Origin) (h0 h1 h2 h4 : Word) (duty : Option Suspended) :
    roster (s.deliverFault o h0 h1 h2 h4 duty).jobs = roster s.jobs := by
  simp [State.deliverFault]

@[simp] theorem State.report_roster (s : State) (o : Origin) (c : Cause) (unit : Nat) (h2 : Word) :
    roster (s.report o c unit h2).jobs = roster s.jobs := by
  simp [State.report]

@[simp] theorem State.counterFault_roster (s : State) (o : Option Origin) (c : Cause) (h2 : Option Word) :
    roster (s.counterFault o c h2).jobs = roster s.jobs := by
  cases o <;> cases h2 <;> simp [State.counterFault]

@[simp] theorem State.ruleFault_roster (s : State) (r : RuleId) (c : Cause) (h2 : Word) (duty : Option Suspended) :
    roster (s.ruleFault r c h2 duty).jobs = roster s.jobs := by
  simp only [State.ruleFault]; split <;> simp

/-! ## Leaving a reach -/

@[simp] theorem State.again_jobs (s : State) (l : List GraphOp) : (s.again l).jobs = s.jobs :=
  State.foldl_jobs (f := State.rearrive) (fun _ _ => rfl) l s

@[simp] theorem State.dropInst_jobs (s : State) (i : InstId) : (s.dropInst i).jobs = s.jobs := by simp [State.dropInst]

@[simp] theorem State.undo_jobs (s : State) (t : ThreadId) (b : Buffered) : (s.undo t b).jobs = s.jobs := by
  simp only [State.undo]
  split <;> simp

@[simp] theorem State.dropReach_jobs (s : State) (t : ThreadId) : (s.dropReach t).jobs = s.jobs :=
  State.foldl_jobs (fun u b => u.undo_jobs t b) (s.ctx t).buf s

@[simp] theorem State.freeCtx_jobs (s : State) (t : ThreadId) : (s.freeCtx t).jobs = s.jobs := rfl

@[simp] theorem State.endThread_roster (s : State) (t : ThreadId) (c : Cause) (addr : Word) (w : BitVec 32) :
    roster (s.endThread t c addr w).jobs = roster s.jobs := by
  simp [State.endThread]

@[simp] theorem State.stop_roster (s : State) (t : ThreadId) (e : Stop) (w : BitVec 32) : roster (s.stop t e w).jobs = roster s.jobs := by
  simp only [State.stop]; split <;> simp

@[simp] theorem State.newEpoch_jobs (s : State) (t : ThreadId) : (s.newEpoch t).jobs = s.jobs := rfl
@[simp] theorem State.onCtx_jobs (s : State) (t : ThreadId) (f : Ctx → Ctx) : (s.onCtx t f).jobs = s.jobs := rfl

theorem State.discard_roster {after : State → State} (h : ∀ u, roster (after u).jobs = roster u.jobs) (s : State) (t : ThreadId)
    (w : BitVec 32) : roster (s.discard t w after).jobs = roster s.jobs := by
  simp only [State.discard]
  split <;> simp [h]

@[simp] theorem State.pageFault_roster (s : State) (t : ThreadId) (addr : Word) (w : BitVec 32) :
    roster (s.pageFault t addr w).jobs = roster s.jobs :=
  State.discard_roster (fun u => by simp) s t w

/-! ## Homes -/

@[simp] theorem State.recall_jobs (s : State) (l : Loc) (n : Nat) (load : Bool) : (s.recall l n load).jobs = s.jobs := by
  simp only [State.recall]
  split
  · split
    · rfl
    · refine foldl_keeps State.jobs (fun u i => ?_) _ s
      rfl
  · rfl

@[simp] theorem State.store_jobs (s : State) (l : Loc) (bs : List Byte) (bad : Bool) : (s.store l bs bad).jobs = s.jobs := rfl

@[simp] theorem State.setQhead_jobs (s : State) (l : Loc) (q : QHead) : (s.setQhead l q).jobs = s.jobs := by simp [State.setQhead]

@[simp] theorem State.homeFault_roster (s : State) (r : MemReq) (c : Cause) : roster (s.homeFault r c).jobs = roster s.jobs := by
  simp only [State.homeFault]
  split <;> split <;> simp

@[simp] theorem State.settleAt_roster (s : State) (r : MemReq) : roster (s.settleAt r).jobs = roster s.jobs := by
  unfold State.settleAt
  extract_lets q push dead
  clear_value q push dead
  split
  · simp
  · cases r.op
    all_goals simp only [State.setQhead_jobs, State.store_jobs, State.recall_jobs]

end Sys2Proof.Machine
end

section
/-! SUPPORT. The engines that a translation is for (R274) leave the jobs alone but for their counts of packets. -/

namespace Sys2Proof.Machine

open Sys2Proof

/-! ## Arcs and collective nodes -/

@[simp] theorem State.onPlane_jobs (s : State) (p : PlaneId) (f : Plane → Plane) : (s.onPlane p f).jobs = s.jobs := rfl
@[simp] theorem State.ackArc_jobs (s : State) (p : PlaneId) (ch : Nat) : (s.ackArc p ch).jobs = s.jobs := rfl

@[simp] theorem State.collNext_jobs (s : State) (i : InstId) (n : Nat) : (s.collNext i n).jobs = s.jobs := by
  simp only [State.collNext]
  split
  · rfl
  · split <;> simp

@[simp] theorem State.ackTo_jobs (s : State) (p : PlaneId) (ch : Nat) : (s.ackTo p ch).jobs = s.jobs := by
  simp only [State.ackTo]
  split <;> simp

@[simp] theorem State.isectStep_jobs (s : State) (p : PlaneId) (ch : Nat) : (s.isectStep p ch).jobs = s.jobs := by
  simp only [State.isectStep]
  split
  · rfl
  · split
    · rfl
    · split
      · split <;> simp
      · rfl

@[simp] theorem State.arrive_jobs (s : State) (p : PlaneId) (ch : Nat) (t : Token) (n : Nat) : (s.arrive p ch t n).jobs = s.jobs := by
  simp [State.arrive]

@[simp] theorem State.collOut_roster (s : State) (c : CollNode) (g : Group) (l : List (CollMsg × NetBody)) :
    roster (s.collOut c g l).jobs = roster s.jobs := by
  simp [State.collOut]

@[simp] theorem State.collSpread_roster (s : State) (c : CollNode) (g : Group) (l : List CollMsg) (body : CollMsg → NetBody)
    (ev : CollMsg → Ev) : roster (s.collSpread c g l body ev).jobs = roster s.jobs := by
  rw [State.collSpread, State.collOut_roster]
  exact State.foldl_roster (fun _ _ => by simp) _ s

@[simp] theorem State.collSend_roster (s : State) (c : CollNode) (g : Group) (l : List CollMsg) :
    roster (s.collSend c g l).jobs = roster s.jobs := by
  simp [State.collSend]

@[simp] theorem State.resultSend_roster (s : State) (c : CollNode) (g : Group) (l : List CollMsg) :
    roster (s.resultSend c g l).jobs = roster s.jobs := by
  simp [State.resultSend]

@[simp] theorem State.collOffer_roster (s : State) (c : CollNode) (g : Group) (m : CollMsg) :
    roster (s.collOffer c g m).jobs = roster s.jobs := by
  simp [State.collOffer]

@[simp] theorem State.collTake_roster (s : State) (i : InstId) (n : Nat) : roster (s.collTake i n).jobs = roster s.jobs := by
  simp only [State.collTake]
  split
  · rfl
  · split
    · simp
    · rfl

@[simp] theorem State.collGive_roster (s : State) (i : InstId) (n : Nat) (t : Token) :
    roster (s.collGive i n t).jobs = roster s.jobs := by
  simp only [State.collGive]
  split <;> simp

@[simp] theorem State.sendArc_roster (s : State) (p : PlaneId) (ch : Nat) (t : Token) :
    roster (s.sendArc p ch t).jobs = roster s.jobs := by
  simp only [State.sendArc]
  split <;> simp

@[simp] theorem State.pushTok_roster (s : State) (p : PlaneId) (ch : Nat) (t : Token) :
    roster (s.pushTok p ch t).jobs = roster s.jobs := by
  simp [State.pushTok]

@[simp] theorem State.putPort_roster (s : State) (p : PlaneId) (port : BitVec 5) (t : Token) :
    roster (s.putPort p port t).jobs = roster s.jobs := by
  simp [State.putPort]

@[simp] theorem State.popCh_jobs (s : State) (p : PlaneId) (ch : Nat) : (s.popCh p ch).jobs = s.jobs := by
  simp [State.popCh]

/-! ## Windows -/

@[simp] theorem State.winAttempt_roster (s : State) (r : WinReq) : roster (s.winAttempt r).jobs = roster s.jobs := by
  simp [State.winAttempt]

@[simp] theorem State.windowAsk_roster (s : State) (c : CoreId) (slot sid : Nat) (ask : Asker) (addr : Word) (off key : Nat) (op : MemOp)
    (o : Origin) (lim : Nat × Nat) (serial : Nat) :
    roster (s.windowAsk c slot sid ask addr off key op o lim serial).jobs = roster s.jobs := by
  simp [State.windowAsk]

@[simp] theorem State.windowSend_roster (s : State) (c : CoreId) (slot sid : Nat) (ask : Asker) (addr : Word) (op : MemOp) (o : Origin)
    (serial : Nat) : roster (s.windowSend c slot sid ask addr op o serial).jobs = roster s.jobs := by
  simp [State.windowSend]

@[simp] theorem State.winReply_roster (s : State) (r : WinReq) (a : Ans) : roster (s.winReply r a).jobs = roster s.jobs := by
  simp [State.winReply]

@[simp] theorem State.winDone_roster (s : State) (r : WinReq) (a : Ans) : roster (s.winDone r a).jobs = roster s.jobs := by
  simp only [State.winDone]
  split
  · simp
  · exact State.foldl_roster (fun _ _ => by simp) _ _

@[simp] theorem State.winFault_roster (s : State) (w : Win) (r : WinReq) (c : Cause) : roster (s.winFault w r c).jobs = roster s.jobs := by
  simp only [State.winFault]
  split <;> simp

@[simp] theorem State.winLeave_jobs (s : State) (n : Nat) (r : WinReq) : (s.winLeave n r).jobs = s.jobs := by
  simp [State.winLeave]

@[simp] theorem State.winSend_jobs (s : State) : s.winSend.jobs = s.jobs := by
  refine State.foldl_jobs (fun u e => ?_) s.winReqs s
  split
  · split <;> simp
  · rfl

@[simp] theorem State.winXlate_roster (s : State) (n : Nat) (a : XAns) : roster (s.winXlate n a).jobs = roster s.jobs := by
  simp only [State.winXlate]
  split
  · rfl
  · split <;> simp

/-! ## Memory nodes -/

@[simp] theorem State.pumpRule_roster (s : State) (r : RuleId) : roster (s.pumpRule r).jobs = roster s.jobs := by
  refine State.foldl_roster (fun u a => ?_) _ s
  split
  · simp
  · split <;> simp
  · rfl

@[simp] theorem State.pushDone_roster (s : State) (p : PlaneId) : roster (s.pushDone p).jobs = roster s.jobs := by
  have ports (u : State) (l : List (BitVec 5)) (t : Token) : roster (l.foldl (fun s q => s.putPort p q t) u).jobs = roster u.jobs :=
    State.foldl_roster (fun _ _ => by simp) l u
  simp only [State.pushDone]
  split
  · rfl
  · refine State.foldl_roster (fun u a => ?_) _ s
    split
    · simp [ports]
    · rfl

@[simp] theorem State.nodeDone_roster (s : State) (r : RuleId) (seq : Nat) (x : NodeAcc) (a : Ans) :
    roster (s.nodeDone r seq x a).jobs = roster s.jobs := by
  simp only [State.nodeDone]
  split <;> simp

@[simp] theorem State.nodeAnswer_roster (s : State) (r : RuleId) (seq : Nat) (a : Ans) :
    roster (s.nodeAnswer r seq a).jobs = roster s.jobs := by
  simp only [State.nodeAnswer]
  split
  · rfl
  · split <;> simp

@[simp] theorem State.popOperands_jobs (s : State) (r : RuleId) : (s.popOperands r).jobs = s.jobs := by
  simp only [State.popOperands]
  split
  · rfl
  · exact State.foldl_jobs (fun _ _ => by simp) _ _

@[simp] theorem State.takeOperands_roster (s : State) (r : RuleId) : roster (s.takeOperands r).jobs = roster s.jobs := by
  simp [State.takeOperands]

@[simp] theorem State.nodeXlate_roster (s : State) (r : RuleId) (seq : Nat) (a : XAns) :
    roster (s.nodeXlate r seq a).jobs = roster s.jobs := by
  cases a <;> simp [State.nodeXlate]

/-! ## Hauls and saves -/

@[simp] theorem State.haulPost_jobs (s : State) (c : CoreId) (tag n k : Nat) (h : Haul) (l : Loc) (a : Word) (op : MemOp) :
    (s.haulPost c tag n k h l a op).jobs = s.jobs := rfl

@[simp] theorem State.haulXlate_jobs (s : State) (c : CoreId) (tag idx va : Nat) (a : XAns) : (s.haulXlate c tag idx va a).jobs = s.jobs := by
  simp only [State.haulXlate]
  split
  · rfl
  · split <;> simp

@[simp] theorem State.saveXlate_roster (s : State) (i : InstId) (off : Nat) (a : XAns) : roster (s.saveXlate i off a).jobs = roster s.jobs := by
  simp only [State.saveXlate]
  split
  · rfl
  · split <;> simp

/-! ## Remote operations -/

@[simp] theorem State.onRop_jobs (s : State) (c : CoreId) (n : Nat) (f : RemoteOp → RemoteOp) : (s.onRop c n f).jobs = s.jobs := by
  simp only [State.onRop]
  split <;> simp

@[simp] theorem State.onPiece_jobs (s : State) (c : CoreId) (n i : Nat) (f : RPiece → RPiece) : (s.onPiece c n i f).jobs = s.jobs := by
  simp [State.onPiece]

@[simp] theorem State.piecePost_jobs (s : State) (c : CoreId) (n idx : Nat) (o : RemoteOp) (l : Loc) :
    (s.piecePost c n idx o l).jobs = s.jobs := rfl

@[simp] theorem State.pieceTry_jobs (s : State) (c : CoreId) (n i : Nat) : (s.pieceTry c n i).jobs = s.jobs := by
  simp only [State.pieceTry]
  split
  · rfl
  · split
    · rfl
    · split
      · rfl
      · split
        · simp
        · rw [State.foldl_jobs (fun _ _ => by simp)]; simp

@[simp] theorem State.piecePlace_jobs (s : State) (c : CoreId) (n idx : Nat) (l : Loc) : (s.piecePlace c n idx l).jobs = s.jobs := by
  simp only [State.piecePlace]
  split <;> simp

@[simp] theorem State.pieceNoPlace_jobs (s : State) (c : CoreId) (n idx : Nat) : (s.pieceNoPlace c n idx).jobs = s.jobs := by
  simp only [State.pieceNoPlace]
  split <;> simp

@[simp] theorem State.pieceAsk_jobs (s : State) (c : CoreId) (n idx : Nat) : (s.pieceAsk c n idx).jobs = s.jobs := by
  simp only [State.pieceAsk]
  split
  · rfl
  · split <;> simp

@[simp] theorem State.pieceStage_jobs (s : State) (c : CoreId) (n i : Nat) (st : RStage) : (s.pieceStage c n i st).jobs = s.jobs := by
  simp only [State.pieceStage]
  split
  · rfl
  · rw [State.foldl_jobs (fun _ _ => by simp)]; simp

@[simp] theorem State.pieceMark_jobs (s : State) (c : CoreId) (n : Nat) : (s.pieceMark c n).jobs = s.jobs := by
  simp only [State.pieceMark]
  split
  · rfl
  · split
    · rfl
    · split <;> simp

@[simp] theorem State.pieceSend_roster (s : State) (c : CoreId) (n i : Nat) (o : RemoteOp) (a : Word × Nat) (op : MemOp) :
    roster (s.pieceSend c n i o a op).jobs = roster s.jobs := by
  simp [State.pieceSend]

@[simp] theorem State.pieceFar_roster (s : State) (c : CoreId) (n i : Nat) : roster (s.pieceFar c n i).jobs = roster s.jobs := by
  simp only [State.pieceFar]
  split
  · rfl
  · split <;> simp

@[simp] theorem State.pieceStart_roster (s : State) (c : CoreId) (n i : Nat) : roster (s.pieceStart c n i).jobs = roster s.jobs := by
  simp only [State.pieceStart]
  split <;> simp

@[simp] theorem State.ropPump_roster (c : CoreId) (n fuel : Nat) (s : State) : roster (s.ropPump c n fuel).jobs = roster s.jobs := by
  induction fuel generalizing s with
  | zero => rfl
  | succ fuel ih =>
    simp only [State.ropPump]
    split <;> simp [ih]

@[simp] theorem State.ropGo_roster (s : State) (c : CoreId) (n : Nat) : roster (s.ropGo c n).jobs = roster s.jobs := by
  simp only [State.ropGo]
  split <;> simp

@[simp] theorem State.pieceFault_roster (s : State) (c : CoreId) (n idx : Nat) (o : RemoteOp) :
    roster (s.pieceFault c n idx o).jobs = roster s.jobs := by
  simp only [State.pieceFault]
  split
  · simp
  · split <;> simp

@[simp] theorem State.pieceAnswer_roster (s : State) (c : CoreId) (n idx : Nat) (a : Ans) :
    roster (s.pieceAnswer c n idx a).jobs = roster s.jobs := by
  simp only [State.pieceAnswer]
  split
  · rfl
  · split
    · split <;> simp
    · split
      · rfl
      · split
        all_goals simp
        split <;> simp

@[simp] theorem State.pieceXlate_roster (s : State) (c : CoreId) (n idx : Nat) (a : XAns) :
    roster (s.pieceXlate c n idx a).jobs = roster s.jobs := by
  simp only [State.pieceXlate]
  split <;> simp

/-! ## Translation -/

@[simp] theorem State.xlateEngine_roster (s : State) (r : XReq) (a : XAns) : roster (s.xlateEngine r a).jobs = roster s.jobs := by
  simp only [State.xlateEngine]
  split <;> simp

@[simp] theorem State.fireAnswer_roster (s : State) (c : CoreId) (num : Nat) (a : XAns) :
    roster (s.fireAnswer c num a).jobs = roster s.jobs := by
  simp only [State.fireAnswer]
  split
  · rfl
  · split
    · split <;> simp
    · simp
    · simp

@[simp] theorem State.xlateAnswer_roster (s : State) (r : XReq) (a : XAns) : roster (s.xlateAnswer r a).jobs = roster s.jobs := by
  simp only [State.xlateAnswer]
  split
  · split <;> simp
  · split <;> simp
  all_goals simp

@[simp] theorem State.miss_jobs (s : State) (n : Nat) (r : XReq) : (s.miss n r).jobs = s.jobs := by
  simp only [State.miss]
  split <;> simp

@[simp] theorem State.translate_roster (s : State) (n : Nat) (r : XReq) : roster (s.translate n r).jobs = roster s.jobs := by
  simp only [State.translate]
  split <;> simp

@[simp] theorem State.takeWaiting_roster (s : State) (n : Nat) : roster (s.takeWaiting n).jobs = roster s.jobs := by
  rw [State.takeWaiting, State.foldl_roster (fun _ _ => by simp)]; simp

end Sys2Proof.Machine
end

section
/-! PROOF of O45. Ending a job (R25, R26, R28, R410): what its freeing keeps, and what its end takes away. -/

namespace Sys2Proof.Machine

open Sys2Proof

/-! ## Events -/

@[simp] theorem State.basinPut_jobs (s : State) (n : Nat) (ws : List Word) : (s.basinPut n ws).jobs = s.jobs := by
  simp [State.basinPut, State.basinWrite, State.setHostBasin]

@[simp] theorem State.eventOwner_jobs (s : State) (die code : Nat) (ps : List Word) : (s.eventOwner die code ps).jobs = s.jobs :=
  s.basinPut_jobs _ _

@[simp] theorem State.eventJob_jobs (s : State) (die code sid : Nat) (ps : List Word) : (s.eventJob die code sid ps).jobs = s.jobs :=
  s.basinPut_jobs _ _

@[simp] theorem State.hostNext_jobs (s : State) : s.hostNext.jobs = s.jobs := by
  simp only [State.hostNext]
  split <;> simp [State.hostTake]

/-! ## Freeing what a job holds on a die -/

@[simp] theorem State.dropPending_jobs (s : State) (sid : Nat) : (s.dropPending sid).jobs = s.jobs := rfl

@[simp] theorem State.giveBack_roster (s : State) (r : Released) : roster (s.giveBack r).jobs = roster s.jobs := by
  unfold State.giveBack
  extract_lets op
  clear_value op
  split <;> simp

/-- Freeing what a SID holds on a die keeps every job, but for its counts of packets. -/
@[simp] theorem State.purgeDie_roster (s : State) (sid die : Nat) : roster (s.purgeDie sid die).jobs = roster s.jobs := by
  have threads (u : State) : (u.ctxs.foldl (fun (s : State) e =>
      if e.2.sid = sid && e.2.status ≠ .free && e.1.core.die = die then (s.dropReach e.1).freeCtx e.1 else s) u).jobs = u.jobs :=
    State.foldl_jobs (fun _ _ => by simp) _ u
  have queues (u : State) (l : List Released) : roster (l.foldl State.giveBack u).jobs = roster u.jobs :=
    State.foldl_roster State.giveBack_roster l u
  have insts (u : State) : (u.insts.foldl (fun (s : State) e =>
      if e.2.sid = sid && e.1.die = die then { s with saves := tdel s.saves e.1 }.dropInst e.1 else s) u).jobs = u.jobs :=
    State.foldl_jobs (fun _ _ => by simp) _ u
  have misses (u : State) (l : List Nat) : roster (l.foldl State.takeWaiting u).jobs = roster u.jobs :=
    State.foldl_roster State.takeWaiting_roster l u
  unfold State.purgeDie
  extract_lets u0 u1 u2 u3 u4 mine hive u5 u6
  have h2 : roster u2.jobs = roster s.jobs := (queues u1 _).trans (congrArg roster (threads u0))
  have h4 : roster u4.jobs = roster s.jobs := (congrArg roster (insts u3)).trans h2
  have h6 : u6.jobs = u4.jobs := by simp only [u6, u5, State.ite_jobs, ite_self]
  rw [misses, State.dropPending_jobs, h6, h4]

/-- Freeing on a die keeps which dies still have a part in the end of the job. -/
@[simp] theorem State.purgeDie_killDies (s : State) (sid die k : Nat) : ((s.purgeDie sid die).job k).killDies = (s.job k).killDies := by
  have hjob := congrArg Job.killDies (State.job_of_roster (s.purgeDie_roster sid die) k)
  exact hjob

/-- A retired SID names no job any more (R25). -/
theorem State.thas_retire (s : State) (sid way : Nat) : thas (s.retire sid way).jobs sid = false := by
  simp [State.retire, State.halt, thas, tdel]

/-! ## JOB_END -/

theorem State.endJob_running {s : State} {sid : Nat} (hhas : thas s.jobs sid = true) (hrun : (s.job sid).state = .running) (way : Nat) :
    s.endJob sid way = s.setJob sid { s.job sid with state := .ending way, idleSince := some s.cycle } := by
  simp [State.endJob, hhas, hrun]

/-- A job that is told of over the network ends as one that is not (R28): a message counts for it, and changes nothing else. -/
theorem State.endJob_state {s v : State} {sid : Nat} (hv : roster v.jobs = roster s.jobs) (hhas : thas s.jobs sid = true)
    (hrun : (s.job sid).state = .running) (way : Nat) : ((v.endJob sid way).job sid).state = .ending way := by
  have hstate : (v.job sid).state = .running := (congrArg Job.state (State.job_of_roster hv sid)).trans hrun
  rw [State.endJob_running ((State.thas_of_roster hv sid).trans hhas) hstate, State.job_setJob]

/-- The last die that ends its part ends the job. -/
theorem State.dieEnded_last {s : State} {die sid : Nat} (h : (s.job sid).killDies = [die]) (way : Nat) :
    s.dieEnded die sid way =
      ((s.purgeDie sid die).setJob sid { (s.purgeDie sid die).job sid with killDies := [] }).retire sid way := by
  simp [State.dieEnded, h]

/-- Die 1's lockkeeper passes a JOB_END to die 0's. -/
theorem execJobEnd_far {s : State} {die sid : Nat} {way : Option Nat} (harg : s.arg = .jobEnd die sid way) (hdie : s.lkDown die = false)
    (hhas : thas s.jobs sid = true) (h : die ≠ 0) : execJobEnd s = .next (s.post .none (.jobEnd 0 sid way)) := by
  simp [execJobEnd, harg, State.byLock_free hdie, hhas, h]

/-- The lead's own order ends the job here. -/
theorem execJobEnd_ordered {s : State} {sid w : Nat} (harg : s.arg = .jobEnd 0 sid (some w)) (hdie : s.lkDown 0 = false)
    (hhas : thas s.jobs sid = true) : execJobEnd s = .next (s.endJob sid w) := by
  simp [execJobEnd, harg, State.byLock_free hdie, hhas]

/-- Another JOB_END is the lead's to carry out. -/
theorem execJobEnd_asked {s : State} {sid : Nat} (harg : s.arg = .jobEnd 0 sid none) (hdie : s.lkDown 0 = false)
    (hhas : thas s.jobs sid = true) :
    execJobEnd s = .next (
      if (s.job sid).span.lead ≠ s.node then s.toNet (s.job sid).span.lead (some sid) (.jobBarge 0 (s.passOn (s.job sid).span.lead sid))
      else s.endSpan sid 0) := by
  simp [execJobEnd, harg, State.byLock_free hdie, hhas]

/-- A die's part in the teardown of a job that has been instructed to it. -/
theorem execJobEndTeardown_part {s : State} {die sid way : Nat} (harg : s.arg = .jobEndTeardown die sid) (hdie : s.lkDown die = false)
    (hstate : (s.job sid).state = .ending way) (hpart : (s.job sid).killDies = [die]) :
    execJobEndTeardown s =
      .next (((s.purgeDie sid die).setJob sid { (s.purgeDie sid die).job sid with killDies := [] }).retire sid way) := by
  simp [execJobEndTeardown, harg, State.byLock_free hdie, hstate, hpart, State.dieEnded_last hpart]

/-- Die 0's lockkeeper begins the teardown once the accesses that have begun have ended, and instructs the other die. -/
theorem execJobEndTeardown_begin {s : State} {sid way : Nat} (harg : s.arg = .jobEndTeardown 0 sid) (hdie : s.lkDown 0 = false)
    (hstate : (s.job sid).state = .ending way) (hpart : (s.job sid).killDies = []) :
    execJobEndTeardown s = .next (
      if s.teardownReady sid = false then s
      else
        (((List.range s.part.dies).drop 1).foldl (fun s d => s.post .none (.jobEndTeardown d sid))
          (s.setJob sid { s.job sid with killDies := List.range s.part.dies })).dieEnded 0 sid way) := by
  simp [execJobEndTeardown, harg, State.byLock_free hdie, hstate, hpart]

end Sys2Proof.Machine

namespace Sys2Proof
open Machine

/-- Settles O45: each row's meaning by cases on who it reaches; the last die's freeing keeps the job's entry, which the
retirement then takes away. -/
theorem jobsEnd : Obligations.JobsEnd := by
  refine ⟨fun s sid j hlk hj hhas => ?_, fun s die sid way harg hdie hstate hpart => ?_⟩
  · subst hj
    refine ⟨fun die way harg hdie => ?_, fun way harg hstate hkill => ?_, fun die way v harg hdie hstate hpart hv => ?_,
      fun harg hstate hone => ?_⟩
    · refine ⟨execJobEnd_far harg hdie hhas, fun w h hw hrun => ?_, fun h hw hlead => ?_, fun h hw hlead hrun hmem => ?_,
        fun h hw hlead hrun => ?_⟩ <;> subst h hw
      · exact (execJobEnd_ordered harg hdie hhas).trans (by rw [State.endJob_running hhas hrun])
      · exact (execJobEnd_asked harg hdie hhas).trans (by rw [if_pos hlead])
      · exact (execJobEnd_asked harg hdie hhas).trans (by simp [hlead, State.endSpan, hrun, hmem, State.endJob_running hhas hrun])
      · refine ⟨(execJobEnd_asked harg hdie hhas).trans (by simp [hlead, State.endSpan, hrun]), State.endJob_state ?_ hhas hrun 0⟩
        exact State.foldl_roster (fun u n => u.toNet_roster n _ _) _ s
    · have hexec : exec .jobEndTeardown s = _ := execJobEndTeardown_begin harg hlk hstate hkill
      rw [hexec]
      refine ⟨fun h => by simp [h], fun h hdies => ?_, fun h hdies => ?_⟩
      · simp [h, hdies]
      · simp [h, hdies, List.range_succ]
    · subst hv
      exact execJobEndTeardown_part harg hdie hstate hpart
    · have hexec : exec .completionDetect s = execCompletionDetect s := rfl
      simp only [hexec, execCompletionDetect, harg, State.byLock_free hlk, hstate, hone]
      refine ⟨fun h => by simp [h], fun h => by simp [h, State.endJob_running hhas hstate]⟩
  · obtain hlast | ⟨rfl, hnone, hdies, hready⟩ := hpart
    · exact ⟨_, execJobEndTeardown_part harg hdie hstate hlast, State.thas_retire _ _ _⟩
    · refine ⟨_, execJobEndTeardown_begin harg hdie hstate hnone, ?_⟩
      simp [hready, hdies, State.dieEnded_last, State.thas_retire]

end Sys2Proof
end

section
/-! PROOF of O46. Detection and kills (R28, R209, R410, R463, R472, R473): each step's meaning on a lockkeeper that is free. -/

namespace Sys2Proof.Machine

open Sys2Proof

/-! ## Detection -/

/-- A device of a spanning job tells its lead when it comes to be complete or stops (R28). -/
theorem execCompletionDetect_span {s : State} {sid : Nat} (harg : s.arg = .completionDetect sid) (hlk : s.lkDown 0 = false)
    (hrun : (s.job sid).state = .running) (hspan : 1 < (s.job sid).span.devices) :
    execCompletionDetect s = .next (if (s.job sid).span.quiet = s.completeNow sid then s else s.sendReport sid none) := by
  have hmany : ¬ (s.job sid).span.devices ≤ 1 := by omega
  simp [execCompletionDetect, harg, State.byLock_free hlk, hrun, hmany]

/-- The same for idleness. -/
theorem execDeadlockDetect_span {s : State} {sid : Nat} (harg : s.arg = .deadlockDetect sid) (hlk : s.lkDown 0 = false)
    (hrun : (s.job sid).state = .running) (hspan : 1 < (s.job sid).span.devices) :
    execDeadlockDetect s = .next (if (s.job sid).span.idle = s.idleNow sid then s else s.sendReport sid none) := by
  have hmany : ¬ (s.job sid).span.devices ≤ 1 := by omega
  simp [execDeadlockDetect, harg, State.byLock_free hlk, hrun, hmany]

/-- A job on this device alone that is idle without being complete is deadlocked (R410). -/
theorem execDeadlockDetect_alone {s : State} {sid : Nat} (harg : s.arg = .deadlockDetect sid) (hlk : s.lkDown 0 = false)
    (hrun : (s.job sid).state = .running) (hone : (s.job sid).span.devices = 1) :
    execDeadlockDetect s =
      .next (if s.idleNow sid = true ∧ (s.job sid).quietSince = none then s.kill sid .deadlock else s) := by
  simp [execDeadlockDetect, harg, State.byLock_free hlk, hrun, hone]

theorem execQuietReport_free {s : State} {r : SpanReport} (harg : s.arg = .quietReport r) (hlk : s.lkDown 0 = false) :
    execQuietReport s = .next (s.takeReport r) := by
  simp [execQuietReport, harg, State.byLock_free hlk]

theorem execActiveReport_free {s : State} {r : SpanReport} (harg : s.arg = .activeReport r) (hlk : s.lkDown 0 = false) :
    execActiveReport s = .next (s.takeReport r) := by
  simp [execActiveReport, harg, State.byLock_free hlk]

/-- A report that does not come to a lead changes nothing. -/
theorem State.takeReport_member {s : State} {r : SpanReport} (h : (s.job r.sid).span.lead ≠ s.node) : s.takeReport r = s := by
  simp [State.takeReport, h]

/-- A report of a member that is neither complete nor idle is kept, and starts no round (R28). -/
theorem State.takeReport_active {s : State} {r : SpanReport} (hhas : thas s.jobs r.sid = true) (hrun : (s.job r.sid).state = .running)
    (hlead : (s.job r.sid).span.lead = s.node) (hasked : (s.job r.sid).span.asked = false) (hmem : r.node ∈ (s.job r.sid).members)
    (hquiet : r.quiet = false) (hidle : r.idle = false) :
    s.takeReport r = s.setJob r.sid
      { s.job r.sid with span := { (s.job r.sid).span with reports := tput (s.job r.sid).span.reports r.node r } } := by
  unfold State.takeReport
  extract_lets j src sp u all calm
  have hanswers : sp = { j.span with reports := tput j.span.reports r.node r } := by simp [sp, src, j, hasked]
  have hwaits (p : SpanReport → Bool) (hp : p r = false) : all sp.reports p = false :=
    List.all_eq_false.2 ⟨r.node, hmem, by simp [hanswers, hp]⟩
  have hcalm : calm = false := by simp only [calm, hwaits _ hquiet, hwaits _ hidle, Bool.or_self]
  have hnone : sp.asked = false := by rw [hanswers]; exact hasked
  rw [if_neg (by simp [j, hhas, hrun, hlead]), if_pos (by simp [hnone]), if_neg (by simp [hcalm])]
  rw [show u = s.setJob r.sid { j with span := sp } from rfl, hanswers]

/-! ## Who kills a job -/

theorem Job.mortal_of_running {j : Job} (h : j.state = .running) : j.mortal = true := by simp [Job.mortal, h]

theorem execRank7Fault_free {s : State} {die : Nat} {b : Barge} (harg : s.arg = .rank7Fault die b) (hdie : s.lkDown die = false)
    (halive : s.alive b.sid = true) :
    execRank7Fault s = .next
      (((s.eventJob die 0x004 b.sid b.payload).blameFrame b).wantKill die b.sid (Cause.ofCode (bitsN (b.payload.headD 0) 7 0))) := by
  simp [execRank7Fault, harg, State.byLock_free hdie, halive]

theorem execSpanKill_free {s : State} {sid : Nat} {x : Cause} (harg : s.arg = .spanKill sid x) (hlk : s.lkDown 0 = false)
    (hhas : thas s.jobs sid = true) :
    execSpanKill s = .next (if (s.job sid).span.lead = s.node then s.killSpan sid x else s.killHere sid x) := by
  simp [execSpanKill, harg, State.byLock_free hlk, hhas]

/-- The lead of a running job tells the other members of a kill, and kills its own share (R28). -/
theorem State.killSpan_running {s : State} {sid : Nat} (hrun : (s.job sid).state = .running) (x : Cause) :
    s.killSpan sid x =
      (((s.job sid).others s.node).foldl (fun s n => s.toNet n (some sid) (.spanKill sid x)) s).killHere sid x := by
  simp [State.killSpan, Job.mortal_of_running hrun]

/-- A kill of a running job for another cause than a deadlock is counted, and sent to each die (R466, R473). -/
theorem State.killHere_running {s : State} {sid : Nat} (hhas : thas s.jobs sid = true) (hrun : (s.job sid).state = .running) {x : Cause}
    (hx : x ≠ .deadlock) :
    s.killHere sid x = (List.range s.part.dies).foldl (fun s d => s.post .none (.dieKill d sid x))
      ((s.onCtl (fun c => { c with kills := c.kills + 1 })).setJob sid
        { s.job sid with state := .killed x, killDies := List.range s.part.dies }) := by
  have hjob (f : Ctl → Ctl) : (s.onCtl f).job sid = s.job sid := rfl
  simp [State.killHere, State.killNow, hhas, hrun, hx, Job.mortal_of_running hrun, hjob]

/-- The SIDs an error serves are those of the jobs alone. -/
@[simp] theorem State.servedBy_onCtl (s : State) (f : Ctl → Ctl) (die : Nat) (hit : Hit) : (s.onCtl f).servedBy die hit = s.servedBy die hit := by
  cases hit <;> rfl

theorem State.mem_servedBy_turso (s : State) (die sid : Nat) : sid ∈ s.servedBy die .turso ↔ thas s.jobs sid = true := by
  simp [State.servedBy, thas]

theorem State.mem_servedBy_edge (s : State) (die e sid : Nat) :
    sid ∈ s.servedBy die (.edge e) ↔ ∃ y ∈ s.jobs, y.1 = sid ∧ ∃ h ∈ y.2.hives, h.die = die := by
  simp only [State.servedBy, List.mem_map, List.mem_filter, List.any_eq_true, decide_eq_true_eq]
  exact ⟨fun ⟨y, ⟨hy, hh⟩, hk⟩ => ⟨y, hy, hk, hh⟩, fun ⟨y, hy, hk, hh⟩ => ⟨y, ⟨hy, hh⟩, hk⟩⟩

/-- An error that serves one running job kills it (R472). -/
theorem execUnpinnedError_one {s : State} {die sid : Nat} {hit : Hit} {frame : Option Nat} (harg : s.arg = .unpinnedError die hit frame)
    (hdie : s.lkDown die = false) (hserved : s.servedBy die hit = [sid]) (hhas : thas s.jobs sid = true)
    (hrun : (s.job sid).state = .running) :
    execUnpinnedError s = .next
      (((s.onCtl (fun c => { c with uncorr := min 0xFFFF (c.uncorr + 1) })).setJob sid { s.job sid with frame := frame }).wantKill die sid
        .killed) := by
  have hjob (f : Ctl → Ctl) : (s.onCtl f).job sid = s.job sid := rfl
  simp [execUnpinnedError, harg, State.byLock_free hdie, hserved, hhas, hjob, Job.mortal_of_running hrun]

/-! ## A die's share of a kill -/

theorem execDieKill_free {s : State} {die sid : Nat} {x : Cause} (harg : s.arg = .dieKill die sid x) (hdie : s.lkDown die = false)
    (hhas : thas s.jobs sid = true) :
    execDieKill s = .next (
      if die ∈ (s.job sid).killDies ∧ thas (s.job sid).counts die = false then
        ((s.setJob sid { s.job sid with counts := tput (s.job sid).counts die (s.tally sid die) }).purgeDie sid die).post .none
          (.killDrainDone die sid)
      else if die = 0 then s.kill sid x else s) := by
  simp [execDieKill, harg, State.byLock_free hdie, hhas]

/-- A kill waits while one of the job's pages is being scrubbed, or one of its shootdowns is under way. -/
theorem execKillDrainDone_waits {s : State} {die sid : Nat} (harg : s.arg = .killDrainDone die sid) (hdie : s.lkDown die = false)
    (h : (∃ x ∈ s.scrubs, x.sid = sid) ∨ ∃ x ∈ s.shoots, x.2.sid = sid ∧ x.2.host = false) : execKillDrainDone s = .next s := by
  have hwait : s.scrubs.any (fun x => x.sid = sid) = true ∨ s.shoots.any (fun x => x.2.sid = sid && !x.2.host) = true := by
    simpa using h
  simp only [execKillDrainDone, harg, State.byLock_free hdie]
  obtain h | h := hwait <;> simp [h]

/-- With neither, the pages of the frame that is to blame come first, and then the die is done. -/
theorem execKillDrainDone_goes {s : State} {die sid : Nat} (harg : s.arg = .killDrainDone die sid) (hdie : s.lkDown die = false)
    (hhas : thas s.jobs sid = true) (hmem : die ∈ (s.job sid).killDies) (hcount : thas (s.job sid).counts die = true)
    (hscrub : ∀ x ∈ s.scrubs, x.sid ≠ sid) (hshoot : ∀ x ∈ s.shoots, x.2.sid ≠ sid ∨ x.2.host = true) :
    ((s.job sid).frame = none → execKillDrainDone s = .next (s.dieKilled die sid)) ∧
    (∀ f, (s.job sid).frame = some f → s.leavesOf f 4 1 (s.job sid).root 0 = [] →
      execKillDrainDone s = .next ((s.setJob sid { s.job sid with frame := none }).dieKilled die sid)) := by
  have hscrub' : s.scrubs.any (fun x => x.sid = sid) = false := by simpa using hscrub
  have hshoot' : s.shoots.any (fun x => x.2.sid = sid && !x.2.host) = false :=
    List.any_eq_false.2 (fun x hx => by obtain h | h := hshoot x hx <;> simp [h])
  simp only [execKillDrainDone, harg, State.byLock_free hdie, hhas, hcount, hscrub', hshoot']
  exact ⟨fun hf => by simp [hmem, hf], fun f hf hl => by simp [hmem, hf, hl]⟩

theorem execScrubDone_none {s : State} {sid va : Nat} (harg : s.arg = .scrubDone sid va) (hlk : s.lkDown 0 = false)
    (h : ∀ x ∈ s.scrubs, x.sid ≠ sid ∨ x.va ≠ va) : execScrubDone s = .next s := by
  have hfind : s.scrubs.find? (fun x => x.sid = sid && x.va = va) = none :=
    List.find?_eq_none.2 (fun x hx => by obtain h | h := h x hx <;> simp [h])
  simp only [execScrubDone, harg, State.byLock_free hlk, hfind]

theorem execScrubDone_some {s : State} {sid va : Nat} {x : Scrub} (harg : s.arg = .scrubDone sid va) (hlk : s.lkDown 0 = false)
    (h : s.scrubs.find? (fun x => x.sid = sid && x.va = va) = some x) :
    execScrubDone s = .next
      ((({ s with scrubs := s.scrubs.filter (· ≠ x) } : State).setLeaf sid x.leaf x.size va (fun e => e &&& ~~~(fld 3 4))).eventJob 0 0x00B
        sid [fld sid 0, fld (bitsN (BitVec.ofNat 64 (natOf (s.bytes (.hbm x.leaf) 8))) 51 12 * 4096) 0, fld x.size 0]) := by
  simp only [execScrubDone, harg, State.byLock_free hlk, h]

end Sys2Proof.Machine

namespace Sys2Proof
open Machine

/-- Settles O46: the meaning of each detection, kill and drain step on a lockkeeper that is free. -/
theorem detectorsAndKills : Obligations.DetectorsAndKills := by
  refine ⟨fun s sid j hlk hj hhas hrun => ?_, fun s sid j hj hhas hrun hlk => ?_, fun s die sid j hj hhas hdie hlk => ?_⟩ <;> subst hj
  · refine ⟨fun harg hspan => execCompletionDetect_span harg hlk hrun hspan,
      fun harg hspan => execDeadlockDetect_span harg hlk hrun hspan, fun harg hone => ?_, fun n harg => ?_, fun r => ⟨fun harg hr hlead => ?_, fun harg => ?_, fun harg => ?_,
        fun harg hr hquiet hidle hlead hasked hmem => ?_⟩, fun harg => ?_⟩
    · have hexec : exec .deadlockDetect s = _ := execDeadlockDetect_alone harg hlk hrun hone
      rw [hexec]
      refine ⟨fun hidle hnot => by simp [hidle, hnot], fun h => ?_⟩
      rw [if_neg]
      rintro ⟨hidle, hnot⟩
      simp [hidle, hnot] at h
    · change execFreshReportRequest s = _
      simp [execFreshReportRequest, harg, State.byLock_free hlk, hhas, hrun]
    · subst hr
      exact (execQuietReport_free harg hlk).trans (by rw [State.takeReport_member hlead])
    · exact execQuietReport_free harg hlk
    · exact execActiveReport_free harg hlk
    · subst hr
      exact (execActiveReport_free harg hlk).trans (by rw [State.takeReport_active hhas hrun hlead hasked hmem hquiet hidle])
    · change execLeadUnreachable s = _
      simp [execLeadUnreachable, harg, State.byLock_free hlk]
  · have hspan {x : Cause} (harg : s.arg = .spanKill sid x) := execSpanKill_free harg hlk hhas
    refine ⟨fun die b harg hdie hb => ?_, fun c p harg hp => ?_, fun x harg => ⟨fun hlead => ?_, fun hlead ho => ?_, fun n hlead ho => ?_,
        fun hlead ho hx hdies => ?_⟩, fun die hit frame harg hserved hdie => execUnpinnedError_one harg hdie hserved hhas hrun,
      fun die k => ⟨rfl, s.mem_servedBy_turso die k, fun e => s.mem_servedBy_edge die e k⟩, fun die x => rfl⟩
    · subst hb
      exact execRank7Fault_free harg hdie (by simp [State.alive, hhas, hrun])
    · subst hp
      change execKill s = _
      simp [execKill, harg, State.byLock_free hlk, hhas, State.onCtl]
    · exact (hspan harg).trans (by rw [if_neg hlead])
    · exact (hspan harg).trans (by simp [hlead, State.killSpan_running hrun, ho])
    · exact (hspan harg).trans (by simp [hlead, State.killSpan_running hrun, ho])
    · refine ⟨_, (hspan harg).trans (by
        rw [if_pos hlead, State.killSpan_running hrun, ho, List.foldl_nil, State.killHere_running hhas hrun hx]), ?_⟩
      simp [hdies, List.range_succ]
  · refine ⟨fun x harg => ?_, fun harg hmem hcount => ⟨fun h => execKillDrainDone_waits harg hdie h, fun hscrub hshoot => ?_,
        fun f hscrub hshoot => ?_⟩,
      fun va harg => ⟨fun h => execScrubDone_none harg hlk h, fun x h => execScrubDone_some harg hlk h⟩⟩
    · have hexec : exec .dieKill s = _ := execDieKill_free harg hdie hhas
      rw [hexec]
      exact ⟨fun hmem hcount => by rw [if_pos ⟨hmem, hcount⟩], fun hmem => by rw [if_neg (fun h => hmem h.1)]⟩
    · exact (execKillDrainDone_goes harg hdie hhas hmem hcount hscrub hshoot).1
    · exact (execKillDrainDone_goes harg hdie hhas hmem hcount hscrub hshoot).2 f

end Sys2Proof
end

section
/-! PROOF of O44. Launching a job (R21 to R24): which checks a launch meets in which order, and what a plan that passes them all
holds. -/

namespace Sys2Proof.Machine

open Sys2Proof

/-! ## Checks in a row -/

theorem formed_bind {α : Type} (b : Bool) (f : Unit → Except Why α) :
    (formed b >>= f) = if b = true then f () else .error (some .illegalForm) := by
  cases b <;> rfl

theorem formed_ok {b : Bool} {u : Unit} : formed b = .ok u ↔ b = true := by
  cases b <;> simp [formed]

theorem Chk.step_ok {α : Type} {c : Except Cause α} {x : α} : Chk.step c = .ok x ↔ c = .ok x := by
  cases c <;> simp [Chk.step]

/-- A row of checks passes when each of them does. -/
theorem checks_ok {ε α β : Type} {c : Except ε α} {f : α → Except ε β} {x : β} : (c >>= f) = .ok x ↔ ∃ a, c = .ok a ∧ f a = .ok x := by
  cases c with
  | error e => exact ⟨fun h => (nomatch h), fun ⟨_, h, _⟩ => (nomatch h)⟩
  | ok a => exact ⟨fun h => ⟨a, rfl, h⟩, fun ⟨_, h, hf⟩ => by cases h; exact hf⟩

theorem refusal_ok {ε α β : Type} {p : Prop} [Decidable p] {e : ε} {k : α → Except ε β} {c : Except ε β} {x : β} :
    (if p then ((.error e : Except ε α) >>= k) else c) = .ok x ↔ ¬ p ∧ c = .ok x := by
  by_cases h : p
  · simp only [h, if_true, not_true_eq_false, false_and, iff_false]; exact fun h => nomatch h
  · simp [h]

/-! ## Plans -/

/-- The form that the route and control words, the manifest's place, its header, its sections and its span word must have. -/
def State.LaunchForm (s : State) (route ctl p0 p1 p2 : Word) (m : List Byte) : Prop :=
  hostRoute s.node route = true ∧ ctlPrio ctl = 1 ∧ ctlCount ctl = 3 ∧ bitsN ctl 45 40 = 0 ∧ bitsN p2 63 2 = 0 ∧
  p0.toNat % 64 = 0 ∧ 64 ≤ p1.toNat ∧ manifestHead s.part m = true ∧
  (imagesAt m 0x2C (recN m 0x1C 4) (recN m 0x18 4)).isSome = true ∧ (imagesAt m 0x30 (recN m 0x24 4) (recN m 0x20 4)).isSome = true ∧
  spanOk s.node m = true

/-- What a launch's plan holds of its manifest and of the machine (R22, R23). -/
structure State.Planned (s : State) (ctl p2 : Word) (m : List Byte) (p : Plan) : Prop where
  sidFree : thas s.jobs p.sid = false
  sidNamed : mSid m ≠ 0 → p.sid = mSid m
  sidLowest : mSid m = 0 → 1 ≤ p.sid ∧ p.sid ≤ 65535 ∧ ∀ k, 1 ≤ k → k < p.sid → thas s.jobs k = true
  hives : p.job.hives = s.freeHives.take (mHives m)
  enough : mHives m ≤ s.freeHives.length
  tag : p.job.tag = BitVec.ofNat 40 (bitsN ctl 39 0)
  basin : p.job.basin = bitsN p2 1 0
  state : p.job.state = .launching
  dom : p.job.dom = recN m 0x0A 1
  root : p.job.root = recN m 0x10 8
  reachlim : p.job.reachlim = if recN m 0x0B 1 = 0 then 16 else recN m 0x0B 1
  handlers : ∃ l, imagesAt m 0x2C (recN m 0x1C 4) (recN m 0x18 4) = some l ∧ checkHandlers s.part l = .ok p.job.handlers
  graphs : imagesAt m 0x30 (recN m 0x24 4) (recN m 0x20 4) = some p.job.graphs

/-- The SID of a launch that names none is the lowest that no job has (R23). -/
theorem lowest_free {t : Tbl Nat Job} {n : Nat} (h : (List.range 65535).find? (fun n => !thas t (n + 1)) = some n) :
    thas t (n + 1) = false ∧ n + 1 ≤ 65535 ∧ ∀ k, 1 ≤ k → k < n + 1 → thas t k = true := by
  obtain ⟨hfree, hlt, hbelow⟩ := List.find?_range_eq_some.1 h
  refine ⟨by simpa using hfree, List.mem_range.1 hlt, fun k hk hkn => ?_⟩
  have hused := hbelow (k - 1) (by omega)
  rw [Nat.sub_add_cancel hk] at hused
  simpa using hused

section
variable {s : State} {route ctl p0 p1 p2 : Word} {m : List Byte} (hm : m = s.bytes (.comp p0.toNat) p1.toNat)
include hm

/-- A launch that lacks the form is refused for it. -/
theorem State.plan_unformed (h : ¬ s.LaunchForm route ctl p0 p1 p2 m) : s.plan_ route ctl p0 p1 p2 = .error (some .illegalForm) := by
  simp only [State.plan_, ← hm, formed_bind]
  refine ite_eq_right_iff.2 (fun hword => ite_eq_right_iff.2 (fun hplace => ite_eq_right_iff.2 (fun hhead => ite_eq_right_iff.2
    (fun hspan => absurd ?_ h))))
  simp only [Bool.and_eq_true, decide_eq_true_eq] at hword hplace hhead hspan
  obtain ⟨⟨⟨hroute, hprio⟩, hcount⟩, htag⟩ := hword
  obtain ⟨⟨hrest, halign⟩, hlen⟩ := hplace
  obtain ⟨⟨hhis, hgis⟩, hspan⟩ := hspan
  exact ⟨hroute, hprio, hcount, htag, hrest, halign, hlen, hhead, hhis, hgis, hspan⟩

/-- One that has the form, and names a SID in use, is refused with BUSY. -/
theorem State.plan_busy (h : s.LaunchForm route ctl p0 p1 p2 m) (hsid : mSid m ≠ 0) (hused : thas s.jobs (mSid m) = true) :
    s.plan_ route ctl p0 p1 p2 = .error (some .busy) := by
  obtain ⟨hroute, hprio, hcount, htag, hrest, halign, hlen, hhead, hhis, hgis, hspan⟩ := h
  simp only [State.plan_, ← hm, formed_bind, hroute, hprio, hcount, htag, hrest, halign, hlen, hhead, hhis, hgis, hspan, decide_true, Bool.and_self,
    if_true, if_pos hsid, hused]
  rfl

/-- One that passes every check has its plan from the manifest, the lowest free SID where it names none, and the free hives. -/
theorem State.plan_ok {p : Plan} (h : s.plan_ route ctl p0 p1 p2 = .ok p) : s.Planned ctl p2 m p := by
  simp only [State.plan_, ← hm, checks_ok, formed_ok, Chk.step_ok, refusal_ok] at h
  obtain ⟨-, -, -, -, -, -, -, himg, sid, hsid, henough, hs, hhs, -, -, sets, -, hp⟩ := h
  simp only [Bool.and_eq_true] at himg
  obtain ⟨⟨hhis, hgis⟩, -⟩ := himg
  obtain ⟨his, hhis⟩ := Option.isSome_iff_exists.1 hhis
  obtain ⟨gis, hgis⟩ := Option.isSome_iff_exists.1 hgis
  rw [hhis, Option.getD_some] at hhs
  have hchosen : thas s.jobs sid = false ∧ (mSid m ≠ 0 → sid = mSid m) ∧
      (mSid m = 0 → 1 ≤ sid ∧ sid ≤ 65535 ∧ ∀ k, 1 ≤ k → k < sid → thas s.jobs k = true) := by
    by_cases hz : mSid m = 0
    · rw [if_neg (fun h => h hz)] at hsid
      split at hsid
      · next n hn =>
        cases hsid
        obtain ⟨hfree, hle, hbelow⟩ := lowest_free hn
        exact ⟨hfree, fun h => absurd hz h, fun _ => ⟨by omega, hle, hbelow⟩⟩
      · cases hsid
    · rw [if_pos hz] at hsid
      split at hsid
      · cases hsid
      · next hfree =>
        cases hsid
        exact ⟨by simpa using hfree, fun _ => rfl, fun h => absurd h hz⟩
  obtain ⟨hfree, hnamed, hlowest⟩ := hchosen
  cases hp
  exact ⟨hfree, hnamed, hlowest, rfl, by rw [List.length_take] at henough; omega, rfl, rfl, rfl, rfl, rfl, rfl, ⟨his, hhis, hhs⟩, by rw [hgis]; rfl⟩

end

section
variable {s : State} {route ctl p0 p1 p2 : Word} (harg : s.arg = .launch route ctl p0 p1 p2) (htrip : s.ctl.trip = false)
include harg htrip

/-- A launch is refused for what its checks give. -/
theorem execLaunch_refused (hlk : s.lkDown 0 = false) {w : Why} (h : s.plan_ route ctl p0 p1 p2 = .error w) :
    execLaunch s = .next (s.refused (bitsN p2 1 0) (bitsN ctl 39 0) w) := by
  simp [execLaunch, harg, State.byLock_free hlk, htrip, h]

/-- One that passes them is installed, and forms its span. -/
theorem execLaunch_installed (hlk0 : s.lkDown 0 = false) (hlk1 : s.lkDown 1 = false) {p : Plan} (h : s.plan_ route ctl p0 p1 p2 = .ok p) :
    execLaunch s = .next ((s.install p).formSpan p.sid) := by
  have hdie : s.lkDown (if p.job.hives.any (fun h => h.die = 1) then 1 else 0) = false := by
    split
    · exact hlk1
    · exact hlk0
  simp only [execLaunch, harg, State.byLock_free hlk0, htrip, h, State.byLock_free hdie]
  rfl

end

@[simp] theorem State.install_job (s : State) (p : Plan) : (s.install p).job p.sid = p.job := State.job_setJob _ _ _

/-! ## The span (R27) -/

/-- The lead counts a member that agrees with it. -/
theorem State.takeJoin_counts {s : State} {m : SpanMsg} (hlead : (s.job m.sid).span.lead = s.node)
    (hdev : (s.job m.sid).span.devices = m.devices) (hdig : (s.job m.sid).span.digest = m.digest)
    (hnew : (s.job m.sid).span.joined.contains m.node = false) :
    s.takeJoin m.sid m = s.setJob m.sid
      { s.job m.sid with span := { (s.job m.sid).span with joined := (s.job m.sid).span.joined ++ [m.node] } } := by
  simp only [State.takeJoin, hlead, hdev, hdig, hnew]
  rfl

/-- It refuses one that differs. -/
theorem State.takeJoin_refuses {s : State} {sid : Nat} {m : SpanMsg}
    (h : m.sid ≠ sid ∨ (s.job sid).span.devices ≠ m.devices ∨ (s.job sid).span.digest ≠ m.digest) :
    s.takeJoin sid m = s.toNet m.node none (.spanAnswer m.sid [] 0 false) := by
  refine if_neg (fun hall => ?_)
  simp only [Bool.and_eq_true, decide_eq_true_eq] at hall
  obtain ⟨⟨⟨hsid, -⟩, hdev⟩, hdig⟩ := hall
  simp [hsid, hdev, hdig] at h

theorem execSpanJoin_led {s : State} {sid : Nat} {m : SpanMsg} (harg : s.arg = .spanJoin m) (hlk : s.lkDown 0 = false)
    (hlead : s.leading = some sid) : execSpanJoin s = .next ((s.takeJoin sid m).spanCount sid) := by
  simp only [execSpanJoin, harg, State.byLock_free hlk, hlead]

/-- Without a launch of its own to lead, a device refuses a member of a job it has, and keeps a SPAN_JOIN of one it has not. -/
theorem execSpanJoin_late {s : State} {m : SpanMsg} (harg : s.arg = .spanJoin m) (hlk : s.lkDown 0 = false) (hlead : s.leading = none)
    (hhas : thas s.jobs m.sid = true) : execSpanJoin s = .next (s.toNet m.node none (.spanAnswer m.sid [] 0 false)) := by
  simp only [execSpanJoin, harg, State.byLock_free hlk, hlead, hhas, if_true]

theorem execSpanJoin_early {s : State} {m : SpanMsg} (harg : s.arg = .spanJoin m) (hlk : s.lkDown 0 = false) (hlead : s.leading = none)
    (hhas : thas s.jobs m.sid = false) :
    execSpanJoin s = .next
      (s.onCtl (fun c => { c with joins := c.joins.filter (fun e => e.1.sid ≠ m.sid || e.1.node ≠ m.node) ++ [(m, s.cycle)] })) := by
  simp only [execSpanJoin, harg, State.byLock_free hlk, hlead, hhas]
  rfl

theorem sessionNext_step {k : Nat} (h5 : k ≠ 5) (h11 : k ≠ 11) : sessionNext k = some (k + 1) := by
  unfold sessionNext
  split <;> simp_all

/-- A step of a member's session with its lead that agrees goes on to the next, or the session is open and SPAN_JOIN goes; one
that fails ends the launch (R27, R455). -/
theorem execLeadSessionResponse_step {s : State} {sid : Nat} {m : SpdmMsg} (harg : s.arg = .leadSessionResponse sid m)
    (hlk : s.lkDown 0 = false) (hspan : s.spanning sid = true) (hlead : (s.job sid).span.lead ≠ s.node)
    (hask : (s.job sid).span.asking = false) (hstep : m.step = (s.job sid).span.session) :
    execLeadSessionResponse s = .next (
      if s.spdmReason 0 m ≠ 0 then s.unlaunch sid none
      else (sessionNext m.step).elim (({ s with sessions := s.sessions ++ [(s.job sid).span.lead] } : State).sendJoin sid)
        (s.sessionAsk sid)) := by
  simp only [execLeadSessionResponse, harg, State.byLock_free hlk]
  rw [if_neg (by simp [hspan, hlead, hask, hstep])]
  cases sessionNext m.step <;> rfl

end Sys2Proof.Machine

namespace Sys2Proof
open Machine

/-- Settles O44: the launch's checks in their order give its refusal or its plan; the span's steps by who takes them. -/
theorem launchesAndSpans : Obligations.LaunchesAndSpans := by
  refine ⟨fun s route ctl p0 p1 p2 m harg hm hlk0 hlk1 htrip => ⟨fun w h => execLaunch_refused harg htrip hlk0 h, fun p h => ?_, ?_⟩,
    fun s hlk => ⟨fun m harg => ?_, fun sid ms key ok harg hspan hlead => ?_, fun sid harg => ?_, fun sid harg => ?_,
      fun sid m harg hspan hlead hask hstep => ?_⟩⟩
  · have hp := State.plan_ok hm h
    refine ⟨execLaunch_installed harg htrip hlk0 hlk1 h, s.install_job p, hp.tag, hp.basin, hp.sidFree, hp.sidNamed, hp.sidLowest, hp.hives, ?_,
      fun x hx => ?_, hp.state, hp.dom, hp.root, hp.reachlim, hp.handlers, hp.graphs⟩
    · rw [hp.hives, List.length_take, Nat.min_eq_left hp.enough]
    · rw [hp.hives] at hx
      exact (List.mem_filter.1 (List.mem_of_mem_take hx)).2
  · exact ⟨State.plan_unformed hm, State.plan_busy hm⟩
  · refine ⟨fun hled hlead hdev hdig hnew => ?_, fun sid hled h => ?_, fun hled hhas => ?_, fun hled hhas => ?_⟩
    · exact (execSpanJoin_led harg hlk hled).trans (by rw [State.takeJoin_counts hlead hdev hdig hnew])
    · exact (execSpanJoin_led harg hlk hled).trans (by rw [State.takeJoin_refuses h])
    · exact execSpanJoin_late harg hlk hled hhas
    · exact ⟨_, execSpanJoin_early harg hlk hled hhas, rfl, rfl, by simp [State.onCtl]⟩
  · change execSpanAnswer s = _
    simp [execSpanAnswer, harg, State.byLock_free hlk, hspan, hlead]
  · change (_ → _ → execSpanJoinTimeout s = _) ∧ (_ → execSpanJoinTimeout s = _)
    simp only [execSpanJoinTimeout, harg, State.byLock_free hlk]
    exact ⟨fun hlate hlead => by simp [hlate, hlead], fun hlate => by simp [hlate]⟩
  · change (_ → _ → execSpanLeadTimeout s = _) ∧ (_ → execSpanLeadTimeout s = _)
    simp only [execSpanLeadTimeout, harg, State.byLock_free hlk]
    exact ⟨fun hlate hlead => by simp [hlate, hlead], fun hlate => by simp [hlate]⟩
  · have hexec : exec .leadSessionResponse s = _ := execLeadSessionResponse_step harg hlk hspan hlead hask hstep
    rw [hexec]
    refine ⟨fun hgood h5 h11 => ?_, fun hgood h5 => ?_, fun h11 => ?_, fun hbad => by rw [if_pos hbad]⟩
    · rw [if_neg (fun h => h hgood), sessionNext_step h5 h11]; rfl
    · rw [if_neg (fun h => h hgood), h5]; rfl
    · rw [if_neg (by simp [State.spdmReason, h11]), h11]; rfl

end Sys2Proof
end

section
/-! PROOF of O55, O56 and O57. Words (R30 to R35, R50, R51): the fields of a word by its layout, what reading an instruction's word gives
back, and which opcodes a word that is read can have. -/

namespace Sys2Proof.Laws

open Sys2Proof Sys2Proof.Safety

/-! ## The fields of a word, one lemma for each layout (R31, R32) -/

theorem fields_28_4 (x0 : BitVec 28) (t : BitVec 4) : (x0 ++ t : BitVec 32).extractLsb' 0 4 = t := by
  simp (disch := decide) only [bits_lo 28 4, bits_self]

theorem fields_23_5_4 (x0 : BitVec 23) (e : BitVec 5) (t : BitVec 4) :
    (x0 ++ e ++ t : BitVec 32).extractLsb' 4 5 = e ∧ (x0 ++ e ++ t : BitVec 32).extractLsb' 0 4 = t := by
  simp (disch := decide) only [bits_hi 28 4, bits_lo 28 4, bits_lo 23 5, bits_self, Nat.reduceSub, and_self]

theorem fields_18_5_5_4 (x0 : BitVec 18) (d e : BitVec 5) (t : BitVec 4) :
    (x0 ++ d ++ e ++ t : BitVec 32).extractLsb' 9 5 = d ∧ (x0 ++ d ++ e ++ t : BitVec 32).extractLsb' 4 5 = e ∧
      (x0 ++ d ++ e ++ t : BitVec 32).extractLsb' 0 4 = t := by
  simp (disch := decide) only [bits_hi 28 4, bits_lo 28 4, bits_hi 23 5, bits_lo 23 5, bits_lo 18 5, bits_self, Nat.reduceSub, and_self]

theorem fields_13_5_5_5_4 (x0 : BitVec 13) (b d e : BitVec 5) (t : BitVec 4) :
    (x0 ++ b ++ d ++ e ++ t : BitVec 32).extractLsb' 14 5 = b ∧ (x0 ++ b ++ d ++ e ++ t : BitVec 32).extractLsb' 9 5 = d ∧
      (x0 ++ b ++ d ++ e ++ t : BitVec 32).extractLsb' 4 5 = e ∧ (x0 ++ b ++ d ++ e ++ t : BitVec 32).extractLsb' 0 4 = t := by
  simp (disch := decide) only [bits_hi 28 4, bits_lo 28 4, bits_hi 23 5, bits_lo 23 5, bits_hi 18 5, bits_lo 18 5, bits_lo 13 5, bits_self,
    Nat.reduceSub, and_self]

theorem fields_8_5_5_5_5_4 (x0 : BitVec 8) (a b d e : BitVec 5) (t : BitVec 4) :
    (x0 ++ a ++ b ++ d ++ e ++ t : BitVec 32).extractLsb' 19 5 = a ∧ (x0 ++ a ++ b ++ d ++ e ++ t : BitVec 32).extractLsb' 14 5 = b ∧
      (x0 ++ a ++ b ++ d ++ e ++ t : BitVec 32).extractLsb' 9 5 = d ∧ (x0 ++ a ++ b ++ d ++ e ++ t : BitVec 32).extractLsb' 4 5 = e ∧
      (x0 ++ a ++ b ++ d ++ e ++ t : BitVec 32).extractLsb' 0 4 = t := by
  simp (disch := decide) only [bits_hi 28 4, bits_lo 28 4, bits_hi 23 5, bits_lo 23 5, bits_hi 18 5, bits_lo 18 5, bits_hi 13 5,
    bits_lo 13 5, bits_lo 8 5, bits_self, Nat.reduceSub, and_self]

theorem fields_13_15_4 (x0 : BitVec 13) (o : BitVec 15) (t : BitVec 4) :
    (x0 ++ o ++ t : BitVec 32).extractLsb' 4 15 = o ∧ (x0 ++ o ++ t : BitVec 32).extractLsb' 0 4 = t := by
  simp (disch := decide) only [bits_hi 28 4, bits_lo 28 4, bits_lo 13 15, bits_self, Nat.reduceSub, and_self]

theorem fields_8_5_15_4 (x0 : BitVec 8) (a : BitVec 5) (o : BitVec 15) (t : BitVec 4) :
    (x0 ++ a ++ o ++ t : BitVec 32).extractLsb' 19 5 = a ∧ (x0 ++ a ++ o ++ t : BitVec 32).extractLsb' 4 15 = o ∧
      (x0 ++ a ++ o ++ t : BitVec 32).extractLsb' 0 4 = t := by
  simp (disch := decide) only [bits_hi 28 4, bits_lo 28 4, bits_hi 13 15, bits_lo 13 15, bits_lo 8 5, bits_self, Nat.reduceSub, and_self]

theorem fields_8_5_10_5_4 (x0 : BitVec 8) (a : BitVec 5) (z : BitVec 10) (e : BitVec 5) (t : BitVec 4) :
    (x0 ++ a ++ z ++ e ++ t : BitVec 32).extractLsb' 19 5 = a ∧ (x0 ++ a ++ z ++ e ++ t : BitVec 32).extractLsb' 4 5 = e ∧
      (x0 ++ a ++ z ++ e ++ t : BitVec 32).extractLsb' 0 4 = t := by
  simp (disch := decide) only [bits_hi 28 4, bits_lo 28 4, bits_hi 23 5, bits_lo 23 5, bits_hi 13 10, bits_lo 8 5, bits_self,
    Nat.reduceSub, and_self]

theorem fields_8_5_5_10_4 (x0 : BitVec 8) (a b : BitVec 5) (z : BitVec 10) (t : BitVec 4) :
    (x0 ++ a ++ b ++ z ++ t : BitVec 32).extractLsb' 19 5 = a ∧ (x0 ++ a ++ b ++ z ++ t : BitVec 32).extractLsb' 14 5 = b ∧
      (x0 ++ a ++ b ++ z ++ t : BitVec 32).extractLsb' 0 4 = t := by
  simp (disch := decide) only [bits_hi 28 4, bits_lo 28 4, bits_hi 18 10, bits_hi 13 5, bits_lo 13 5, bits_lo 8 5, bits_self,
    Nat.reduceSub, and_self]

theorem fields_8_5_5_5_9 (x0 : BitVec 8) (a b d : BitVec 5) (z : BitVec 9) :
    (x0 ++ a ++ b ++ d ++ z : BitVec 32).extractLsb' 19 5 = a ∧ (x0 ++ a ++ b ++ d ++ z : BitVec 32).extractLsb' 14 5 = b ∧
      (x0 ++ a ++ b ++ d ++ z : BitVec 32).extractLsb' 9 5 = d := by
  simp (disch := decide) only [bits_hi 23 9, bits_hi 18 5, bits_hi 13 5, bits_lo 18 5, bits_lo 13 5, bits_lo 8 5, bits_self, Nat.reduceSub, and_self]

/-! ## Opcodes (R50, R51) -/

/-- The word of every instruction carries its opcode. -/
theorem encode_opcode (i : Instr) : (encode i).extractLsb' 24 8 = opcode i := by
  cases i
  all_goals
    simp only [encode, opcode, opcode_28_4, opcode_18_5_5_4, opcode_13_5_5_5_4, opcode_8_5_5_5_5_4, opcode_13_15_4, opcode_8_5_15_4,
      opcode_23_5_4, opcode_8_5_10_5_4, opcode_8_5_5_10_4, opcode_8_5_5_5_9, BitVec.reduceExtractLsb', BitVec.ofNat_eq_ofNat]

/-- Blocks of opcodes, each from its first to its last. -/
def inBlocks (bs : List (Nat × Nat)) (n : Nat) : Bool := bs.any (fun b => b.1 ≤ n && n ≤ b.2)

/-- The opcodes assigned to threads (R50). -/
def threadBlocks : List (Nat × Nat) :=
  [(0x01, 0x0A), (0x10, 0x35), (0x38, 0x44), (0x48, 0x4D), (0x50, 0x53), (0x58, 0x63), (0x68, 0x71), (0x78, 0x81), (0x88, 0x90),
   (0x98, 0x9C), (0xA0, 0xA5), (0xA8, 0xAE), (0xB0, 0xB5), (0xB8, 0xB9)]

/-- The opcodes assigned to rules (R50, R51). -/
def ruleBlocks : List (Nat × Nat) := [(0x01, 0x01), (0x08, 0x08), (0xC0, 0xCB), (0xD0, 0xF0)]

theorem opcode_mem_threadBlocks {i : Instr} (h : (threadTag i).isSome = true) : inBlocks threadBlocks (opcode i).toNat = true := by
  cases i <;> simp only [threadTag, Option.isSome_none, Bool.false_eq_true] at h
  all_goals rfl

theorem opcode_mem_ruleBlocks {i : Instr} (h : ruleWord i = true) : inBlocks ruleBlocks (opcode i).toNat = true := by
  cases i <;> simp only [ruleWord, Bool.false_eq_true] at h
  all_goals rfl

/-! ## Reading (R51) -/

/-- A thread's word is read back from its encoding: the opcode picks the row, and the row's fields stand where its layout puts them. -/
theorem readThread_encode {i : Instr} {g : BitVec 4} (h : threadTag i = some g) : readThread (encode i) = some i := by
  rw [readThread, encode_opcode]
  generalize hn : (opcode i).toNat = n
  cases i <;> simp only [threadTag, reduceCtorEq] at h
  all_goals
    simp only [opcode, BitVec.reduceToNat] at hn
    subst hn
    change some _ = some _
    simp only [encode, fields_28_4, fields_23_5_4, fields_18_5_5_4, fields_13_5_5_5_4, fields_8_5_5_5_5_4, fields_13_15_4, fields_8_5_15_4,
      fields_8_5_10_5_4, fields_8_5_5_10_4, bits_k]

/-- The same of a rule's word. -/
theorem readElement_encode {i : Instr} (h : ruleWord i = true) : readElement (encode i) = some i := by
  rw [readElement, encode_opcode]
  generalize hn : (opcode i).toNat = n
  cases i <;> simp only [ruleWord, reduceCtorEq] at h
  all_goals
    simp only [opcode, BitVec.reduceToNat] at hn
    subst hn
    change some _ = some _
    simp only [encode, fields_18_5_5_4, fields_13_5_5_5_4, fields_8_5_5_5_5_4, fields_8_5_15_4, fields_8_5_5_10_4, fields_8_5_5_5_9, bits_k]

/-- What a thread's word is read as is a thread's instruction, under the opcode the word has. -/
theorem readThread_some {w : BitVec 32} {i : Instr} (h : readThread w = some i) :
    (threadTag i).isSome = true ∧ (opcode i).toNat = (w.extractLsb' 24 8).toNat := by
  unfold readThread at h
  split at h
  all_goals cases h
  all_goals exact ⟨rfl, Eq.symm ‹_›⟩

theorem readElement_some {w : BitVec 32} {i : Instr} (h : readElement w = some i) :
    ruleWord i = true ∧ (opcode i).toNat = (w.extractLsb' 24 8).toNat := by
  unfold readElement at h
  split at h
  all_goals cases h
  all_goals exact ⟨rfl, Eq.symm ‹_›⟩

/-- A word whose opcode no row of its context has is not read (R35, R50). -/
theorem readThread_reserved {w : BitVec 32} (h : inBlocks threadBlocks (w.extractLsb' 24 8).toNat = false) : readThread w = none := by
  cases hread : readThread w with
  | none => rfl
  | some i =>
    obtain ⟨htag, hop⟩ := readThread_some hread
    have hin := opcode_mem_threadBlocks htag
    rw [hop, h] at hin
    cases hin

theorem readElement_reserved {w : BitVec 32} (h : inBlocks ruleBlocks (w.extractLsb' 24 8).toNat = false) : readElement w = none := by
  cases hread : readElement w with
  | none => rfl
  | some i =>
    obtain ⟨hrule, hop⟩ := readElement_some hread
    have hin := opcode_mem_ruleBlocks hrule
    rw [hop, h] at hin
    cases hin

/-! ## Decoding (R44) -/

/-- A word that is read passes the checks exactly if it is the word of a well-formed instruction. -/
theorem checkWord_ok_iff {w : BitVec 32} {i j : Instr} :
    checkWord w i = .ok j ↔ i = j ∧ encode i = w ∧ WellFormed.ok i = true := by
  unfold checkWord WellFormed.ok
  constructor
  · intro h
    split at h
    · cases h
    · split at h
      · cases h
      · cases h; simp_all
  · rintro ⟨rfl, rfl, hok⟩
    simp_all

theorem decodeThread_ok_iff {w : BitVec 32} {i : Instr} :
    decodeThread w = .ok i ↔ readThread w = some i ∧ encode i = w ∧ WellFormed.ok i = true := by
  unfold decodeThread
  cases readThread w with
  | none => simp
  | some j => simp only [checkWord_ok_iff, Option.some.injEq]; exact and_congr_right fun h => by rw [h]

theorem decodeElement_ok_iff {w : BitVec 32} {i : Instr} :
    decodeElement w = .ok i ↔ readElement w = some i ∧ encode i = w ∧ WellFormed.ok i = true := by
  unfold decodeElement
  cases readElement w with
  | none => simp
  | some j => simp only [checkWord_ok_iff, Option.some.injEq]; exact and_congr_right fun h => by rw [h]

theorem decodeThread_encode {i : Instr} {g : BitVec 4} (h : threadTag i = some g) (hok : WellFormed.ok i = true) :
    decodeThread (encode i) = .ok i := decodeThread_ok_iff.2 ⟨readThread_encode h, rfl, hok⟩

theorem decodeElement_encode {i : Instr} (h : ruleWord i = true) (hok : WellFormed.ok i = true) :
    decodeElement (encode i) = .ok i := decodeElement_ok_iff.2 ⟨readElement_encode h, rfl, hok⟩

theorem decodeThread_reserved {w : BitVec 32} (h : inBlocks threadBlocks (w.extractLsb' 24 8).toNat = false) :
    decodeThread w = .error .illegalOp := by
  rw [decodeThread, readThread_reserved h]

theorem decodeElement_reserved {w : BitVec 32} (h : inBlocks ruleBlocks (w.extractLsb' 24 8).toNat = false) :
    decodeElement w = .error .illegalOp := by
  rw [decodeElement, readElement_reserved h]

/-- The four bytes of a word in memory order make up the word again (R30). -/
theorem bytesWord_wordBytes (w : BitVec 32) :
    bytesWord (w.extractLsb' 0 8) (w.extractLsb' 8 8) (w.extractLsb' 16 8) (w.extractLsb' 24 8) = w := by
  simp (disch := decide) only [bytesWord, BitVec.extractLsb'_append_extractLsb'_eq_extractLsb', bits_self]

/-- Bytes that begin with an accepted word are read as its instruction, and the others are left. -/
theorem decodeBytes_wordBytes {w : BitVec 32} {i : Instr} (h : decodeThread w = .ok i) (r : List Byte) :
    decodeBytes (wordBytes w ++ r) = .ok (i, r) := by
  simp only [wordBytes, List.cons_append, List.nil_append, decodeBytes, bytesWord_wordBytes, h]

theorem extract_op_toNat (w : BitVec 32) : (w.extractLsb' 24 8).toNat = w.toNat / 2 ^ 24 := by
  rw [BitVec.extractLsb'_toNat, Nat.shiftRight_eq_div_pow]
  omega

end Sys2Proof.Laws

namespace Sys2Proof
open Laws

/-- Settles O55: reading is the inverse of writing, row by row, and an accepted word is the word of what it is read as. -/
theorem wordsRoundTrip : Obligations.WordsRoundTrip := by
  refine ⟨⟨fun i g r h hok => ?_, fun w i h => ?_⟩, fun i h hok => decodeElement_encode h hok, fun w i h => ?_⟩
  · have hdec := decodeThread_encode h hok
    exact ⟨hdec, decodeBytes_wordBytes hdec r⟩
  · obtain ⟨hread, henc, hok⟩ := decodeThread_ok_iff.1 h
    exact ⟨henc, hok, (readThread_some hread).1⟩
  · obtain ⟨hread, henc, hok⟩ := decodeElement_ok_iff.1 h
    exact ⟨henc, hok, (readElement_some hread).1⟩

/-- Settles O56: no row of either context has the opcode 0x00. -/
theorem zeroOpcodeIsIllegal : Obligations.ZeroOpcodeIsIllegal := by
  intro w h
  exact ⟨decodeThread_reserved (by rw [h]; decide), decodeElement_reserved (by rw [h]; decide)⟩

/-- Settles O57: a reserved opcode lies in no block of its context; each sample is the word of the instruction named. -/
theorem reservedOpcodesAndSamples : Obligations.ReservedOpcodesAndSamples := by
  refine ⟨fun w n hn => ⟨fun h => decodeThread_reserved ?_, fun h => decodeElement_reserved ?_⟩, ?_⟩
  · rw [extract_op_toNat, ← hn]
    rcases h with h | h
    · exact (by decide : ∀ m ∈ _, inBlocks threadBlocks m = false) n h
    · simp [inBlocks, threadBlocks]; omega
  · rw [extract_op_toNat, ← hn]
    simp only [List.mem_cons, List.not_mem_nil, or_false] at h
    simp [inBlocks, ruleBlocks]; omega
  · exact ⟨decodeThread_encode (i := .csrr 0x020 2 0) rfl rfl, decodeThread_encode (i := .cmpLtu 3 4 1 2 0) rfl rfl,
      decodeThread_encode (i := .pand 1 2 3 1 0) rfl rfl, decodeThread_encode (i := .pset 6 5 0) rfl rfl,
      decodeThread_encode (i := .pget 7 0 0) rfl rfl, decodeThread_encode (i := .sext 2 32 1 0) rfl rfl,
      decodeThread_encode (i := .jr 9 0) rfl rfl, decodeThread_encode (i := .jl 8 0) rfl rfl,
      decodeThread_encode (i := .trap 5 0) rfl rfl, decodeThread_encode (i := .brk 5 0) rfl rfl,
      decodeThread_encode (i := .stat 1 3 0) rfl rfl, decodeThread_encode (i := .reach 1 0) rfl rfl,
      (zeroOpcodeIsIllegal 0 rfl).1, decodeElement_encode (i := .sst 0 2 3) rfl rfl⟩

end Sys2Proof
end

section
/-! PROOF of O6 and O1. A thread's word is checked before its meaning acts (R43, R44, R184); its ports (R38, R39, R150, R151). -/

namespace Sys2Proof.Machine

open Sys2Proof Sys2Proof.Safety

/-! ## Registers (R38) -/

theorem Regs.get_set_same (r : Regs) {n : Nat} (h : n ≤ 9) (v : Word) : (r.set n v).get n = v := by
  match n, h with
  | 0, _ | 1, _ | 2, _ | 3, _ | 4, _ | 5, _ | 6, _ | 7, _ | 8, _ | 9, _ => rfl

theorem Regs.get_set_ne (r : Regs) {n m : Nat} (h : m ≠ n) (v : Word) : (r.set n v).get m = r.get m := by
  unfold Regs.set
  split
  all_goals
    unfold Regs.get
    split
    all_goals simp_all

/-! ## Reading a port (R38, R39, R151) -/

theorem reads_reg {s : State} {p : BitVec 5} (h : p.toNat ≤ 9) : Reads s p ((cur s).regs.get p.toNat) := by
  simp [Reads, rd, cur, h]

theorem reads_z {s : State} {p : BitVec 5} (h : p.toNat = 10) : Reads s p 0 := by
  simp [Reads, rd, h]

theorem reads_pw {s : State} {p : BitVec 5} (h : p.toNat = 11) : Reads s p (((cur s).pw ||| 1).setWidth 64) := by
  simp [Reads, rd, cur, h]

theorem reads_self {s : State} {p : BitVec 5} (h : p.toNat = 12) :
    Reads s p (identWord s.node s.curT.core s.curT.slot (cur s).sid) := by
  simp [Reads, rd, cur, h]

theorem reads_lit {s : State} {p : BitVec 5} {h : Handler} {x : Word} (hp : 16 ≤ p.toNat)
    (hh : s.handler (cur s).sid (cur s).lit = some h) (hx : h.lits[p.toNat - 16]? = some x) : Reads s p x := by
  simp only [cur] at hh
  simp [Reads, rd, hh, hx, show ¬ p.toNat ≤ 9 by omega, show p.toNat ≠ 10 by omega, show p.toNat ≠ 11 by omega,
    show p.toNat ≠ 12 by omega]

/-! ## Writing a port (R38, R150) -/

theorem Ctx.wr_reg {c : Ctx} {p : BitVec 5} (h : p.toNat ≤ 9) (v : Word) : c.wr p v = { c with regs := c.regs.set p.toNat v } := by
  simp [Ctx.wr, h]

theorem Ctx.wr_z {c : Ctx} {p : BitVec 5} (h : p.toNat = 10) (v : Word) : c.wr p v = c := by
  simp [Ctx.wr, h]

theorem Ctx.wr_pw {c : Ctx} {p : BitVec 5} (h : p.toNat = 11) (v : Word) : c.wr p v = c.setPw v := by
  simp [Ctx.wr, h]

/-- p1 to p7 take bits 1 to 7 of what pw is given. -/
theorem Ctx.setPw_pred (c : Ctx) (v : Word) {n : Nat} (h1 : 1 ≤ n) (h7 : n ≤ 7) : (c.setPw v).pred n = v.getLsbD n := by
  simp [Ctx.pred, Ctx.setPw, show n ≠ 0 by omega, show n < 8 by omega]

/-- A guard does not hold where its predicate is what it negates (R43). -/
theorem Ctx.guard_false {c : Ctx} {g : BitVec 4} (h : c.pred (g.toNat % 8) = g.getLsbD 3) : c.guard g = false := by
  simp [Ctx.guard, h]

end Sys2Proof.Machine

namespace Sys2Proof
open Machine Safety

/-- Settles O6: every word's meaning is a body given to `threadInstr`, whose checks come in this order. -/
theorem orderOfChecks : Obligations.OrderOfChecks := by
  intro s i g htag hready
  obtain ⟨body, hbody⟩ := exec_checked htag
  rw [hbody s]
  exact ⟨threadInstr_port body hready, threadInstr_form body hready, threadInstr_long body hready,
    fun hp hr he hg => threadInstr_guard body hready hp hr he (Ctx.guard_false hg)⟩

/-- Settles O1, port by port. -/
theorem portsOfAThread : Obligations.PortsOfAThread := by
  intro s p v
  refine ⟨fun h => ?_, fun h => ⟨reads_z h, Ctx.wr_z h v⟩, fun h => ?_, reads_self, fun h _ _ => reads_lit h⟩
  · rw [Ctx.wr_reg h]
    exact ⟨reads_reg h, Regs.get_set_same _ h v, fun n _ hne => Regs.get_set_ne _ hne v, rfl⟩
  · rw [Ctx.wr_pw h]
    exact ⟨reads_pw h, rfl, fun n h1 h7 => Ctx.setPw_pred _ v h1 h7, rfl⟩

end Sys2Proof
end

section
/-! PROOF of O18. What a rule reads, what its result does to the plane (R40 to R42, R45, R287), and that a rule not chosen or not ready
does nothing (R291, R292). -/

namespace Sys2Proof.Machine

open Sys2Proof Sys2Proof.Safety

/-! ## Lanes of packed data (R294) -/

theorem packLanes_lt (w : Nat) (l : List Nat) : l.foldr (fun x acc => x % 2 ^ w + 2 ^ w * acc) 0 < 2 ^ (w * l.length) := by
  induction l with
  | nil => simp
  | cons x r ih =>
    have hx : x % 2 ^ w < 2 ^ w := Nat.mod_lt _ (Nat.two_pow_pos w)
    rw [List.foldr_cons, List.length_cons, Nat.mul_succ, Nat.add_comm (w * _), Nat.pow_add]
    calc x % 2 ^ w + 2 ^ w * r.foldr (fun x acc => x % 2 ^ w + 2 ^ w * acc) 0
        < 2 ^ w * (r.foldr (fun x acc => x % 2 ^ w + 2 ^ w * acc) 0 + 1) := by rw [Nat.mul_succ]; omega
      _ ≤ 2 ^ w * 2 ^ (w * r.length) := Nat.mul_le_mul_left _ ih

theorem packLanes_lane (w : Nat) (l : List Nat) {i : Nat} (h : i < l.length) :
    l.foldr (fun x acc => x % 2 ^ w + 2 ^ w * acc) 0 / 2 ^ (w * i) % 2 ^ w = l[i] % 2 ^ w := by
  induction l generalizing i with
  | nil => simp at h
  | cons x r ih =>
    rw [List.foldr_cons]
    cases i with
    | zero => simp
    | succ i =>
      have hx : x % 2 ^ w / 2 ^ w = 0 := Nat.div_eq_of_lt (Nat.mod_lt _ (Nat.two_pow_pos w))
      rw [Nat.mul_succ, Nat.add_comm (w * i), Nat.pow_add, ← Nat.div_div_eq_div_mul, Nat.add_mul_div_left _ _ (Nat.two_pow_pos w), hx, Nat.zero_add]
      exact ih (by simpa using h)

/-- Lanes that fit a token are read back, each in its width. -/
theorem lane_ofLanes (f : NFmt) (l : List Nat) {i : Nat} (hl : f.bits * l.length ≤ 128) (h : i < l.length) :
    lane f (ofLanes f.bits l) i = l[i] % 2 ^ f.bits := by
  have hlt := Nat.lt_of_lt_of_le (packLanes_lt f.bits l) (Nat.pow_le_pow_right (by omega) hl)
  rw [lane, ofLanes, BitVec.toNat_ofNat, Nat.mod_eq_of_lt hlt, packLanes_lane _ _ h]

/-! ## Reading a port of an element (R40, R42) -/

theorem Plane.read_latch {p : Plane} {n : Nat} {f : NFmt} {q : BitVec 5} {l : Latch} (h : q.toNat ≤ 7)
    (hl : tfind p.latch q.toNat = some l) : p.read n f q = (l.tok, p.sp) := by
  simp [Plane.read, h, hl]

/-- A literal is read as the format's lanes hold it (R42). -/
theorem Plane.read_lit {p : Plane} {n : Nat} {f : NFmt} {q : BitVec 5} {k : BitVec 32} (h16 : 16 ≤ q.toNat) (h23 : q.toNat ≤ 23)
    (hk : p.lits[q.toNat - 16]? = some k) :
    p.read n f q =
      ({ data := if f.bits = 64 then k.signExtend 64 ++ k.signExtend 64 else ofLanes f.bits (List.replicate f.lanes k.toNat) }, p.sp) := by
  simp [Plane.read, hk, h16, h23, show ¬ q.toNat ≤ 7 by omega, show q.toNat ≠ 8 by omega, show q.toNat ≠ 10 by omega,
    show q.toNat ≠ 11 by omega, show q.toNat ≠ 12 by omega, show q.toNat ≠ 13 by omega]

theorem Plane.read_lit_lane {p : Plane} {n : Nat} {f : NFmt} {q : BitVec 5} {k : BitVec 32} (h16 : 16 ≤ q.toNat) (h23 : q.toNat ≤ 23)
    (hk : p.lits[q.toNat - 16]? = some k) (hf : f.bits ≠ 64) {i : Nat} (hi : i < f.lanes) :
    lane f (p.read n f q).1.data i = k.toNat % 2 ^ f.bits := by
  have hfit : f.bits * (List.replicate f.lanes k.toNat).length ≤ 128 := by
    rw [List.length_replicate]; exact Nat.mul_div_le 128 f.bits
  simp only [Plane.read_lit h16 h23 hk, if_neg hf]
  rw [lane_ofLanes f _ hfit (by simpa using hi), List.getElem_replicate]

/-! ## The tag action (R45) -/

theorem setBit_getLsbD (q : BitVec 4) (k : Nat) (v : Bool) {n : Nat} (hn : n < 4) :
    (if v then q ||| (1#4 <<< k) else q &&& ~~~(1#4 <<< k)).getLsbD n = if n = k then v else q.getLsbD n := by
  have hbit : (1#4 <<< k).getLsbD n = decide (n = k) := by
    rw [BitVec.getLsbD_shiftLeft, BitVec.getLsbD_one, Bool.eq_iff_iff]
    simp only [Bool.and_eq_true, Bool.not_eq_true', decide_eq_true_eq, decide_eq_false_iff_not]
    omega
  cases v
  · rw [if_neg Bool.false_ne_true, BitVec.getLsbD_and, BitVec.getLsbD_not, hbit]
    by_cases h : n = k <;> simp [h, hn]
  · rw [if_pos rfl, BitVec.getLsbD_or, hbit]
    by_cases h : n = k <;> simp [h]

/-- The bits of q after a tag action. -/
theorem qAction_bit (w : BitVec 32) (b : Bool) (p : Plane) {n : Nat} (hn : n < 4) : (qAction w b p).q.getLsbD n =
    (if wT w = 4 + n ∨ wT w = 8 + n then b else if wT w = 12 + n then true else p.q.getLsbD n) := by
  simp only [qAction, Bool.and_eq_true, decide_eq_true_eq]
  split
  · rw [setBit_getLsbD _ _ _ hn]; grind
  · split
    · rw [setBit_getLsbD _ _ _ hn]; grind
    · split
      · exact (setBit_getLsbD _ _ true hn).trans (by grind)
      · grind

/-- The writes of a tag action, action by action. -/
theorem tagWrites_eq (w : BitVec 32) (x y : Token) : tagWrites w x y =
    (if wT w = 1 then [(wD w, x), (wE w, y)] else if wT w = 2 then [(wE w, y)]
     else if wT w = 3 ∨ 8 ≤ wT w ∧ wT w ≤ 11 then [] else [(wD w, x)]) := by
  simp [tagWrites]

/-! ## Planes -/

@[simp] theorem State.plane_setPlane (s : State) (d : PlaneId) (p : Plane) : (s.setPlane d p).plane d = p := by
  simp [State.plane]

theorem State.plane_setPlane_other (s : State) {d r : PlaneId} (p : Plane) (h : r ≠ d) : (s.setPlane d p).plane r = s.plane r := by
  simp [State.plane, tget_tput_other _ _ _ h]

@[simp] theorem State.plane_onPlane (s : State) (d : PlaneId) (f : Plane → Plane) : (s.onPlane d f).plane d = f (s.plane d) :=
  s.plane_setPlane d _

theorem State.plane_onPlane_other (s : State) {d r : PlaneId} (f : Plane → Plane) (h : r ≠ d) :
    (s.onPlane d f).plane r = s.plane r := s.plane_setPlane_other _ h

@[simp] theorem State.plane_post (s : State) (ch : Chan) (e : Ev) (n : Nat) (d : PlaneId) : (s.post ch e n).plane d = s.plane d := rfl

/-! ## Writing a port of an element (R40, R285, R287) -/

/-- A port that is no channel changes the plane alone. -/
theorem State.putPort_inner {s : State} {d : PlaneId} {q : BitVec 5} (h : 8 ≤ q.toNat) (v : Token) :
    (s.putPort d q v).plane d =
      (if q.toNat = 8 then { s.plane d with acc := v.data }
       else if q.toNat = 10 then
        { s.plane d with scr := tput (s.plane d).scr (s.plane d).sp v.data, sp := ((s.plane d).sp + 1) % 64 }
       else if q.toNat = 11 then { s.plane d with sp := v.data.toNat % 64 }
       else if q.toNat = 13 then { s.plane d with q := v.data.setWidth 4 }
       else s.plane d) := by
  simp [State.putPort, show ¬ q.toNat ≤ 7 by omega, bitsN, BitVec.setWidth_eq_extractLsb']

/-- A plane whose output channel holds a token, before the token is sent. -/
def State.slotted (s : State) (d : PlaneId) (ch : Nat) (v : Token) : State :=
  s.onPlane d (fun p => { p with outs := tput p.outs ch v, recorded := p.recorded || s.checkpoint d v })

theorem State.putPort_channel {s : State} {d : PlaneId} {q : BitVec 5} (h : q.toNat ≤ 7) (v : Token) :
    s.putPort d q v = (s.slotted d q.toNat v).sendArc d q.toNat v := by
  simp only [State.putPort, if_pos h, State.pushTok, State.slotted]

@[simp] theorem State.slotted_outs (s : State) (d : PlaneId) (ch : Nat) (v : Token) :
    tfind ((s.slotted d ch v).plane d).outs ch = some v := by
  simp [State.slotted]

@[simp] theorem State.slotted_dst (s : State) (d : PlaneId) (ch : Nat) (v : Token) :
    ((s.slotted d ch v).plane d).dst = (s.plane d).dst := by
  simp [State.slotted]

theorem State.slotted_other (s : State) {d r : PlaneId} (ch : Nat) (v : Token) (h : r ≠ d) :
    (s.slotted d ch v).plane r = s.plane r := s.plane_onPlane_other _ h

/-- A channel that leads nowhere sends nothing. -/
theorem State.sendArc_none {s : State} {d : PlaneId} {ch : Nat} (h : tfind (s.plane d).dst ch = none) (v : Token) :
    s.sendArc d ch v = s := by
  simp [State.sendArc, h]

/-- A token for another tile is put in flight (R293). -/
theorem State.sendArc_far {s : State} {d r : PlaneId} {ch c : Nat} (h : tfind (s.plane d).dst ch = some (.arc r c))
    (ht : r.elem.tile ≠ d.elem.tile) (v : Token) :
    s.sendArc d ch v = s.post (.arc ⟨r, c⟩) (.tokenArrival ⟨r, c⟩ v) 4 := by
  simp [State.sendArc, h, ht]

/-- One for the same tile is a head in the next cycle (R293). -/
theorem State.sendArc_near {s : State} {d r : PlaneId} {ch c : Nat} {v : Token} (h : tfind (s.plane d).dst ch = some (.arc r c))
    (ht : r.elem.tile = d.elem.tile) (hv : v.marker = false) (hi : (s.plane r).isects = []) :
    s.sendArc d ch v = s.setPlane r { s.plane r with latch := tput (s.plane r).latch c ⟨v, s.cycle + 1⟩ } := by
  simp [State.sendArc, h, ht, State.arrive, hv, hi]

/-! ## Rules that do not fire (R291, R292) -/

/-- A rule that does not fire changes nothing. -/
theorem elemInstr_idle {s : State} {i : Instr} (act : State → RuleId → BitVec 32 → BitVec 32 → State) (h : ∀ t, ¬ Fires s i t) :
    elemInstr i act s = .next s := by
  unfold elemInstr
  dsimp only
  split
  · next w t hrule =>
    split
    · next hfire =>
      simp only [Bool.and_eq_true, decide_eq_true_eq] at hfire
      obtain ⟨⟨hword, hchosen⟩, hready⟩ := hfire
      exact absurd ⟨hword ▸ hrule, hchosen, hready⟩ (h t)
    · rfl
  · rfl

/-- Every rule's word acts only as `elemInstr` lets it. -/
theorem exec_idle {s : State} {i : Instr} (hrule : ruleWord i = true) (h : ∀ t, ¬ Fires s i t) : exec i s = .next s := by
  cases i <;> simp only [ruleWord, Bool.false_eq_true] at hrule
  all_goals
    simp only [exec, execNopElement, execStatElement, execMov, execPick, execSteer, execMerge, execMergeu, execGuard, execGen, execRep,
      execDrop, execEos, execCtl, execSync, execVadd, execVsub, execVmul, execVfma, execVmax, execVmin, execVand, execVor, execVxor,
      execVshl, execVshr, execVcmpEq, execVcmpLt, execVabs, execVred, execVdot, execVcvt, execVrcp, execVrsq, execVexp2, execVlog2,
      execVperm, execVbcast, execVscan, execMld, execMst, execMatom, execSld, execSst, execBmexp, execIsect, execXsend, execXrecv,
      laneArith, laneLogic, laneBits, laneFun, memFire, stdFire]
    exact elemInstr_idle _ h

end Sys2Proof.Machine

namespace Sys2Proof
open Machine Safety

/-- Settles O18: the ports as they are read, the tag actions and the ports as they are written, and a rule that does not fire. -/
theorem firingOfARule : Obligations.FiringOfARule := by
  refine ⟨fun p n f q => ⟨fun l h hl => Plane.read_latch h hl, fun h => ?_, fun h => ?_, fun h => ?_, fun h => ?_, fun h => ?_, fun h => ?_,
    fun k h16 h23 hk => ⟨fun hf => ?_, fun i hf hi => ?_⟩, fun q' => rfl⟩,
    ⟨tagWrites_eq, fun w b p n => qAction_bit w b p, fun s d q v => ?_⟩, fun s i hrule hidle => ?_⟩
  iterate 6 simp [Plane.read, h]
  · rw [Plane.read_lit h16 h23 hk, hf]; rfl
  · exact Plane.read_lit_lane h16 h23 hk ((by decide : ∀ f ∈ _, NFmt.bits f ≠ 64) f hf) hi
  · refine ⟨fun h => ?_, fun h => ?_, fun h => ?_, fun h => ?_, fun h => ?_, fun h hdst => ?_, fun h r c hdst ht => ?_,
      fun h r c hdst ht hr hv hi => ?_⟩
    iterate 5 (rw [State.putPort_inner (by omega)]; simp [h])
    · rw [State.putPort_channel h, State.sendArc_none (by simpa using hdst), State.slotted_outs]
    · rw [State.putPort_channel h, State.sendArc_far (by simpa using hdst) ht, State.plane_post]
      exact ⟨State.slotted_outs _ _ _ _, rfl⟩
    · rw [State.putPort_channel h, State.sendArc_near (by simpa using hdst) ht hv (by rwa [State.slotted_other _ _ _ hr]),
        State.plane_setPlane_other _ _ (Ne.symm hr), State.plane_setPlane]
      exact ⟨State.slotted_outs _ _ _ _, tfind_tput_same _ _ _⟩
  · exact exec_idle hrule hidle

end Sys2Proof
end

section
/-! PROOF of O58. What each turn of a step does (R37, R44, R120, R529): the turn's own work, and then what every step ends with. -/

namespace Sys2Proof.Machine

open Sys2Proof

/-! ## Time -/

@[simp] theorem State.retireYields_cycle (s : State) : s.retireYields.cycle = s.cycle :=
  foldl_keeps State.cycle (f := fun u (e : ThreadId × Ctx) => u.yielded e.1) (fun _ _ => rfl) _ s

@[simp] theorem State.retireYields_mem (s : State) : s.retireYields.mem = s.mem :=
  foldl_keeps State.mem (f := fun u (e : ThreadId × Ctx) => u.yielded e.1) (fun _ _ => rfl) _ s

@[simp] theorem State.advance_cycle (s : State) (n : Nat) : (s.advance n).cycle = s.cycle + n := by
  simp only [State.advance, State.retireYields_cycle]
  split <;> rfl

@[simp] theorem State.advance_mem (s : State) (n : Nat) : (s.advance n).mem = s.mem := by
  simp only [State.advance, State.retireYields_mem]
  split <;> rfl

/-- Where no firing of a cycle waits, time passes and nothing else (R529). -/
theorem State.pass_idle {s : State} (h : ∀ e ∈ s.tiles, e.2.chosen = []) (n : Nat) :
    (s.pass n).cycle = s.cycle + n ∧ (s.pass n).mem = s.mem := by
  have hrest : s.tiles.foldl (fun s e => s.fireRest e.1 e.2.chosen.length) s = s :=
    List.foldlRecOn (motive := fun u => u = s) s.tiles _ rfl (fun u hu e he => by rw [h e he, hu]; rfl)
  unfold State.pass
  split
  · next h0 => subst h0; exact ⟨rfl, rfl⟩
  · rw [hrest]; exact ⟨s.advance_cycle n, s.advance_mem n⟩

/-! ## The turns -/

/-- A step of a plan takes its first turn; then a lockkeeper may go on, and the detectors note. -/
theorem step_of_turn {s v x : State} {k : Turn} {r : List Turn} (hplan : s.plan = k :: r) (hlive : s.stopped = false)
    (hv : v = { s with plan := r }) (hturn : v.takeTurn k = .next x) :
    step s = .next (x.relock.observe (if v.acted k x then v.turnSid k else none)) := by
  have hnext : s.nextTurn = (k, v) := by rw [State.nextTurn, hplan, hv]
  have hv' : v.stopped = false := by rw [hv]; exact hlive
  simp [step, hnext, State.run, hv', hturn]

/-- A core's turn is the fetch and the instruction of the thread that may issue. -/
theorem State.issueTurn_runs {v : State} {c : CoreId} {t : ThreadId} (hfree : (v.core c).lastIssue ≠ some v.cycle)
    (hissuer : v.issuer c = some t) : v.issueTurn c = v.runThread t := by
  simp [State.issueTurn, hfree, hissuer]

section
variable {v : State} {t : ThreadId} {w : BitVec 32}
  (hw : (v.issued t).codeWord ((v.issued t).ctx t).sid ((v.issued t).ctx t).pc = some w)
include hw

/-- The thread whose word is fetched runs what the word decodes to. -/
theorem State.runThread_ok {i : Instr} (hdec : decodeThread w = .ok i) : v.runThread t = exec i (v.issued t) := by
  simp [State.runThread, hw, hdec]

/-- A word that the decoder refuses ends the thread with the cause of the check that refuses it (R44). -/
theorem State.runThread_illegalOp (hdec : decodeThread w = .error .illegalOp) :
    v.runThread t = exec .illegalOp { v.issued t with arg := .illegalOp w } := by
  simp [State.runThread, hw, hdec]

theorem State.runThread_illegalPort (hdec : decodeThread w = .error .illegalPort) :
    v.runThread t = .next ((v.issued t).stop t ⟨.illegalPort, none⟩ w) := by
  simp [State.runThread, hw, hdec]

theorem State.runThread_illegalForm (hdec : decodeThread w = .error .illegalForm) :
    v.runThread t = .next ((v.issued t).stop t ⟨.illegalForm, none⟩ w) := by
  simp [State.runThread, hw, hdec]

end

/-- A tile's turn in a cycle whose rules are chosen runs the next one's word. -/
theorem State.fireTurn_fires {v : State} {t : TileId} {q : RuleId} {l : List RuleId} {w z : BitVec 32} {i : Instr}
    (hchosen : (v.tile t).chosen = q :: l) (hrule : v.rule q = some (w, z)) (hready : v.ready q = true) (hdec : decodeElement w = .ok i) :
    v.fireTurn t = exec i { v with curR := q } := by
  simp [State.fireTurn, State.fireNext, hchosen, hrule, hready, hdec]

/-- A message is taken out of what is in flight, and its step runs when it is due. -/
theorem State.takeAt_untied {v : State} {n : Nat} {p : Pend} (hp : v.pending[n]? = some p) (ht : v.netTie p = none) :
    v.takeAt n = exec p.ev.row { ({ v with pending := v.pending.eraseIdx n } : State).pass (p.due - v.cycle) with arg := p.ev } := by
  simp [State.takeAt, hp, ht]

/-- One of another node is performed in the cycle its home has for it (R416). -/
theorem State.takeAt_tied {v : State} {n : Nat} {p : Pend} {y : NetTie} (hp : v.pending[n]? = some p) (ht : v.netTie p = some y) :
    v.takeAt n = exec p.ev.row { ({ v with pending := v.pending.eraseIdx n } : State).pass (y.at_ - v.cycle) with
      arg := p.ev, ties := v.ties.filter (fun z => z.at_ = y.at_) ++ [y] } := by
  simp [State.takeAt, hp, ht]

end Sys2Proof.Machine

namespace Sys2Proof
open Machine

/-- Settles O58, turn by turn. -/
theorem aStepRunsTheDecodedInstruction : Obligations.AStepRunsTheDecodedInstruction := by
  intro s k r v hplan hlive hv
  have hstep {x : State} (h : v.takeTurn k = .next x) := step_of_turn hplan hlive hv h
  refine ⟨fun c t u w hk hfree hissuer hu hw => ?_, fun t q l w z i x hk hchosen hrule hready hdec hx => ?_,
    fun j n p w x hk hopen hp hw => ?_, fun e x hk hmay hx hne hne' => ?_, fun n hk => ⟨?_, fun hidle => ?_⟩, fun u hk => ?_, ?_, ?_⟩
  · subst hk hu
    have hsid : v.turnSid (.issue c) = some (v.ctx t).sid := by simp [State.turnSid, hissuer]
    have hrun : v.takeTurn (.issue c) = v.runThread t := State.issueTurn_runs hfree hissuer
    rw [← hsid]
    exact ⟨fun i x hdec hx => hstep (hrun.trans ((State.runThread_ok hw hdec).trans hx)),
      fun hdec => hstep (hrun.trans (State.runThread_illegalPort hw hdec)),
      fun hdec => hstep (hrun.trans (State.runThread_illegalForm hw hdec)),
      fun x hdec hx => hstep (hrun.trans ((State.runThread_illegalOp hw hdec).trans hx))⟩
  · subst hk
    have hsid : v.turnSid (.fire t) = v.tileSid t := by simp [State.turnSid, hchosen]
    rw [← hsid]
    exact hstep ((State.fireTurn_fires hchosen hrule hready hdec).trans hx)
  · subst hk hw
    have hsid : v.turnSid (.deliver j) = v.evSid p.ev := by simp [State.turnSid, hopen, hp]
    have htake : v.takeTurn (.deliver j) = v.takeAt n := by simp [State.takeTurn, hopen]
    rw [← hsid]
    exact ⟨fun ht hx => hstep (htake.trans ((State.takeAt_untied hp ht).trans hx)),
      fun y ht hx => hstep (htake.trans ((State.takeAt_tied hp ht).trans hx))⟩
  · subst hk
    have hact : v.acted (.act e) x = true := by simp [State.acted, hne, hne']
    have hturn : v.takeTurn (.act e) = .next x := by simp [State.takeTurn, State.actTurn, hmay, hx]
    rw [hstep hturn, hact]; rfl
  · subst hk; exact hstep rfl
  · subst hv; exact State.pass_idle hidle n
  · subst hk; exact hstep rfl
  · subst hv; rfl
  · subst hv; rfl

end Sys2Proof
end

section
/-! PROOF of O22. Clamping to a range (R69, R89), and rounding of values that a format has (R70 to R72, R80). -/

namespace Sys2Proof.Machine

open Sys2Proof

/-! ## Integers -/

theorem IFmt.code_lt (k : IFmt) (x : Int) : k.code x < 2 ^ k.width := by
  have hpos : 0 < 2 ^ k.width := Nat.two_pow_pos _
  simp only [IFmt.code]; omega

/-- A code is its number modulo the size of the format: the number itself, or one size more where it is negative. -/
theorem IFmt.code_cast {k : IFmt} {x : Int} (hlo : -(2 ^ k.width : Nat) ≤ x) (hhi : x < (2 ^ k.width : Nat)) :
    (k.code x : Int) = if x < 0 then x + (2 ^ k.width : Nat) else x := by
  have hsize : 0 < 2 ^ k.width := Nat.two_pow_pos _
  rw [IFmt.code, Int.toNat_of_nonneg (Int.emod_nonneg _ (by omega))]
  split
  · rw [← Int.add_emod_right, Int.emod_eq_of_lt (by omega) (by omega)]
  · exact Int.emod_eq_of_lt (by omega) hhi

/-- The codes of the range read back (R69). -/
theorem IFmt.decode_code {k : IFmt} (hw : 0 < k.width) {x : Int} (hlo : k.lo ≤ x) (hhi : x ≤ k.hi) : k.decode (k.code x) = x := by
  have hhalf : 2 ^ k.width = 2 * 2 ^ (k.width - 1) := by rw [← Nat.pow_succ', Nat.succ_eq_add_one, Nat.sub_add_cancel hw]
  simp only [IFmt.lo, IFmt.hi] at hlo hhi
  have hcode := IFmt.code_cast (k := k) (x := x) (by split at hlo <;> omega) (by split at hhi <;> omega)
  rw [IFmt.decode, Nat.mod_eq_of_lt (k.code_lt x)]
  cases hs : k.signed <;> simp only [hs, if_true, if_false, Bool.false_eq_true, Bool.true_and, Bool.false_and, decide_eq_true_eq] at hlo hhi ⊢
  · rw [hcode, if_neg (by omega)]
  · split at hcode <;> split <;> omega

theorem IFmt.lo_le_hi (k : IFmt) : k.lo ≤ k.hi := by
  have hpos : 0 < 2 ^ k.width ∧ 0 < 2 ^ (k.width - 1) := ⟨Nat.two_pow_pos _, Nat.two_pow_pos _⟩
  simp only [IFmt.lo, IFmt.hi]; split <;> omega

/-- A clamp gives the code of the number of the range that is next to the exact one. -/
theorem IFmt.clamp_eq (k : IFmt) (x : Int) :
    k.clamp x = (k.code (max k.lo (min k.hi x)), if k.lo ≤ x ∧ x ≤ k.hi then 0 else flagOf) := by
  have := k.lo_le_hi
  unfold IFmt.clamp
  split
  · rw [if_neg (by omega), Int.max_eq_left (by omega)]
  · split
    · rw [if_neg (by omega), Int.min_eq_left (by omega), Int.max_eq_right this]
    · rw [if_pos (by omega), Int.min_eq_right (by omega), Int.max_eq_right (by omega)]

/-! ## Floats -/

/-- The finite value of a magnitude, the code without its sign bit (R70): below 2^mw a subnormal one. -/
def FFmt.finite (f : FFmt) (neg : Bool) (mag : Nat) : Val :=
  if mag < 2 ^ f.mw then .fin neg mag (1 - (f.bias : Int) - f.mw)
  else .fin neg (2 ^ f.mw + mag % 2 ^ f.mw) (((mag / 2 ^ f.mw : Nat) : Int) - f.bias - f.mw)

/-- A code is its sign bit and its magnitude. -/
theorem FFmt.signed_of_code {f : FFmt} {c : Nat} (h : c < 2 ^ f.bits) :
    f.signed (c / 2 ^ (f.ew + f.mw) % 2 = 1) (c % 2 ^ (f.ew + f.mw)) = c := by
  have hb : 2 ^ f.bits = 2 * 2 ^ (f.ew + f.mw) := by rw [FFmt.bits, Nat.add_assoc, Nat.pow_add, Nat.pow_one]
  have hq : c / 2 ^ (f.ew + f.mw) < 2 := Nat.div_lt_of_lt_mul (by omega)
  have hd := Nat.div_add_mod c (2 ^ (f.ew + f.mw))
  simp only [FFmt.signed, decide_eq_true_eq]
  obtain h | h := Nat.le_one_iff_eq_zero_or_eq_one.mp (Nat.le_of_lt_succ hq)
  all_goals
    rw [h] at hd ⊢
    simpa using hd

/-- What a code stands for (R70): a NaN, an infinity, or a finite value whose magnitude the format has. -/
theorem FFmt.decode_cases (f : FFmt) (c : Nat) :
    let neg : Bool := c / 2 ^ (f.ew + f.mw) % 2 = 1
    let mag := c % 2 ^ (f.ew + f.mw)
    f.decode c = .nan ∨ (f.decode c = .inf neg ∧ f.special = .ieee ∧ mag = f.inf) ∨ (f.decode c = f.finite neg mag ∧ mag ≤ f.maxCode) := by
  intro neg mag
  have hmag : mag < 2 ^ f.ew * 2 ^ f.mw := by rw [← Nat.pow_add]; exact Nat.mod_lt _ (Nat.two_pow_pos _)
  have hm : 0 < 2 ^ f.mw := Nat.two_pow_pos _
  have hsub : mag / 2 ^ f.mw = 0 ↔ mag < 2 ^ f.mw := by rw [Nat.div_eq_zero_iff]; omega
  have hex : mag / 2 ^ f.mw < 2 ^ f.ew := Nat.div_lt_of_lt_mul (by rwa [Nat.mul_comm])
  have hsum := Nat.div_add_mod mag (2 ^ f.mw)
  have hfin : (if mag / 2 ^ f.mw = 0 then Val.fin neg (mag % 2 ^ f.mw) (1 - (f.bias : Int) - f.mw)
      else .fin neg (2 ^ f.mw + mag % 2 ^ f.mw) (((mag / 2 ^ f.mw : Nat) : Int) - f.bias - f.mw)) = f.finite neg mag := by
    simp only [FFmt.finite, hsub]
    split
    · rw [Nat.mod_eq_of_lt ‹_›]
    · rfl
  have hdec : f.decode c = match f.special with
      | .ieee => if mag / 2 ^ f.mw = 2 ^ f.ew - 1 then (if mag % 2 ^ f.mw = 0 then .inf neg else .nan) else f.finite neg mag
      | .nanOnly => if mag = 2 ^ (f.ew + f.mw) - 1 then .nan else f.finite neg mag
      | .none => f.finite neg mag := by
    rw [← hfin]; rfl
  rw [hdec]
  cases hs : f.special with
  | ieee =>
    by_cases htop : mag / 2 ^ f.mw = 2 ^ f.ew - 1
    · by_cases hman : mag % 2 ^ f.mw = 0
      · refine .inr (.inl ⟨by simp [htop, hman], rfl, ?_⟩)
        rw [htop, hman, Nat.mul_comm] at hsum
        exact hsum.symm
      · exact .inl (by simp [htop, hman])
    · refine .inr (.inr ⟨by simp [htop], ?_⟩)
      have : mag < f.inf := (Nat.div_lt_iff_lt_mul hm).mp (by omega)
      simp only [FFmt.maxCode, hs]; omega
  | nanOnly =>
    by_cases hnan : mag = 2 ^ (f.ew + f.mw) - 1
    · exact .inl (by simp [hnan])
    · refine .inr (.inr ⟨by simp [hnan], ?_⟩)
      simp only [FFmt.maxCode, hs, Nat.pow_add] at hnan ⊢; omega
  | none => exact .inr (.inr ⟨rfl, by simp only [FFmt.maxCode, hs, Nat.pow_add]; omega⟩)

/-- A number of units is exact in that unit, whatever the mode. -/
theorem quantize_self (md : Mode) (neg : Bool) (m : Nat) (e : Int) (r : Nat) : quantize md neg m e e false r = (m, false) := by
  cases md <;> simp [quantize]

/-- A magnitude that is a whole number of its format's units is rounded to the code of that number, without a flag (R72, R80). -/
theorem FFmt.round_exact {f : FFmt} {m : Nat} {e : Int} (hm : m ≠ 0) (he : max (e + (Nat.log2 m : Int)) (1 - (f.bias : Int)) - f.mw = e)
    {code : Nat} (hcode : (if m < 2 ^ f.mw then m else ((e + f.mw + f.bias : Int).toNat - 1) * 2 ^ f.mw + m) = code)
    (hmax : code ≤ f.maxCode) (md : Mode) (sat neg : Bool) (r : Nat) : f.round md sat neg m e false r = (f.signed neg code, 0) := by
  simp [FFmt.round, hm, he, quantize_self, hcode, Nat.not_lt.mpr hmax]

/-- A finite value that a format has is rounded to its own code, without a flag (R72). -/
theorem FFmt.ofVal_finite {f : FFmt} {mag : Nat} (hmax : mag ≤ f.maxCode) (md : Mode) (sat neg : Bool) (r : Nat) :
    f.ofVal md sat (f.finite neg mag) r = (f.signed neg mag, 0) := by
  have hm : 0 < 2 ^ f.mw := Nat.two_pow_pos _
  unfold FFmt.finite
  split
  case isTrue hsub =>
    by_cases h0 : mag = 0
    · simp [FFmt.ofVal, FFmt.round, h0]
    · refine FFmt.round_exact h0 ?_ (by simp [hsub]) hmax md sat neg r
      have : Nat.log2 mag < f.mw := (Nat.log2_lt h0).mpr hsub
      omega
  case isFalse hnorm =>
    have hman : mag % 2 ^ f.mw < 2 ^ f.mw := Nat.mod_lt _ hm
    have hex : 0 < mag / 2 ^ f.mw := Nat.div_pos (by omega) hm
    have hlog : Nat.log2 (2 ^ f.mw + mag % 2 ^ f.mw) = f.mw := by
      rw [Nat.log2_eq_iff (by omega), Nat.pow_succ]; omega
    refine FFmt.round_exact (by omega) (by rw [hlog]; omega) ?_ hmax md sat neg r
    have hexp : (((mag / 2 ^ f.mw : Nat) : Int) - f.bias - f.mw + f.mw + f.bias).toNat = mag / 2 ^ f.mw := by omega
    rw [if_neg (by omega), hexp, ← Nat.add_assoc, ← Nat.succ_mul, Nat.succ_eq_add_one, Nat.sub_add_cancel hex]
    exact Nat.div_add_mod' mag _

/-- Rounding the value of a code gives the code back, without a flag (R70 to R72). -/
theorem FFmt.ofVal_decode {f : FFmt} {c : Nat} (hc : c < 2 ^ f.bits) (hnan : f.decode c ≠ .nan) (md : Mode) (r : Nat) :
    f.ofVal md false (f.decode c) r = (c, 0) := by
  obtain h | ⟨h, hs, hmag⟩ | ⟨h, hmax⟩ := f.decode_cases c
  · exact absurd h hnan
  · rw [h]
    simp only [FFmt.ofVal, hs, decide_true, Bool.not_false, Bool.and_self, if_true, ← hmag, FFmt.signed_of_code hc]
  · rw [h, FFmt.ofVal_finite hmax, FFmt.signed_of_code hc]

end Sys2Proof.Machine

namespace Sys2Proof
open Machine

/-- Settles O22: a clamp is the code of the nearest number of the range, and a code's value lies on the grid it is rounded to. -/
theorem roundingAndClamping : Obligations.RoundingAndClamping := by
  constructor
  · intro k x hk
    have hw : 0 < k.width := by
      simp only [List.mem_cons, List.not_mem_nil, or_false] at hk
      rcases hk with rfl | rfl | rfl | rfl | rfl <;> decide
    have hrange := k.lo_le_hi
    rw [IFmt.clamp_eq]
    exact ⟨IFmt.decode_code hw (by omega) (by omega), k.code_lt _, rfl, by simp [IFmt.lo], by simp [IFmt.hi]⟩
  · intro f md r c hf _ hc
    have hformat : ∀ f ∈ [fp32, bf16, fp16, e4m3, e5m2], f.special ≠ .none ∧ f.decode f.nan = .nan := by decide
    obtain ⟨hs, hnan⟩ := hformat f hf
    exact ⟨fun h => FFmt.ofVal_decode hc h md r, fun h => by rw [h]; simp [FFmt.ofVal, hs], hnan⟩

end Sys2Proof
end

section
/-! PROOF of O7. The system words of a thread (R86, R87, R122 to R124, R152 to R158, R181, R200, R437, R438). -/

namespace Sys2Proof.Machine

open Sys2Proof Sys2Proof.Safety

/-! ## CSRs -/

theorem csrr_run {s : State} {k : BitVec 10} {d : BitVec 5} {g : BitVec 4} (h : Runs s (.csrr k d g) g) :
    exec (.csrr k d g) s = .next (s.setCtx s.curT ((begun s).wr d (csrValue s s.curT (begun s) k.toNat))) := by
  show execCsrr k d g s = _
  exact scalarInstr_run h rfl

/-- The reach's own write of a core CSR is the last one in its buffer (R157), however the writes are told from other effects. -/
theorem Ctx.ownCsr_eq_foldl (c : Ctx) {k : Nat} {f : Option Word → Buffered → Option Word}
    (hwrite : ∀ acc b n w, b.eff = .csrw n w → f acc b = if k = n then some w else acc)
    (hother : ∀ acc b, (∀ n w, b.eff ≠ .csrw n w) → f acc b = acc) : c.ownCsr k = c.buf.foldl f none := by
  unfold Ctx.ownCsr
  congr 1
  funext acc b
  split
  case h_1 n w he => rw [hwrite acc b n w he]; simp only [eq_comm]
  case h_2 he => rw [hother acc b he]

/-- A value out of the CSR's range is written nowhere (R158). -/
theorem csrw_out_of_range {s : State} {a : BitVec 5} {k : BitVec 10} {g : BitVec 4} {v : Word} (ha : Reads s a v)
    (h : Runs s (.csrw a k g) g) (hv : csrRange k.toNat v = false) :
    exec (.csrw a k g) s = .next (s.stop s.curT ⟨.illegalForm, none⟩ (encode (.csrw a k g))) := by
  show execCsrw a k g s = _
  rw [execCsrw, threadInstr_run h]
  simp [reads_acting ha, bind, Except.bind, hv]

theorem csrw_reachlim {s : State} {a : BitVec 5} {g : BitVec 4} {v : Word} (ha : Reads s a v) (h : Runs s (.csrw a 0x011 g) g)
    (hv : csrRange 0x011 v = true) : exec (.csrw a 0x011 g) s = .next (s.setCtx s.curT { begun s with reachlim := v.toNat }) := by
  show execCsrw a 0x011 g s = _
  rw [execCsrw, threadInstr_run h]
  simp [reads_acting ha, bind, Except.bind, hv]

theorem csrw_fstat {s : State} {a : BitVec 5} {g : BitVec 4} {v : Word} (ha : Reads s a v) (h : Runs s (.csrw a 0x020 g) g)
    (hv : csrRange 0x020 v = true) :
    exec (.csrw a 0x020 g) s = .next (s.setCtx s.curT { begun s with fstat := v.setWidth 7, flags := 0 }) := by
  show execCsrw a 0x020 g s = _
  rw [execCsrw, threadInstr_run h]
  simp [reads_acting ha, bind, Except.bind, hv, BitVec.setWidth_eq_extractLsb']

/-- NRETRY and RTIMEOUT are written as an effect of the reach (R158). -/
theorem csrw_buffered {s : State} {a : BitVec 5} {k : BitVec 10} {g : BitVec 4} {v : Word} (ha : Reads s a v)
    (h : Runs s (.csrw a k g) g) (hk : k = 0x050 ∨ k = 0x051) (hv : csrRange k.toNat v = true) (hroom : (cur s).room = .ok ()) :
    exec (.csrw a k g) s =
      .next (s.setCtx s.curT { begun s with buf := (begun s).buf ++ [⟨.csrw k.toNat v, []⟩] }) := by
  have hroom' : (s.acting.ctx s.curT).room = .ok () := by rw [acting_ctx]; exact hroom
  show execCsrw a k g s = _
  rw [execCsrw, threadInstr_run h]
  have hlim : k.toNat ≠ 0x011 := by rcases hk with rfl | rfl <;> decide
  have hflags : k.toNat ≠ 0x020 := by rcases hk with rfl | rfl <;> decide
  simp [reads_acting ha, bind, Except.bind, hv, hlim, hflags, addEff_plain hroom']

/-- A write is done where the value is in the CSR's range, and ends the thread where it is not (R158). -/
theorem csrw_checked {s u : State} {a : BitVec 5} {k : BitVec 10} {g : BitVec 4} {v : Word} (ha : Reads s a v)
    (h : Runs s (.csrw a k g) g) {range : Prop} [Decidable range] (hrange : csrRange k.toNat v = decide range)
    (hin : csrRange k.toNat v = true → exec (.csrw a k g) s = .next u) :
    exec (.csrw a k g) s = .next (if range then u else s.stop s.curT ⟨.illegalForm, none⟩ (encode (.csrw a k g))) := by
  split
  case isTrue hv => exact hin (by simp [hrange, hv])
  case isFalse hv => exact csrw_out_of_range ha h (by simp [hrange, hv])

/-! ## Flags and identity -/

theorem clk_run {s : State} {d : BitVec 5} {g : BitVec 4} (h : Runs s (.clk d g) g) :
    exec (.clk d g) s = .next (s.setCtx s.curT ((begun s).wr d (BitVec.ofNat 64 (s.cycle - s.readyAt.getD 0)))) := by
  show execClk d g s = _
  exact scalarInstr_run h rfl

theorem yield_run {s : State} {g : BitVec 4} (h : Runs s (.yield g) g) :
    exec (.yield g) s = .next (s.setCtx s.curT { begun s with yields := true }) := by
  show execYield g s = _
  exact scalarInstr_run h rfl

theorem stat_run {s : State} {k : BitVec 10} {d : BitVec 5} {g : BitVec 4} (h : Runs s (.stat k d g) g) :
    exec (.stat k d g) s = .next (s.setCtx s.curT
      (let c := (begun s).wr d (((begun s).fstat ||| (begun s).flags).setWidth 64)
       if k = 1 then { c with fstat := 0, flags := 0 } else c)) := by
  show execStat k d g s = _
  exact scalarInstr_run h (by simp)

theorem id_run {s : State} {d n : BitVec 5} {g : BitVec 4} (h : Runs s (.id d n g) g) :
    exec (.id d n g) s = .next (s.setCtx s.curT ((begun s).wr d (identItem s s.curT (begun s).back n.toNat))) := by
  show execId d n g s = _
  exact scalarInstr_run h rfl

end Sys2Proof.Machine

namespace Sys2Proof
open Machine Safety

/-- Settles O7, word by word. -/
theorem systemWords : Obligations.SystemWords := by
  refine ⟨fun s k d g h => ?_, fun s a k g v ha h => ?_, fun s k d n g => ⟨fun h => ?_, fun h r hr => ?_, fun h => ?_, fun h => ?_, fun t => ?_⟩⟩
  · intro c x own
    have hown (v : Word) (y : Nat) (hy : k.toNat = y) : (c.ownCsr y).getD v = own v := by
      refine congrArg (Option.getD · v) (c.ownCsr_eq_foldl (fun acc b n w hb => by simp [hb, hy]) fun acc b hb => ?_)
      split
      · exact absurd ‹_› (hb _ _)
      · rfl
    refine ⟨_, csrr_run h, ?_, ?_, ?_, ?caps, ?_, ?_, ?_, ?_, ?_, ?nretry, ?rtimeout, ?dom⟩
    case nretry => rintro rfl; exact hown _ _ rfl
    case rtimeout => rintro rfl; exact hown _ _ rfl
    case dom => rintro rfl hc; simp [csrValue, hc, c]
    case caps => rintro rfl; show BitVec.ofNat 64 s.part.caps = _; cases s.part <;> rfl
    all_goals rintro rfl; rfl
  · refine ⟨?_, ?_, fun hroom => ⟨?_, ?_⟩⟩
    all_goals rintro rfl
    · exact csrw_checked ha h (by simp [csrRange]) (csrw_reachlim ha h)
    · exact csrw_checked ha h (by simp [csrRange]) (csrw_fstat ha h)
    · exact csrw_checked ha h (by simp [csrRange]) (fun hv => csrw_buffered ha h (.inl rfl) hv hroom)
    · exact csrw_checked ha h (by simp [csrRange]) (fun hv => csrw_buffered ha h (.inr rfl) hv hroom)
  · exact ⟨fun hk => by rw [stat_run h, hk]; rfl, fun hk => by rw [stat_run h, hk]; rfl⟩
  · rw [clk_run h, hr]; rfl
  · rw [id_run h]
    refine ⟨?_, ?_, ?_, ?_, ?_⟩ <;> (rintro rfl; rfl)
  · exact yield_run h
  · rw [State.yielded, State.ctx_setCtx]

end Sys2Proof
end

section
/-! SUPPORT. What sending leaves alone: the router, and the send units of the lockkeepers, change their own tables and the jobs' counts of
packets, and nothing else of the state. -/

namespace Sys2Proof.Machine

open Sys2Proof

/-- The state without what the router and the lockkeepers' send units write: links, queues, flows, frames, messages in flight, drawn values,
copies of sent barges, and the jobs, whose packets are counted. -/
def State.besideSends (s : State) : State :=
  { s with links := [], netOut := [], frames := [], flows := [], meshq := [], free := 0, jobs := [], lockSends := [], lockNext := 0, pending := [] }

/-- Two states that agree beside what is sent have the same contexts. -/
theorem State.ctx_of_besideSends {s u : State} (h : u.besideSends = s.besideSends) (t : ThreadId) : u.ctx t = s.ctx t := by
  have hctxs : u.besideSends.ctxs = s.besideSends.ctxs := by rw [h]
  exact congrArg (fun l => tget l {} t) hctxs

/-! ## Links and the router -/

theorem State.linkTake_besideSends (s : State) (n : Nat) (o : LinkOut) : (s.linkTake n o).1.besideSends = s.besideSends := by
  simp only [State.linkTake]; split <;> rfl

theorem State.linkPump_besideSends (s : State) (n : Nat) : (s.linkPump n).besideSends = s.besideSends := by
  have queue (l : List LinkOut) (a : State × List LinkOut) : (l.foldl (fun (b : State × List LinkOut) o =>
      if b.2 ≠ [] then (b.1, b.2 ++ [o]) else b.1.linkTake n o) a).1.besideSends = a.1.besideSends :=
    foldl_keeps (fun b => b.1.besideSends) (fun b o => by split <;> simp [State.linkTake_besideSends]) l a
  simp only [State.linkPump]
  split
  · rfl
  · refine (queue _ _).trans ?_
    split
    · split
      · exact State.linkTake_besideSends _ _ _
      · rfl
    · rfl

theorem State.linkGive_besideSends (s : State) (n : Nat) (m : LinkMsg) (k : Nat) : (s.linkGive n m k).besideSends = s.besideSends := by
  simp only [State.linkGive]
  split
  · rfl
  · exact State.linkPump_besideSends _ _

theorem State.emit_besideSends {s t : State} {n : Nat} {m : LinkMsg} {k : Nat} (h : s.emit n m k = some t) : t.besideSends = s.besideSends := by
  simp only [State.emit] at h
  split at h
  · cases h; exact State.linkGive_besideSends s n m k
  · cases h

theorem State.countFrames_besideSends (s : State) (sid n : Nat) (l : List Frame) : (s.countFrames sid n l).besideSends = s.besideSends := by
  simp only [State.countFrames]; split <;> rfl

theorem State.sendPkt_besideSends {s t : State} {p : NetPkt} {via : Option Nat} (h : s.sendPkt p via = some t) : t.besideSends = s.besideSends := by
  simp only [State.sendPkt] at h
  split at h
  · cases h
  · obtain ⟨u, hu, rfl⟩ := Option.map_eq_some_iff.1 h
    refine Eq.trans ?_ (State.emit_besideSends hu)
    split
    · exact State.countFrames_besideSends _ _ _ _
    · exact State.countFrames_besideSends _ _ _ _

theorem State.pumpFlow_besideSends (s : State) (k : Nat × Nat × Nat) : (s.pumpFlow k).besideSends = s.besideSends := by
  refine foldl_keeps (fun a : State × List KeptPkt × Bool => a.1.besideSends) (fun a x => ?_) _ (s, [], false)
  split
  · rfl
  · split
    · next h => exact State.sendPkt_besideSends h
    · rfl

theorem State.pumpWait_besideSends (s : State) (w : NetWait) : (s.pumpWait w).besideSends = s.besideSends := by
  simp only [State.pumpWait]
  split
  · rfl
  · split
    · split
      · rfl
      · exact State.pumpFlow_besideSends _ _
    · cases h : s.sendPkt w.pkt w.via with
      | none => rfl
      | some t => exact State.sendPkt_besideSends h

theorem State.toNet_besideSends (s : State) (dst : Nat) (sid : Option Nat) (b : NetBody) : (s.toNet dst sid b).besideSends = s.besideSends := by
  have counted : (s.countNet sid true).besideSends = s.besideSends := by
    simp only [State.countNet]
    split
    · split <;> rfl
    · rfl
  rw [State.toNet, State.pumpWait_besideSends]
  split
  · exact counted
  · rfl

/-! ## Barges and faults of a lockkeeper -/

theorem State.pumpSends_lock_besideSends (s : State) (die : Nat) : (s.pumpSends (.lock die)).besideSends = s.besideSends := by
  refine foldl_keeps (fun a : State × List SendRec => a.1.besideSends) (fun a r => ?_) _ (s, [])
  dsimp only
  split
  · rfl
  · exact State.toNet_besideSends _ _ _ _

theorem State.sendLock_besideSends (s : State) (die : Nat) (dst : CoreId) (b : Barge) : (s.sendLock die dst b).besideSends = s.besideSends := by
  simp only [State.sendLock, State.dispatchItem]
  split
  · split
    · exact State.pumpSends_lock_besideSends _ _
    · rfl
  · rfl

theorem State.deliverFault_besideSends (s : State) (o : Origin) (h0 h1 h2 h4 : Word) (duty : Option Suspended) :
    (s.deliverFault o h0 h1 h2 h4 duty).besideSends = s.besideSends := by
  unfold State.deliverFault
  extract_lets
  split
  · rfl
  · exact State.sendLock_besideSends _ _ _ _

/-- A thread that a fault ends is FREE (R204). -/
theorem State.endThread_status (s : State) (t : ThreadId) (c : Cause) (addr : Word) (w : BitVec 32) :
    ((s.endThread t c addr w).ctx t).status = .free := by
  rw [State.endThread, State.ctx_of_besideSends (State.deliverFault_besideSends _ _ _ _ _ _ _)]
  simp [State.freeCtx]

theorem State.stop_status (s : State) (t : ThreadId) (e : Stop) (w : BitVec 32) : ((s.stop t e w).ctx t).status = .free := by
  simp only [State.stop]
  split <;> exact State.endThread_status _ _ _ _ _

end Sys2Proof.Machine
end

section
/-! PROOF of O9. Leaving a reach (R87, R183, R189, R193, R196, R199, R203), and waiting for its effects (R245, R246). -/

namespace Sys2Proof.Machine

open Sys2Proof Sys2Proof.Safety

/-! ## The commit (R193) -/

@[simp] theorem State.newEpoch_ctx (s : State) (t : ThreadId) : (s.newEpoch t).ctx t = { s.ctx t with epoch := s.nextSerial } :=
  State.ctx_setCtx s t _

@[simp] theorem State.newEpoch_mem (s : State) (t : ThreadId) : (s.newEpoch t).mem = s.mem := rfl

@[simp] theorem State.commitLocal_ctxs (s : State) (t : ThreadId) (e : Eff) : (s.commitLocal t e).ctxs = s.ctxs := by
  simp only [State.commitLocal]; split <;> rfl

@[simp] theorem State.commitLocal_mem (s : State) (t : ThreadId) (e : Eff) : (s.commitLocal t e).mem = s.mem := by
  simp only [State.commitLocal]; split <;> rfl

/-- What becomes permanent at the core leaves what it has released, and its numbering, as it is. -/
theorem State.commitLocal_released (s : State) (t : ThreadId) (e : Eff) :
    (((s.commitLocal t e).core t.core).relq, ((s.commitLocal t e).core t.core).nextEff) = ((s.core t.core).relq, (s.core t.core).nextEff) := by
  simp only [State.commitLocal]
  split
  case h_3 => simp only [State.core_setCore, Core.csrw]; split <;> rfl
  all_goals simp [State.core]

/-- The effects a commit gives to the release queue, numbered in program order (R193). -/
def State.releases (s : State) (t : ThreadId) (g : BitVec 4) : List Released :=
  let c := s.ctx t
  (c.buf.filter (fun b => !b.eff.local_)).zipIdx.map (fun b =>
    Released.mk ((s.core t.core).nextEff + b.2) t.slot c.serial g c.sid (s.originOf t) b.1)

/-- A context whose reach has committed: its flags have joined FSTAT, and its effects leave the buffer (R87, R193). -/
def Ctx.leaving (c : Ctx) (id : BitVec 10) (out : Nat) (ship : Option CoreId) : Ctx :=
  { c with fstat := c.fstat ||| c.flags, flags := 0, buf := [], outst := out, shipTo := ship, status := .running (.release (.reach id)) }

/-- A commit at `reach`: the effects are in the release queue, and the boundary ends where none has to leave the core (R183, R193). -/
theorem State.commit_reach (s : State) (t : ThreadId) (id : BitVec 10) : ∃ u out ship,
    s.commit t (.reach id) = (if u.releasing t then u else u.boundaryEnd t (.reach id)) ∧ u.mem = s.mem ∧
    (u.core t.core).relq = (s.core t.core).relq ++ s.releases t ((s.ctx t).gen + 1) ∧
    u.ctx t = (s.ctx t).leaving id out ship := by
  have hrel := foldl_keeps (fun u => ((u.core t.core).relq, (u.core t.core).nextEff)) (fun u (e : Buffered) => u.commitLocal_released t e.eff) (s.ctx t).buf s
  have hmem := foldl_keeps State.mem (fun u (e : Buffered) => u.commitLocal_mem t e.eff) (s.ctx t).buf s
  simp only [Prod.mk.injEq] at hrel
  obtain ⟨hrelq, hnext⟩ := hrel
  refine ⟨_, _, _, rfl, ?_, ?_, State.ctx_setCtx _ _ _⟩
  · refine Eq.trans (foldl_keeps State.mem (fun u e => ?_) _ _) hmem
    split <;> rfl
  · simp only [State.core_setCtx, State.core_setCore, hrelq, hnext, State.releases]

/-- The end of `reach` (R183): the next reach is open, and its snapshot is taken. -/
theorem State.boundaryEnd_reach_ctx (s : State) (t : ThreadId) (id : BitVec 10) : (s.boundaryEnd t (.reach id)).ctx t =
    { s.ctx t with
      status := .ready, reachcnt := 0, shield := false, poisoned := false, gen := (s.ctx t).gen + 1, rid := id, execs := 1, epoch := s.nextSerial,
      snap := ⟨(s.ctx t).regs, (s.ctx t).pw, (s.ctx t).fstat, 0, (s.ctx t).reachlim, (s.ctx t).pc⟩ } := by
  simp [State.boundaryEnd]

/-- A boundary with nothing to wait for commits at once (R183). -/
theorem State.boundary_commits {s : State} {t : ThreadId} (hprobes : ∀ b ∈ (s.ctx t).buf, b.probes = []) (hroom : s.commitRoom t = true)
    (b : Boundary) : s.boundary t b = (s.setCtx t { s.ctx t with status := .running (.commit b) }).commit t b := by
  have hflat : (s.ctx t).buf.flatMap (fun b => b.probes) = [] := List.flatMap_eq_nil_iff.2 hprobes
  have hans : (s.ctx t).buf.all (fun b => b.probes.all (fun p => p.ans ≠ .waiting)) = true := by
    simp only [List.all_eq_true]
    intro b hb; simp [hprobes b hb]
  have hroom' : (s.setCtx t { s.ctx t with status := .running (.commit b) }).commitRoom t = true := by
    rw [← hroom]; simp only [State.commitRoom, State.ctx_setCtx]; rfl
  simp only [State.boundary, State.onCtx, State.commitStep, State.commitReady, State.ctx_setCtx, hroom', Ctx.answered, Ctx.badProbe, hflat, hans]
  simp

/-- `reach` with nothing to wait for: the commit, and the end of the boundary where no effect has to leave the core. -/
theorem State.boundary_reach {s : State} {t : ThreadId} (hprobes : ∀ b ∈ (s.ctx t).buf, b.probes = []) (hroom : s.commitRoom t = true)
    (id : BitVec 10) : ∃ u out ship,
    s.boundary t (.reach id) = (if u.releasing t then u else u.boundaryEnd t (.reach id)) ∧ u.mem = s.mem ∧
    (u.core t.core).relq = (s.core t.core).relq ++ s.releases t ((s.ctx t).gen + 1) ∧
    u.ctx t = (s.ctx t).leaving id out ship := by
  obtain ⟨u, out, ship, hu, hmem, hrelq, hctx⟩ := State.commit_reach (s.setCtx t { s.ctx t with status := .running (.commit (.reach id)) }) t id
  rw [← State.boundary_commits hprobes hroom] at hu
  simp only [State.ctx_setCtx] at hctx hrelq
  refine ⟨u, out, ship, hu, hmem, hrelq.trans ?_, hctx⟩
  simp only [State.releases, State.originOf, State.ctx_setCtx]
  rfl

/-- A thread is releasing as long as its core's queue holds an effect of its own. -/
theorem State.releasing_iff (s : State) (t : ThreadId) : s.releasing t = true ↔ ∃ r ∈ (s.core t.core).relq, r.serial = (s.ctx t).serial := by
  simp [State.releasing]

/-- What a commit releases is the thread's own. -/
theorem State.releases_serial {s : State} {t : ThreadId} {g : BitVec 4} : ∀ r ∈ s.releases t g, r.serial = (s.ctx t).serial := by
  intro r hr
  obtain ⟨_, -, rfl⟩ := List.mem_map.1 hr
  rfl

/-! ## The discard (R196, R199) -/

/-- With nothing buffered only the completions that the reach had taken are given back. -/
theorem State.dropReach_empty {s : State} {t : ThreadId} (hbuf : (s.ctx t).buf = []) : ∃ k,
    s.dropReach t = (s.setCore t.core k).setCtx t (s.ctx t) := by
  have hkeep : { s.ctx t with buf := [] } = s.ctx t := by rw [← hbuf]
  rw [State.dropReach, hbuf]
  exact ⟨_, congrArg (State.setCtx _ t) hkeep⟩

/-- A reach with nothing buffered goes back to its snapshot, with one more discard, and ends where these pass its limit. -/
theorem State.discard_empty {s : State} {t : ThreadId} (hbuf : (s.ctx t).buf = []) (w : BitVec 32) (after : State → State) : ∃ u,
    s.discard t w after = (if (s.ctx t).snap.reachlim < (s.ctx t).reachcnt + 1 then u.stop t ⟨.reentryExhausted, none⟩ w else after u) ∧
    u.mem = s.mem ∧ u.ctx t = { (s.ctx t).restore with epoch := s.nextSerial } := by
  obtain ⟨k, hk⟩ := State.dropReach_empty hbuf
  refine ⟨((s.setCore t.core k).setCtx t (s.ctx t).restore).newEpoch t, ?_, by simp, by simp⟩
  simp only [State.discard, hk, State.ctx_setCtx, State.setCtx_setCtx, State.newEpoch_ctx, Ctx.restore]

/-! ## The words -/

theorem reach_run {s : State} {k : BitVec 10} {g : BitVec 4} (h : Runs s (.reach k g) g) :
    exec (.reach k g) s = .next (s.acting.boundary s.curT (.reach k)) := by
  show execReach k g s = _
  rw [execReach, threadInstr_run h]

theorem retry_run {s : State} {g : BitVec 4} (h : Runs s (.retry g) g) :
    exec (.retry g) s = .next (s.acting.discard s.curT (encode (.retry g)) (fun s' => s'.onCtx s.curT (fun c => { c with status := .ready }))) := by
  show execRetry g s = _
  rw [execRetry, threadInstr_run h]

section
variable {c : Ctx} (hready : c.status = .ready)
include hready

/-- A READY context is the one whose wait has just ended. -/
theorem Ctx.ready_again : { c with status := .ready } = c := by
  rw [← hready]

/-- A thread that has begun to wait goes on at once where nothing is outstanding that it would wait for (R245). -/
theorem State.fenceStep_fence (s : State) (t : ThreadId) (n : Nat) :
    (s.setCtx t { c with status := .running (.fence n) }).fenceStep t =
      s.setCtx t (if (s.setCtx t c).fenceClear t n then c else { c with status := .running (.fence n) }) := by
  have hclear : (s.setCtx t { c with status := .running (.fence n) }).fenceClear t n = (s.setCtx t c).fenceClear t n := by
    simp [State.fenceClear]
  simp only [State.fenceStep, State.onCtx, State.ctx_setCtx, State.setCtx_setCtx, hclear]
  split
  · rw [Ctx.ready_again hready]
  · rfl

/-- The same of the wait for everything (R246). -/
theorem State.fenceStep_drain (s : State) (t : ThreadId) :
    (s.setCtx t { c with status := .running .drain }).fenceStep t =
      s.setCtx t (if (s.core t.core).drained c.serial then c else { c with status := .running .drain }) := by
  simp only [State.fenceStep, State.onCtx, State.ctx_setCtx, State.setCtx_setCtx, State.core_setCtx]
  split
  · rw [Ctx.ready_again hready]
  · rfl

end

theorem fence_run {s : State} {k : BitVec 5} {g : BitVec 4} (h : Runs s (.fence k g) g) :
    exec (.fence k g) s = .next (s.setCtx s.curT
      (if s.acting.fenceClear s.curT k.toNat then begun s else { begun s with status := .running (.fence k.toNat) })) := by
  have hready : (begun s).status = .ready := h.1
  show execFence k g s = _
  rw [execFence, threadInstr_run h]
  simp only [State.onCtx, State.ctx_setCtx, State.setCtx_setCtx]
  rw [State.fenceStep_fence hready]

theorem drain_run {s : State} {g : BitVec 4} (h : Runs s (.drain g) g) :
    exec (.drain g) s = .next (s.setCtx s.curT
      (if (s.core s.curT.core).drained (cur s).serial then begun s else { begun s with status := .running .drain })) := by
  have hready : (begun s).status = .ready := h.1
  show execDrain g s = _
  rw [execDrain, threadInstr_run h]
  simp only [State.onCtx, State.ctx_setCtx, State.setCtx_setCtx]
  rw [State.fenceStep_drain hready]
  rfl

end Sys2Proof.Machine

namespace Sys2Proof
open Machine Safety

/-- Settles O9: a boundary that has to wait for nothing commits at once, a discard goes back to the snapshot, and a wait ends at once where
nothing is outstanding. -/
theorem reachWords : Obligations.ReachWords := by
  refine ⟨fun s k g h hprobes hroom => ?_, fun s g h hbuf => ?_, fun s k g => ?_⟩
  · intro c out
    obtain ⟨u, _, _, hu, hmem, hrelq, hctx⟩ := State.boundary_reach (s := s.acting) (t := s.curT) (by simpa using hprobes)
      (by rw [← hroom]; simp only [State.commitRoom, acting_ctx]; rfl) k
    have hout : s.acting.releases s.curT ((s.acting.ctx s.curT).gen + 1) = out := by
      simp only [State.releases, State.originOf, acting_ctx]; rfl
    rw [hout] at hrelq
    rw [acting_ctx] at hctx
    have hown : ∀ r ∈ out, r.serial = (u.ctx s.curT).serial := by
      rw [hctx, ← hout]; exact fun r hr => (State.releases_serial r hr).trans (by rw [acting_ctx]; rfl)
    rw [reach_run h, hu]
    refine ⟨_, rfl, ?_⟩
    split
    case isTrue hrel =>
      obtain ⟨r, hr, -⟩ := (u.releasing_iff s.curT).1 hrel
      rw [hrelq, List.mem_append] at hr
      have hsome : ¬((s.core s.curT.core).relq = [] ∧ out = []) := fun ⟨hq, ho⟩ => by simp [hq, ho] at hr
      rw [hctx]
      exact ⟨hmem, hrelq, rfl, rfl, rfl, rfl, rfl, rfl, fun hq ho => absurd ⟨hq, ho⟩ hsome, fun _ => rfl⟩
    case isFalse hrel =>
      have hnone : ¬out ≠ [] := fun hne => by
        obtain ⟨r, hr⟩ := List.exists_mem_of_ne_nil _ hne
        exact hrel ((u.releasing_iff s.curT).2 ⟨r, by rw [hrelq]; exact List.mem_append_right _ hr, hown r hr⟩)
      rw [State.boundaryEnd_reach_ctx, hctx]
      exact ⟨hmem, hrelq, rfl, rfl, rfl, rfl, rfl, rfl, fun _ _ => ⟨rfl, rfl, rfl, rfl, rfl, rfl, rfl⟩, fun hne => absurd hne hnone⟩
  · intro c
    obtain ⟨u, hu, hmem, hctx⟩ := State.discard_empty (s := s.acting) (t := s.curT) (by simpa using hbuf) (encode (.retry g))
      (fun s' => s'.onCtx s.curT (fun c => { c with status := .ready }))
    rw [retry_run h, hu, acting_ctx]
    refine ⟨fun hlim => ⟨_, congrArg _ (if_neg (Nat.not_lt.2 hlim)), hmem, ?_⟩, fun hlim => ⟨_, congrArg _ (if_pos hlim), State.stop_status _ _ _ _⟩⟩
    rw [State.onCtx, State.ctx_setCtx, hctx, acting_ctx]
    exact ⟨rfl, rfl, rfl, rfl, rfl, rfl, rfl⟩
  · intro mine held
    refine ⟨fun h => ?_, fun h => ?_⟩
    · have hclear : s.acting.fenceClear s.curT k.toNat =
          !(held || (s.core s.curT.core).outs.any (fun o => mine o && o.cls ≠ .engine && inScope s.curT.core k.toNat o.home)) := by
        rw [Bool.not_or, State.fenceClear, acting_ctx]; rfl
      rw [fence_run h, hclear]
      simp only [Bool.not_eq_true', ← Bool.not_eq_true, ite_not]
    · have hclear : (s.core s.curT.core).drained (cur s).serial = !(held || (s.core s.curT.core).outs.any mine) := by
        rw [Bool.not_or]; rfl
      rw [drain_run h, hclear]
      simp only [Bool.not_eq_true', ← Bool.not_eq_true, ite_not]

end Sys2Proof
end

section
/-! PROOF of O42. Collective nodes (R99, R440, R446, R452) and groups that are joined (R448 to R451). -/

namespace Sys2Proof.Machine

open Sys2Proof

/-- A key has a value exactly where a search for it finds one. -/
theorem thas_eq_isSome {κ ν : Type} [DecidableEq κ] (t : Tbl κ ν) (k : κ) : thas t k = (tfind t k).isSome := by
  rw [Bool.eq_iff_iff]
  simp [thas, tfind]

/-! ## Frames -/

/-- What a link's receiver takes changes links and what leaves the device, and nothing else (R418). -/
theorem State.receive_keeps (s : State) (r : Rx) (n : Nat) : ∃ l o, (s.receive r n).1 = { s with links := l, netOut := o } := by
  simp only [State.receive]
  split
  · exact ⟨_, _, rfl⟩
  · split
    · exact ⟨_, _, rfl⟩
    · split
      · split <;> exact ⟨_, _, rfl⟩
      · exact ⟨_, _, rfl⟩

/-- A rank's node is the same once a token for it has been received. -/
theorem State.nodeOf_receive (s : State) (r : Rx) (n sid group rank : Nat) : (s.receive r n).1.nodeOf sid group rank = s.nodeOf sid group rank := by
  obtain ⟨l, o, h⟩ := s.receive_keeps r n
  rw [h]; rfl

section
variable {s v : State} {rx : Option Rx} (hrx : ∀ r, rx = some r → (s.receive r 16).2 = true ∧ v = (s.receive r 16).1) (hno : rx = none → v = s)
include hrx hno

/-- A token whose frame of 16 flits is whole acts on what its link leaves, or at once where it came by none (R461). -/
theorem State.received_token (f : State → State) : s.received rx 16 f = f v := by
  cases rx with
  | none => rw [hno rfl]; rfl
  | some r =>
    obtain ⟨hwhole, hv⟩ := hrx r rfl
    rw [State.received_whole hwhole, hv]

theorem State.nodeOf_token (sid group rank : Nat) : v.nodeOf sid group rank = s.nodeOf sid group rank := by
  cases rx with
  | none => rw [hno rfl]
  | some r =>
    obtain ⟨-, hv⟩ := hrx r rfl
    rw [hv, State.nodeOf_receive]

/-- One whose tag verifies does its step, and one whose tag fails counts for its SID. -/
theorem State.framed_token (sid : Nat) (f : State → State) :
    ((∀ r, rx = some r → r.intact = true) → s.framed rx sid f = f v) ∧
    (∀ r, rx = some r → r.intact = false → s.framed rx sid f = { v with viols := tput v.viols sid (tget v.viols 0 sid + 1) }) := by
  refine ⟨fun h => ?_, fun r hr h => ?_⟩
  · rw [State.framed_intact, State.received_token hrx hno]
    cases rx with
    | none => rfl
    | some r => exact h r rfl
  · rw [State.framed_broken (by simp [hr, h]), State.received_token hrx hno]

end

/-! ## Contributions and results (R440, R452) -/

theorem contributionArrival_run {s : State} {m : CollMsg} {rx : Option Rx} (harg : s.arg = .contributionArrival m rx) :
    exec .contributionArrival s = .next (s.framed rx m.sid (fun s => s.contribution m)) := by
  show execContributionArrival s = _
  simp only [execContributionArrival, harg]

theorem resultArrival_run {s : State} {m : CollMsg} {rx : Option Rx} (harg : s.arg = .resultArrival m rx) :
    exec .resultArrival s = .next (s.framed rx m.sid (fun s => s.resultCame m)) := by
  show execResultArrival s = _
  simp only [execResultArrival, harg]

theorem State.contribution_eos {v : State} {m : CollMsg} {g : Group} {c : CollNode} (hn : v.nodeOf m.sid m.group m.dst = some (g, c))
    (heos : m.tok.kind = .eos) : v.contribution m =
      (v.setColl g.inst g.node { c with lens := if m.epoch < c.depoch then c.lens else tput c.lens (m.epoch, m.src) m.index }).collDeliver
        g.inst g.node (c.fuel + 1) := by
  simp [State.contribution, hn, heos]

theorem State.contribution_known {v : State} {m : CollMsg} {g : Group} {c : CollNode} {t : Token}
    (hn : v.nodeOf m.sid m.group m.dst = some (g, c)) (heos : m.tok.kind ≠ .eos) (hsum : tfind c.sums (m.epoch, m.index) = some t) :
    v.contribution m = v.resultSend c g [{ m with src := 0, dst := m.src, tok := t }] := by
  simp [State.contribution, hn, heos, hsum]

theorem State.contribution_new {v : State} {m : CollMsg} {g : Group} {c : CollNode}
    (hn : v.nodeOf m.sid m.group m.dst = some (g, c)) (heos : m.tok.kind ≠ .eos) (hsum : tfind c.sums (m.epoch, m.index) = none) :
    v.contribution m =
      (let d := { c with parts := tput c.parts (m.epoch, m.src, m.index) m.tok }
       if g.st = 3 then v.collCombine g d m else v.setColl g.inst g.node d) := by
  simp [State.contribution, hn, heos, hsum]

/-- Looking up each of a list finds them all where each is there (here: every rank's contribution), -/
theorem mapM_of_all_some {α β : Type} {f : α → Option β} {v : α → β} {l : List α} (h : ∀ x ∈ l, f x = some (v x)) :
    l.mapM f = some (l.map v) := by
  induction l with
  | nil => rfl
  | cons x l ih => simp [List.mapM_cons, h x (by simp), ih (fun y hy => h y (by simp [hy]))]

/-- and nothing where one is missing. -/
theorem mapM_of_none {α β : Type} {f : α → Option β} {x : α} {l : List α} (hx : x ∈ l) (hnone : f x = none) : l.mapM f = none := by
  induction l with
  | nil => cases hx
  | cons y l ih =>
    rw [List.mapM_cons]
    obtain rfl | hx := List.mem_cons.1 hx
    · rw [hnone]; rfl
    · rw [ih hx]; cases f y <;> rfl

/-- An index that some rank has not sent yet is kept. -/
theorem State.collCombine_waits {v : State} {g : Group} {c : CollNode} {m : CollMsg} (h : ∃ r, r < g.n ∧ tfind c.parts (m.epoch, r, m.index) = none) :
    v.collCombine g c m = v.setColl g.inst g.node c := by
  obtain ⟨r, hr, hnone⟩ := h
  rw [State.collCombine, mapM_of_none (List.mem_range.2 hr) hnone]

/-- One that every rank has sent is summed in rank order, kept, and sent to every rank (R99, R440). -/
theorem State.collCombine_sums {v : State} {g : Group} {c : CollNode} {m : CollMsg} {f : Nat → Token}
    (h : ∀ r, r < g.n → tfind c.parts (m.epoch, r, m.index) = some (f r)) :
    let t := reduceToks (laneFmt c.fmt) ((List.range g.n).map f)
    let sums := c.sums ++ [((m.epoch, m.index), t)]
    v.collCombine g c m =
      (v.setColl g.inst g.node { c with parts := c.parts.filter (fun x => !(x.1.1 = m.epoch && x.1.2.2 = m.index)),
                                        sums := sums.drop (sums.length - 64) }).resultSend c g
        ((List.range g.n).map (fun r => { m with src := 0, dst := r, tok := t })) := by
  rw [State.collCombine, mapM_of_all_some (fun r hr => h r (List.mem_range.1 hr))]
  rfl

/-- Nothing to send changes nothing. -/
theorem State.resultSend_nil (v : State) (c : CollNode) (g : Group) : v.resultSend c g [] = v := by
  simp [State.resultSend, State.collSpread, State.collOut, State.toEgress]

@[simp] theorem CollNode.answered_op (c : CollNode) (m : CollMsg) : (c.answered m).op = c.op := rfl
@[simp] theorem CollNode.answered_parts (c : CollNode) (m : CollMsg) : (c.answered m).parts = c.parts := rfl
@[simp] theorem CollNode.answered_sums (c : CollNode) (m : CollMsg) : (c.answered m).sums = c.sums := rfl
@[simp] theorem CollNode.answered_res (c : CollNode) (m : CollMsg) : (c.answered m).res = c.res := rfl
@[simp] theorem CollNode.answered_depoch (c : CollNode) (m : CollMsg) : (c.answered m).depoch = c.depoch := rfl

/-- An index that no rank has contributed to finds nothing among the contributions. -/
theorem filter_index_nil {parts : Tbl (Nat × Nat × Nat) Token} {e n : Nat} (h : ∀ r t, ((e, r, n), t) ∉ parts) :
    parts.filter (fun x => x.1.1 = e && x.1.2.2 = n) = [] := by
  rw [List.filter_eq_nil_iff]
  rintro ⟨⟨a, r, b⟩, t⟩ hx hhit
  simp only [Bool.and_eq_true, decide_eq_true_eq] at hhit
  obtain ⟨rfl, rfl⟩ := hhit
  exact h r t hx

/-- A sum that a node did not know, for an index it holds no contribution of, is kept with the last 64 (R452). -/
theorem CollNode.known_new {c : CollNode} {m : CollMsg} (hop : collReduces c.op = true) (hsum : tfind c.sums (m.epoch, m.index) = none)
    (hparts : ∀ r t, ((m.epoch, r, m.index), t) ∉ c.parts) :
    let sums := c.sums ++ [((m.epoch, m.index), m.tok)]
    c.known m = { c with sums := sums.drop (sums.length - 64) } := by
  have hall : c.parts.filter (fun x => !(x.1.1 = m.epoch && x.1.2.2 = m.index)) = c.parts := by
    rw [List.filter_eq_self]
    intro x hx
    rw [Bool.not_eq_true', ← Bool.not_eq_true]
    exact List.filter_eq_nil_iff.1 (filter_index_nil hparts) x hx
  rw [CollNode.known, hall, thas_eq_isSome, hop, hsum]
  rfl

/-- A result of an index that a node knew no sum of, and holds no contribution of: it is kept once, releases the contribution that waited for it, and
lets the node deliver and take (R452). -/
theorem State.resultCame_new {v : State} {m : CollMsg} {g : Group} {c : CollNode} (hn : v.nodeOf m.sid m.group m.dst = some (g, c))
    (hop : collReduces c.op = true) (hsum : tfind c.sums (m.epoch, m.index) = none) (hparts : ∀ r t, ((m.epoch, r, m.index), t) ∉ c.parts) :
    let sums := c.sums ++ [((m.epoch, m.index), m.tok)]
    let d := { c.answered m with sums := sums.drop (sums.length - 64) }
    let e := if m.epoch < c.depoch || thas c.res (m.epoch, m.src, m.index) then d
      else { d with res := tput c.res (m.epoch, m.src, m.index) m.tok }
    v.resultCame m = ((v.setColl g.inst g.node e).collDeliver g.inst g.node e.fuel).collTake g.inst g.node := by
  intro sums d e
  have hknown : (c.answered m).known m = d := CollNode.known_new hop hsum hparts
  simp only [State.resultCame, hn, hop, Bool.true_or, if_true, CollNode.answered_op, CollNode.answered_parts, hknown,
    filter_index_nil hparts, List.map_nil, State.resultSend_nil]
  rfl

/-! ## Joining (R448 to R451) -/

/-- A lockkeeper takes the reservation of a group's rank, or refuses it (R449). -/
theorem cjoinReserve_run {s : State} {g : CollOp} (harg : s.arg = .cjoinReserve g) (hup : s.lkDown g.die = false)
    (hask : (s.ctx g.thread).awaiting g.ask ≠ none) : exec .cjoinReserve s = .next (
      if thas s.groups g.key || 64 ≤ (s.groups.filter (fun e => e.2.die = g.die)).length then
        s.post .none (.loadReply g.thread g.ask 0 .refused)
      else
        let x : Group := { die := g.die, by_ := g.thread, n := cN g.args, tag := cTag g.args,
                           nretry := s.nretry g.thread.core g.sid, rtimeout := s.rtimeout g.thread.core g.sid }
        ({ s with groups := tput s.groups g.key x } : State).post .none (.loadReply g.thread g.ask 0 (.reserved (.comp 0) 0))) := by
  have hask' : ((s.ctx g.thread).awaiting g.ask).isNone = false := by simpa [Option.isNone_eq_false_iff, Option.isSome_iff_ne_none] using hask
  show execCjoinReserve s = _
  simp only [execCjoinReserve, harg, State.byLock_free hup, hask', Bool.false_eq_true, if_false]

section
variable {s v : State} {g : CollOp} {x : Group} (harg : s.arg = .cjoinCheck g) (hup : s.lkDown g.die = false)
  (hv : s.performed g.origin.core g.rel = v) (hx : tfind v.groups g.key = some x)
include harg hup hv hx

/-- A join whose graph does not stand ends, and leaves its slot (R449). -/
theorem cjoinCheck_noInst (hinst : v.instSt (v.placeInst g.sid (cPlace g.args)) = none) :
    exec .cjoinCheck s = .next (v.joinEnd g.key Cause.illegalForm.code) := by
  show execCjoinCheck s = _
  simp only [execCjoinCheck, harg, State.byLock_free hup, hv, hx, hinst]
  split
  · next h => cases h
  · simp
  · rfl

/-- One whose graph, node, table, ratio and key node agree (R448, R449) ends where a rank lies in another rack or a device outside the span, and
else takes them and asks about its peers (R450). -/
theorem cjoinCheck_agrees {i : InstId} {m : Nat} {c : CollNode} {l : List Byte} {t : List (Nat × Nat)}
    (hi : v.placeInst g.sid (cPlace g.args) = i) (hinst : v.instSt i = some .shadow ∨ v.instSt i = some .active)
    (hnode : v.colls.find? (fun e => e.1.1 = i && e.2.group = cGroup g.args && e.2.rank.isNone) = some ((i, m), c))
    (hbytes : v.vaBytes g.sid (bitsN (cTable g.args) 56 0) (16 * cN g.args) = some l) (htable : readTable l (cN g.args) = some t)
    (hown : t[cRank g.args]? = some (v.node, (cPlace g.args).toNat)) (hratio : (c.p, c.q) = collRatio c.op (cN g.args))
    (hkey : cKeyNode g.args = (v.job g.sid).span.lead) :
    let peers := askedRanks t (cRank g.args)
    let y : Group :=
      { x with st := 2, inst := i, node := m, table := t,
               digest := Config.sha384 (l ++ bytesOf 1 c.op ++ bytesOf 1 c.fmt ++ bytesOf 2 c.p ++ bytesOf 2 c.q),
               peers := peers.map (fun p => (p, Peer.notYet v.cycle)) }
    exec .cjoinCheck s = .next (
      if ¬(v.part = .hz960 ∨ ∀ e ∈ t, e.1 / 256 = v.node / 256) then v.joinEnd g.key Cause.unavailable.code
      else if ∃ e ∈ t, (v.job g.sid).members.contains e.1 = false then v.joinEnd g.key Cause.remoteViolation.code
      else (peers.foldl (fun (s : State) p => s.askPeer g.key p 0) { v with groups := tput v.groups g.key y }).planGroup g.key) := by
  have hst : (v.instSt i ≠ some .shadow && v.instSt i ≠ some .active) = false := by
    rcases hinst with h | h <;> simp [h]
  show execCjoinCheck s = _
  simp only [execCjoinCheck, harg, State.byLock_free hup, hv, hx, hi, hnode, hbytes, htable, Option.map_some, Option.bind_some, hst, hown, hratio, hkey,
    ne_eq, not_true_eq_false, decide_false, Bool.or_self, Bool.false_eq_true, if_false, Bool.and_eq_true, decide_eq_true_eq, List.any_eq_true,
    Bool.not_eq_true', not_or, Classical.not_forall, exists_prop]

end

/-! ## Path checks (R450) -/

theorem pathCheck_run {s : State} {m : PathMsg} (harg : s.arg = .pathCheck m) (hup : s.lkDown 0 = false) :
    exec .pathCheck s = .next (s.toNet m.node (some m.sid) (.pathAns m (s.peerAns m))) := by
  show execPathCheck s = _
  simp only [execPathCheck, harg, State.byLock_free hup]

/-- An answer counts while the join asks about its peer. -/
theorem pathCheckAnswer_run {s : State} {m : PathMsg} {a : PathAns} {g : Group} (harg : s.arg = .pathCheckAnswer m a)
    (hg : tfind s.groups (m.sid, m.group, m.rank) = some g) (hup : s.lkDown g.die = false) :
    exec .pathCheckAnswer s = .next (if g.asks m.peer then s.peerGot (m.sid, m.group, m.rank) m.peer a else s) := by
  show execPathCheckAnswer s = _
  simp only [execPathCheckAnswer, harg, hg, State.byLock_free hup]

section
variable {s : State} {k : Nat × Nat × Nat} {g : Group} (hg : tfind s.groups k = some g)
include hg

/-- What each answer of a peer does to the join that asked (R450). -/
theorem State.peerGot_cases (peer : Nat) :
    s.peerGot k peer .bound = ({ s with groups := tput s.groups k { g with peers := tput g.peers peer .counted } } : State).planGroup k ∧
    s.peerGot k peer .notYet = { s with groups := tput s.groups k { g with peers := tput g.peers peer (.notYet (s.cycle + g.rtimeout)) } } ∧
    s.peerGot k peer .differs = s.joinEnd k Cause.illegalForm.code ∧
    s.peerGot k peer .otherSid = s.joinEnd k Cause.remoteViolation.code ∧ s.peerGot k peer .noDevice = s.joinEnd k Cause.remoteViolation.code := by
  simp only [State.peerGot, hg, and_self]

end

/-- The peers whose time for an answer is over, with the attempts they have had. -/
def Group.late (g : Group) (cycle : Nat) : List (Nat × Nat) :=
  g.peers.filterMap (fun p => match p.2 with
    | .asked n due => if due ≤ cycle then some (p.1, n) else none
    | _ => none)

theorem Group.mem_late {g : Group} {cycle p k : Nat} : (p, k) ∈ g.late cycle ↔ ∃ d, (p, Peer.asked k d) ∈ g.peers ∧ d ≤ cycle := by
  rw [Group.late, List.mem_filterMap]
  constructor
  · rintro ⟨⟨q, x⟩, hq, hx⟩
    cases x with
    | asked n d =>
      simp only [Option.ite_none_right_eq_some, Option.some.injEq, Prod.mk.injEq] at hx
      obtain ⟨hd, rfl, rfl⟩ := hx
      exact ⟨d, hq, hd⟩
    | notYet d => cases hx
    | counted => cases hx
  · rintro ⟨d, hp, hd⟩
    exact ⟨_, hp, if_pos hd⟩

/-- A fold none of whose steps changes the state leaves it as it is. -/
theorem foldl_idle {α : Type} {f : State → α → State} {s : State} {l : List α} (h : ∀ x ∈ l, f s x = s) : l.foldl f s = s := by
  induction l with
  | nil => rfl
  | cons x l ih => rw [List.foldl_cons, h x (by simp), ih fun y hy => h y (by simp [hy])]

section
variable {s : State} {sid group rank : Nat} {g : Group} (hg : tfind s.groups (sid, group, rank) = some g)
include hg

/-- Peers that had not joined are asked again when their time has come (R450), here none of them. -/
theorem pathCheckReask_early (harg : s.arg = .pathCheckReask sid group rank) (h : ∀ p ∈ g.peers, ∀ d, p.2 = .notYet d → s.cycle < d) :
    exec .pathCheckReask s = .next s := by
  show execPathCheckReask s = _
  simp only [execPathCheckReask, harg, hg]
  refine congrArg _ (foldl_idle fun p hp => ?_)
  split
  · next d hd => rw [if_neg (Nat.not_le.2 (h p hp d hd))]
  · rfl

theorem pathCheckReask_due {p d : Nat} (harg : s.arg = .pathCheckReask sid group rank) (h : g.peers = [(p, .notYet d)]) (hd : d ≤ s.cycle) :
    exec .pathCheckReask s = .next (s.askPeer (sid, group, rank) p 0) := by
  show execPathCheckReask s = _
  simp only [execPathCheckReask, harg, hg, h, List.foldl_cons, List.foldl_nil, if_pos hd]

/-- A peer that has not answered is asked again, or ends the join after its last attempt (R433, R450). -/
theorem pathCheckTimeout_run (harg : s.arg = .pathCheckTimeout sid group rank) : exec .pathCheckTimeout s = .next (
    if (g.late s.cycle).any (fun p => g.nretry ≤ p.2) then s.joinEnd (sid, group, rank) Cause.linkTimeout.code
    else (g.late s.cycle).foldl (fun s p => s.askPeer (sid, group, rank) p.1 (p.2 + 1)) s) := by
  show execPathCheckTimeout s = _
  simp only [execPathCheckTimeout, harg, hg]
  by_cases h : (g.late s.cycle).any (fun p => g.nretry ≤ p.2) = true
  · rw [if_pos h]; exact if_pos h
  · rw [if_neg h]; exact if_neg h

end

end Sys2Proof.Machine

namespace Sys2Proof
open Machine

/-- Settles O42, step by step: the frame of a token, its contribution or result; then the reservation, the check and the path checks of a join. -/
theorem collectivesAndGroups : Obligations.CollectivesAndGroups := by
  refine ⟨fun s v m rx g c hn hrx hno => ?_, fun s => ⟨?_, ?_, ?_, ?_, ?_, ?_⟩⟩
  · have hv : v.nodeOf m.sid m.group m.dst = some (g, c) := (State.nodeOf_token hrx hno _ _ _).trans hn
    have hframe (f : State → State) := State.framed_token hrx hno m.sid f
    refine ⟨?_, fun hintact => ⟨fun harg heos => ?_, fun t harg heos hsum => ?_, ?_, ?_⟩⟩
    · rintro r hr hbad i (⟨rfl, harg⟩ | ⟨rfl, harg⟩)
      · rw [contributionArrival_run harg, (hframe _).2 r hr hbad]
      · rw [resultArrival_run harg, (hframe _).2 r hr hbad]
    · rw [contributionArrival_run harg, (hframe _).1 hintact, State.contribution_eos hv heos]
    · rw [contributionArrival_run harg, (hframe _).1 hintact, State.contribution_known hv heos hsum]
    · rintro p harg heos hsum rfl
      rw [contributionArrival_run harg, (hframe _).1 hintact, State.contribution_new hv heos hsum]
      refine ⟨fun h => ?_, fun f hst hall => congrArg _ ((if_pos hst).trans (State.collCombine_sums hall))⟩
      by_cases hst : g.st = 3
      · exact congrArg _ ((if_pos hst).trans (State.collCombine_waits (h.resolve_left (Classical.not_not.2 hst))))
      · exact congrArg _ (if_neg hst)
    · intro harg hop hsum hparts hit past sums d
      rw [resultArrival_run harg, (hframe _).1 hintact, State.resultCame_new hv hop hsum hparts]
      refine ⟨fun h => ?_, fun hepoch hres => ?_⟩
      · rw [if_pos (by simpa [thas_eq_isSome, Option.isSome_iff_ne_none] using h)]; rfl
      · rw [if_neg (by simp [thas_eq_isSome, hres, hepoch])]; rfl
  · intro g harg hup hask
    rw [cjoinReserve_run harg hup hask]
    by_cases htaken : thas s.groups g.key = true
    · rw [if_pos (by simp [htaken])]
      exact ⟨_, _, rfl, rfl, rfl, fun _ => ⟨rfl, rfl⟩, fun hfree => by simp [htaken] at hfree⟩
    · by_cases hfull : 64 ≤ (s.groups.filter (fun e => e.2.die = g.die)).length
      · rw [if_pos (by simp [hfull])]
        exact ⟨_, _, rfl, rfl, rfl, fun h => absurd h htaken, fun _ h => absurd hfull (Nat.not_le.2 h)⟩
      · rw [if_neg (by simp [htaken, hfull])]
        exact ⟨_, _, rfl, rfl, rfl, fun h => absurd h htaken, fun _ _ => ⟨rfl, _, tfind_tput_same _ _ _, rfl, rfl, rfl⟩⟩
  · intro g x harg hup hx hinst
    exact cjoinCheck_noInst harg hup rfl hx hinst
  · rintro g x i m c l t harg hup hx rfl hinst hnode hbytes htable hown hratio hkey digest peers here v y
    rw [cjoinCheck_agrees harg hup rfl hx rfl hinst hnode hbytes htable hown hratio hkey]
    refine ⟨fun hh => ?_, fun hh hout => ?_, fun hh hin => ?_⟩
    · exact congrArg _ (if_pos hh)
    · exact congrArg _ ((if_neg (Classical.not_not.2 hh)).trans (if_pos hout))
    · have hall : ¬∃ e ∈ t, (s.job g.sid).members.contains e.1 = false := fun ⟨e, he, hno⟩ =>
        Bool.false_ne_true (hno.symm.trans (hin e he))
      exact congrArg _ ((if_neg (Classical.not_not.2 hh)).trans (if_neg hall))
  · exact fun m harg hup => pathCheck_run harg hup
  · intro m a g harg hg hup
    rw [pathCheckAnswer_run harg hg hup]
    obtain ⟨hbound, hnot, hdiff, hother, hgone⟩ := State.peerGot_cases hg m.peer
    refine ⟨fun h => ?_, fun h ha => ?_, fun h ha => ?_, fun h ha => ?_, fun h ha => ?_⟩
    all_goals rw [h]
    · rfl
    · subst ha
      exact ⟨_, _, congrArg _ hnot, rfl, tfind_tput_same _ _ _, tfind_tput_same _ _ _⟩
    · subst ha; exact congrArg _ hbound
    · subst ha; exact congrArg _ hdiff
    · obtain rfl | rfl := ha
      · exact congrArg _ hother
      · exact congrArg _ hgone
  · intro sid group rank g hg
    refine ⟨fun harg h => pathCheckReask_early hg harg h, fun p d harg h hd => pathCheckReask_due hg harg h hd, fun harg h => ?_, fun p k d harg h hd hk => ?_,
      fun p hp k d harg h hd hk => ?_⟩
    all_goals rw [pathCheckTimeout_run hg harg]
    · have hnone : g.late s.cycle = [] := List.eq_nil_iff_forall_not_mem.2 fun ⟨p, k⟩ hp => by
        obtain ⟨d, hp, hd⟩ := Group.mem_late.1 hp
        exact absurd (h _ hp k d rfl) (Nat.not_lt.2 hd)
      rw [hnone]; rfl
    · have hone : g.late s.cycle = [(p, k)] := by simp [Group.late, h, hd]
      rw [hone]; simp [Nat.not_le.2 hk]
    · obtain ⟨q, x⟩ := p
      obtain rfl : x = .asked k d := h
      rw [if_pos (List.any_eq_true.2 ⟨(q, k), Group.mem_late.2 ⟨d, hp, hd⟩, by simpa using hk⟩)]

end Sys2Proof
end

section
/-! PROOF of O2. The scalar instructions (R89 to R91, R151, R161 to R169): the result and the flags of each, and what is written. -/

namespace Sys2Proof.Machine

open Sys2Proof Sys2Proof.Safety

/-! ## Results of the model's functions -/

theorem sub_eq_ofInt (x y : Word) : x - y = BitVec.ofInt 64 (x.toInt - y.toInt) := by
  apply BitVec.eq_of_toInt_eq
  rw [BitVec.toInt_sub, BitVec.toInt_ofInt]

theorem add_sext10 (x : Word) (k : BitVec 10) : x + sext10 k = BitVec.ofInt 64 (x.toInt + k.toInt) := by
  rw [BitVec.ofInt_add, BitVec.ofInt_toInt, sext10, BitVec.signExtend]

/-- A constant shifted in below a word is added to the word's multiple (R164). -/
theorem shiftLeft_or_const (x : Word) (k : BitVec 10) : (x <<< 10) ||| k.setWidth 64 = BitVec.ofNat 64 (x.toNat * 1024 + k.toNat) := by
  apply BitVec.eq_of_toNat_eq
  rw [BitVec.toNat_or, BitVec.toNat_shiftLeft, BitVec.toNat_setWidth, ← Nat.or_mod_two_pow, ← Nat.shiftLeft_add_eq_or_of_lt k.isLt,
    Nat.shiftLeft_eq, BitVec.toNat_ofNat]

/-- The highest bit that a number can have tells whether it reaches that bit's weight. -/
theorem getLsbD_iff_le {x : Word} {n : Nat} (hx : x.toNat < 2 ^ (n + 1)) : x.getLsbD n = true ↔ 2 ^ n ≤ x.toNat := by
  have hlt : x.toNat / 2 ^ n < 2 := Nat.div_lt_of_lt_mul (by rwa [← Nat.pow_succ])
  have hle : 1 ≤ x.toNat / 2 ^ n ↔ 2 ^ n ≤ x.toNat := by rw [Nat.le_div_iff_mul_le (Nat.two_pow_pos n), Nat.one_mul]
  rw [BitVec.getLsbD, Nat.testBit_eq_decide_div_mod_eq, decide_eq_true_eq, ← hle]
  generalize x.toNat / 2 ^ n = q at hlt
  omega

/-- Leading zeros of a number of n bits (R162): the number reaches the bit below them, and does not reach them. -/
theorem clzN_bounds (x : Word) (n : Nat) (hx : x.toNat < 2 ^ n) :
    clzN x n ≤ n ∧ x.toNat < 2 ^ (n - clzN x n) ∧ (clzN x n < n → 2 ^ (n - 1 - clzN x n) ≤ x.toNat) := by
  induction n with
  | zero => exact ⟨Nat.le_refl 0, hx, fun h => absurd h (Nat.lt_irrefl 0)⟩
  | succ n ih =>
    rw [clzN]
    split
    case isTrue hbit => exact ⟨Nat.zero_le _, hx, fun _ => (getLsbD_iff_le hx).1 hbit⟩
    case isFalse hbit =>
      obtain ⟨hle, hlt, hge⟩ := ih (Nat.lt_of_not_le fun h => hbit ((getLsbD_iff_le hx).2 h))
      have hsub : n + 1 - (1 + clzN x n) = n - clzN x n := by omega
      have hbelow : n + 1 - 1 - (1 + clzN x n) = n - 1 - clzN x n := by omega
      rw [hsub, hbelow]
      exact ⟨by omega, hlt, fun h => hge (by omega)⟩

theorem popN_eq (x : Word) (n : Nat) : popN x n = ((List.range n).filter (fun i => x.getLsbD i)).length := by
  induction n with
  | zero => rfl
  | succ n ih =>
    rw [popN, ih, List.range_succ, List.filter_append, List.length_append]
    cases h : x.getLsbD n <;> simp [h, Nat.add_comm]

theorem zextN_eq (x : Word) {n : Nat} (hn : n ≤ 64) : zextN x n = BitVec.ofNat 64 (x.toNat % 2 ^ n) := by
  have hpow : 2 ^ 64 = 2 ^ n * 2 ^ (64 - n) := by rw [← Nat.pow_add, Nat.add_sub_cancel' hn]
  apply BitVec.eq_of_toNat_eq
  rw [zextN, BitVec.toNat_ushiftRight, BitVec.toNat_shiftLeft, Nat.shiftLeft_eq, Nat.shiftRight_eq_div_pow, BitVec.toNat_ofNat, hpow,
    Nat.mul_mod_mul_right, Nat.mul_div_cancel _ (Nat.two_pow_pos _), ← hpow, Nat.mod_eq_of_lt (a := x.toNat % 2 ^ n)]
  exact Nat.lt_of_lt_of_le (Nat.mod_lt _ (Nat.two_pow_pos n)) (Nat.pow_le_pow_right (by decide) hn)

/-- The clamp to INT64 (R89), with the range's ends as powers of two. -/
theorem clamp64_eq (z : Int) : clamp64 z =
    (if z < -2 ^ 63 then (BitVec.ofInt 64 (-2 ^ 63), 4) else if 2 ^ 63 - 1 < z then (BitVec.ofInt 64 (2 ^ 63 - 1), 4)
     else (BitVec.ofInt 64 z, 0)) := rfl

/-- A sum outside the INT64 range wraps with iovf (R168). -/
theorem macS_eq (d x y : Word) : macS d x y =
    (let z := d.toInt + x.toInt * y.toInt
     if z < -2 ^ 63 ∨ 2 ^ 63 - 1 < z then (BitVec.ofInt 64 z, 64) else (BitVec.ofInt 64 z, 0)) := by
  have hfits (z : Int) : fitsInt64 z = true ↔ ¬(z < -2 ^ 63 ∨ 2 ^ 63 - 1 < z) := by
    rw [fitsInt64, Bool.and_eq_true, decide_eq_true_eq, decide_eq_true_eq, not_or, Int.not_lt, Int.not_lt]; rfl
  simp only [macS, hfits, ite_not]
  split <;> rfl

/-! ## What a word writes -/

section
variable {s : State} {i : Instr} {g : BitVec 4} {a b d : BitVec 5} {x y : Word} (ha : Reads s a x) (hb : Reads s b y)
  {f : Word → Word → Word × BitVec 7}
include ha

/-- A word of the immediate form whose function gives v writes v, -/
theorem exec_aluRK {f : Word → Word} {v : Word} (hi : exec i s = aluRK i g a d f s) (hf : f x = v) (h : Runs s i g) :
    exec i s = .next (s.setCtx s.curT ((begun s).wr d v)) := by
  rw [hi, aluRK_run h ha, hf]

/-- and raises no flag. -/
theorem exec_aluRK_flagless {f : Word → Word} {v : Word} (hi : exec i s = aluRK i g a d f s) (hf : f x = v) (h : Runs s i g) :
    exec i s = .next (s.setCtx s.curT (((begun s).wr d v).flag 0)) := by
  rw [exec_aluRK ha hi hf h, Ctx.flag_zero]

include hb

/-- A word of the register form whose function gives v and fl writes v, and raises fl. -/
theorem exec_aluRR {v : Word} {fl : BitVec 7} (hi : exec i s = aluRR i g a b d f s) (hf : f x y = (v, fl)) (h : Runs s i g) :
    exec i s = .next (s.setCtx s.curT (((begun s).wr d v).flag fl)) := by
  rw [hi, aluRR_run h ha hb, hf]

/-- A division writes one result for the divisor zero, with dz, and one for every other (R91). -/
theorem exec_divide {v w : Word} (hi : exec i s = aluRR i g a b d f s) (hf : f x y = if y = 0 then (v, flagDz) else (w, 0)) (h : Runs s i g) :
    exec i s =
      .next (if y = 0 then s.setCtx s.curT (((begun s).wr d v).flag 2) else s.setCtx s.curT (((begun s).wr d w).flag 0)) := by
  rw [hi, aluRR_run h ha hb, hf]
  split <;> rfl

/-- A saturating word writes the nearest number of the INT64 range, and raises of where that is another one (R169). -/
theorem exec_saturate {z : Int} (hi : exec i s = aluRR i g a b d f s) (hf : f x y = clamp64 z) (h : Runs s i g) :
    exec i s = .next (if z < -2 ^ 63 then s.setCtx s.curT (((begun s).wr d (BitVec.ofInt 64 (-2 ^ 63))).flag 4)
      else if 2 ^ 63 - 1 < z then s.setCtx s.curT (((begun s).wr d (BitVec.ofInt 64 (2 ^ 63 - 1))).flag 4)
      else s.setCtx s.curT (((begun s).wr d (BitVec.ofInt 64 z)).flag 0)) := by
  rw [hi, aluRR_run h ha hb, hf, clamp64_eq]
  split
  · rfl
  · split <;> rfl

end

/-- An instruction that meets a fault ends the thread with it. -/
theorem scalarInstr_stops {s : State} {i : Instr} {g : BitVec 4} {f : State → ThreadId → Ctx → Except Stop Ctx} {e : Stop} (h : Runs s i g)
    (hf : f s.acting s.curT (begun s) = .error e) : scalarInstr i g f s = .next (s.stop s.curT e (encode i)) := by
  rw [scalarInstr, threadInstr_run h]
  simp [hf]

theorem sel_run {s : State} {a b d e : BitVec 5} {g : BitVec 4} {x y : Word} (h : Runs s (.sel a b d e g) g) (ha : Reads s a x)
    (hb : Reads s b y) : exec (.sel a b d e g) s = .next (s.setCtx s.curT ((begun s).wr d (if (cur s).pred e.toNat then x else y))) := by
  show execSel a b d e g s = _
  exact scalarInstr_run h (by simp [reads_acting ha, reads_acting hb, bind, Except.bind]; rfl)

theorem mac_run {s : State} {a b d : BitVec 5} {g : BitVec 4} {x y : Word} (h : Runs s (.mac a b d g) g) (ha : Reads s a x)
    (hb : Reads s b y) : exec (.mac a b d g) s = .next (s.setCtx s.curT
      (((begun s).wr d (macS ((cur s).regs.get d.toNat) x y).1).flag (macS ((cur s).regs.get d.toNat) x y).2)) := by
  show execMac a b d g s = _
  exact scalarInstr_run h (by simp [reads_acting ha, reads_acting hb, bind, Except.bind])

/-- The width of `zext` that the check of fields lets through (R166). -/
theorem zext_width_le {s : State} {a d : BitVec 5} {k : BitVec 10} {g : BitVec 4} (h : Runs s (.zext a k d g) g) : k.toNat ≤ 63 := by
  obtain ⟨-, -, hform, -⟩ := h
  have hform' : (g != 8 && 1 ≤ k.toNat && k.toNat ≤ 63) = true := hform
  simp only [Bool.and_eq_true, decide_eq_true_eq] at hform'
  exact hform'.2

theorem ldk_run {s : State} {k : BitVec 10} {d : BitVec 5} {g : BitVec 4} (h : Runs s (.ldk k d g) g) :
    exec (.ldk k d g) s = .next (s.setCtx s.curT ((begun s).wr d (BitVec.ofInt 64 k.toInt))) := by
  show execLdk k d g s = _
  exact scalarInstr_run h rfl

theorem ldl_run {s : State} {k : BitVec 10} {d : BitVec 5} {g : BitVec 4} {v : Word} {hd : Handler} (h : Runs s (.ldl k d g) g)
    (hh : s.handler (cur s).sid (cur s).lit = some hd) (hv : hd.lits[k.toNat]? = some v) :
    exec (.ldl k d g) s = .next (s.setCtx s.curT ((begun s).wr d v)) := by
  show execLdl k d g s = _
  exact scalarInstr_run h (by simp [hh, hv])

/-- A literal past the table ends the thread with its index (R151, R165). -/
theorem ldl_past {s : State} {k : BitVec 10} {d : BitVec 5} {g : BitVec 4} {hd : Handler} (h : Runs s (.ldl k d g) g)
    (hh : s.handler (cur s).sid (cur s).lit = some hd) (hk : hd.lits.length ≤ k.toNat) :
    exec (.ldl k d g) s = .next (s.endThread s.curT .bounds (k.setWidth 64) (encode (.ldl k d g))) := by
  show execLdl k d g s = _
  exact scalarInstr_stops h (e := ⟨.bounds, some (k.setWidth 64)⟩) (by simp [hh, List.getElem?_eq_none hk])

end Sys2Proof.Machine

namespace Sys2Proof
open Machine Safety

/-- Settles O2, word by word. -/
theorem scalarResults : Obligations.ScalarResults := by
  refine ⟨fun s a b d g x y ha hb => ?_, fun s a b d e k g x y ha hb => ?_, fun s a d k g x ha => ?_⟩
  · exact ⟨exec_aluRR ha hb rfl rfl, exec_aluRR ha hb rfl (by rw [sub_eq_ofInt]), exec_aluRR ha hb rfl rfl, exec_aluRR ha hb rfl rfl,
      exec_aluRR ha hb rfl rfl, exec_divide ha hb rfl rfl, exec_divide ha hb rfl rfl, exec_divide ha hb rfl rfl, exec_divide ha hb rfl rfl,
      exec_aluRR ha hb rfl rfl, exec_aluRR ha hb rfl rfl, exec_aluRR ha hb rfl rfl, exec_aluRR ha hb rfl rfl, exec_aluRR ha hb rfl rfl,
      exec_aluRR ha hb rfl rfl, exec_aluRR ha hb rfl rfl⟩
  · refine ⟨exec_aluRR ha hb rfl (by simp only [BitVec.slt_iff_toInt_lt]), exec_aluRR ha hb rfl (by simp only [BitVec.slt_iff_toInt_lt]),
      exec_aluRR ha hb rfl (by simp only [BitVec.ult_iff_toNat_lt]), exec_aluRR ha hb rfl (by simp only [BitVec.ult_iff_toNat_lt]),
      fun h => ⟨_, exec_aluRK_flagless ha rfl rfl h, clzN_bounds x 64 x.isLt⟩, exec_aluRK_flagless ha rfl (by rw [popN_eq]),
      exec_aluRK_flagless ha rfl rfl, fun h => ?_, fun h => ?_, fun h => ?_, exec_saturate ha hb rfl rfl, exec_saturate ha hb rfl rfl⟩
    · exact exec_aluRK_flagless ha rfl (zextN_eq x (Nat.le_succ_of_le (zext_width_le h))) h
    · rw [sel_run h ha hb, ← Ctx.flag_zero ((begun s).wr d _)]
    · rw [mac_run h ha hb, macS_eq]
      dsimp only
      split <;> rfl
  · exact ⟨exec_aluRK ha rfl (add_sext10 x k), exec_aluRK ha rfl rfl, exec_aluRK ha rfl rfl, exec_aluRK ha rfl rfl, exec_aluRK ha rfl rfl,
      exec_aluRK ha rfl rfl, exec_aluRK ha rfl rfl, ldk_run, exec_aluRK ha rfl (shiftLeft_or_const x k),
      fun h hd hh => ⟨fun v hv => ldl_run h hh hv, fun hk => ldl_past h hh hk⟩⟩

end Sys2Proof
end

section
/-! PROOF of O5, O4 and O3. Compares and predicates (R170 to R173), and where the PC goes (R33, R36, R37, R174 to R176, R178). -/

namespace Sys2Proof.Machine

open Sys2Proof Sys2Proof.Safety

/-! ## Compares and predicates -/

theorem sext10_toInt (k : BitVec 10) : (sext10 k).toInt = k.toInt := BitVec.toInt_signExtend_of_le (by decide)

section
variable {s : State} {i : Instr} {g : BitVec 4} {a b d e : BitVec 5} {k : BitVec 10} {x y : Word}

/-- A compare of two registers whose test says p writes p, and its complement where a second predicate is named (R170). -/
theorem exec_cmpRR {f : Word → Word → Bool} {p : Bool} (ha : Reads s a x) (hb : Reads s b y) (hi : exec i s = cmpRR i g a b d e f s)
    (hf : f x y = p) (h : Runs s i g) : exec i s = .next (s.setCtx s.curT
      (if e = 0 then (begun s).setPred d.toNat p else ((begun s).setPred d.toNat p).setPred e.toNat (!p))) := by
  rw [hi, cmpRR_run h ha hb, hf]

/-- A compare with an immediate writes what its test says (R171). -/
theorem exec_cmpRK {f : Word → Bool} {p : Bool} (ha : Reads s a x) (hi : exec i s = cmpRK i g a d f s) (hf : f x = p)
    (h : Runs s i g) : exec i s = .next (s.setCtx s.curT ((begun s).setPred d.toNat p)) := by
  rw [hi, cmpRK_run h ha, hf]

theorem cmpkEq_run (ha : Reads s a x) (h : Runs s (.cmpkEq a k d g) g) :
    exec (.cmpkEq a k d g) s = .next (s.setCtx s.curT ((begun s).setPred d.toNat (decide (x.toInt = k.toInt)))) :=
  exec_cmpRK ha rfl (by rw [← sext10_toInt, Bool.eq_iff_iff, beq_iff_eq, decide_eq_true_eq, BitVec.toInt_inj]) h

theorem cmpkLt_run (ha : Reads s a x) (h : Runs s (.cmpkLt a k d g) g) :
    exec (.cmpkLt a k d g) s = .next (s.setCtx s.curT ((begun s).setPred d.toNat (decide (x.toInt < k.toInt)))) :=
  exec_cmpRK ha rfl (by rw [← sext10_toInt, BitVec.slt]) h

theorem pget_run (h : Runs s (.pget a d g) g) :
    exec (.pget a d g) s = .next (s.setCtx s.curT ((begun s).wr d (if (cur s).pred a.toNat then 1 else 0))) := by
  show execPget a d g s = _
  exact scalarInstr_run h rfl

end

/-- A predicate that may not be written fails the check of fields (R44, R150). -/
theorem predW_false {d : BitVec 5} (h : d.toNat = 0 ∨ 7 < d.toNat) : WellFormed.predW d = false := by
  rw [WellFormed.predW, Bool.and_eq_false_iff, decide_eq_false_iff_not, decide_eq_false_iff_not]
  omega

theorem bne_eq_decide (x y : Word) : (x != y) = decide (x ≠ y) := by
  rw [decide_not]; rfl

/-! ## The PC -/

/-- A code address of R36. -/
def CodeAddr (pc : Word) : Prop := pc.toNat < 2 ^ 28 ∧ pc.toNat % 4 = 0

theorem nextPc_inside {pc : Word} (h : pc.toNat % 65536 ≠ 65532) : nextPc pc = pc + 4 := by
  rw [nextPc, if_neg (by simpa [bitsN] using h)]

theorem nextPc_last {pc : Word} (h : pc.toNat % 65536 = 65532) : nextPc pc = pc ||| fld 1 28 := by
  rw [nextPc, if_pos (by simpa [bitsN] using h)]

/-- Bit 28, which the PC past a full handler has and no code address has (log 17). -/
theorem bit28_set {pc : Word} (h : pc.toNat < 2 ^ 28) : bitsN (pc ||| fld 1 28) 28 28 = 1 := by
  have hor : pc.toNat ||| 2 ^ 28 = 2 ^ 28 + pc.toNat := by
    rw [Nat.or_comm, ← Nat.mul_one (2 ^ 28), ← Nat.two_pow_add_eq_or_of_lt h]
  have hfld : (fld 1 28).toNat = 2 ^ 28 := by decide
  rw [bitsN, BitVec.toNat_or, hfld, hor]
  omega

theorem bit28_clear {pc : Word} (h : pc.toNat < 2 ^ 28) : (pc ||| fld 1 28) &&& ~~~(fld 1 28) = pc := by
  have hfld : fld 1 28 = BitVec.twoPow 64 28 := by decide
  have hpc : pc.getLsbD 28 = false := Nat.testBit_lt_two_pow h
  ext i hi
  by_cases h28 : i = 28
  · subst h28; simpa [hfld] using hpc
  · simp [hfld, h28]

/-- The PC goes back to the instruction that was issued (R205). -/
theorem prevPc_nextPc {pc : Word} (h : CodeAddr pc) : prevPc (nextPc pc) = pc := by
  obtain ⟨hlt, hword⟩ := h
  by_cases hlast : pc.toNat % 65536 = 65532
  · rw [nextPc_last hlast, prevPc, if_pos (bit28_set hlt), bit28_clear hlt]
  · have hsum : (pc + 4).toNat = pc.toNat + 4 := BitVec.toNat_add_of_lt (by change pc.toNat + 4 < 2 ^ 64; omega)
    rw [nextPc_inside hlast, prevPc, if_neg (by rw [bitsN, hsum]; omega), BitVec.add_sub_cancel]

/-- Writing a port leaves the PC. -/
@[simp] theorem Ctx.wr_pc (c : Ctx) (p : BitVec 5) (v : Word) : (c.wr p v).pc = c.pc := by
  simp only [Ctx.wr, Ctx.setPw]
  split
  · rfl
  · split <;> rfl

/-- Where a branch leads, whose PC has been counted on already (R33). -/
theorem branchPc_back {s : State} {c : Ctx} (hpc : CodeAddr (cur s).pc) (hc : c.pc = (begun s).pc) (o : BitVec 15) :
    branchPc c.back.pc o = (cur s).pc + (o.signExtend 64 <<< 2) := by
  rw [Ctx.back, hc, begun_pc, prevPc_nextPc hpc, branchPc]

section
variable {s : State} {i : Instr} {g : BitVec 4} {a : BitVec 5} {o : BitVec 15} {x : Word} (hpc : CodeAddr (cur s).pc)
include hpc

/-- A branch goes to its target where its test holds, and past itself where it does not (R174). -/
theorem exec_branch {f : Word → Bool} {p : Prop} [Decidable p] (ha : Reads s a x) (hi : exec i s = branch i g a o f s)
    (hf : f x = true ↔ p) (h : Runs s i g) : exec i s = .next (s.setCtx s.curT
      { begun s with pc := if p then (cur s).pc + (o.signExtend 64 <<< 2) else (begun s).pc }) := by
  rw [hi, branch_run h ha, branchPc_back hpc rfl]
  by_cases hp : p
  · rw [if_pos (hf.2 hp), if_pos hp]
  · rw [if_neg (mt hf.1 hp), if_neg hp]

theorem br_run (h : Runs s (.br o g) g) :
    exec (.br o g) s = .next (s.setCtx s.curT { begun s with pc := (cur s).pc + (o.signExtend 64 <<< 2) }) := by
  rw [exec_branch hpc (p := True) (a := 10) (f := fun _ => true) (reads_z rfl) rfl (by simp) h, if_pos trivial]

/-- The word after `jl` is what h9 takes (R175). -/
theorem jl_run (h : Runs s (.jl o g) g) : exec (.jl o g) s = .next (s.setCtx s.curT
    { (begun s).wr 9 (begun s).pc with pc := (cur s).pc + (o.signExtend 64 <<< 2) }) := by
  rw [← branchPc_back (c := begun s) hpc rfl]
  show execJl o g s = _
  exact scalarInstr_run h rfl

/-- `loop` counts down and branches while the count is not zero (R176). -/
theorem loop_run (h : Runs s (.loop a o g) g) : exec (.loop a o g) s = .next (s.setCtx s.curT
    { (begun s).wr a ((cur s).regs.get a.toNat - 1) with
      pc := if (cur s).regs.get a.toNat - 1 = 0 then (begun s).pc else (cur s).pc + (o.signExtend 64 <<< 2) }) := by
  have hback := branchPc_back (c := (begun s).wr a ((cur s).regs.get a.toNat - 1)) hpc (Ctx.wr_pc _ _ _) o
  show execLoop a o g s = _
  by_cases hzero : (cur s).regs.get a.toNat - 1 = 0
  · rw [if_pos hzero, ← Ctx.wr_pc (begun s) a ((cur s).regs.get a.toNat - 1)]
    exact scalarInstr_run h (congrArg Except.ok (if_pos hzero))
  · rw [if_neg hzero, ← hback]
    exact scalarInstr_run h (congrArg Except.ok (if_neg hzero))

end

theorem nop_run {s : State} {g : BitVec 4} (h : Runs s (.nop g) g) : exec (.nop g) s = .next (s.setCtx s.curT (begun s)) := by
  show execNop g s = _
  exact scalarInstr_run h rfl

/-- A jump checks its target but for the offset (R37, R175). -/
theorem jr_run {s : State} {a : BitVec 5} {g : BitVec 4} {x : Word} (ha : Reads s a x) (h : Runs s (.jr a g) g) : exec (.jr a g) s =
    if x.toNat % 4 ≠ 0 then .next (s.endThread s.curT .align x (encode (.jr a g)))
    else if 2 ^ 28 ≤ x.toNat ∨ s.handler (cur s).sid (x.toNat / 65536) = none then
      .next (s.endThread s.curT .bounds x (encode (.jr a g)))
    else .next (s.setCtx s.curT { begun s with pc := x }) := by
  have hlow : bitsN x 1 0 ≠ 0 ↔ x.toNat % 4 ≠ 0 := by simp [bitsN]
  have hcode : (bitsN x 63 28 ≠ 0 || (s.acting.handler (begun s).sid (bitsN x 27 16)).isNone) = true ↔
      2 ^ 28 ≤ x.toNat ∨ s.handler (cur s).sid (x.toNat / 65536) = none := by
    have hx := x.isLt
    have hhigh : bitsN x 63 28 ≠ 0 ↔ 2 ^ 28 ≤ x.toNat := by rw [bitsN]; omega
    have hmid (hlt : ¬2 ^ 28 ≤ x.toNat) : bitsN x 27 16 = x.toNat / 65536 := by rw [bitsN]; omega
    rw [Bool.or_eq_true, decide_eq_true_eq, hhigh, Option.isNone_iff_eq_none, begun_sid, State.handler_setCtx]
    by_cases hout : 2 ^ 28 ≤ x.toNat
    · exact iff_of_true (.inl hout) (.inl hout)
    · rw [hmid hout]
  show execJr a g s = _
  unfold execJr
  split
  case isTrue hword =>
    refine scalarInstr_stops h (e := ⟨.align, some x⟩) ?_
    simp only [reads_acting ha, bind, Except.bind]
    exact if_pos (hlow.2 hword)
  case isFalse hword =>
    have hword' := mt hlow.1 hword
    split
    case isTrue hout =>
      refine scalarInstr_stops h (e := ⟨.bounds, some x⟩) ?_
      simp only [reads_acting ha, bind, Except.bind]
      exact (if_neg hword').trans (if_pos (hcode.2 hout))
    case isFalse hin =>
      refine scalarInstr_run h ?_
      simp only [reads_acting ha, bind, Except.bind]
      exact (if_neg hword').trans (if_neg (mt hcode.1 hin))

end Sys2Proof.Machine

namespace Sys2Proof
open Machine Safety

/-- Settles O5: the words by their layout, D by the check of fields, the compares as their tests. -/
theorem immediateCompares : Obligations.ImmediateCompares := by
  intro s a d k g x
  refine ⟨rfl, rfl, ?_, ?_, fun hready _ hport hd => ?_, cmpkEq_run, cmpkLt_run⟩
  · exact BitVec.le_toInt k
  · exact Int.le_of_lt_add_one (BitVec.toInt_lt (x := k))
  · have hform : (g != 8 && WellFormed.predW d) = false := by rw [predW_false hd, Bool.and_false]
    obtain ⟨-, heq, -⟩ := orderOfChecks s (.cmpkEq a k d g) g rfl hready
    obtain ⟨-, hlt, -⟩ := orderOfChecks s (.cmpkLt a k d g) g rfl hready
    exact ⟨heq hport hform, hlt hport hform⟩

/-- Settles O4: the register field is checked with the ports, and each case of the count is one of `loop_run`. -/
theorem loopCountsDown : Obligations.LoopCountsDown := by
  intro s a o g hlt hword h there
  have hpc : CodeAddr (cur s).pc := ⟨hlt, hword⟩
  refine ⟨rfl, fun hready hport => ?_, fun hrun => ⟨fun hv => ?_, fun hv => ?_, fun hv => ?_⟩⟩
  · have hreg : WellFormed.regH a = false := decide_eq_false (Nat.not_le.2 hport)
    obtain ⟨hcheck, -⟩ := orderOfChecks s (.loop a o g) g rfl hready
    exact hcheck hreg
  · rw [loop_run hpc hrun, if_neg hv]
  · rw [loop_run hpc hrun, if_pos hv, hv, ← Ctx.wr_pc (begun s) a 0]
  · have hall : (cur s).regs.get a.toNat - 1 = BitVec.allOnes 64 := by rw [show (cur s).regs.get a.toNat = 0 from hv]; decide
    rw [loop_run hpc hrun, hall, if_neg (by decide)]

/-- Settles O3, word by word. -/
theorem predicatesAndBranches : Obligations.PredicatesAndBranches := by
  refine ⟨fun s a b d e k g x y ha hb => ?_, fun s a o g x ha hlt hword => ?_⟩
  · exact ⟨exec_cmpRR ha hb rfl rfl, exec_cmpRR ha hb rfl (bne_eq_decide x y), exec_cmpRR ha hb rfl rfl, exec_cmpRR ha hb rfl rfl,
      exec_cmpRR ha hb rfl rfl, exec_cmpRR ha hb rfl rfl, cmpkEq_run ha, cmpkLt_run ha, exec_cmpRK ha rfl (bne_eq_decide x 0),
      fun v => ⟨fun h => predRR_run h _, fun h => predRR_run h _, fun h => predRR_run h _⟩, pget_run⟩
  · have hpc : CodeAddr (cur s).pc := ⟨hlt, hword⟩
    exact ⟨nextPc_inside, br_run hpc, exec_branch hpc ha rfl (by simp), exec_branch hpc ha rfl (by simp), jl_run hpc,
      loop_run hpc, nop_run, jr_run ha⟩

end Sys2Proof
end

section
/-! REFUTATION of O8. A lockkeeper's send unit writes what it keeps of an item under the item's own number, so a fault barge is kept as it was
sent only where each kept item stands under its number; the statement is about every state, and names no such condition. -/

namespace Sys2Proof.Machine

open Sys2Proof Sys2Proof.Safety

/-- A thread of a core whose route word names another node (R102), as its die is none of the device's: the lockkeeper's barges to this core
take their turn in the send unit (R109). -/
def awayThread : ThreadId := ⟨.hc 2 0 0, 0⟩

/-- A barge without payload, kept unsent for this core, whose item has the number 0. -/
def unkeyedSend : SendRec where
  item :=
    { load := .barge { route := coreWord 0 awayThread.core, ctl := 0, payload := [], src := 0, sid := 0, origin := none },
      id := 0, rel := none, prio := 0 }
  dst := awayThread.core

/-- A handler with the fault edge 0. -/
def faultHandler : Handler where
  rank := 0
  units := 0
  edge := 0
  entry := 0
  code := []
  lits := []

/-- The state after reset with that thread's handler loaded, and that barge kept under the number 1, where the next number is 0. -/
def unkeyedState : State :=
  { State.reset with jobs := [(0, { handlers := [(0, faultHandler)] })], lockSends := [((2, 1), unkeyedSend)] }

/-- The fault barge of the thread's end takes the number 0, and the older barge, which is sent first, is then kept in its place. -/
theorem unkeyedSend_replaces_fault :
    tfind (unkeyedState.endThread awayThread .trapSw 0 0).lockSends (2, 0) = some { unkeyedSend with sent := true } := rfl

end Sys2Proof.Machine

namespace Sys2Proof
open Machine Safety

/-- Refutes O8: in `unkeyedState`, an older barge kept under a number that is not its own overwrites what the lockkeeper keeps of the fault
barge, and what stands under the fault barge's number has no payload. -/
theorem not_trapsAndEndings : ¬ Obligations.TrapsAndEndings := by
  rintro ⟨-, ⟨hending, -⟩, -, -⟩
  obtain ⟨-, -, -, hbarge⟩ := hending unkeyedState awayThread .trapSw 0 0 faultHandler rfl rfl
  obtain ⟨r, y, hkept, hload, -, -, -, hpayload⟩ := hbarge (by decide)
  obtain rfl : { unkeyedSend with sent := true } = r := Option.some.inj (unkeyedSend_replaces_fault.symm.trans hkept)
  obtain rfl : _ = y := Load.barge.inj hload
  exact absurd hpayload (List.cons_ne_nil _ _).symm

end Sys2Proof
end

section
/-! PROOF of O19. The stream instructions of an element (R178, R181, R296 to R306). -/

namespace Sys2Proof.Machine

open Sys2Proof Sys2Proof.Safety Sys2Proof.Laws

/-! ## Heads -/

theorem Plane.latch_of_headAt {p : Plane} {n c : Nat} {l : Latch} (h : p.headAt n c = some l) : tfind p.latch n = some l := by
  cases hl : tfind p.latch n with
  | none => simp [Plane.headAt, hl] at h
  | some x =>
    simp only [Plane.headAt, hl, Option.ite_none_right_eq_some] at h
    obtain ⟨-, h⟩ := h
    exact h

section
variable {p : Plane} {cycle : Nat} {a b : BitVec 5} {x y : Latch}

/-- Of two heads `mergeu` takes the one that became a head first, and the first source's of two as old (R300). -/
theorem mergeuSel_both (hx : p.headAt a.toNat cycle = some x) (hxk : x.tok.kind ≠ .eos) (hy : p.headAt b.toNat cycle = some y)
    (hyk : y.tok.kind ≠ .eos) : mergeuSel p cycle a b = some (if y.since < x.since then b.toNat else a.toNat) := by
  simp [mergeuSel, hx, hxk, hy, hyk]

/-- It takes no EOS. -/
theorem mergeuSel_fst (hx : p.headAt a.toNat cycle = some x) (hxk : x.tok.kind ≠ .eos)
    (hb : ∀ l, p.headAt b.toNat cycle = some l → l.tok.kind = .eos) : mergeuSel p cycle a b = some a.toNat := by
  cases hy : p.headAt b.toNat cycle with
  | none => simp [mergeuSel, hx, hxk, hy]
  | some y => simp [mergeuSel, hx, hxk, hy, hb y hy]

theorem mergeuSel_snd (hy : p.headAt b.toNat cycle = some y) (hyk : y.tok.kind ≠ .eos)
    (ha : ∀ l, p.headAt a.toNat cycle = some l → l.tok.kind = .eos) : mergeuSel p cycle a b = some b.toNat := by
  cases hx : p.headAt a.toNat cycle with
  | none => simp [mergeuSel, hx, hy, hyk]
  | some x => simp [mergeuSel, hx, hy, hyk, ha x hx]

end

/-! ## Results -/

/-- A token with its sources' poison added. -/
def Token.taint (v : Token) (bad : Bool) : Token := { v with poison := v.poison || bad }

/-- A token that has a source's poison already is not changed by it. -/
theorem Token.taint_own {v : Token} {bad : Bool} (h : v.poison = bad) : v = v.taint (bad || false) := by
  cases v
  simp_all [Token.taint]

section
variable {s : State} {i : Instr} {t : BitVec 32} {a b : Option (BitVec 5)} {f : Plane → Nat → BitVec 32 → Token → Token → Fired}
  (hi : exec i s = stdFire i a b f s)
include hi

/-- A firing whose one result goes where the tag action says. -/
theorem exec_yields {p : Plane} {x v : Token}
    (hf : f { mine s with sp := (sources s t a b).2.2 } s.cycle t (sources s t a b).1 (sources s t a b).2.1 = one p x)
    (hv : v = x.taint ((sources s t a b).1.poison || (sources s t a b).2.1.poison)) (h : Fires s i t) :
    exec i s = .next (yields s i t p v) := by
  rw [hi, stdFire_one h hf hv]

/-- A firing that names its writes, or its pops, itself. -/
theorem exec_lands {p : Plane} {x : Token} {ws : Option (List (BitVec 5 × Token))} {cs : Option (List Nat)}
    (hf : f { mine s with sp := (sources s t a b).2.2 } s.cycle t (sources s t a b).1 (sources s t a b).2.1 =
      { p := p, x := x, y := x, writes := ws, pops := cs }) (h : Fires s i t) :
    let bad := (sources s t a b).1.poison || (sources s t a b).2.1.poison
    exec i s = .next (landed ((counted s).setPlane s.curR.plane p) s.curR i t
      ((ws.map (fun l => l.map (fun q => (q.1, q.2.taint bad)))).getD (tagWrites (encode i) (x.taint bad) (x.taint bad))) x.data
      (cs.getD (maskList (trPop t)))) := by
  intro bad
  rw [hi, stdFire_of_fires h]
  simp only [hf]
  cases ws
  case none =>
    have hmap := tagWrites_map (encode i) x x (fun k => k.taint bad)
    simp only [Option.getD_none, Option.map_none, ← hmap]
    rfl
  case some l => rfl

/-- One that gives acc a new value after its writes. -/
theorem exec_lands_acc {p : Plane} {x : Token} {v : BitVec 128}
    (hf : f { mine s with sp := (sources s t a b).2.2 } s.cycle t (sources s t a b).1 (sources s t a b).2.1 =
      { p := p, x := x, y := x, acc := some v }) (h : Fires s i t) :
    let y := x.taint ((sources s t a b).1.poison || (sources s t a b).2.1.poison)
    exec i s = .next (popped
      ((landed ((counted s).setPlane s.curR.plane p) s.curR i t (tagWrites (encode i) y y) x.data []).onPlane s.curR.plane
        (fun p => { p with acc := v })) s.curR (maskList (trPop t))) := by
  intro y
  have hmap := tagWrites_map (encode i) x x
    (fun k => k.taint ((sources s t a b).1.poison || (sources s t a b).2.1.poison))
  rw [hi, stdFire_of_fires h]
  simp only [hf, Option.getD_none, y, ← hmap]
  rfl

end

/-- A word of one source that keeps its poison. -/
theorem exec_relabels {s : State} {i : Instr} {t : BitVec 32} {a : BitVec 5} {g : Token → Token}
    (hi : exec i s = stdFire i (some a) none (fun p _ _ x _ => one p (g x)) s) (hg : ∀ x, (g x).poison = x.poison) (h : Fires s i t) :
    exec i s = .next (yields s i t { mine s with sp := (sources s t (some a) none).2.2 } (g (sources s t (some a) none).1)) :=
  exec_yields hi rfl (Token.taint_own (hg _)) h

section
variable {s : State} {t : BitVec 32} {a b d e : BitVec 5} {k : BitVec 10} {g : BitVec 4}

theorem nopElement_run (h : Fires s (.nopElement d e g) t) :
    exec (.nopElement d e g) s = .next (yields s (.nopElement d e g) t (mine s) {}) := by
  have hexec : exec (.nopElement d e g) s = execNopElement d e g s := rfl
  exact exec_yields hexec rfl rfl h

theorem statElement_run (h : Fires s (.statElement k d g) t) :
    exec (.statElement k d g) s = .next
      (if k = 2 then yields s (.statElement k d g) t (mine s) { data := (mine s).g.setWidth 128 }
       else if k = 1 then yields s (.statElement k d g) t { mine s with flags := 0 } { data := (mine s).flags.setWidth 128 }
       else yields s (.statElement k d g) t (mine s) { data := (mine s).flags.setWidth 128 }) := by
  have hexec : exec (.statElement k d g) s = execStatElement k d g s := rfl
  split
  case isTrue hk => exact exec_yields hexec (if_pos hk) rfl h
  case isFalse hk =>
    split
    case isTrue hk1 => exact exec_yields hexec ((if_neg hk).trans (by rw [if_pos hk1]; rfl)) rfl h
    case isFalse hk1 => exact exec_yields hexec ((if_neg hk).trans (by rw [if_neg hk1]; rfl)) rfl h

/-- One of two tokens, with the poison of both (R297). -/
theorem Token.taint_chosen (c : Bool) (x y : Token) : { (if c then x else y) with poison := x.poison || y.poison } =
    (if c then x else y).taint (x.poison || y.poison) := by
  cases c <;> simp [Token.taint, Bool.or_comm y.poison]

theorem pick_run (h : Fires s (.pick a b d e g) t) :
    let z := sources s t (some a) (some b)
    exec (.pick a b d e g) s = .next (yields s (.pick a b d e g) t { mine s with sp := z.2.2 }
      { (if (mine s).q.getLsbD e.toNat then z.1 else z.2.1) with poison := z.1.poison || z.2.1.poison }) := by
  have hexec : exec (.pick a b d e g) s = execPick a b d e g s := rfl
  exact exec_yields hexec rfl (Token.taint_chosen _ _ _) h

/-- The first of two tokens, with the poison of both (R464). -/
theorem Token.taint_first (x y : Token) : x.taint (x.poison || y.poison) = { x with poison := x.poison || y.poison } := by
  simp [Token.taint]

theorem steer_run (h : Fires s (.steer a b d e) t) :
    let z := sources s t (some a) (some b)
    let v : Token := { z.1 with poison := z.1.poison || z.2.1.poison }
    exec (.steer a b d e) s = .next (landed ((counted s).setPlane s.curR.plane { mine s with sp := z.2.2 }) s.curR (.steer a b d e) t
      [(if laneTest (trFmt t) z.2.1.data then d else e, v)] v.data (maskList (trPop t))) := by
  have hexec : exec (.steer a b d e) s = execSteer a b d e s := rfl
  intro z v
  rw [exec_lands hexec rfl h]
  simp only [Option.map_some, Option.getD_some, List.map_cons, List.map_nil, Token.taint_first]
  rfl

theorem guard_run (h : Fires s (.guard a b d) t) :
    let z := sources s t (some a) (some b)
    let v : Token := { z.1 with poison := z.1.poison || z.2.1.poison }
    exec (.guard a b d) s = .next (landed ((counted s).setPlane s.curR.plane { mine s with sp := z.2.2 }) s.curR (.guard a b d) t
      (if laneTest (trFmt t) z.2.1.data then [(d, v)] else []) v.data (maskList (trPop t))) := by
  have hexec : exec (.guard a b d) s = execGuard a b d s := rfl
  intro z v
  rw [exec_lands hexec rfl h]
  simp only [Option.map_some, Option.getD_some, apply_ite (List.map _), List.map_cons, List.map_nil, Token.taint_first]
  rfl

/-- A source channel gives its head, and leaves sp (R40). -/
theorem sources_latch {c : Latch} (ha : a.toNat ≤ 7) (hc : tfind (mine s).latch a.toNat = some c) :
    sources s t (some a) none = (c.tok, {}, (mine s).sp) := by
  simp only [sources, Plane.two, Plane.read_latch ha hc]

theorem merge_run (h : Fires s (.merge a k d g) t) (ha : a.toNat ≤ 7) {c l : Latch} (hc : tfind (mine s).latch a.toNat = some c) :
    let n := if laneTest (trFmt t) c.tok.data then k.toNat % 8 else k.toNat / 8 % 8
    tfind (mine s).latch n = some l → exec (.merge a k d g) s = .next
      (let y : Token := { l.tok with poison := l.tok.poison || c.tok.poison }
       landed ((counted s).setPlane s.curR.plane (mine s)) s.curR (.merge a k d g) t (tagWrites (encode (.merge a k d g)) y y) y.data
         [a.toNat, n]) := by
  intro n hl
  have hexec : exec (.merge a k d g) s = execMerge a k d g s := rfl
  have hsrc : sources s t (some a) none = (c.tok, {}, (mine s).sp) := sources_latch ha hc
  have hsel : mergeSel (mine s) (trFmt t) a k = n := by rw [mergeSel, hc]
  have htaint : (l.tok.taint c.tok.poison).taint (c.tok.poison || false) = l.tok.taint c.tok.poison := by
    simp [Token.taint]
  rw [exec_lands hexec (p := mine s) (x := l.tok.taint c.tok.poison) (ws := none) (cs := some [a.toNat, n]) ?_ h]
  · rw [hsrc]
    simp only [Option.map_none, Option.getD_none, Option.getD_some, htaint]
    rfl
  · rw [hsrc]
    simp only [hsel, hl]
    rfl

/-- What `rep` does by the number of times it has pushed its token (R303). -/
theorem rep_run (h : Fires s (.rep a b d e g) t) :
    let z := sources s t (some a) (some b)
    let v : Token := { z.1 with poison := z.1.poison || z.2.1.poison }
    let n := z.2.1.data.toNat % 2 ^ 32
    exec (.rep a b d e g) s = .next
      (let out (p : Plane) (cs : List Nat) : State :=
         landed ((counted s).setPlane s.curR.plane p) s.curR (.rep a b d e g) t (tagWrites (encode (.rep a b d e g)) v v) v.data cs
       if n ≤ (mine s).rc + 1 then out { mine s with sp := z.2.2, rc := 0 } (maskList (trPop t))
       else out { mine s with sp := z.2.2, rc := (mine s).rc + 1 } []) := by
  intro z v n
  have hexec : exec (.rep a b d e g) s = execRep a b d e g s := rfl
  have hn : max 1 (bitsN z.2.1.data 31 0) ≤ (mine s).rc + 1 ↔ n ≤ (mine s).rc + 1 := by
    have hbits : bitsN z.2.1.data 31 0 = n := by simp [bitsN, n]
    rw [hbits]; omega
  split
  case isTrue hle =>
    rw [exec_lands hexec (if_pos (hn.2 hle)) h, Token.taint_first]
    rfl
  case isFalse hgt =>
    rw [exec_lands hexec (if_neg (mt hn.1 hgt)) h, Token.taint_first]
    rfl

theorem gen_run (h : Fires s (.gen a d e g) t) :
    let f := trFmt t
    exec (.gen a d e g) s = .next
      (let x := sources s t (some a) none
       let y : Token := { data := (mine s).acc, poison := x.1.poison }
       let ls := (List.range f.lanes).map (fun i => match f with
         | .flt h => h.add (trMode t) (lane f (mine s).acc i) (lane f x.1.data i)
         | .int h => ((lane f (mine s).acc i + lane f x.1.data i) % 2 ^ h.width, (0 : BitVec 7)))
       let p : Plane := { mine s with sp := x.2.2, flags := ls.foldl (fun m l => m ||| l.2) (mine s).flags }
       popped ((landed ((counted s).setPlane s.curR.plane p) s.curR (.gen a d e g) t (tagWrites (encode (.gen a d e g)) y y) y.data []).onPlane
         s.curR.plane (fun p => { p with acc := ofLanes f.bits (ls.map Prod.fst) })) s.curR (maskList (trPop t))) := by
  have hexec : exec (.gen a d e g) s = execGen a d e g s := rfl
  have htaint (x : Token) : ({ data := (mine s).acc } : Token).taint (x.poison || false) = { data := (mine s).acc, poison := x.poison } := by
    simp [Token.taint]
  have hsnd : (sources s t (some a) none).2.1.poison = false := rfl
  intro f
  rw [exec_lands_acc hexec rfl h, hsnd, htaint] <;> rfl

/-! ## `mergeu` -/

/-- Counting a firing leaves the plane's rules. -/
theorem counted_rule (s : State) : (counted s).rule s.curR = s.rule s.curR := by
  have hrules : ((counted s).plane s.curR.plane).rules = (s.plane s.curR.plane).rules := by
    rw [counted, State.firedOnce, State.plane_onPlane]; rfl
  rw [State.rule, State.rule, hrules]

/-- `mergeu` gives the head it takes (R300). -/
theorem mergeu_takes (h : Fires s (.mergeu a b d g) t) {n : Nat} {l : Latch} (hsel : mergeuSel (mine s) s.cycle a b = some n)
    (hl : (mine s).headAt n s.cycle = some l) : exec (.mergeu a b d g) s = .next
      (landed (counted s) s.curR (.mergeu a b d g) t (tagWrites (encode (.mergeu a b d g)) l.tok l.tok) l.tok.data [n]) := by
  have hlatch : tfind (mine s).latch n = some l := Plane.latch_of_headAt hl
  have hword : s.rule s.curR = some (encode (.mergeu a b d g), t) := h.1
  show execMergeu a b d g s = _
  rw [execMergeu, elemInstr_of_fires h]
  have hsel' : mergeuSel ((counted s).plane s.curR.plane) (counted s).cycle a b = some n := hsel
  have hrule' := (counted_rule s).trans hword
  have hlatch' : tfind ((counted s).plane s.curR.plane).latch n = some l := hlatch
  simp only [counted] at hsel' hrule' hlatch'
  simp only [hsel', hrule', hlatch']
  rfl

end

end Sys2Proof.Machine

namespace Sys2Proof
open Machine Safety Laws

/-- Settles O19, word by word. -/
theorem streamRules : Obligations.StreamRules := by
  refine ⟨fun s t a b d e k g => ?_, fun s t a b d e k g => ?_⟩
  · exact ⟨nopElement_run, statElement_run, exec_relabels rfl (fun _ => rfl), exec_relabels rfl (fun _ => rfl),
      exec_relabels (g := fun x => { x with kind := .eos }) rfl (fun _ => rfl),
      exec_relabels (g := fun x => { x with kind := .ctrl }) rfl (fun _ => rfl),
      exec_relabels (g := fun x => { x with kind := .data }) rfl (fun _ => rfl), pick_run⟩
  · intro r f z v s2 pops
    refine ⟨steer_run, guard_run, fun h ha c l hc => merge_run h ha hc, fun h => ?_, rep_run, gen_run⟩
    intro take eos
    refine ⟨fun x y hx hxk hy hyk => ?_, fun x hx hxk hb => mergeu_takes h (mergeuSel_fst hx hxk hb) hx,
      fun y hy hyk ha => mergeu_takes h (mergeuSel_snd hy hyk ha) hy⟩
    have hsel := mergeuSel_both hx hxk hy hyk
    split
    case isTrue hage => exact mergeu_takes h (hsel.trans (by rw [if_pos hage])) hy
    case isFalse hage => exact mergeu_takes h (hsel.trans (by rw [if_neg hage])) hx

end Sys2Proof
end

section
/-! PROOF of O10. The checks of an effective address (R211 to R213, R221, R413). -/

namespace Sys2Proof.Machine

open Sys2Proof

/-! ## The kind of an address (R211) -/

theorem kind_local {ea : Word} (h : ea.toNat < 2 ^ 62) : bitsN ea 63 62 = 0 := by simp only [bitsN]; omega

theorem kind_fabric {ea : Word} (h1 : 2 ^ 62 ≤ ea.toNat) (h2 : ea.toNat < 2 ^ 63) : bitsN ea 63 62 = 1 := by simp only [bitsN]; omega

theorem kind_global {ea : Word} (h1 : 2 ^ 63 ≤ ea.toNat) (h2 : ea.toNat < 2 ^ 63 + 2 ^ 62) : bitsN ea 63 62 = 2 := by
  simp only [bitsN]; omega

theorem kind_window {ea : Word} (h : 2 ^ 63 + 2 ^ 62 ≤ ea.toNat) : bitsN ea 63 62 = 3 := by simp only [bitsN]; omega

/-! ## Their forms (R212) -/

/-- The bits of a local address above the largest local memory are zero where it lies below 2^18. -/
theorem form_local {ea : Word} (h : ea.toNat < 2 ^ 62) : bitsN ea 61 18 ≠ 0 ↔ 2 ^ 18 ≤ ea.toNat := by simp only [bitsN]; omega

theorem offset_local {ea : Word} (h : ¬ 2 ^ 18 ≤ ea.toNat) : bitsN ea 17 0 = ea.toNat := by simp only [bitsN]; omega

theorem form_global {ea : Word} (h1 : 2 ^ 63 ≤ ea.toNat) (h2 : ea.toNat < 2 ^ 63 + 2 ^ 62) :
    bitsN ea 61 57 ≠ 0 ↔ 2 ^ 63 + 2 ^ 57 ≤ ea.toNat := by simp only [bitsN]; omega

theorem position_window (ea : Word) : bitsN ea 48 41 = bitsN ea 61 41 % 256 := by simp only [bitsN]; omega

/-! ## Absent units (R3) -/

theorem dies_le_iff (p : Part) {die : Nat} (h : die < 2) : p.dies ≤ die ↔ die = 1 ∧ p = .hz480 := by
  cases p <;> simp [Part.dies] <;> omega

theorem railAbsent_iff (s : State) (n : Nat) : railAbsent s n = true ↔ n / 256 ≠ s.node / 256 ∧ s.part ≠ .hz960 := by
  cases h : s.part <;> simp [railAbsent, otherRack, h, Part.caps]

end Sys2Proof.Machine

namespace Sys2Proof
open Machine

/-- Settles O10, kind by kind. -/
theorem addressChecks : Obligations.AddressChecks := by
  intro s t ea al len win no got a
  refine ⟨fun d h m hcore hlow => ?_, fun d e hcore hlow => ?_, fun h1 h2 => ?_, fun h1 h2 => ?_, fun h => ⟨?_, ?_⟩⟩
  · simp only [got, checkAddr, checkAddrOf, kind_local hlow, form_local hlow, hcore]
    by_cases hform : 2 ^ 18 ≤ ea.toNat
    · simp only [hform, a, no, if_true]
    · simp only [hform, offset_local hform, a, no, if_false] <;> rfl
  · simp only [got, checkAddr, checkAddrOf, kind_local hlow, form_local hlow, hcore]
    by_cases hform : 2 ^ 18 ≤ ea.toNat
    · simp only [hform, a, no, if_true]
    · simp only [hform, offset_local hform, a, no, if_false, Bool.or_eq_true, decide_eq_true_eq] <;> rfl
  · intro ti o
    have hdie : bitsN ea 40 40 < 2 := Nat.mod_lt _ (by decide)
    have ho : bitsN ea 18 0 = o := by simp only [bitsN, o, a]; omega
    simp only [got, checkAddr, checkAddrOf, kind_fabric h1 h2, ho, dies_le_iff s.part hdie, tileSize, Bool.or_eq_true,
      decide_eq_true_eq, Bool.not_eq_true']
    rfl
  · have hva : bitsN ea 56 0 = a % 2 ^ 57 := by simp only [bitsN, a]; omega
    simp only [got, checkAddr, checkAddrOf, kind_global h1 h2, form_global h1 h2, hva]
    rfl
  · rintro rfl
    simp only [got, checkAddr, checkAddrOf, kind_window h]
    rfl
  · rintro rfl n
    have hn : bitsN ea 61 41 = n := rfl
    simp only [got, checkAddr, checkAddrOf, kind_window h, position_window, hn, railAbsent_iff, Bool.not_eq_true', Bool.not_true,
      List.contains_eq_mem, decide_eq_false_iff_not]
    rfl

end Sys2Proof
end

section
/-! SUPPORT. Homes and queues (R219, R220, R229 to R231): what a recall, a store and a reservation change. -/

namespace Sys2Proof.Machine

open Sys2Proof

/-! ## Recalls (R220) -/

/-- The snoop filters once a line is recalled. -/
def recallLine (t : Tbl (Nat × Nat) (List Nat)) (line : Nat) : Tbl (Nat × Nat) (List Nat) :=
  let x := hbmLine (line * 64)
  tput t x.1 ((tget t [] x.1).filter (· ≠ x.2))

/-- The snoop filters after the recall for an access of n bytes. -/
def Loc.recalled (l : Loc) (n : Nat) (load : Bool) (t : Tbl (Nat × Nat) (List Nat)) : Tbl (Nat × Nat) (List Nat) :=
  match l with
  | .hbm p =>
    if load then t else (List.range ((p + n - 1) / 64 + 1 - p / 64)).foldl (fun t i => recallLine t (p / 64 + i)) t
  | _ => t

/-- A recall changes the snoop filter and nothing else. -/
theorem State.recall_eq (s : State) (l : Loc) (n : Nat) (load : Bool) :
    s.recall l n load = { s with snoop := l.recalled n load s.snoop } := by
  cases l with
  | hbm p =>
    cases load with
    | true => rfl
    | false =>
      exact List.foldl_hom (g₁ := fun t i => recallLine t (p / 64 + i)) (fun t => ({ s with snoop := t } : State)) (fun _ _ => rfl)
  | comp a => rfl
  | tile t o => rfl
  | edge d e o => rfl

@[simp] theorem State.recall_mem (s : State) (l : Loc) (n : Nat) (load : Bool) : (s.recall l n load).mem = s.mem := by
  rw [State.recall_eq]

@[simp] theorem State.recall_pending (s : State) (l : Loc) (n : Nat) (load : Bool) : (s.recall l n load).pending = s.pending := by
  rw [State.recall_eq]

@[simp] theorem State.recall_cycle (s : State) (l : Loc) (n : Nat) (load : Bool) : (s.recall l n load).cycle = s.cycle := by
  rw [State.recall_eq]

@[simp] theorem State.recall_bytes (s : State) (l m : Loc) (n k : Nat) (load : Bool) : (s.recall l n load).bytes m k = s.bytes m k := by
  rw [State.recall_eq]; rfl

@[simp] theorem State.recall_poisoned (s : State) (l m : Loc) (n k : Nat) (load : Bool) :
    (s.recall l n load).poisoned m k = s.poisoned m k := by
  rw [State.recall_eq]; rfl

theorem State.recall_setCtx (s : State) (t : ThreadId) (c : Ctx) (l : Loc) (n : Nat) (load : Bool) :
    (s.setCtx t c).recall l n load = (s.recall l n load).setCtx t c := by
  rw [State.recall_eq, State.recall_eq]; rfl

/-- The checks of addresses and barges do not look at the snoop filter. -/
theorem checkAddrOf_recall (s : State) (l : Loc) (n : Nat) (load : Bool) (c : CoreId) (slot sid : Nat) (ea : Word) (al len : Nat)
    (win : Bool) : checkAddrOf (s.recall l n load) c slot sid ea al len win = checkAddrOf s c slot sid ea al len win := by
  rw [State.recall_eq]; rfl

theorem addrDest_recall (s : State) (l : Loc) (n : Nat) (load : Bool) (c : CoreId) (slot sid : Nat) (a : Word) :
    addrDest (s.recall l n load) c slot sid a = addrDest s c slot sid a := by
  simp only [addrDest, checkAddrOf_recall]

theorem checkBarge_recall (s : State) (l : Loc) (n : Nat) (load : Bool) (c : CoreId) (slot sid : Nat) (w v : Word) :
    checkBarge (s.recall l n load) c slot sid w v = checkBarge s c slot sid w v := by
  simp only [checkBarge, addrDest_recall]
  rw [State.recall_eq]
  rfl

/-! ## Stores and headers -/

theorem State.store_mem (s : State) (l : Loc) (bs : List Byte) (bad : Bool) :
    (s.store l bs bad).mem = memWrite s.mem l.key (bs.map some) := rfl

@[simp] theorem State.store_pending (s : State) (l : Loc) (bs : List Byte) (bad : Bool) : (s.store l bs bad).pending = s.pending := rfl

@[simp] theorem State.store_cycle (s : State) (l : Loc) (bs : List Byte) (bad : Bool) : (s.store l bs bad).cycle = s.cycle := rfl

theorem State.store_setCtx (s : State) (t : ThreadId) (c : Ctx) (l : Loc) (bs : List Byte) (bad : Bool) :
    (s.setCtx t c).store l bs bad = (s.store l bs bad).setCtx t c := rfl

@[simp] theorem State.writeAt_mem (s : State) (l : Loc) (bs : List (Option Byte)) (bad : Bool) :
    (s.writeAt l bs bad).mem = memWrite s.mem l.key bs := by
  rw [State.writeAt, State.recall_eq]; rfl

@[simp] theorem State.writeAt_pending (s : State) (l : Loc) (bs : List (Option Byte)) (bad : Bool) :
    (s.writeAt l bs bad).pending = s.pending := by
  rw [State.writeAt, State.recall_eq]; rfl

@[simp] theorem State.writeAt_cycle (s : State) (l : Loc) (bs : List (Option Byte)) (bad : Bool) :
    (s.writeAt l bs bad).cycle = s.cycle := by
  rw [State.writeAt, State.recall_eq]; rfl

@[simp] theorem State.setQhead_pending (s : State) (l : Loc) (q : QHead) : (s.setQhead l q).pending = s.pending := by
  simp [State.setQhead]

@[simp] theorem State.setQhead_cycle (s : State) (l : Loc) (q : QHead) : (s.setQhead l q).cycle = s.cycle := by
  simp [State.setQhead]

theorem State.setQhead_wf {s : State} (h : Memory.wf s.mem) (l : Loc) (q : QHead) : Memory.wf (s.setQhead l q).mem :=
  State.store_wf (by simpa using h) _ _ _

/-- A header is written apart from the contexts. -/
theorem State.setQhead_setCtx (s : State) (t : ThreadId) (c : Ctx) (l : Loc) (q : QHead) :
    (s.setCtx t c).setQhead l q = (s.setQhead l q).setCtx t c := by
  rw [State.setQhead, State.setQhead, State.recall_setCtx, State.store_setCtx]

/-! ## Reservations (R230, R231) -/

section
variable {s : State} {l : Loc} (hclean : s.poisoned l 32 = false) (hcheck : qcheck l (s.qhead l) = none)
include hclean hcheck

/-- A push reserves a slot where one is neither filled nor reserved. -/
theorem State.qreserve_push (h : (s.qhead l).used + (s.qhead l).pushres < (s.qhead l).cap) : s.qreserve l true =
    (s.setQhead l { s.qhead l with pushres := (s.qhead l).pushres + 1 }, .ok 0) := by
  simp [State.qreserve, hclean, hcheck, h]

theorem State.qreserve_push_full (h : (s.qhead l).cap ≤ (s.qhead l).used + (s.qhead l).pushres) : s.qreserve l true = (s, .no) := by
  simp [State.qreserve, hclean, hcheck, Nat.not_lt.mpr h]

/-- A pop reserves the oldest entry where there is one and no other pop has it, and takes its value. -/
theorem State.qreserve_pop (hfree : (s.qhead l).popres = 0) (hused : 0 < (s.qhead l).used)
    (hentry : s.poisoned (l.plus (32 + 8 * ((s.qhead l).head % (s.qhead l).cap))) 8 = false) : s.qreserve l false =
    (s.setQhead l { s.qhead l with popres := 1 },
      .ok (BitVec.ofNat 64 (natOf (s.bytes (l.plus (32 + 8 * ((s.qhead l).head % (s.qhead l).cap))) 8)))) := by
  simp [State.qreserve, hclean, hcheck, hfree, hused, hentry]

theorem State.qreserve_pop_none (h : (s.qhead l).popres ≠ 0 ∨ (s.qhead l).used = 0) : s.qreserve l false = (s, .no) := by
  have hno : ¬ ((s.qhead l).popres = 0 ∧ 0 < (s.qhead l).used) := by omega
  simp [State.qreserve, hclean, hcheck, hno]

end

/-- A reservation keeps the memory's form, whatever its answer. -/
theorem State.qreserve_wf {s : State} (h : Memory.wf s.mem) (l : Loc) (push : Bool) : Memory.wf (s.qreserve l push).1.mem := by
  simp only [State.qreserve]
  split
  · exact h
  · split
    · exact h
    · split
      · split
        · exact State.setQhead_wf h _ _
        · exact h
      · split
        · split
          · exact h
          · exact State.setQhead_wf h _ _
        · exact h

end Sys2Proof.Machine
end

section
/-! PROOF of O13. Queue operations on a local queue (R229 to R233). -/

namespace Sys2Proof.Machine

open Sys2Proof Sys2Proof.Safety

section
variable {s : State} {i : Instr} {g : BitVec 4} {a : BitVec 5} {x : Word} {l : Loc} {k : LoadKind} {e : Eff}
  {kind : State → ThreadId → Except Stop LoadKind} {push : Bool}

/-- The predicate of a queue operation (R232, R233), -/
def LoadKind.marks (k : LoadKind) (c : Ctx) (v : Bool) : Ctx :=
  match k with
  | .push d _ _ => c.setPred d v
  | .pop d _ _ => c.setPred d v
  | _ => c

/-- and the register a pop's value goes to. -/
def LoadKind.gives (k : LoadKind) (c : Ctx) (v : Word) : Ctx :=
  match k with
  | .pop _ b _ => c.wr b v
  | _ => c

/-- A reservation that is refused clears the predicate (R232, R233). -/
theorem State.qanswer_no (s : State) (t : ThreadId) (k : LoadKind) (ea : Word) (l : Loc) (w : BitVec 32) (go : Ctx → Ctx) :
    s.qanswer t k ea l w .no go = s.setCtx t (go { k.marks (s.ctx t) false with loadWait := none }) := by
  cases k <;> rfl

/-- One that is given becomes an effect, where the reach has room for it and the queue needs no translation. -/
theorem State.qanswer_ok {s : State} {t : ThreadId} {ea : Word} (heff : k.queueEff ea l = some (e, [])) (hroom : (s.ctx t).room = .ok ())
    (w : BitVec 32) (v : Word) (go : Ctx → Ctx) : s.qanswer t k ea l w (.ok v) go = s.setCtx t (go
      { k.gives (k.marks { s.ctx t with buf := (s.ctx t).buf ++ [⟨e, []⟩] } true) v with loadWait := none }) := by
  simp only [State.qanswer, heff, addEff_plain hroom, State.onCtx, State.ctx_setCtx, State.setCtx_setCtx]
  cases k <;> rfl

/-- A queue operation on a local queue asks for its reservation at once (R232, R233). -/
theorem queueOp_local (h : Runs s i g) (ha : Reads s a x) (hkind : kind s.acting s.curT = .ok k)
    (haddr : checkAddr s s.curT x 32 32 false = .ok (.here l)) (hlow : x.toNat < 2 ^ 62) : queueOp i g a kind push s = .next
      ((s.acting.qreserve l push).1.qanswer s.curT k x l (encode i) (s.acting.qreserve l push).2 id) := by
  have haddr' : checkAddr s.acting s.curT x 32 32 false = .ok (.here l) := by
    rw [← haddr, checkAddr, acting_ctx]; rfl
  rw [queueOp, threadInstr_run h]
  simp [reads_acting ha, hkind, haddr', kind_local hlow, bind, Except.bind]

/-- Where the queue has no room, or no entry for a pop, the predicate is cleared and nothing else changes. -/
theorem queueOp_refused (h : Runs s i g) (ha : Reads s a x) (hkind : kind s.acting s.curT = .ok k)
    (haddr : checkAddr s s.curT x 32 32 false = .ok (.here l)) (hlow : x.toNat < 2 ^ 62) (hno : s.acting.qreserve l push = (s.acting, .no)) :
    queueOp i g a kind push s = .next (s.setCtx s.curT { k.marks (begun s) false with loadWait := none }) := by
  rw [queueOp_local h ha hkind haddr hlow, hno, State.qanswer_no]
  simp [State.acting]

/-- Where it reserves, the header is written, and the effect enters the reach. -/
theorem queueOp_reserved (h : Runs s i g) (ha : Reads s a x) (hkind : kind s.acting s.curT = .ok k)
    (haddr : checkAddr s s.curT x 32 32 false = .ok (.here l)) (hlow : x.toNat < 2 ^ 62) (hroom : Room s)
    (heff : k.queueEff x l = some (e, [])) {q : QHead} {v : Word} (hyes : s.acting.qreserve l push = (s.acting.setQhead l q, .ok v)) :
    queueOp i g a kind push s = .next ((s.setQhead l q).setCtx s.curT
      { k.gives (k.marks { begun s with buf := (begun s).buf ++ [⟨e, []⟩] } true) v with loadWait := none }) := by
  have hopen : (begun s).room = .ok () := by
    obtain ⟨hnone, hlen⟩ := hroom
    refine room_ok ?_ hlen
    rw [List.any_eq_not_all_not]; simpa using hnone
  have hctx : (s.acting.setQhead l q).ctx s.curT = begun s := by rw [State.acting, State.setQhead_setCtx, State.ctx_setCtx]
  rw [queueOp_local h ha hkind haddr hlow, hyes, State.qanswer_ok heff (by rw [hctx]; exact hopen), hctx, State.acting,
    State.setQhead_setCtx, State.setCtx_setCtx]
  rfl

end

/-! ## The words -/

section
variable {s : State} {i : Instr} {g : BitVec 4} {a b d e : BitVec 5} {x y : Word} {l : Loc} {n : Nat} (h : Runs s i g) (ha : Reads s a x)
  (haddr : checkAddr s s.curT x 32 32 false = .ok (.here l)) (hlow : x.toNat < 2 ^ 62) (hroom : Room s)
  (hclean : s.poisoned l 32 = false) (hcheck : qcheck l (s.qhead l) = none)
include h ha haddr hlow hclean hcheck

theorem pushOp_full (hb : Reads s b y) (hfull : (s.qhead l).cap ≤ (s.qhead l).used + (s.qhead l).pushres) :
    pushOp i g n a b d s = .next (s.setCtx s.curT { (begun s).setPred d.toNat false with loadWait := none }) :=
  queueOp_refused (k := .push d.toNat y n) h ha (by simp [reads_acting hb, bind, Except.bind]) haddr hlow
    (State.qreserve_push_full (s := s.acting) hclean hcheck hfull)

theorem popOp_empty (hnone : (s.qhead l).popres ≠ 0 ∨ (s.qhead l).used = 0) :
    popOp i g n a d e s = .next (s.setCtx s.curT { (begun s).setPred d.toNat false with loadWait := none }) :=
  queueOp_refused (k := .pop d.toNat e n) h ha rfl haddr hlow (State.qreserve_pop_none (s := s.acting) hclean hcheck hnone)

include hroom

theorem pushOp_reserves (hb : Reads s b y) (hfree : (s.qhead l).used + (s.qhead l).pushres < (s.qhead l).cap) :
    pushOp i g n a b d s = .next ((s.setQhead l { s.qhead l with pushres := (s.qhead l).pushres + 1 }).setCtx s.curT
      { (begun s).setPred d.toNat true with buf := (begun s).buf ++ [⟨.push x y n l, []⟩], loadWait := none }) :=
  queueOp_reserved (k := .push d.toNat y n) h ha (by simp [reads_acting hb, bind, Except.bind]) haddr hlow hroom
    (by simp [LoadKind.queueEff, kind_local hlow]) (State.qreserve_push (s := s.acting) hclean hcheck hfree)

theorem popOp_reserves (hfree : (s.qhead l).popres = 0) (hused : 0 < (s.qhead l).used)
    (hentry : s.poisoned (l.plus (32 + 8 * ((s.qhead l).head % (s.qhead l).cap))) 8 = false) :
    popOp i g n a d e s = .next ((s.setQhead l { s.qhead l with popres := 1 }).setCtx s.curT
      { ((begun s).setPred d.toNat true).wr e
          (BitVec.ofNat 64 (natOf (s.bytes (l.plus (32 + 8 * ((s.qhead l).head % (s.qhead l).cap))) 8))) with
        buf := (begun s).buf ++ [⟨.pop x l, []⟩], loadWait := none }) := by
  rw [popOp, queueOp_reserved (k := .pop d.toNat e n) (e := .pop x l) h ha rfl haddr hlow hroom (by simp [LoadKind.queueEff, kind_local hlow])
    (State.qreserve_pop (s := s.acting) hclean hcheck hfree hused hentry)]
  simp only [LoadKind.gives, LoadKind.marks, Ctx.wr]
  split
  · rfl
  · split <;> rfl

end

end Sys2Proof.Machine

namespace Sys2Proof
open Machine Safety

/-- Settles O13: the five scopes of each word differ in their effect's scope alone. -/
theorem localQueues : Obligations.LocalQueues := by
  intro s a b d e g x y l ha hb hroom haddr hlow hclean hcheck q push pop
  have hpush {i : Instr} {n : Nat} (hexec : exec i s = pushOp i g n a b d s) (h : Runs s i g) : push i n := by
    refine ⟨fun hfree => ?_, fun hfull => ?_⟩
    · exact hexec.trans (pushOp_reserves h ha haddr hlow hroom hclean hcheck hb hfree)
    · exact hexec.trans (pushOp_full h ha haddr hlow hclean hcheck hb hfull)
  have hpop {i : Instr} {n : Nat} (hexec : exec i s = popOp i g n a d e s) (h : Runs s i g) : pop i := by
    refine ⟨fun hfree hused hentry => ?_, fun hnone => ?_⟩
    · exact hexec.trans (popOp_reserves h ha haddr hlow hroom hclean hcheck hfree hused hentry)
    · exact hexec.trans (popOp_empty h ha haddr hlow hclean hcheck hnone)
  exact ⟨hpush rfl, hpush rfl, hpush rfl, hpush rfl, hpush rfl, hpop rfl, hpop rfl, hpop rfl, hpop rfl, hpop rfl⟩

end Sys2Proof
end

section
/-! SUPPORT. The new values of atomics (R100, R227): what R72 rounds to is a code of its format, and the four lanes of `badd` stay apart. -/

namespace Sys2Proof.Machine

open Sys2Proof

/-! ## Codes -/

section
variable {f : FFmt} (hmax : f.maxCode < 2 ^ (f.ew + f.mw)) (hinf : f.inf < 2 ^ (f.ew + f.mw)) (hnan : f.nan < 2 ^ (f.ew + f.mw))

theorem FFmt.signed_lt {mag : Nat} (h : mag < 2 ^ (f.ew + f.mw)) (neg : Bool) : f.signed neg mag < 2 ^ f.bits := by
  have hbits : 2 ^ f.bits = 2 * 2 ^ (f.ew + f.mw) := by rw [FFmt.bits, Nat.add_assoc, Nat.pow_add, Nat.pow_one]
  cases neg <;> simp [FFmt.signed] <;> omega

include hmax hinf hnan

theorem FFmt.overflow_lt (md : Mode) (sat neg : Bool) : f.overflow md sat neg < 2 ^ f.bits := by
  unfold FFmt.overflow
  extract_lets toInf
  split
  · exact FFmt.signed_lt hmax neg
  · split
    · exact FFmt.signed_lt hinf neg
    · exact FFmt.signed_lt hnan false

theorem FFmt.round_lt (md : Mode) (sat neg : Bool) (m : Nat) (e : Int) (sticky : Bool) (r : Nat) :
    (f.round md sat neg m e sticky r).1 < 2 ^ f.bits := by
  unfold FFmt.round
  split
  · exact FFmt.signed_lt (Nat.two_pow_pos _) neg
  · extract_lets top emin q x code tiny
    split
    · exact FFmt.overflow_lt hmax hinf hnan md sat neg
    · next h => exact FFmt.signed_lt (by omega) neg

/-- What an exact value is rounded to is a code of the format (R72). -/
theorem FFmt.ofVal_lt (md : Mode) (sat : Bool) (v : Val) (r : Nat) : (f.ofVal md sat v r).1 < 2 ^ f.bits := by
  cases v with
  | nan =>
    simp only [FFmt.ofVal]
    split
    · exact Nat.two_pow_pos _
    · exact FFmt.signed_lt hnan false
  | inf neg =>
    simp only [FFmt.ofVal]
    split
    · exact FFmt.signed_lt hinf neg
    · exact FFmt.overflow_lt hmax hinf hnan md sat neg
  | fin neg m e => exact FFmt.round_lt hmax hinf hnan md sat neg m e false r

end

/-- The BF16 sum is a code of 16 bits. -/
theorem bf16_add_lt (md : Mode) (a b : Nat) : (bf16.add md a b).1 < 2 ^ 16 :=
  FFmt.ofVal_lt (f := bf16) (by decide) (by decide) (by decide) md false _ _

/-! ## Lanes -/

/-- A field put above a word adds to it. -/
theorem or_fld_toNat {w : Word} {v lo : Nat} (hw : w.toNat < 2 ^ lo) (hv : v * 2 ^ lo < 2 ^ 64) : (w ||| fld v lo).toNat = w.toNat + v * 2 ^ lo := by
  rw [fld, BitVec.toNat_or, BitVec.toNat_ofNat, Nat.mod_eq_of_lt hv, Nat.or_comm, Nat.mul_comm v, ← Nat.two_pow_add_eq_or_of_lt hw,
    Nat.add_comm]

/-- Four fields of 16 bits. -/
theorem fields16_toNat {a b c d : Nat} (ha : a < 2 ^ 16) (hb : b < 2 ^ 16) (hc : c < 2 ^ 16) (hd : d < 2 ^ 16) :
    (fld a 0 ||| fld b 16 ||| fld c 32 ||| fld d 48).toNat = a + b * 2 ^ 16 + c * 2 ^ 32 + d * 2 ^ 48 := by
  have h0 : (fld a 0).toNat = a := by rw [fld, BitVec.toNat_ofNat]; omega
  have h1 : (fld a 0 ||| fld b 16).toNat = a + b * 2 ^ 16 := by rw [or_fld_toNat (by omega) (by omega), h0]
  have h2 : (fld a 0 ||| fld b 16 ||| fld c 32).toNat = a + b * 2 ^ 16 + c * 2 ^ 32 := by rw [or_fld_toNat (by omega) (by omega), h1]
  rw [or_fld_toNat (by omega) (by omega), h2]

/-- The BF16 sum of one lane of two words (R100). -/
def laneSum (x y : Word) (i : Nat) : Nat :=
  (bf16.add .rne (x.toNat / 2 ^ (16 * i) % 2 ^ 16) (y.toNat / 2 ^ (16 * i) % 2 ^ 16)).1

theorem laneSum_lt (x y : Word) (i : Nat) : laneSum x y i < 2 ^ 16 := bf16_add_lt _ _ _

theorem atomicNew_badd (old b c : Word) :
    atomicNew .badd old b c = fld (laneSum old b 0) 0 ||| fld (laneSum old b 1) 16 ||| fld (laneSum old b 2) 32 ||| fld (laneSum old b 3) 48 := rfl

/-- `badd` adds lane by lane (R100, R227). -/
theorem atomicNew_badd_lane (old b c : Word) {i : Nat} (hi : i < 4) :
    (atomicNew .badd old b c).toNat / 2 ^ (16 * i) % 2 ^ 16 = laneSum old b i % 2 ^ 16 := by
  have h0 := laneSum_lt old b 0
  have h1 := laneSum_lt old b 1
  have h2 := laneSum_lt old b 2
  have h3 := laneSum_lt old b 3
  rw [atomicNew_badd, fields16_toNat h0 h1 h2 h3]
  obtain rfl | rfl | rfl | rfl : i = 0 ∨ i = 1 ∨ i = 2 ∨ i = 3 := by omega
  all_goals omega

/-- The signed extremes (R227). -/
theorem atomicNew_max (old b c : Word) : (atomicNew .max old b c).toInt = max old.toInt b.toInt := by
  simp only [atomicNew, BitVec.slt_iff_toInt_lt]
  split <;> omega

theorem atomicNew_min (old b c : Word) : (atomicNew .min old b c).toInt = min old.toInt b.toInt := by
  simp only [atomicNew, BitVec.slt_iff_toInt_lt]
  split <;> omega

theorem atomicNew_add (old b c : Word) : atomicNew .add old b c = BitVec.ofNat 64 (old.toNat + b.toNat) := by
  rw [BitVec.ofNat_add, BitVec.ofNat_toNat, BitVec.ofNat_toNat]; simp [atomicNew]

theorem atomicNew_fadd (old b c : Word) :
    (atomicNew .fadd old b c).toNat = (fp32.add .rne (old.toNat % 2 ^ 32) (b.toNat % 2 ^ 32)).1 % 2 ^ 64 := by
  have hlow (x : Word) : bitsN x 31 0 = x.toNat % 2 ^ 32 := by simp only [bitsN]; omega
  rw [atomicNew, BitVec.toNat_ofNat, hlow, hlow]

end Sys2Proof.Machine
end

section
/-! SUPPORT. What messages and answers leave of memory (R219): sends, fault barges and deposits write no byte of it. -/

namespace Sys2Proof.Machine

open Sys2Proof

/-- Two states that agree beside what is sent have the same memory. -/
theorem State.mem_of_besideSends {s u : State} (h : u.besideSends = s.besideSends) : u.mem = s.mem := by
  have hmem : u.besideSends.mem = s.besideSends.mem := by rw [h]
  exact hmem

theorem State.pumpSends_mem (s : State) (src : Sender) : (s.pumpSends src).mem = s.mem := by
  refine foldl_keeps (fun a : State × List SendRec => a.1.mem) (fun a r => ?_) _ (s, [])
  dsimp only
  split
  · rfl
  · refine (State.mem_of_besideSends (State.toNet_besideSends _ _ _ _)).trans ?_
    cases src <;> rfl

theorem State.sendFrom_mem (s : State) (src dst : CoreId) (l : Load) (prio : Nat) (rel : Option Nat) :
    (s.sendFrom src dst l prio rel).mem = s.mem := by
  simp only [State.sendFrom, State.dispatchItem]
  split
  · split
    · exact State.pumpSends_mem _ _
    · rfl
  · rfl

/-- A barge that is sent writes no memory, wherever it goes. -/
theorem State.sendTo_mem (s : State) (c : CoreId) (b : Barge) (d : Dest) (rel : Option Nat) : (s.sendTo c b d rel).mem = s.mem := by
  cases d with
  | core x => exact State.sendFrom_mem _ _ _ _ _ _
  | node n x => exact State.sendFrom_mem _ _ _ _ _ _
  | any => exact State.sendFrom_mem _ _ _ _ _ _
  | lock n die =>
    have told (u : State) :
        (if n = u.node then u.post .none (.jobEnd die b.sid none) else u.toNet n (some b.sid) (.jobBarge die b)).mem = u.mem := by
      split
      · rfl
      · exact State.mem_of_besideSends (State.toNet_besideSends u _ _ _)
    cases rel with
    | none => exact told s
    | some k => exact told (s.performed c k)
  | global va => rfl

theorem State.report_mem (s : State) (o : Origin) (c : Cause) (unit : Nat) (h2 : Word) : (s.report o c unit h2).mem = s.mem := by
  simp only [State.report]
  exact State.mem_of_besideSends (State.deliverFault_besideSends _ _ _ _ _ _ _)

@[simp] theorem State.homeFault_mem (s : State) (r : MemReq) (c : Cause) : (s.homeFault r c).mem = s.mem := by
  simp only [State.homeFault]
  cases r.origin with
  | none => cases r.dep <;> rfl
  | some o => exact (State.report_mem _ _ _ _ _).trans (by cases r.dep <;> rfl)

@[simp] theorem State.result_mem (s : State) (r : MemReq) (v : Word) : (s.result r v).mem = s.mem := by
  simp only [State.result]; cases r.dep <;> rfl

end Sys2Proof.Machine
end

section
/-! PROOF of O29. What a home does with loads, stores, atomics and joins (R142, R219 to R228, R236). -/

namespace Sys2Proof.Machine

open Sys2Proof

/-! ## Answers -/

/-- A request of a thread, of its effect, or of nobody. -/
def Asker.ofThread (k : Asker) : Prop :=
  (∃ t w n, k = .load t w n) ∨ (∃ t w, k = .reserve t w) ∨ (∃ c n, k = .effect c n) ∨ k = .none

/-- Its answer is a message, and writes no memory. -/
theorem State.answerTo_mem {k : Asker} (h : k.ofThread) (s : State) (a : Ans) : (s.answerTo k a).mem = s.mem := by
  obtain ⟨t, w, n, rfl⟩ | ⟨t, w, rfl⟩ | ⟨c, n, rfl⟩ | rfl := h <;> rfl

/-! ## The memory's form -/

/-- The write of an atomic, or none. -/
theorem ite_store_wf {s : State} (h : Memory.wf s.mem) (p : Prop) [Decidable p] (l : Loc) (bs : List Byte) :
    Memory.wf (if p then s else s.store l bs).mem := by
  split
  · exact h
  · exact State.store_wf h l bs false

theorem State.atomicAt_wf {s : State} (h : Memory.wf s.mem) (r : MemReq) (op : AtomOp) (b c : Word) :
    Memory.wf (s.atomicAt r op b c).mem := by
  have hrecall : Memory.wf (s.recall r.loc op.width false).mem := by simpa using h
  simp only [State.atomicAt]
  split
  · simpa using h
  · rw [State.result_mem]; exact ite_store_wf hrecall _ _ _

/-- The barge of a join that is complete writes none. -/
theorem ite_sendTo_mem (p : Prop) [Decidable p] (s : State) (c : CoreId) (b : Barge) (d : Dest) (rel : Option Nat) :
    (if p then s.sendTo c b d rel else s).mem = s.mem := by
  split
  · exact State.sendTo_mem s c b d rel
  · rfl

theorem State.joinAt_wf {s : State} (h : Memory.wf s.mem) (r : MemReq) : Memory.wf (s.joinAt r).mem := by
  have hrecall : Memory.wf (s.recall r.loc 16 false).mem := by simpa using h
  unfold State.joinAt
  extract_lets v w0 w1 route home
  split
  · simpa [v] using h
  · split
    · simpa [v] using h
    · split
      · simpa [v] using h
      · split
        · simpa [v] using h
        · refine (congrArg Memory.wf ((State.result_mem _ _ _).trans (ite_sendTo_mem _ _ _ _ _ _))).mpr ?_
          exact State.store_wf hrecall _ _ _

theorem State.settleAt_wf {s : State} (h : Memory.wf s.mem) (r : MemReq) : Memory.wf (s.settleAt r).mem := by
  unfold State.settleAt
  extract_lets q push dead
  clear_value q push dead
  split
  · simpa using h
  · cases r.op
    case pushSettle v => exact State.setQhead_wf (State.store_wf (by simpa using h) _ _ _) _ _
    all_goals exact State.setQhead_wf h _ _

/-- What a home does for a thread keeps the memory's form. -/
theorem State.perform_wf {s : State} (h : Memory.wf s.mem) {r : MemReq} (hr : r.asker.ofThread) : Memory.wf (s.perform r).mem := by
  unfold State.perform
  split
  · rw [State.answerTo_mem hr]; simpa [State.readAt] using h
  · rw [State.answerTo_mem hr]; rw [State.writeAt_mem]; exact memWrite_wf _ h _
  · split
    · rw [State.answerTo_mem hr]; exact State.atomicAt_wf h r _ _ _
    · exact State.atomicAt_wf h r _ _ _
    · extract_lets n v
      have hv : Memory.wf v.mem := by simpa [v] using h
      split
      · rw [State.answerTo_mem hr]; exact hv
      · rw [State.answerTo_mem hr]; exact ite_store_wf hv _ _ _
  · rw [State.answerTo_mem hr]; exact State.joinAt_wf h r
  · rw [State.answerTo_mem hr]; exact State.qreserve_wf h _ _
  · rw [State.answerTo_mem hr]; exact State.qreserve_wf h _ _
  · rw [State.answerTo_mem hr]; exact State.settleAt_wf h r

/-! ## The steps of a home -/

/-- A step of a home: it performs the request it is about (R219, R228, R231, R142). -/
def Performs (i : Instr) (s : State) (r : MemReq) : Prop :=
  (i = .loadPerform ∧ s.arg = .loadPerform r) ∨ (i = .storePerform ∧ s.arg = .storePerform r) ∨
    (i = .atomicPerform ∧ s.arg = .atomicPerform r) ∨ (i = .joinPerform ∧ s.arg = .joinPerform r) ∨
    (i = .queueReserve ∧ s.arg = .queueReserve r) ∨ (i = .queueSettle ∧ s.arg = .queueSettle r)

theorem exec_performs {i : Instr} {s : State} {r : MemReq} (h : Performs i s r) : exec i s = .next (s.perform r) := by
  obtain ⟨rfl, harg⟩ | ⟨rfl, harg⟩ | ⟨rfl, harg⟩ | ⟨rfl, harg⟩ | ⟨rfl, harg⟩ | ⟨rfl, harg⟩ := h
  · show execLoadPerform s = _; rw [execLoadPerform, harg]
  · show execStorePerform s = _; rw [execStorePerform, harg]
  · show execAtomicPerform s = _; rw [execAtomicPerform, harg]
  · show execJoinPerform s = _; rw [execJoinPerform, harg]
  · show execQueueReserve s = _; rw [execQueueReserve, harg]
  · show execQueueSettle s = _; rw [execQueueSettle, harg]

theorem storeAck_run {s : State} {c : CoreId} {k : Nat} (harg : s.arg = .storeAck c k) : exec .storeAck s = .next (s.performed c k) := by
  show execStoreAck s = _; rw [execStoreAck, harg]

section
variable {s : State} {r : MemReq} {c : CoreId} {k : Nat}

theorem State.perform_load {n : Nat} {t : ThreadId} {w : Await} {i : Nat} (hop : r.op = .load n) (hk : r.asker = .load t w i) : s.perform r =
    (s.recall r.loc n true).post .none (.loadReply t w i (.data (s.bytes r.loc n) (s.poisoned r.loc n))) := by
  simp [State.perform, hop, hk, State.answerTo, State.readAt]

theorem State.perform_store {bs : List (Option Byte)} {bad : Bool} (hop : r.op = .store bs bad) (hk : r.asker = .effect c k) : s.perform r =
    (s.writeAt r.loc bs bad).post .none (.storeAck c k) := by
  simp [State.perform, hop, hk, State.answerTo]

theorem State.perform_atomic {op : AtomOp} {b x : Word} (hop : r.op = .atomic op b x) (hk : r.asker = .effect c k) : s.perform r =
    (s.atomicAt r op b x).post .none (.storeAck c k) := by
  simp [State.perform, hop, hk, State.answerTo]

theorem State.perform_join (hop : r.op = .join) (hk : r.asker = .effect c k) : s.perform r = (s.joinAt r).post .none (.storeAck c k) := by
  simp [State.perform, hop, hk, State.answerTo]

/-! ## Atomics and joins -/

/-- The result of a closing effect is on its way to the register its thread named (R187, R192). -/
theorem State.result_answered {t : ThreadId} {d : Nat} {g : BitVec 4} (hdep : r.dep = some (t, d, g)) (v : Word) :
    ∃ p ∈ ((s.result r v).post .none (.storeAck c k)).pending, ∃ y, p.ev = .deposit t.core y ∧ y.slot = t.slot ∧ y.first = d ∧
      y.vals = [v] ∧ y.gen = g := by
  simp only [State.result, hdep, State.post_pending]
  exact ⟨_, List.mem_append_left _ (List.mem_append_right _ (List.mem_singleton.mpr rfl)), _, rfl, rfl, rfl, rfl, rfl⟩

theorem State.result_cycle (v : Word) : (s.result r v).cycle = s.cycle := by
  simp only [State.result]; cases r.dep <;> rfl

/-- What an atomic leaves in memory where its word is clean (R228). -/
theorem State.atomicAt_clean {op : AtomOp} (hclean : s.poisoned r.loc op.width = false) (b x : Word) :
    let old : Word := BitVec.ofNat 64 (natOf (s.bytes r.loc op.width))
    ∃ v : State, s.atomicAt r op b x = v.result r old ∧ v.cycle = s.cycle ∧ v.mem = if op = .cas ∧ old ≠ b then s.mem
      else memWrite s.mem r.loc.key ((bytesOf op.width (atomicNew op old b x).toNat).map some) := by
  intro old
  simp only [State.atomicAt, State.recall_poisoned, State.recall_bytes, hclean, Bool.false_eq_true, if_false]
  refine ⟨_, rfl, ?_, ?_⟩
  · rw [apply_ite State.cycle, State.store_cycle, State.recall_cycle, ite_self]
  rw [apply_ite State.mem, State.store_mem, State.recall_mem]
  simp only [Bool.and_eq_true, decide_eq_true_eq]
  rfl

/-- The words of a join record (R141). -/
def State.joinWord0 (s : State) (r : MemReq) : Word := BitVec.ofNat 64 (natOf (s.bytes r.loc 8))

def State.joinWord1 (s : State) (r : MemReq) : Word := BitVec.ofNat 64 (natOf (s.bytes (r.loc.plus 8) 8))

/-- Its first word without the number it awaits: a route. -/
def State.joinRoute (s : State) (r : MemReq) : Word := s.joinWord0 r &&& ~~~(fld (2 ^ 30 - 1) 0)

/-- The core that sends a join record's continuation: its home, or where that is no core the joining thread's (log 65). -/
def MemReq.joinHome (r : MemReq) : CoreId :=
  match r.loc.home with
  | .core c => c
  | _ => (r.origin.map Origin.core).getD (.ec 0 0)

/-- A join whose record is formed counts one arrival: its thread gets the number still awaited, or all ones where none was (R142). -/
theorem State.joinAt_counts {q : Dest} (hclean : s.poisoned r.loc 16 = false) (hmode : bitsN (s.joinWord0 r) 63 62 = 0)
    (hcont : ctlCont (s.joinWord1 r) = false) (hcount : ctlCount (s.joinWord1 r) ≤ 1)
    (hroute : checkBarge s r.joinHome 0 r.sid (s.joinRoute r) (s.joinWord1 r) = .ok q) :
    let n := (s.joinWord0 r).toNat % 2 ^ 30
    ∃ v : State, s.joinAt r = v.result r (if n = 0 then BitVec.allOnes 64 else BitVec.ofNat 64 (n - 1)) ∧
      v.mem = if n = 0 then s.mem
        else memWrite s.mem r.loc.key ((bytesOf 8 (s.joinRoute r ||| fld (n - 1) 0).toNat).map some) := by
  intro n
  unfold State.joinAt
  extract_lets v w0 w1 route home m u b
  have hw0 : w0 = s.joinWord0 r := by simp only [w0, v, State.recall_bytes, State.joinWord0]
  have hw1 : w1 = s.joinWord1 r := by simp only [w1, v, State.recall_bytes, State.joinWord1]
  have hhome : home = r.joinHome := rfl
  have hr : route = s.joinRoute r := by simp only [route, hw0, State.joinRoute]
  have hv : v.poisoned r.loc 16 = false := by rw [State.recall_poisoned, hclean]
  have hform : (decide (bitsN w0 63 62 ≠ 0) || ctlCont w1 || decide (1 < ctlCount w1)) = false := by simp [hw0, hw1, hmode, hcont, hcount]
  have hok : checkBarge v home 0 r.sid route w1 = .ok q := by rw [hhome, hr, hw1, checkBarge_recall, hroute]
  have hm : m = n := by simp [m, bitsN, n, hw0]
  have hvmem : v.mem = s.mem := State.recall_mem _ _ _ _
  have humem : u.mem = memWrite s.mem r.loc.key ((bytesOf 8 (s.joinRoute r ||| fld (n - 1) 0).toNat).map some) := by
    simp only [u, State.store_mem, hvmem, hr, hm]
  clear_value u b v w0 w1 route home m
  simp only [hv, hform, hok, hm, Bool.false_eq_true, if_false]
  by_cases h : n = 0
  · exact ⟨v, by rw [if_pos h, if_pos h], by rw [if_pos h, hvmem]⟩
  · rw [if_neg h, if_neg h, if_neg h, ← humem]
    exact ⟨_, rfl, ite_sendTo_mem _ _ _ _ _ _⟩

end

end Sys2Proof.Machine

namespace Sys2Proof
open Machine

/-- Settles O29: a home's step performs its request; the operations then go one by one. -/
theorem homesPerform : Obligations.HomesPerform := by
  refine ⟨fun s r => ⟨?_, ?_, ?_, ?_, ?_⟩, fun old b c => ?_, ?_⟩
  · intro n t k i harg hop hk
    refine ⟨_, exec_performs (.inl ⟨rfl, harg⟩), ?_, ?_⟩
    · rw [State.perform_load hop hk, State.post_mem, State.recall_mem]
    · rw [State.perform_load hop hk, State.post_pending, State.recall_pending, State.recall_cycle]; rfl
  · intro bs bad c k harg hop hk
    refine ⟨_, exec_performs (.inr (.inl ⟨rfl, harg⟩)), ?_, ?_⟩
    · rw [State.perform_store hop hk, State.post_mem, State.writeAt_mem]
    · rw [State.perform_store hop hk, State.post_pending, State.writeAt_pending, State.writeAt_cycle]; rfl
  · intro op b x c k t d g harg hop hk hdep hclean old
    obtain ⟨v, hv, hcycle, hmem⟩ := State.atomicAt_clean hclean b x
    refine ⟨_, exec_performs (.inr (.inr (.inl ⟨rfl, harg⟩))), ?_⟩
    rw [State.perform_atomic hop hk, hv]
    refine ⟨?_, State.result_answered hdep old, ?_⟩
    · rw [State.post_mem, State.result_mem, hmem]
    · simp [State.result_cycle, hcycle]
  · intro i t hi hk hwf hexec
    rw [exec_performs hi] at hexec
    cases hexec
    exact State.perform_wf hwf hk
  · exact fun c k harg => storeAck_run harg
  · exact ⟨atomicNew_add old b c, rfl, rfl, rfl, atomicNew_max old b c, atomicNew_min old b c, rfl, rfl, atomicNew_fadd old b c,
      fun i hi => atomicNew_badd_lane old b c hi⟩
  · intro s r c k t d g q harg hop hk hdep hclean w0 w1 n home hmode hcont hcount hroute
    obtain ⟨v, hv, hmem⟩ := State.joinAt_counts hclean hmode hcont hcount hroute
    refine ⟨_, exec_performs (.inr (.inr (.inr (.inl ⟨rfl, harg⟩)))), ?_⟩
    rw [State.perform_join hop hk, hv]
    obtain ⟨p, hp, y, hev, -, hfirst, hvals, -⟩ :=
      State.result_answered (s := v) (c := c) (k := k) hdep (if n = 0 then BitVec.allOnes 64 else BitVec.ofNat 64 (n - 1))
    refine ⟨⟨p, hp, y, hev, hfirst, hvals⟩, ?_⟩
    rw [State.post_mem, State.result_mem]
    exact hmem

end Sys2Proof
end

section
/-! PROOF of O30. Queues at their home, replies, the snoop filter (R119, R125, R126, R195, R201, R220, R222, R223, R229 to R234). -/

namespace Sys2Proof.Machine

open Sys2Proof

/-! ## Queues at their home -/

section
variable {s : State} {r : MemReq}

/-- What a home answers a reservation with (R231). -/
def QAns.reply (l : Loc) : QAns → Ans
  | .ok v => .reserved l v
  | .no => .refused
  | .poison => .data [] true
  | .bad c => .fault c

/-- The request is for a slot (a push) or for an entry (a pop). -/
def reserveOp (push : Bool) : MemOp := if push then .pushReserve else .popReserve

theorem State.perform_reserve {t : ThreadId} {k : Await} {push : Bool} (hop : r.op = reserveOp push) (hk : r.asker = .reserve t k) :
    s.perform r = (s.qreserve r.loc push).1.post .none (.loadReply t k 0 ((s.qreserve r.loc push).2.reply r.loc)) := by
  cases push with
  | true =>
    simp only [State.perform, hop, reserveOp, if_true, hk, State.answerTo]
    rfl
  | false =>
    simp only [State.perform, hop, reserveOp, Bool.false_eq_true, if_false, hk, State.answerTo]
    rfl

/-- A reservation that is made writes the queue's header, and is answered at once. -/
theorem queueReserve_made {t : ThreadId} {k : Await} {push : Bool} {q : QHead} {v : Word} (harg : s.arg = .queueReserve r)
    (hop : r.op = reserveOp push) (hk : r.asker = .reserve t k) (hq : s.qreserve r.loc push = (s.setQhead r.loc q, .ok v)) :
    ∃ u, exec .queueReserve s = .next u ∧ u.mem = (s.setQhead r.loc q).mem ∧
      u.pending = s.pending ++ [⟨.none, s.cycle, .loadReply t k 0 (.reserved r.loc v)⟩] := by
  refine ⟨_, exec_performs (.inr (.inr (.inr (.inr (.inl ⟨rfl, harg⟩))))), ?_, ?_⟩
  · rw [State.perform_reserve hop hk, hq, State.post_mem]
  · rw [State.perform_reserve hop hk, hq, State.post_pending, State.setQhead_pending, State.setQhead_cycle]; rfl

theorem queueReserve_refused {t : ThreadId} {k : Await} {push : Bool} (harg : s.arg = .queueReserve r)
    (hop : r.op = reserveOp push) (hk : r.asker = .reserve t k) (hq : s.qreserve r.loc push = (s, .no)) :
    ∃ u, exec .queueReserve s = .next u ∧ u.mem = s.mem ∧ u.pending = s.pending ++ [⟨.none, s.cycle, .loadReply t k 0 .refused⟩] := by
  refine ⟨_, exec_performs (.inr (.inr (.inr (.inr (.inl ⟨rfl, harg⟩))))), ?_, ?_⟩
  · rw [State.perform_reserve hop hk, hq, State.post_mem]
  · rw [State.perform_reserve hop hk, hq, State.post_pending]; rfl

/-- A settle that nobody waits for is done and answered to nobody. -/
theorem queueSettle_run (harg : s.arg = .queueSettle r) (hk : r.asker = .none) (hop : (∃ v, r.op = .pushSettle v) ∨ r.op = .popSettle) :
    exec .queueSettle s = .next (s.settleAt r) := by
  rw [exec_performs (.inr (.inr (.inr (.inr (.inr ⟨rfl, harg⟩)))))]
  obtain ⟨v, hop⟩ | hop := hop <;> simp only [State.perform, hop, hk, State.answerTo]

/-- The settle of a push writes its value at the tail, and its reservation becomes an entry. -/
theorem State.settleAt_push {v : Word} (hcheck : qcheck r.loc (s.qhead r.loc) = none) (hop : r.op = .pushSettle v)
    (hres : (s.qhead r.loc).pushres ≠ 0) :
    let q := s.qhead r.loc
    let e := r.loc.plus (32 + 8 * (q.tail % q.cap))
    s.settleAt r = ((s.recall e 8 false).store e (bytesOf 8 v.toNat)).setQhead r.loc
      { q with tail := (q.tail + 1) % 2 ^ 64, pushres := q.pushres - 1 } := by
  intro q e
  simp [State.settleAt, hcheck, hop, hres, q, e]

/-- The settle of a pop takes the oldest entry out. -/
theorem State.settleAt_pop (hcheck : qcheck r.loc (s.qhead r.loc) = none) (hop : r.op = .popSettle) (hres : (s.qhead r.loc).popres ≠ 0) :
    let q := s.qhead r.loc
    s.settleAt r = s.setQhead r.loc { q with head := (q.head + 1) % 2 ^ 64, popres := 0 } := by
  intro q
  simp [State.settleAt, hcheck, hop, hres, q]

end

/-! ## Replies that no wait takes (R125, R222) -/

theorem loadReply_late {s : State} {t : ThreadId} {n : Await} {i : Nat} {a : Ans} (harg : s.arg = .loadReply t n i a)
    (h : (s.ctx t).status ≠ .loadWait ∨ (s.ctx t).epoch ≠ n.epoch) :
    exec .loadReply s = .next (s.lateReply t n a) := by
  have hnone : (s.ctx t).awaiting n = none := by
    rw [Ctx.awaiting, if_neg]
    simp only [Bool.and_eq_true, decide_eq_true_eq]
    exact fun ⟨hwait, hepoch⟩ => h.elim (fun hn => hn hwait) (fun hn => hn hepoch)
  show execLoadReply s = _
  simp only [execLoadReply, harg, hnone]

theorem State.lateReply_dropped (s : State) {t : ThreadId} {n : Await} {a : Ans} (h : ∀ bs bad, a ≠ .data bs bad) : s.lateReply t n a = s := by
  cases a with
  | data bs bad => exact absurd rfl (h bs bad)
  | reserved l v => rfl
  | refused => rfl
  | nack => rfl
  | fault c => rfl

theorem State.lateReply_current {s : State} {t : ThreadId} {n : Await} (hlive : (s.ctx t).status ≠ .free) (hgen : (s.ctx t).gen = n.gen)
    (bs : List Byte) (bad : Bool) : s.lateReply t n (.data bs bad) = s := by
  simp [State.lateReply, hlive, hgen]

theorem State.lateReply_stale {s : State} {t : ThreadId} {n : Await} (h : (s.ctx t).status = .free ∨ (s.ctx t).gen ≠ n.gen)
    (bs : List Byte) (bad : Bool) :
    s.lateReply t n (.data bs bad) = s.setCore t.core { s.core t.core with stale := (s.core t.core).stale + 1 } := by
  have hcond : (decide ((s.ctx t).status = .free) || decide ((s.ctx t).gen ≠ n.gen)) = true := by simpa using h
  rw [State.lateReply, if_pos hcond, State.onCore]

/-! ## Replies that a wait takes (R126, R195, R201, R222) -/

section
variable {s : State} {t : ThreadId} {n : Await} {i : Nat} {a : Ans} {l : LoadWait} (harg : s.arg = .loadReply t n i a)
  (hepoch : (s.ctx t).epoch = n.epoch) (hwait : (s.ctx t).status = .loadWait) (hl : (s.ctx t).loadWait = some l)

section
include hepoch hwait hl

theorem Ctx.awaiting_some : (s.ctx t).awaiting n = some l := by
  simp [Ctx.awaiting, hepoch, hwait, hl]

end

include harg hepoch hwait hl

theorem loadReply_nack {p : Piece} (ha : a = .nack) (hp : l.pieces[i]? = some p) :
    exec .loadReply s = .next (s.pageFault t p.addr (s.lastWord t)) := by
  show execLoadReply s = _
  simp only [execLoadReply, harg, Ctx.awaiting_some hepoch hwait hl, ha, hp]

theorem loadReply_fault {p : Piece} {c : Cause} (ha : a = .fault c) (hp : l.pieces[i]? = some p) :
    exec .loadReply s = .next ((s.onCtx t Ctx.back).endThread t c p.addr (s.lastWord t)) := by
  show execLoadReply s = _
  simp only [execLoadReply, harg, Ctx.awaiting_some hepoch hwait hl, ha, hp]

theorem loadReply_poison {p : Piece} {bs : List Byte} (ha : a = .data bs true) (hp : l.pieces[i]? = some p) :
    exec .loadReply s = .next (s.consumePoison t (some p.addr) (s.lastWord t)) := by
  show execLoadReply s = _
  simp only [execLoadReply, harg, Ctx.awaiting_some hepoch hwait hl, ha, hp, if_true]

/-- A piece that is not the last missing one is kept. -/
theorem loadReply_piece {bs : List Byte} (ha : a = .data bs false) (hmissing : (l.take i bs).pieces.all (fun p => p.got.isSome) = false) :
    exec .loadReply s = .next (s.setCtx t { s.ctx t with loadWait := some (l.take i bs) }) := by
  show execLoadReply s = _
  simp [execLoadReply, harg, Ctx.awaiting_some hepoch hwait hl, ha, hmissing]

/-- The last missing piece ends the load. -/
theorem loadReply_done {bs : List Byte} (ha : a = .data bs false) (hall : (l.take i bs).pieces.all (fun p => p.got.isSome) = true) :
    exec .loadReply s = .next (s.loadDone t (l.take i bs)) := by
  show execLoadReply s = _
  simp [execLoadReply, harg, Ctx.awaiting_some hepoch hwait hl, ha, hall]

end

/-- Without a buffered effect a load sees the home's bytes (R189). -/
theorem forward_empty {s : State} {t : ThreadId} (h : (s.ctx t).buf = []) (a : Word) (bs : List Byte) : forward s t a bs = bs := by
  simp [forward, fwdByte, h, List.mapIdx_eq_zipIdx_map]

@[simp] theorem LoadWait.take_one {l : LoadWait} {p : Piece} (h : l.pieces = [p]) (bs : List Byte) :
    (l.take 0 bs).pieces = [{ p with got := some bs }] := by
  simp [LoadWait.take, h]

theorem LoadWait.take_first {l : LoadWait} {p q : Piece} (h : l.pieces = [p, q]) (bs : List Byte) :
    l.take 0 bs = { l with pieces := [{ p with got := some bs }, q] } := by
  simp [LoadWait.take, h]

/-- A scalar load of one piece writes its register (R222, R223). -/
theorem State.loadDone_scalar {s : State} {t : ThreadId} {l : LoadWait} {p : Piece} {bs : List Byte} {d : BitVec 5} {m : Nat}
    (hbuf : (s.ctx t).buf = []) (hkind : l.kind = .scalar d m) (hp : l.pieces = [p]) (hlen : bs.length = m) :
    s.loadDone t (l.take 0 bs) = s.setCtx t (s.waitEnds ((s.ctx t).wr d (BitVec.ofNat 64 (natOf bs)))) := by
  have hkind' : (l.take 0 bs).kind = .scalar d m := hkind
  simp [State.loadDone, hkind', LoadWait.take_one hp, forward_empty hbuf, State.onCtx, Ctx.loaded, List.take_of_length_le (Nat.le_of_eq hlen)]

/-! ## The end of a load wait (R119, R126, R197) -/

/-- A port write leaves how its context waits. -/
theorem Ctx.wr_waits (c : Ctx) (p : BitVec 5) (v : Word) : (c.wr p v).preemptPending = c.preemptPending ∧ (c.wr p v).shield = c.shield ∧
    (c.wr p v).nextIssue = c.nextIssue := by
  simp only [Ctx.wr]
  split
  · exact ⟨rfl, rfl, rfl⟩
  · split <;> exact ⟨rfl, rfl, rfl⟩

theorem State.waitEnds_ready (s : State) {c : Ctx} (h : c.preemptPending = false ∨ c.shield = true) : s.waitEnds c =
    { c with status := .ready, loadWait := none, nextIssue := max c.nextIssue (s.cycle + 1) } := by
  have hgo : (c.preemptPending && !c.shield) = false := by obtain h | h := h <;> simp [h]
  simp [State.waitEnds, Ctx.wake, hgo]

theorem State.waitEnds_suspended (s : State) {c : Ctx} (hp : c.preemptPending = true) (hs : c.shield = false) : s.waitEnds c =
    { c with status := .suspended, loadWait := none, preempted := true, preemptPending := false } := by
  simp [State.waitEnds, Ctx.wake, hp, hs]

/-! ## The snoop filter (R220) -/

theorem snoopRecall_run {s : State} {die e line : Nat} (harg : s.arg = .snoopRecall die e line false) : exec .snoopRecall s = .next
    { s with snoop := tput s.snoop (die, e) ((tget s.snoop [] (die, e)).filter (· ≠ line)) } := by
  show execSnoopRecall s = _
  simp only [execSnoopRecall, harg, Bool.false_eq_true, if_false]

/-- The lines of a filter after an access to one: recorded, the oldest gone where there was no room. -/
def withLine (ls : List Nat) (line : Nat) : List Nat :=
  if ls.contains line then ls else (if 16384 ≤ ls.length then ls.drop 1 else ls) ++ [line]

theorem mem_withLine (ls : List Nat) (line : Nat) : line ∈ withLine ls line := by
  unfold withLine
  split
  · next h => simpa using h
  · simp

theorem withLine_length {ls : List Nat} (h : ls.length ≤ 16384) (line : Nat) : (withLine ls line).length ≤ 16384 := by
  unfold withLine
  split
  · exact h
  · split <;> simp <;> omega

/-- The state in which a line of HBM is recorded. -/
def State.recorded (s : State) (p : Nat) : State :=
  { s with snoop := tput s.snoop (hbmLine p).1 (withLine (tget s.snoop [] (hbmLine p).1) (hbmLine p).2) }

theorem companionRequest_read {s : State} {r : CompReq} (harg : s.arg = .companionRequest r) (hw : r.write = none) :
    exec .companionRequest s = .next (s.recorded r.p) := by
  show execCompanionRequest s = _
  simp only [execCompanionRequest, State.recorded, withLine, harg, hw]

theorem companionRequest_write {s : State} {r : CompReq} {bs : List Byte} (harg : s.arg = .companionRequest r) (hw : r.write = some bs) :
    exec .companionRequest s = .next ((s.recorded r.p).store (.hbm r.p) bs) := by
  show execCompanionRequest s = _
  simp only [execCompanionRequest, State.recorded, withLine, harg, hw]

/-- A companion access records its line, whether it reads or writes. -/
theorem companionRequest_records {s : State} {r : CompReq} (harg : s.arg = .companionRequest r) : ∃ u, exec .companionRequest s = .next u ∧
    u.snoop = (s.recorded r.p).snoop ∧ (r.write = none → u.mem = s.mem) ∧
    (∀ bs, r.write = some bs → u.mem = memWrite s.mem r.p (bs.map some)) := by
  cases hw : r.write with
  | none => exact ⟨_, companionRequest_read harg hw, rfl, fun _ => rfl, by simp⟩
  | some bs =>
    refine ⟨_, companionRequest_write harg hw, rfl, by simp, ?_⟩
    rintro _ ⟨⟩
    rfl

end Sys2Proof.Machine

namespace Sys2Proof
open Machine

/-- Settles O30: queues, replies and the snoop filter, in the order of the statement. -/
theorem queuesAndReplies : Obligations.QueuesAndReplies := by
  refine ⟨fun s r t k hclean hcheck => ?_, fun s t n i a l harg => ?_, fun s die e line r => ?_⟩
  · intro q reply
    refine ⟨fun harg hk hop => ?_, fun harg hk hop hentry => ?_, fun v harg hk hop hres => ?_, fun harg hk hop hres => ?_⟩
    · exact ⟨fun h => queueReserve_made (push := true) harg hop hk (State.qreserve_push hclean hcheck h),
        fun h => queueReserve_refused (push := true) harg hop hk (State.qreserve_push_full hclean hcheck h)⟩
    · exact ⟨fun hfree hused => queueReserve_made (push := false) harg hop hk (State.qreserve_pop hclean hcheck hfree hused hentry),
        fun h => queueReserve_refused (push := false) harg hop hk (State.qreserve_pop_none hclean hcheck h)⟩
    · rw [queueSettle_run harg hk (.inl ⟨v, hop⟩), State.settleAt_push hcheck hop hres]
    · rw [queueSettle_run harg hk (.inr hop), State.settleAt_pop hcheck hop hres]
  · intro x
    refine ⟨fun hlate => ?_, fun hepoch hwait hl => ⟨?_, ?_, ?_, ?_, ?_⟩⟩
    · rw [loadReply_late harg hlate]
      refine ⟨?_, ?_, fun h => by rw [State.lateReply_dropped s h]⟩
      · rintro bs bad rfl hlive hgen
        rw [State.lateReply_current hlive hgen]
      · rintro bs bad rfl h
        rw [State.lateReply_stale h]
    · rintro bs d m p ha hkind hp rfl hbuf hlen y
      rw [loadReply_done harg hepoch hwait hl ha (by rw [LoadWait.take_one hp]; rfl), State.loadDone_scalar hbuf hkind hp hlen]
      obtain ⟨hpending, hshield, hissue⟩ : y.preemptPending = x.preemptPending ∧ y.shield = x.shield ∧ y.nextIssue = x.nextIssue :=
        Ctx.wr_waits _ _ _
      refine ⟨fun h => ?_, fun hp hs => ?_⟩
      · rw [← hissue, State.waitEnds_ready s (by rwa [hpending, hshield])]
      · rw [State.waitEnds_suspended s (hpending.trans hp) (hshield.trans hs)]
    · rintro bs p q ha hp rfl hq
      rw [loadReply_piece harg hepoch hwait hl ha (by simp [LoadWait.take_first hp, hq]), LoadWait.take_first hp]
    · exact fun bs p ha hp => loadReply_poison harg hepoch hwait hl ha hp
    · exact fun p ha hp => loadReply_nack harg hepoch hwait hl ha hp
    · exact fun c p ha hp => loadReply_fault harg hepoch hwait hl ha hp
  · intro x
    refine ⟨fun harg => ⟨_, snoopRecall_run harg, rfl, ?_, fun k hk => ?_⟩, fun harg => ?_⟩
    · simp
    · simp [hk]
    · obtain ⟨u, hexec, hsnoop, hread, hwrite⟩ := companionRequest_records harg
      have hlines : tget u.snoop [] x.1 = withLine (tget s.snoop [] x.1) x.2 := by
        rw [hsnoop]; exact tget_tput_same _ _ _ _
      exact ⟨u, hexec, hlines ▸ mem_withLine _ _, fun h => hlines ▸ withLine_length h _, hread, hwrite⟩

end Sys2Proof
end

section
/-! PROOF of O28. Waits that end, pre-emption, resumption and the answers of probes (R103, R107, R190, R197, R198, R244 to R246, R276). -/

namespace Sys2Proof.Machine

open Sys2Proof

/-! ## Waits that end (R244 to R246) -/

section
variable {s : State} {t : ThreadId}

theorem fenceDone_run {n : Nat} (harg : s.arg = .fenceDone t) (hwait : (s.ctx t).status = .running (.fence n)) :
    exec .fenceDone s = .next (if s.fenceClear t n then s.setCtx t { s.ctx t with status := .ready } else s) := by
  show execFenceDone s = _
  simp only [execFenceDone, harg, State.fenceStep, hwait, State.onCtx]

theorem drainDone_run (harg : s.arg = .drainDone t) (hwait : (s.ctx t).status = .running .drain) : exec .drainDone s = .next
    (if (s.core t.core).drained (s.ctx t).serial then s.setCtx t { s.ctx t with status := .ready } else s) := by
  show execDrainDone s = _
  simp only [execDrainDone, harg, State.fenceStep, hwait, State.onCtx]

theorem migrShip_run {d : CoreId} (harg : s.arg = .migrShip t) (hwait : (s.ctx t).status = .running .ship) (hto : (s.ctx t).shipTo = some d) :
    exec .migrShip s = .next (if (s.core t.core).drained (s.ctx t).serial then
      (s.freeCtx t).sendFrom t.core d (.packet (s.packetOf t)) (s.ctx t).prio none else s) := by
  show execMigrShip s = _
  simp only [execMigrShip, harg, hwait, hto]
  split <;> rfl

end

/-- A freed context keeps nothing but the number of its last thread (R121). -/
theorem State.freeCtx_ctx (s : State) (t : ThreadId) : (s.freeCtx t).ctx t = { serial := (s.ctx t).serial, freeAt := s.cycle } :=
  State.ctx_setCtx _ _ _

/-- A thread packet never leaves its device: it goes on the channel of its priority to its core (R109, R136). -/
theorem State.sendFrom_packet (s : State) (src dst : CoreId) (p : Packet) (prio : Nat) (rel : Option Nat) : ∃ k it,
    s.sendFrom src dst (.packet p) prio rel = (s.setCore src k).post (.barge (.core src) dst prio) (.bargeArrival dst (.core src) it) ∧
    it.load = .packet p :=
  ⟨_, _, rfl, rfl⟩

/-! ## Pre-emption and resumption (R197, R198, R276) -/

section
variable {s : State} {t : ThreadId}

theorem preemption_free (harg : s.arg = .preemption t) (hfree : (s.ctx t).status = .free) : exec .preemption s = .next s := by
  show execPreemption s = _
  simp only [execPreemption, harg, hfree, if_true]

theorem preemption_now (harg : s.arg = .preemption t) (hlive : (s.ctx t).status ≠ .free) (hnow : s.preemptNow t = true) :
    exec .preemption s = .next (s.discard t 0 (fun u => u.onCtx t (fun c =>
      { c with status := .suspended, shield := true, preempted := true, preemptPending := false }))) := by
  show execPreemption s = _
  simp only [execPreemption, harg, hlive, hnow, if_true, if_false]

theorem preemption_waits (harg : s.arg = .preemption t) (hlive : (s.ctx t).status ≠ .free) (hrun : (s.ctx t).status ≠ .suspended)
    (hnow : s.preemptNow t = false) : exec .preemption s = .next (s.setCtx t { s.ctx t with preemptPending := true }) := by
  show execPreemption s = _
  simp only [execPreemption, harg, hlive, hnow, Bool.false_eq_true, if_false]

theorem preemption_suspended (harg : s.arg = .preemption t) (hsusp : (s.ctx t).status = .suspended) : exec .preemption s = .next (s.setCtx t
    (if (s.ctx t).shield then { s.ctx t with preemptPending := !(s.ctx t).preempted }
     else { s.ctx t with preempted := true, preemptPending := false })) := by
  have hnow : s.preemptNow t = false := by simp [State.preemptNow, hsusp]
  show execPreemption s = _
  simp only [execPreemption, harg, hsusp, hnow, reduceCtorEq, Bool.false_eq_true, if_false]
  split <;> rfl

/-- A READY context whose instruction has retired, with no shield, is pre-empted at once (R197, R198). -/
theorem State.preemptNow_ready (hready : (s.ctx t).status = .ready) :
    s.preemptNow t = true ↔ (s.ctx t).shield = false ∧ (s.ctx t).nextIssue ≤ s.cycle := by
  simp [State.preemptNow, hready]

/-- A load wait, a parked context and a wait for a completion are no points at which a pre-emption takes effect (R197). -/
theorem State.preemptNow_waiting (hwait : (s.ctx t).status = .loadWait ∨ (s.ctx t).status = .mwait ∨ ∃ n, (s.ctx t).status = .parkWait n) :
    s.preemptNow t = false := by
  obtain h | h | ⟨n, h⟩ := hwait <;> simp [State.preemptNow, h]

/-- The pre-emption of a reach with nothing buffered and a discard left: back at its snapshot, suspended and shielded (R196 to R198). -/
theorem preemption_discards (harg : s.arg = .preemption t) (hready : (s.ctx t).status = .ready) (hissue : (s.ctx t).nextIssue ≤ s.cycle)
    (hshield : (s.ctx t).shield = false) (hbuf : (s.ctx t).buf = []) (hlim : (s.ctx t).reachcnt + 1 ≤ (s.ctx t).snap.reachlim) :
    ∃ u, exec .preemption s = .next u ∧ u.mem = s.mem ∧ u.ctx t =
      { (s.ctx t).restore with
        epoch := s.nextSerial, status := .suspended, shield := true, preempted := true, preemptPending := false } := by
  obtain ⟨u, hu, hmem, hctx⟩ := State.discard_empty hbuf 0 (fun u : State => u.onCtx t (fun c =>
    { c with status := .suspended, shield := true, preempted := true, preemptPending := false }))
  refine ⟨_, preemption_now harg (by simp [hready]) ((State.preemptNow_ready hready).2 ⟨hshield, hissue⟩), ?_⟩
  rw [hu, if_neg (Nat.not_lt.2 hlim)]
  exact ⟨hmem, by simp [State.onCtx, hctx]⟩

theorem preemptionEnd_run (harg : s.arg = .preemptionEnd t) : exec .preemptionEnd s = .next (s.setCtx t { s.ctx t with
    preemptPending := false, preempted := false,
    status := (if (s.ctx t).status = .suspended ∧ (s.ctx t).faulted = false then .ready else (s.ctx t).status) }) := by
  show execPreemptionEnd s = _
  simp only [execPreemptionEnd, harg, Bool.and_eq_true, decide_eq_true_eq, Bool.not_eq_true']
  split <;> rfl

/-- The resume message that a core owes a thread reaches it: the fault holds it no more (R276). -/
theorem faultResume_thread {n : Nat} {e : CoreId × Core} (harg : s.arg = .faultResume (.thread t n))
    (howed : s.cores.find? (fun e => e.2.resumes.any (fun r => r.2.contains (.thread t n) && e.2.drained r.1)) = some e)
    (hserial : (s.ctx t).serial = n) (hfault : (s.ctx t).faulted = true) : ∃ k, exec .faultResume s = .next ((s.setCore e.1 k).setCtx t
      { s.ctx t with faulted := false, status := if (s.ctx t).preempted then (s.ctx t).status else .ready }) := by
  show ∃ k, execFaultResume s = _
  simp only [execFaultResume, harg, howed, State.ctx_setCore, hserial, hfault, decide_true, Bool.and_self, if_true]
  refine ⟨_, congrArg (fun c => Host.Outcome.next (State.setCtx _ t c)) ?_⟩
  split <;> rfl

end

/-! ## The answers of probes (R103, R107, R190) -/

section
variable {s : State} {t : ThreadId} {n i p : Nat} {a : XAns} (harg : s.arg = .probeAnswer t n i p a)
include harg

/-- What answers an earlier attempt of the reach finds no taker. -/
theorem probeAnswer_late (hlate : (s.ctx t).epoch ≠ n ∨ (s.ctx t).status = .free) : exec .probeAnswer s = .next s := by
  show execProbeAnswer s = _
  simp [execProbeAnswer, harg, hlate]

variable (hepoch : (s.ctx t).epoch = n)
include hepoch

/-- Where no route is awaited the answer is recorded, and a boundary that waited for it goes on. -/
theorem probeAnswer_records (hlive : (s.ctx t).status ≠ .free) (hroute : ∀ b va, (s.ctx t).status ≠ .running (.route b va)) :
    exec .probeAnswer s = .next ((s.setCtx t ((s.ctx t).setProbe i p a.state)).commitStep t) := by
  show execProbeAnswer s = _
  simp only [execProbeAnswer, harg, hepoch, hlive, ne_eq, not_true, decide_false, Bool.or_false, Bool.false_eq_true, if_false]

variable {b : Barge} {va : Nat} (hroute : (s.ctx t).status = .running (.route b va))
include hroute

/-- A `send` that waits for its route takes the answer that comes after every probe of the reach; the others are recorded. -/
theorem probeAnswer_route : exec .probeAnswer s = .next
    (if i = (s.ctx t).buf.length then s.routeAnswer t b va a else s.setCtx t ((s.ctx t).setProbe i p a.state)) := by
  show execProbeAnswer s = _
  simp only [execProbeAnswer, harg, hepoch, hroute, ne_eq, not_true, decide_false, reduceCtorEq, Bool.or_false, Bool.false_eq_true, if_false]
  split <;> rfl

end

/-- A READY context is at no boundary, so it has none to go on with. -/
theorem State.commitStep_ready {s : State} {t : ThreadId} (hready : (s.ctx t).status = .ready) : s.commitStep t = s := by
  simp [State.commitStep, State.commitReady, hready]

section
variable {s : State} {t : ThreadId} {b : Barge} {l : Loc}

/-- The barge of a translated route enters the reach, where its control word is well formed and there is room (R103, R107). -/
theorem State.routeAnswer_enters (hctl : ctlForm s (s.ctx t).sid 1 false b.ctl = true) (hroom : (s.ctx t).room = .ok ()) (va : Nat) :
    s.routeAnswer t b va (.ok l) = s.setCtx t { s.ctx t with
      status := .ready,
      buf := (s.ctx t).buf ++ [⟨.send b (.global va), [{ va := va, acc := .route, ans := .ok l }]⟩] } := by
  simp [State.routeAnswer, hctl, hroom]

theorem State.routeAnswer_illegal (hctl : ctlForm s (s.ctx t).sid 1 false b.ctl = false) (va : Nat) :
    s.routeAnswer t b va (.ok l) = (s.onCtx t Ctx.back).stop t ⟨.illegalForm, none⟩ (s.lastWord t) := by
  simp [State.routeAnswer, hctl]

end

end Sys2Proof.Machine

namespace Sys2Proof
open Machine

/-- Settles O28: waits that end, then pre-emption and resumption by the state of the context, then a probe's answer by what waits for it. -/
theorem waitsAndPreemption : Obligations.WaitsAndPreemption := by
  refine ⟨fun s t => ⟨fun n => fenceDone_run, drainDone_run, fun d harg hwait hto => ?_⟩, fun s t => ?_, fun s t n i p a harg => ?_⟩
  · rw [migrShip_run harg hwait hto]
    refine ⟨fun h => by simp [h], fun h => ⟨_, by rw [if_pos h], State.sendFrom_mem (s.freeCtx t) _ _ _ _ _, ?_⟩⟩
    obtain ⟨k, it, hsend, hload⟩ := State.sendFrom_packet (s.freeCtx t) t.core d (s.packetOf t) (s.ctx t).prio none
    rw [hsend]
    exact ⟨congrArg Ctx.status (s.freeCtx_ctx t), s.packetOf t, it, List.mem_append_right _ (List.mem_singleton_self _), hload,
      rfl, rfl, rfl, rfl, rfl, rfl⟩
  · refine ⟨preemption_free, fun harg hready hissue hshield hbuf hlim => ?_, fun harg hwait => ?_, preemption_suspended, preemptionEnd_run,
      fun n e harg howed hserial hfault => ?_⟩
    · obtain ⟨u, hexec, hmem, hctx⟩ := preemption_discards harg hready hissue hshield hbuf hlim
      exact ⟨u, hexec, hmem, by rw [hctx]; exact ⟨rfl, rfl, rfl, rfl, rfl, rfl⟩⟩
    · obtain ⟨hready, hheld⟩ | hwait := hwait
      · refine preemption_waits harg (by simp [hready]) (by simp [hready]) ?_
        rw [← Bool.not_eq_true, State.preemptNow_ready hready]
        rintro ⟨hshield, hissue⟩
        obtain h | h := hheld
        · simp [h] at hshield
        · omega
      · refine preemption_waits harg ?_ ?_ (State.preemptNow_waiting hwait) <;>
          (obtain h | h | ⟨n, h⟩ := hwait <;> simp [h])
    · obtain ⟨k, hexec⟩ := faultResume_thread harg howed hserial hfault
      exact ⟨_, hexec, rfl, by simp, by simp⟩
  · refine ⟨probeAnswer_late harg, fun hepoch hready => ?_, fun b hepoch hwait => ?_, fun b va hepoch hroute => ?_⟩
    · rw [probeAnswer_records harg hepoch (by simp [hready]) (by simp [hready])]
      exact congrArg Host.Outcome.next (State.commitStep_ready ((congrArg Ctx.status (State.ctx_setCtx _ _ _)).trans hready))
    · exact probeAnswer_records harg hepoch (by simp [hwait]) (by simp [hwait])
    · rw [probeAnswer_route harg hepoch hroute]
      refine ⟨fun h => by rw [if_neg h], fun h => ?_⟩
      rw [if_pos h]
      refine ⟨?_, ?_, ?_, ?_⟩
      · rintro l rfl hctl hroom
        rw [State.routeAnswer_enters hctl hroom]
      · rintro l rfl hctl
        rw [State.routeAnswer_illegal hctl]
      · rintro rfl; rfl
      · rintro rfl; rfl

end Sys2Proof
end

section
/-! PROOF of O31. Translation: a leaf's answer (R274), a station and its walks (R270 to R272), shootdowns (R278, R279). -/

namespace Sys2Proof.Machine

open Sys2Proof

/-! ## Leaves (R274) -/

/-- One bit of a word, as a number. -/
theorem bitsN_bit {w : Nat} (v : BitVec w) (k : Nat) : bitsN v k k = (v.getLsbD k).toNat := by
  rw [BitVec.getLsbD, Nat.toNat_testBit]
  simp [bitsN]

theorem bitsN_bit_one {w : Nat} (v : BitVec w) (k : Nat) : bitsN v k k = 1 ↔ v.getLsbD k = true := by
  rw [bitsN_bit, Bool.toNat_eq_one]

theorem bitsN_bit_zero {w : Nat} (v : BitVec w) (k : Nat) : bitsN v k k = 0 ↔ v.getLsbD k = false := by
  rw [bitsN_bit, Bool.toNat_eq_zero]

/-- A leaf refuses every access while its page is quarantined, writes where it forbids them, and queues and routes in companion memory. -/
theorem leafAnswer_eq (e : Word) (size va : Nat) (acc : Acc) : leafAnswer e size va acc =
    if e.getLsbD 4 = true ∨ ((acc = .write ∨ acc = .queue) ∧ e.getLsbD 1 = false) ∨ ((acc = .queue ∨ acc = .route) ∧ e.getLsbD 3 = true)
    then .access
    else .ok (if e.getLsbD 3 then .comp (bitsN e 51 12 * 4096 + va % 2 ^ (16 + 10 * size))
              else .hbm (bitsN e 51 12 * 4096 + va % 2 ^ (16 + 10 * size))) := by
  unfold leafAnswer
  simp only [bitsN_bit_one, bitsN_bit_zero, pageBytes]
  generalize e.getLsbD 4 = quarantined, e.getLsbD 1 = writable, e.getLsbD 3 = companion
  cases quarantined with
  | true => simp
  | false =>
    cases acc with
    | queue => cases writable <;> simp
    | read | write | route => simp

/-! ## Stations (R271, R272) -/

@[simp] theorem State.station_setStation (s : State) (n : Nat) (x : Station) : (s.setStation n x).station n = x := by
  simp [State.station]

theorem State.station_setStation_other (s : State) {n m : Nat} (x : Station) (h : m ≠ n) :
    (s.setStation n x).station m = s.station m := by
  simp [State.station, tget_tput_other _ _ _ h]

@[simp] theorem State.setStation_setStation (s : State) (n : Nat) (x y : Station) :
    (s.setStation n x).setStation n y = s.setStation n y := by
  simp [State.setStation, tput_tput]

section

variable {s : State} {n : Nat} {r : XReq}

theorem State.translate_hit {e : XEntry} (h : (s.station n).cache.find? (fun e => e.covers r.sid r.va) = some e) :
    s.translate n r = s.xlateAnswer r (leafAnswer e.entry e.size r.va r.acc) := by
  simp only [State.translate, h]

theorem State.translate_miss (h : (s.station n).cache.find? (fun e => e.covers r.sid r.va) = none) : s.translate n r = s.miss n r := by
  simp only [State.translate, h]

/-- A miss joins the oldest walk that may be to its page. -/
theorem State.miss_joins {x : Walk} (h : (s.station n).walks.find? (fun w => w.shares r.sid r.va) = some x) :
    s.miss n r = s.setStation n { s.station n with
      walks := (s.station n).walks.map (fun w => if w.id = x.id then { w with waiters := w.waiters ++ [r] } else w) } := by
  simp only [State.miss, h]

section

variable (hnew : ∀ w ∈ (s.station n).walks, w.shares r.sid r.va = false)

include hnew

theorem State.find_shares_none : (s.station n).walks.find? (fun w => w.shares r.sid r.va) = none :=
  List.find?_eq_none.2 (fun w hw => by simp [hnew w hw])

theorem State.miss_starts (hroom : (s.station n).walks.length < 64) :
    s.miss n r = s.setStation n { s.station n with
      walks := (s.station n).walks ++ [⟨(s.station n).nextId, r.sid, r.va, 1, (s.job r.sid).root, [r]⟩],
      nextId := (s.station n).nextId + 1, misses := (s.station n).misses + 1 } := by
  simp only [State.miss, State.find_shares_none hnew, if_pos hroom]

theorem State.miss_waits (hfull : 64 ≤ (s.station n).walks.length) (hroom : (s.station n).waitq.length < 1024) :
    s.miss n r = s.setStation n { s.station n with waitq := (s.station n).waitq ++ [r] } := by
  simp only [State.miss, State.find_shares_none hnew, if_neg (Nat.not_lt.2 hfull), if_pos hroom]

theorem State.miss_retries (hfull : 64 ≤ (s.station n).walks.length) (hlong : 1024 ≤ (s.station n).waitq.length) :
    s.miss n r = (s.setStation n { s.station n with retries := (s.station n).retries + 1 }).post .none (.missRetry n r) 64 := by
  simp only [State.miss, State.find_shares_none hnew, if_neg (Nat.not_lt.2 hfull), if_neg (Nat.not_lt.2 hlong)]

end

theorem translation_run (harg : s.arg = .translation n r) : exec .translation s = .next (s.translate n r) := by
  change execTranslation s = _
  simp only [execTranslation, harg]

theorem missRetry_run (harg : s.arg = .missRetry n r) : exec .missRetry s = .next (s.translate n r) := by
  change execMissRetry s = _
  simp only [execMissRetry, harg]

end

/-! ## Walks (R270) -/

/-- The entry a walk reads next. -/
def State.walkEntry (s : State) (w : Walk) : Word :=
  BitVec.ofNat 64 (natOf (s.bytes (.hbm (w.table + 8 * levelIndex w.va w.level)) 8))

/-- The leaf a walk that ends there has found, as its station caches it (R271). -/
def State.walkLeaf (s : State) (w : Walk) : XEntry :=
  ⟨w.sid, w.va / pageBytes (4 - w.level) * pageBytes (4 - w.level), 4 - w.level, s.walkEntry w⟩

section

variable {s : State} {n id : Nat} {w : Walk} (harg : s.arg = .pageWalk n id)
  (hfind : (s.station n).walks.find? (fun w => w.id = id) = some w)
  (hclean : s.poisoned (.hbm (w.table + 8 * levelIndex w.va w.level)) 8 = false)

include harg hfind hclean

/-- An entry that is invalid or malformed ends the walk in a NACK; a leaf is cached and answers all that wait for the walk; any other entry
takes it down a level. -/
theorem pageWalk_run : exec .pageWalk s = .next (
    if (s.walkEntry w).getLsbD 0 = false ∨ entryForm s.part (s.walkEntry w) w.level = false then
      s.walkEnd n w (fun u r => u.xlateAnswer r .nack)
    else if (s.walkEntry w).getLsbD 2 = true then
      (s.setStation n { s.station n with
        cache := (if 4096 ≤ (s.station n).cache.length then (s.station n).cache.drop 1 else (s.station n).cache) ++ [s.walkLeaf w] }).walkEnd
        n w (fun u r => u.xlateAnswer r (leafAnswer (s.walkEntry w) (4 - w.level) r.va r.acc))
    else s.walkOn n w (bitsN (s.walkEntry w) 51 12 * 4096)) := by
  change execPageWalk s = _
  have hentry : BitVec.ofNat 64 (natOf (s.bytes (.hbm (w.table + 8 * levelIndex w.va w.level)) 8)) = s.walkEntry w := rfl
  simp only [execPageWalk, harg, hfind, hclean, hentry, State.walkLeaf, bitsN_bit_one, bitsN_bit_zero, Bool.or_eq_true,
    decide_eq_true_eq, Bool.not_eq_true', Bool.false_eq_true, if_false, apply_ite Host.Outcome.next]

/-- An invalid entry ends the walk. -/
theorem pageWalk_nacks (hvalid : (s.walkEntry w).getLsbD 0 = false) :
    exec .pageWalk s = .next (s.walkEnd n w (fun u r => u.xlateAnswer r .nack)) := by
  rw [pageWalk_run harg hfind hclean, if_pos (Or.inl hvalid)]

section

variable (hvalid : (s.walkEntry w).getLsbD 0 = true) (hform : entryForm s.part (s.walkEntry w) w.level = true)

include hvalid hform

/-- An entry that is no leaf takes the walk down. -/
theorem pageWalk_descends (hleaf : (s.walkEntry w).getLsbD 2 = false) :
    exec .pageWalk s = .next (s.walkOn n w (bitsN (s.walkEntry w) 51 12 * 4096)) := by
  rw [pageWalk_run harg hfind hclean, if_neg (by rw [hvalid, hform]; decide), if_neg (by rw [hleaf]; decide)]

/-- A leaf is cached, where the cache has room beside what it holds. -/
theorem pageWalk_caches (hleaf : (s.walkEntry w).getLsbD 2 = true) (hroom : (s.station n).cache.length < 4096) :
    exec .pageWalk s = .next
      ((s.setStation n { s.station n with cache := (s.station n).cache ++ [s.walkLeaf w] }).walkEnd n w
        (fun u r => u.xlateAnswer r (leafAnswer (s.walkEntry w) (4 - w.level) r.va r.acc))) := by
  rw [pageWalk_run harg hfind hclean, if_neg (by rw [hvalid, hform]; decide), if_pos hleaf, if_neg (Nat.not_le.2 hroom)]

end

end

/-- A walk all of whose misses may still be to its page keeps them as it goes on. -/
theorem State.walkOn_keeps (s : State) (n : Nat) (w : Walk) (table : Nat)
    (h : ∀ r ∈ w.waiters, ({ w with level := w.level + 1 } : Walk).shares r.sid r.va = true) :
    s.walkOn n w table = s.setStation n { s.station n with walks := (s.station n).walks.map (fun x =>
      if x.id = w.id then { w with level := w.level + 1, table := table } else x) } := by
  have hshares (r : XReq) : ({ w with level := w.level + 1, table := table } : Walk).shares r.sid r.va =
      ({ w with level := w.level + 1 } : Walk).shares r.sid r.va := rfl
  have hall : w.waiters.filter (fun r => ({ w with level := w.level + 1, table := table } : Walk).shares r.sid r.va) = w.waiters :=
    List.filter_eq_self.2 h
  have hnone : w.waiters.filter (fun r => !({ w with level := w.level + 1, table := table } : Walk).shares r.sid r.va) = [] :=
    List.filter_eq_nil_iff.2 (fun r hr => by simp [hshares, h r hr])
  simp only [State.walkOn, hall, hnone, List.foldl_nil]

/-! ## Shootdowns (R278, R279) -/

/-- What one step of a fold brings about and every step keeps holds after the fold. -/
theorem foldl_brings {σ α : Type} {P : σ → Prop} {f : σ → α → σ} {l : List α} {x : α} (hx : x ∈ l) (hdo : ∀ s, P (f s x))
    (hkeep : ∀ s y, P s → P (f s y)) (s : σ) : P (l.foldl f s) := by
  obtain ⟨a, b, rfl⟩ := List.append_of_mem hx
  rw [List.foldl_append, List.foldl_cons]
  exact List.foldlRecOn b f (hdo _) (fun s hs y _ => hkeep s y hs)

/-- Probes asked again leave memory and stations alone. -/
theorem State.restale_keeps (s : State) (sid : Nat) (gone : Nat → Bool) :
    ((s.restale sid gone).mem, (s.restale sid gone).stations) = (s.mem, s.stations) := by
  refine foldl_keeps (fun u : State => (u.mem, u.stations)) (fun u e => ?_) _ s
  dsimp only
  split
  · rfl
  · refine foldl_keeps (fun u : State => (u.mem, u.stations)) (fun u i => ?_) _ _
    split
    · refine foldl_keeps (fun u : State => (u.mem, u.stations)) (fun u j => ?_) _ _
      split
      · split <;> rfl
      · rfl
    · rfl

theorem State.onPiece_keeps (s : State) (c : CoreId) (n i : Nat) (f : RPiece → RPiece) :
    ((s.onPiece c n i f).mem, (s.onPiece c n i f).stations) = (s.mem, s.stations) := by
  simp only [State.onPiece, State.onRop]
  split <;> rfl

/-- So do accesses translated again. -/
theorem State.retranslate_keeps (s : State) (sid : Nat) (gone : Nat → Bool) :
    ((s.retranslate sid gone).mem, (s.retranslate sid gone).stations) = (s.mem, s.stations) := by
  unfold State.retranslate
  extract_lets u1 u2
  have h1 : (u1.mem, u1.stations) = (s.mem, s.stations) := by
    refine foldl_keeps (fun u : State => (u.mem, u.stations)) (fun u e => ?_) _ s
    split
    · split
      · rfl
      · refine foldl_keeps (fun u : State => (u.mem, u.stations)) (fun u a => ?_) _ u
        split
        · split <;> rfl
        · rfl
    · rfl
  have h2 : (u2.mem, u2.stations) = (u1.mem, u1.stations) := by
    refine foldl_keeps (fun u : State => (u.mem, u.stations)) (fun u e => ?_) _ u1
    dsimp only
    split <;> rfl
  rw [← h1, ← h2]
  refine foldl_keeps (fun u : State => (u.mem, u.stations)) (fun u e => ?_) _ u2
  split
  · rfl
  · refine foldl_keeps (fun u : State => (u.mem, u.stations)) (fun u p => ?_) _ u
    refine foldl_keeps (fun u : State => (u.mem, u.stations)) (fun u x => ?_) _ u
    dsimp only
    split
    · exact State.onPiece_keeps _ _ _ _ _
    · rfl

/-- Step 1 of R279 at one station: the entries that are hit go, and the walks that are hit start again. -/
def State.shootAt (hit : XEntry → Bool) (again : State → Walk → Walk) (s : State) (n : Nat) : State :=
  let st := s.station n
  if st.cache = [] && st.walks = [] then s
  else s.setStation n { st with cache := st.cache.filter (fun e => !hit e), walks := st.walks.map (again s) }

section

variable {hit : XEntry → Bool} {again : State → Walk → Walk}

@[simp] theorem State.shootAt_mem (s : State) (n : Nat) : (s.shootAt hit again n).mem = s.mem := by
  simp only [State.shootAt]
  split <;> rfl

/-- No entry that is hit is left in a station. -/
def State.clearAt (hit : XEntry → Bool) (n : Nat) (s : State) : Prop := ∀ e ∈ (s.station n).cache, hit e = false

theorem State.shootAt_clears (s : State) (n : Nat) : State.clearAt hit n (s.shootAt hit again n) := by
  intro e he
  simp only [State.shootAt] at he
  split at he
  · next hempty =>
    have hcache : (s.station n).cache = [] := of_decide_eq_true (Bool.and_eq_true_iff.1 hempty).1
    simp [hcache] at he
  · simp only [State.station_setStation, List.mem_filter, Bool.not_eq_true'] at he
    exact he.2

/-- What is gone does not come back at another station's turn. -/
theorem State.shootAt_clear {s : State} {n : Nat} (m : Nat) (h : State.clearAt hit n s) : State.clearAt hit n (s.shootAt hit again m) := by
  by_cases hnm : n = m
  · subst hnm
    exact s.shootAt_clears n
  · have hother : (s.shootAt hit again m).station n = s.station n := by
      simp only [State.shootAt]
      split
      · rfl
      · exact State.station_setStation_other s _ hnm
    intro e he
    exact h e (hother ▸ he)

/-- Step 1 at all stations of the dies that hold a hive of the SID. -/
def State.shootDies (hit : XEntry → Bool) (again : State → Walk → Walk) (s : State) (sid : Nat) : State :=
  (s.diesOf sid).foldl (fun u d => (stationsOf d).foldl (State.shootAt hit again) u) s

theorem State.shootDies_mem (s : State) (sid : Nat) : (s.shootDies hit again sid).mem = s.mem :=
  foldl_keeps State.mem (fun u _ => foldl_keeps State.mem (fun u n => u.shootAt_mem n) _ u) _ s

theorem State.shootDies_clears (s : State) {sid d n : Nat} (hd : d ∈ s.diesOf sid) (hn : n ∈ stationsOf d) :
    State.clearAt hit n (s.shootDies hit again sid) := by
  refine foldl_brings (P := State.clearAt hit n) hd (fun u => ?_) (fun u d h => ?_) s
  · exact foldl_brings (P := State.clearAt hit n) hn (fun u => u.shootAt_clears n) (fun _ m h => State.shootAt_clear m h) u
  · exact List.foldlRecOn (motive := State.clearAt hit n) _ _ h (fun _ h m _ => State.shootAt_clear m h)

end

/-- A shootdown of all pages of a SID hits its every entry; after step 1 it leaves memory and stations alone. -/
theorem State.shoot_all (s : State) (sid : Nat) (va : Word) (size : Nat) (host : Bool) :
    ∃ hit again, (∀ e, e.sid = sid → hit e = true) ∧
      ((s.shoot sid va size true host).mem, (s.shoot sid va size true host).stations) =
        ((s.shootDies hit again sid).mem, (s.shootDies hit again sid).stations) := by
  unfold State.shoot
  extract_lets v gone hit waits u1 u2 u3 id
  exact ⟨hit, _, fun e he => by simp [hit, he], (State.retranslate_keeps _ _ _).trans (State.restale_keeps u2 _ _)⟩

theorem State.mem_diesOf {s : State} {sid d : Nat} : d ∈ s.diesOf sid ↔ d < 2 ∧ ∃ h ∈ (s.job sid).hives, h.die = d := by
  have hdie : d ∈ [0, 1] ↔ d < 2 := by simp; omega
  simp [State.diesOf, List.mem_filter, hdie]

theorem mem_stationsOf {d n : Nat} : n ∈ stationsOf d ↔ 32 * d ≤ n ∧ n < 32 * d + 32 := by
  simp only [stationsOf, List.mem_map, List.mem_range]
  exact ⟨fun ⟨i, hi, h⟩ => by omega, fun h => ⟨n - 32 * d, by omega, by omega⟩⟩

/-- A host's shootdown of all pages (R278). -/
theorem shootdown_all {s : State} {ctl p0 p1 : Word} (hlk : s.lkDown 0 = false) (harg : s.arg = .shootdown ctl p0 p1)
    (h0 : p0.toNat < 2 ^ 18) (h1 : p1.toNat < 2 ^ 57) (hall : bitsN p0 17 16 = 3) :
    exec .shootdown s = .next (s.shoot (bitsN p0 15 0) p1 2 true true) := by
  have hf0 : bitsN p0 63 18 = 0 := by simp only [bitsN]; omega
  have hf1 : bitsN p1 63 57 = 0 := by simp only [bitsN]; omega
  change execShootdown s = _
  simp [execShootdown, harg, State.byLock_free hlk, hf0, hf1, hall]

/-- A shootdown is over, and SHOT is sent. -/
def State.shotSent (s : State) (id : Nat) (x : Shoot) : State :=
  ({ s with shoots := tdel s.shoots id } : State).eventJob 0 0x005 x.sid [fld x.sid 0, x.va]

theorem State.shotSent_job (s : State) (id : Nat) (x : Shoot) (sid : Nat) : (s.shotSent id x).job sid = s.job sid := by
  rw [State.shotSent, State.job, State.eventJob_jobs, State.job]

section

variable {s : State} {id : Nat} {x : Shoot} (hlk : s.lkDown 0 = false) (harg : s.arg = .shot id) (hfind : tfind s.shoots id = some x)

include hlk harg hfind

/-- SHOT waits for what was released with the old translation. -/
theorem shot_waits (hready : s.shotReady x = false) : exec .shot s = .next s := by
  change execShot s = _
  simp [execShot, harg, State.byLock_free hlk, hfind, hready]

/-- Then it is sent, and what asked for the shootdown goes on. -/
theorem shot_goes (hready : s.shotReady x = true) : exec .shot s = .next (
    if x.host then (s.shotSent id x).hostNext
    else (s.job x.sid).killDies.foldl (fun u d => u.post .none (.killDrainDone d x.sid)) (s.shotSent id x)) := by
  change execShot s = _
  rw [← s.shotSent_job id x x.sid]
  simp only [execShot, harg]
  rw [State.byLock_free hlk]
  simp only [hfind, hready]
  rfl

end

end Sys2Proof.Machine

namespace Sys2Proof
open Machine

/-- Settles O31: a leaf's answer by its bits; a station by hit, walk and room; a walk by its entry; a shootdown and its SHOT. -/
theorem translation : Obligations.Translation := by
  refine ⟨fun e size va acc => ?_, fun s n r => ?_, fun s ctl p0 p1 id x hlk => ⟨fun harg h0 h1 hall => ?_, fun harg hfind => ?_⟩⟩
  · simp only [leafAnswer_eq]
    refine ⟨fun h => if_pos (.inl h), fun hw h => if_pos (.inr (.inl ⟨hw, h⟩)), fun ho h => if_pos (.inr (.inr ⟨ho, h⟩)),
      fun h4 hw ho => if_neg ?_⟩
    rintro (h | ⟨hacc, h⟩ | ⟨hacc, h⟩)
    · exact Bool.false_ne_true (h4.symm.trans h)
    · exact Bool.false_ne_true (h.symm.trans (hw hacc))
    · exact Bool.false_ne_true ((ho hacc).symm.trans h)
  · intro st into
    have takes {i : Instr} (hexec : exec i s = .next (s.translate n r)) : into i := by
      refine ⟨fun e hhit => ?_, fun hmiss => ⟨fun x hx => ?_, fun hnew => ⟨fun hroom => ?_, fun hfull hroom => ?_, fun hfull hlong => ?_⟩⟩⟩
      · rw [hexec, State.translate_hit hhit]
      · rw [hexec, State.translate_miss hmiss, State.miss_joins hx]
      · rw [hexec, State.translate_miss hmiss, State.miss_starts hnew hroom]
      · rw [hexec, State.translate_miss hmiss, State.miss_waits hnew hfull hroom]
      · rw [hexec, State.translate_miss hmiss, State.miss_retries hnew hfull hlong]
    refine ⟨fun harg => takes (translation_run harg), fun harg => takes (missRetry_run harg), fun id w harg hfind => ?_⟩
    intro l e ended hclean
    refine ⟨fun hvalid => ?_, fun hvalid hform hleaf hkeep => ?_, fun hvalid hform hleaf hroom => ?_⟩
    · exact pageWalk_nacks harg hfind hclean hvalid
    · exact (pageWalk_descends harg hfind hclean hvalid hform hleaf).trans (by rw [State.walkOn_keeps _ _ _ _ hkeep]; rfl)
    · exact (pageWalk_caches harg hfind hclean hvalid hform hleaf hroom).trans (by
        simp only [State.walkEnd, State.station_setStation, State.setStation_setStation]; rfl)
  · refine ⟨_, shootdown_all hlk harg h0 h1 hall, ?_⟩
    obtain ⟨hit, again, hhit, hkeeps⟩ := s.shoot_all (bitsN p0 15 0) p1 2 true
    obtain ⟨hmem, hstations⟩ := Prod.mk.inj hkeeps
    refine ⟨hmem.trans (s.shootDies_mem _), fun h hh hdie n hlo hhi e he hsid => ?_⟩
    have hclear : State.clearAt hit n (s.shootDies hit again (bitsN p0 15 0)) :=
      s.shootDies_clears (State.mem_diesOf.2 ⟨hdie, h, hh, rfl⟩) (mem_stationsOf.2 ⟨hlo, hhi⟩)
    rw [State.station, hstations] at he
    exact Bool.false_ne_true ((hclear e he).symm.trans (hhit e hsid))
  · refine ⟨shot_waits hlk harg hfind, fun hready hown hkill => ?_, fun hready hhost => ?_⟩
    · rw [shot_goes hlk harg hfind hready, hown, hkill]; rfl
    · rw [shot_goes hlk harg hfind hready, hhost]; rfl

end Sys2Proof
end

section
/-! PROOF of O52. Hives in service (R267, R490, R491): what the owner writes, how a test and a repair end, and the move of a hive. -/

namespace Sys2Proof.Machine

open Sys2Proof

/-! ## Who writes (R481) -/

/-- What the owner writes is carried out. -/
theorem State.byOwner_owner {s : State} {m p : Nat} (hlk : s.lkDown 0 = false) (h : s.owns m p = true) (f : State → State) :
    s.byOwner m p f = f s := by
  simp [State.byOwner, State.byLock_free hlk, h]

/-- What anybody else writes is not. -/
theorem State.byOwner_other {s : State} {m p : Nat} (hlk : s.lkDown 0 = false) (h : s.owns m p = false) (f : State → State) :
    s.byOwner m p f = s := by
  simp [State.byOwner, State.byLock_free hlk, h]

/-! ## Transitions (R490) -/

section

variable {s : State} {n : Nat} (hn : n < 64 * s.part.dies)

include hn

/-- A hive that nobody holds and no move goes to is fenced at once. -/
theorem State.hiveDcr_fences (hst : s.hiveState (hiveAt n) = 0) (hstays : thas s.moves (hiveAt n) = false)
    (hfree : s.sidOf (hiveAt n) = none) (hdest : ∀ x ∈ s.moves, x.2.dest ≠ hiveAt n) :
    s.hiveDcr n 1 = (s.setHive (hiveAt n) 1).hiveEvent (hiveAt n) 0 1 0 := by
  have hno : s.moves.any (fun m => m.2.dest = hiveAt n) = false := by simpa using hdest
  simp [State.hiveDcr, Nat.not_le.2 hn, hst, hstays, hfree, hno]

/-- One that is held is moved (R491). -/
theorem State.hiveDcr_moves (hst : s.hiveState (hiveAt n) = 0) (hstays : thas s.moves (hiveAt n) = false) {sid : Nat}
    (hheld : s.sidOf (hiveAt n) = some sid) : s.hiveDcr n 1 = s.startMove (hiveAt n) sid := by
  simp [State.hiveDcr, Nat.not_le.2 hn, hst, hstays, hheld]

theorem State.hiveDcr_tests (hst : s.hiveState (hiveAt n) = 1) : s.hiveDcr n 2 = s.setHive (hiveAt n) 2 := by
  simp [State.hiveDcr, Nat.not_le.2 hn, hst]

/-- Only a FENCED hive is tested. -/
theorem State.hiveDcr_refusesTest (hst : s.hiveState (hiveAt n) = 0) : s.hiveDcr n 2 = s.hiveEvent (hiveAt n) 0 0 1 := by
  simp [State.hiveDcr, Nat.not_le.2 hn, hst]

theorem State.hiveDcr_repairs (hst : s.hiveState (hiveAt n) = 1) : s.hiveDcr n 3 = s.setHive (hiveAt n) 3 := by
  simp [State.hiveDcr, Nat.not_le.2 hn, hst]

/-- A hive comes back with its memories zeroed. -/
theorem State.hiveDcr_returns (hst : s.hiveState (hiveAt n) = 1) :
    s.hiveDcr n 0 = ((s.zeroHive (hiveAt n)).setHive (hiveAt n) 0).hiveEvent (hiveAt n) 1 0 0 := by
  simp [State.hiveDcr, Nat.not_le.2 hn, hst]

end

/-! ## The steps -/

/-- The end of a move for a hive with nothing to resume (R491 steps 4 and 5): the copy, the redirection, and the old hive FENCED. -/
def State.renameHive (s : State) (h : HiveId) (x : Move) : State :=
  let u := ({ s with moves := tdel s.moves h } : State).copyHive h x.dest
  ((u.setJob x.sid ((u.job x.sid).movedTo h x.dest)).setHive h 1).hiveEvent h 0 1 0

section

variable {s : State} {m p n : Nat}

theorem hiveFence_writes (harg : s.arg = .hiveFence m p n) : exec .hiveFence s = .next (s.byOwner m p (fun s => s.hiveDcr n 1)) := by
  change execHiveFence s = _
  simp [execHiveFence, harg]

theorem hiveTest_writes (harg : s.arg = .hiveTest m p n) : exec .hiveTest s = .next (s.byOwner m p (fun s => s.hiveDcr n 2)) := by
  change execHiveTest s = _
  simp [execHiveTest, harg]

theorem hiveRepair_writes (harg : s.arg = .hiveRepair m p n) (hm : m ≠ 0) :
    exec .hiveRepair s = .next (s.byOwner m p (fun s => s.hiveDcr n 3)) := by
  change execHiveRepair s = _
  simp [execHiveRepair, harg, hm]

theorem hiveOnline_writes (harg : s.arg = .hiveOnline m p n) : exec .hiveOnline s = .next (s.byOwner m p (fun s => s.hiveDcr n 0)) := by
  change execHiveOnline s = _
  simp [execHiveOnline, harg]

/-- A test that is under way ends FENCED. -/
theorem hiveTestDone_run {st : Nat} (hlk : s.lkDown 0 = false) (harg : s.arg = .hiveTestDone n st) :
    exec .hiveTestDone s = .next (if s.hiveState (hiveAt n) = 2 then
      (s.setHive (hiveAt n) 1).hiveEvent (hiveAt n) 1 1 (if st = 0 then 0 else 2) else s) := by
  change execHiveTestDone s = _
  simp only [execHiveTestDone, harg, State.byLock_free hlk]

/-- A repair that is under way ends. -/
theorem hiveRepair_ends (hlk : s.lkDown 0 = false) (harg : s.arg = .hiveRepair 0 p n) (hn : n < 64 * s.part.dies)
    (hst : s.hiveState (hiveAt n) = 3) : exec .hiveRepair s = .next (s.repaired (hiveAt n)) := by
  change execHiveRepair s = _
  simp [execHiveRepair, harg, State.byLock_free hlk, hn, hst]

/-! ## Moves (R491) -/

variable {h : HiveId} {x : Move}

theorem hiveMoveDone_none (hlk : s.lkDown 0 = false) (harg : s.arg = .hiveMoveDone h) (hmove : tfind s.moves h = none) :
    exec .hiveMoveDone s = .next s := by
  change execHiveMoveDone s = _
  simp [execHiveMoveDone, harg, State.byLock_free hlk, hmove]

theorem hiveMoveDone_waits (hlk : s.lkDown 0 = false) (harg : s.arg = .hiveMoveDone h) (hmove : tfind s.moves h = some x)
    (hready : s.moveReady h = false) : exec .hiveMoveDone s = .next (s.cutMoving h) := by
  change execHiveMoveDone s = _
  simp [execHiveMoveDone, harg, State.byLock_free hlk, hmove, hready]

/-- A hive with nothing to resume is renamed in one step. -/
theorem hiveMoveDone_renames (hlk : s.lkDown 0 = false) (harg : s.arg = .hiveMoveDone h) (hmove : tfind s.moves h = some x)
    (hready : s.moveReady h = true) (hinsts : x.insts = []) (hthreads : x.threads = []) :
    exec .hiveMoveDone s = .next (s.renameHive h x) := by
  change execHiveMoveDone s = _
  simp [execHiveMoveDone, harg, State.byLock_free hlk, hmove, hready, hinsts, hthreads, State.renameHive]

end

end Sys2Proof.Machine

namespace Sys2Proof
open Machine

/-- Settles O52: what others write changes nothing; the owner's writes by the hive's state; then the ends of tests, repairs and moves. -/
theorem hivesAreServiced : Obligations.HivesAreServiced := by
  intro s m p n h hlk hh hn
  obtain rfl : h = hiveAt n := hh
  refine ⟨fun hother => ?_, fun howner hm => ?_, fun st harg => hiveTestDone_run hlk harg, fun harg hst => hiveRepair_ends hlk harg hn hst,
    fun x harg => ⟨hiveMoveDone_none hlk harg, hiveMoveDone_waits hlk harg, hiveMoveDone_renames hlk harg⟩⟩
  · have ignored (f : State → State) := State.byOwner_other hlk hother f
    exact ⟨fun harg => by rw [hiveFence_writes harg, ignored], fun harg => by rw [hiveTest_writes harg, ignored],
      fun harg => by rw [hiveOnline_writes harg, ignored], fun harg hm => by rw [hiveRepair_writes harg hm, ignored]⟩
  · have done (f : State → State) := State.byOwner_owner hlk howner f
    refine ⟨fun harg hst hstays => ⟨fun hfree hdest => ?_, fun sid hheld => ?_⟩, fun harg hst => ?_, fun harg hst => ?_, fun harg hst => ?_,
      fun harg hst => ?_⟩
    · rw [hiveFence_writes harg, done, State.hiveDcr_fences hn hst hstays hfree hdest]
    · rw [hiveFence_writes harg, done, State.hiveDcr_moves hn hst hstays hheld]
    · rw [hiveTest_writes harg, done, State.hiveDcr_tests hn hst]
    · rw [hiveTest_writes harg, done, State.hiveDcr_refusesTest hn hst]
    · rw [hiveRepair_writes harg hm, done, State.hiveDcr_repairs hn hst]
    · rw [hiveOnline_writes harg, done, State.hiveDcr_returns hn hst]

end Sys2Proof
end

section
/-! PROOF of O20. Instructions that work lane by lane (R89, R307): each lane's result, the flags of every lane in the plane, and the
poison of the sources. -/

namespace Sys2Proof.Machine

open Sys2Proof Sys2Proof.Safety

section
variable {s : State} {i : Instr} {t : BitVec 32} {a b : BitVec 5}

/-- A firing of a rule of two sources whose result has a lane for each of theirs, and the plane the flags of each. -/
def yieldsLanes (s : State) (i : Instr) (t : BitVec 32) (a b : BitVec 5) (h : Nat → Nat → Nat → Nat × BitVec 7) : State :=
  let f := trFmt t
  let z := sources s t (some a) (some b)
  let ls := (List.range f.lanes).map (fun n => h (lane f z.1.data n) (lane f z.2.1.data n) (lane f (mine s).acc n))
  yields s i t { mine s with sp := z.2.2, flags := ls.foldl (fun m l => m ||| l.2) (mine s).flags }
    { z.1 with data := ofLanes f.bits (ls.map Prod.fst), poison := z.1.poison || z.2.1.poison }

/-- A token with new data keeps its own poison and takes the other source's (R464). -/
theorem Token.taint_withData (x y : Token) (v : BitVec 128) :
    { x with data := v, poison := x.poison || y.poison } = ({ x with data := v } : Token).taint (x.poison || y.poison) :=
  (Token.taint_first { x with data := v } y).symm

/-- A word of two sources whose function works lane by lane (R307). -/
theorem exec_lanes2 {f : Plane → Nat → BitVec 32 → Token → Token → Fired} {h : Nat → Nat → Nat → Nat × BitVec 7} (hfires : Fires s i t)
    (hi : exec i s = stdFire i (some a) (some b) f s) (hf : ∀ p n x y, f p n t x y = lanes2 p (trFmt t) h x y) :
    exec i s = .next (yieldsLanes s i t a b h) :=
  exec_yields hi (hf _ _ _ _) (Token.taint_withData _ _ _) hfires

/-- A lane of an arithmetic instruction: a float lane's operation, or an integer lane's exact result, clamped (R89, R92). -/
def arithLane (f : NFmt) (md : Mode) (h : FFmt → Mode → Nat → Nat → Nat → Nat × BitVec 7) (j : Int → Int → Int → Int) (x y c : Nat) :
    Nat × BitVec 7 :=
  match f with
  | .flt k => h k md x y c
  | .int k => k.clamp (j (k.decode x) (k.decode y) (k.decode c))

/-- A word whose meaning `m` is an arithmetic instruction of lanes. -/
theorem exec_laneArith {h : FFmt → Mode → Nat → Nat → Nat → Nat × BitVec 7} {j : Int → Int → Int → Int} (hfires : Fires s i t)
    (m : Res) (hi : exec i s = m) (hm : m = laneArith i a b h j s) : exec i s = .next (yieldsLanes s i t a b (arithLane (trFmt t) (trMode t) h j)) :=
  exec_lanes2 hfires (hi.trans hm) (fun _ _ _ _ => rfl)

/-- One whose lanes set no flags (R307). -/
theorem exec_laneLogic {h : NFmt → Nat → Nat → Nat} (hfires : Fires s i t) (m : Res) (hi : exec i s = m)
    (hm : m = laneLogic i a b h s) :
    exec i s = .next (yieldsLanes s i t a b (fun x y _ => (h (trFmt t) x y, 0))) :=
  exec_lanes2 hfires (hi.trans hm) (fun _ _ _ _ => rfl)

/-- The bitwise instructions act on whole tokens (R307). -/
theorem exec_laneBits {h : BitVec 128 → BitVec 128 → BitVec 128} (hfires : Fires s i t) (m : Res) (hi : exec i s = m)
    (hm : m = laneBits i a b h s) :
    let z := sources s t (some a) (some b)
    exec i s = .next (yields s i t { mine s with sp := z.2.2 }
      { z.1 with data := h z.1.data z.2.1.data, poison := z.1.poison || z.2.1.poison }) :=
  exec_yields (hi.trans hm) rfl (Token.taint_withData _ _ _) hfires

end

end Sys2Proof.Machine

namespace Sys2Proof
open Machine Safety

/-- Settles O20, word by word: a lane's function of `laneArith` or `laneLogic`, or a function of whole tokens. -/
theorem laneResults : Obligations.LaneResults := by
  intro s t a b d e g f z p out arith ones
  refine ⟨fun h => (exec_laneArith h (execVadd a b d e g s) rfl rfl).trans rfl,
    fun h => (exec_laneArith h (execVsub a b d e g s) rfl rfl).trans rfl,
    fun h => (exec_laneArith h (execVmul a b d e g s) rfl rfl).trans rfl,
    fun h => (exec_laneArith h (execVfma a b d e g s) rfl rfl).trans rfl,
    fun h => (exec_laneLogic h (execVmax a b d e g s) rfl rfl).trans rfl,
    fun h => (exec_laneLogic h (execVmin a b d e g s) rfl rfl).trans rfl,
    fun h => (exec_laneLogic h (execVshl a b d e g s) rfl rfl).trans rfl,
    fun h k hk => (exec_laneLogic h (execVshr a b d e g s) rfl rfl).trans ?_,
    fun h => (exec_laneLogic h (execVcmpEq a b d e g s) rfl rfl).trans rfl,
    fun h => (exec_laneLogic h (execVcmpLt a b d e g s) rfl rfl).trans rfl, fun i h hfires hmem => ?_⟩
  · have hfmt : trFmt t = .int k := hk
    simp only [hfmt]
    rfl
  · simp only [List.mem_cons, Prod.mk.injEq, List.not_mem_nil, or_false] at hmem
    obtain ⟨rfl, rfl⟩ | ⟨rfl, rfl⟩ | ⟨rfl, rfl⟩ := hmem
    · exact exec_laneBits hfires (execVand a b d e g s) rfl rfl
    · exact exec_laneBits hfires (execVor a b d e g s) rfl rfl
    · exact exec_laneBits hfires (execVxor a b d e g s) rfl rfl

end Sys2Proof
end

section
/-! PROOF of O21. Functions of a rule's lanes: absolute values and functions, sums, running sums, conversions, lanes by index (R79, R95,
R307 to R311). -/

namespace Sys2Proof.Machine

open Sys2Proof Sys2Proof.Safety

/-! ## Lane by lane -/

section
variable {s : State} {i : Instr} {t : BitVec 32} {a : BitVec 5} {f : Plane → Nat → BitVec 32 → Token → Token → Fired}

/-- A word of one source whose function works lane by lane (R307). -/
theorem exec_lanes1 {h : Nat → Nat × BitVec 7} (hfires : Fires s i t) (hi : exec i s = stdFire i (some a) none f s)
    (hf : ∀ p n x y, f p n t x y = lanes2 p (trFmt t) (fun u _ _ => h u) x y) :
    let z := sources s t (some a) none
    let ls := (List.range (trFmt t).lanes).map (fun n => h (lane (trFmt t) z.1.data n))
    exec i s = .next (yields s i t { mine s with sp := z.2.2, flags := ls.foldl (fun m l => m ||| l.2) (mine s).flags }
      { z.1 with data := ofLanes (trFmt t).bits (ls.map Prod.fst) }) := by
  intro z ls
  exact exec_yields hi (hf _ _ _ _) (Token.taint_own rfl) hfires

/-- The same, with the results and the flags taken apart. -/
theorem exec_each {h : Nat → Nat × BitVec 7} (hfires : Fires s i t) (hi : exec i s = stdFire i (some a) none f s)
    (hf : ∀ p n x y, f p n t x y = lanes2 p (trFmt t) (fun u _ _ => h u) x y) :
    let z := sources s t (some a) none
    exec i s = .next (yields s i t
      { mine s with sp := z.2.2,
                    flags := ((List.range (trFmt t).lanes).map (fun n => h (lane (trFmt t) z.1.data n))).foldl (fun m l => m ||| l.2)
                      (mine s).flags }
      { z.1 with data := ofLanes (trFmt t).bits ((List.range (trFmt t).lanes).map (fun n => (h (lane (trFmt t) z.1.data n)).1)) }) := by
  have hlanes := exec_lanes1 hfires hi hf
  simp only [List.map_map] at hlanes
  exact hlanes

/-- A function of one source, in a float format (R309). -/
theorem exec_laneFun {h : FFmt → Mode → Nat → Nat × BitVec 7} {k : FFmt} (hfires : Fires s i t) (hk : trFmt t = .flt k) (m : Res)
    (hi : exec i s = m) (hm : m = laneFun i a h s) :
    let z := sources s t (some a) none
    exec i s = .next (yields s i t
      { mine s with sp := z.2.2,
                    flags := ((List.range (trFmt t).lanes).map (fun n => h k (trMode t) (lane (trFmt t) z.1.data n))).foldl
                      (fun m l => m ||| l.2) (mine s).flags }
      { z.1 with data := ofLanes (trFmt t).bits
                   ((List.range (trFmt t).lanes).map (fun n => (h k (trMode t) (lane (trFmt t) z.1.data n)).1)) }) :=
  exec_each hfires (hi.trans hm) (fun _ _ _ _ => by simp only [hk]; rfl)

end

/-- A lane format has at least one lane (R294). -/
theorem laneFmt_lanes_pos (n : Nat) : 0 < (laneFmt n).lanes := by
  unfold laneFmt
  split <;> decide

theorem lanesOf_length (f : NFmt) (v : BitVec 128) : (lanesOf f v).length = f.lanes := by simp [lanesOf]

theorem lanesOf_ne_nil (t : BitVec 32) (v : BitVec 128) : lanesOf (trFmt t) v ≠ [] :=
  List.ne_nil_of_length_pos (by rw [lanesOf_length]; exact laneFmt_lanes_pos _)

theorem zip_lanesOf_ne_nil (t : BitVec 32) (v w : BitVec 128) : (lanesOf (trFmt t) v).zip (lanesOf (trFmt t) w) ≠ [] :=
  List.ne_nil_of_length_pos (by rw [List.length_zip, lanesOf_length, lanesOf_length, Nat.min_self]; exact laneFmt_lanes_pos _)

/-! ## Sums (R95) -/

/-- An integer sum starts with its first number, and adds the others in order. -/
theorem isum_of_ne_nil {l : List Int} (h : l ≠ []) (k : IFmt) :
    isum k l = l.tail.foldl
      (fun acc y => (((sumFmt k).clamp ((sumFmt k).decode acc.1 + y)).1, acc.2 ||| ((sumFmt k).clamp ((sumFmt k).decode acc.1 + y)).2))
      ((sumFmt k).clamp (l.headD 0)) := by
  cases l with
  | nil => exact absurd rfl h
  | cons x r => rfl

/-- So does a float sum, here of the values that a list's entries stand for. -/
theorem fsum_map {α : Type} {l : List α} (h : l ≠ []) (d : α) (v : α → Val × Val) (first : Val × Val → Nat × BitVec 7)
    (next : Nat → Val × Val → Nat × BitVec 7) :
    fsum (l.map v) first next =
      l.tail.foldl (fun acc y => ((next acc.1 (v y)).1, acc.2 ||| (next acc.1 (v y)).2)) (first (v (l.headD d))) := by
  cases l with
  | nil => exact absurd rfl h
  | cons x r => simp only [List.map_cons, fsum, List.foldl_map, List.tail_cons, List.headD_cons]

section
variable {s : State} {i : Instr} {t : BitVec 32} {a b : BitVec 5}
  {f : Plane → Nat → BitVec 32 → Token → Token → Fired} {r : Nat × BitVec 7}

/-- A word of one source whose result is a sum. -/
theorem exec_sum1 (hfires : Fires s i t) (hi : exec i s = stdFire i (some a) none f s)
    (hf : let z := sources s t (some a) none; ∀ p n y, f p n t z.1 y = sumOut p z.1 r) :
    let z := sources s t (some a) none
    exec i s = .next (yields s i t { mine s with sp := z.2.2, flags := (mine s).flags ||| r.2 } { z.1 with data := BitVec.ofNat 128 r.1 }) :=
  exec_yields hi (hf _ _ _) (Token.taint_own rfl) hfires

/-- A word of two sources whose result is a sum. -/
theorem exec_sum2 (hfires : Fires s i t) (hi : exec i s = stdFire i (some a) (some b) f s)
    (hf : let z := sources s t (some a) (some b); ∀ p n, f p n t z.1 z.2.1 = sumOut p z.1 r) :
    let z := sources s t (some a) (some b)
    exec i s = .next (yields s i t { mine s with sp := z.2.2, flags := (mine s).flags ||| r.2 }
      { z.1 with data := BitVec.ofNat 128 r.1, poison := z.1.poison || z.2.1.poison }) :=
  exec_yields hi (hf _ _) (Token.taint_withData _ _ _) hfires

end

/-! ## Running sums (R95, R311) -/

/-- Running sums, their last one and their flags, as one pass over the lanes gives them. -/
theorem runningSums_eq (h : Nat → Nat → Nat × BitVec 7) (l : List Nat) (q : Nat × BitVec 7) (o : List Nat) (m : BitVec 7) :
    l.foldl (fun (st : List Nat × Nat × BitVec 7) u => (st.1 ++ [(h st.2.1 u).1], (h st.2.1 u).1, st.2.2 ||| (h st.2.1 u).2)) (o, q.1, m) =
      (let ls := (l.scanl (fun q y => h q.1 y) q).tail
       (o ++ ls.map Prod.fst, (ls.getLastD q).1, ls.foldl (fun m l => m ||| l.2) m)) := by
  induction l generalizing q o m with
  | nil => simp
  | cons x r ih =>
    have hscan : ((x :: r).scanl (fun q y => h q.1 y) q).tail = h q.1 x :: (r.scanl (fun q y => h q.1 y) (h q.1 x)).tail := by
      cases r <;> simp
    rw [List.foldl_cons, ih (h q.1 x), hscan]
    simp only [List.map_cons, List.foldl_cons, List.getLastD_cons, List.append_assoc, List.singleton_append]

/-- A firing that gives acc a new value after its writes, whose result has its sources' poison already. -/
theorem exec_lands_acc_own {s : State} {i : Instr} {t : BitVec 32} {a b : Option (BitVec 5)} {v : BitVec 128} {p : Plane} {x : Token}
    {f : Plane → Nat → BitVec 32 → Token → Token → Fired} (hi : exec i s = stdFire i a b f s)
    (hf : f { mine s with sp := (sources s t a b).2.2 } s.cycle t (sources s t a b).1 (sources s t a b).2.1 =
      { p := p, x := x, y := x, acc := some v })
    (hx : x.poison = ((sources s t a b).1.poison || (sources s t a b).2.1.poison)) (h : Fires s i t) :
    exec i s = .next (popped
      ((landed ((counted s).setPlane s.curR.plane p) s.curR i t (tagWrites (encode i) x x) x.data []).onPlane s.curR.plane
        (fun p => { p with acc := v })) s.curR (maskList (trPop t))) := by
  have htaint : x.taint ((sources s t a b).1.poison || (sources s t a b).2.1.poison) = x := by
    rw [Token.taint, ← hx, Bool.or_self]
  have hlands := exec_lands_acc hi hf h
  rwa [htaint] at hlands

/-- What `vscan` makes of running sums: a result lane for each, and acc filled with the last. -/
def scanFired (p : Plane) (f : NFmt) (x : Token) (r : List Nat × Nat × BitVec 7) : Fired :=
  let o : Token := { x with data := ofLanes f.bits r.1 }
  { p := { p with flags := p.flags ||| r.2.2 }, x := o, y := o, acc := some (ofLanes f.bits (List.replicate f.lanes r.2.1)) }

/-! ## Conversions (R78, R79, R308) -/

/-- Whether a conversion draws for each lane: under SR, but between integer formats (R78, R308). -/
def cvtDraws (md : Mode) (f y : NFmt) : Bool := md = .sr && !(match f, y with | .int _, .int _ => true | _, _ => false)

/-- What a lane's conversion draws: the plane's next g, and r (R79). -/
def laneDraw (draws : Bool) (g : BitVec 32) : BitVec 32 × Nat := if draws then srDraw g else (g, 0)

/-- Under no other mode does a lane draw (R78). -/
theorem cvtDraws_of_ne {md : Mode} (h : md ≠ .sr) (f y : NFmt) : cvtDraws md f y = false := by
  simp only [cvtDraws, h, decide_false, Bool.false_and]

theorem cvtDraws_sr (f y : NFmt) : cvtDraws .sr f y = (match f, y with | .int _, .int _ => false | _, _ => true) := by
  cases f <;> cases y <;> rfl

/-- r is the upper half of the g a draw leaves (R79). -/
theorem srDraw_snd (g : BitVec 32) : (srDraw g).2 = (srDraw g).1.toNat / 65536 := by
  have hlt : (srDraw g).1.toNat < 2 ^ 32 := (srDraw g).1.isLt
  have hbits : (srDraw g).2 = (srDraw g).1.toNat / 65536 % 65536 := rfl
  omega

/-- Lane k's conversion leaves the plane's g drawn k + 1 times, and takes r from there; where none draws, g stays and r is 0. -/
theorem convertLanes_draws (draws : Bool) (h : Nat → Nat → Nat × BitVec 7) (u : Nat → Nat) (g : BitVec 32) (n : Nat) :
    ((List.range n).map u).foldl (fun (st : List Nat × BitVec 32 × BitVec 7) x =>
        (st.1 ++ [(h x (laneDraw draws st.2.1).2).1], (laneDraw draws st.2.1).1, st.2.2 ||| (h x (laneDraw draws st.2.1).2).2)) ([], g, 0) =
      (let gen (k : Nat) : BitVec 32 := if draws then Nat.repeat (fun g => (srDraw g).1) k g else g
       let ls := (List.range n).map (fun k => h (u k) (if draws then (gen (k + 1)).toNat / 65536 else 0))
       (ls.map Prod.fst, gen n, ls.foldl (fun m l => m ||| l.2) 0)) := by
  induction n with
  | zero => cases draws <;> rfl
  | succ n ih =>
    rw [List.range_succ, List.map_append, List.foldl_append, ih]
    cases draws <;> simp [laneDraw, srDraw_snd, Nat.repeat]

theorem take_lanesOf (f : NFmt) (v : BitVec 128) {n : Nat} (h : n ≤ f.lanes) : (lanesOf f v).take n = (List.range n).map (lane f v) := by
  rw [lanesOf, ← List.map_take, List.take_range, Nat.min_eq_left h]

/-- What `vcvt` makes of its converted lanes. -/
def cvtFired (p : Plane) (width : Nat) (x : Token) (r : List Nat × BitVec 32 × BitVec 7) : Fired :=
  one { p with g := r.2.1, flags := p.flags ||| r.2.2 } { x with data := ofLanes width r.1 }

theorem cvtTarget_eq (n : Nat) : cvtTarget n =
    (if n = 10 then (.flt e2m3, 6) else if n = 11 then (.flt e3m2, 6) else if n = 12 then (.flt e2m1, 4)
     else (laneFmt n, (laneFmt n).bits)) := by
  unfold cvtTarget
  split <;> simp_all

/-- The targets that a lane can have (R308). -/
theorem cvtTarget_lane {n : Nat} (h : n ≤ 9) : cvtTarget n = (laneFmt n, (laneFmt n).bits) := by
  rw [cvtTarget_eq, if_neg (by omega), if_neg (by omega), if_neg (by omega)]

/-- How many lanes `vcvt` converts to a target (R308). -/
def cvtLanes (f : NFmt) (n : Nat) : Nat := if n ≤ 9 then min f.lanes (cvtTarget n).1.lanes else f.lanes

theorem cvtLanes_eq (f : NFmt) (n : Nat) : cvtLanes f n = if n ≤ 9 then min f.lanes (laneFmt n).lanes else f.lanes := by
  rw [cvtLanes]
  split
  case isTrue h => rw [cvtTarget_lane h]
  case isFalse h => rfl

theorem cvtLanes_le (f : NFmt) (n : Nat) : cvtLanes f n ≤ f.lanes := by
  rw [cvtLanes]
  split
  · exact Nat.min_le_left _ _
  · exact Nat.le_refl _

section
variable {s : State} {t : BitVec 32} {a b d e : BitVec 5} {c : BitVec 10} {g : BitVec 4}

theorem vabs_flt {k : FFmt} (hk : trFmt t = .flt k) (hfires : Fires s (.vabs a d e g) t) :
    let f := trFmt t
    let z := sources s t (some a) none
    let h (x : Nat) : Nat × BitVec 7 := (if k.decode x = .nan then k.nan else x % 2 ^ (k.bits - 1), 0)
    exec (.vabs a d e g) s = .next (yields s (.vabs a d e g) t
      { mine s with sp := z.2.2,
                    flags := ((List.range f.lanes).map (fun n => h (lane f z.1.data n))).foldl (fun m l => m ||| l.2) (mine s).flags }
      { z.1 with data := ofLanes f.bits ((List.range f.lanes).map (fun n => (h (lane f z.1.data n)).1)) }) := by
  intro f z h
  have hexec : exec (.vabs a d e g) s = execVabs a d e g s := rfl
  exact exec_each (h := h) hfires hexec (fun _ _ _ _ => by simp only [hk]; rfl)

theorem vabs_int {k : IFmt} (hk : trFmt t = .int k) (hfires : Fires s (.vabs a d e g) t) :
    let f := trFmt t
    let z := sources s t (some a) none
    let ls := (List.range f.lanes).map (fun n => k.clamp (k.decode (lane f z.1.data n)).natAbs)
    exec (.vabs a d e g) s = .next (yields s (.vabs a d e g) t
      { mine s with sp := z.2.2, flags := ls.foldl (fun m l => m ||| l.2) (mine s).flags }
      { z.1 with data := ofLanes f.bits (ls.map Prod.fst) }) := by
  have hexec : exec (.vabs a d e g) s = execVabs a d e g s := rfl
  exact exec_lanes1 (h := fun u => k.clamp (k.decode u).natAbs) hfires hexec (fun _ _ _ _ => by simp only [hk]; rfl)

theorem vred_flt {k : FFmt} (hk : trFmt t = .flt k) (hfires : Fires s (.vred a d e g) t) :
    let z := sources s t (some a) none
    let l := lanesOf (trFmt t) z.1.data
    let r := l.tail.foldl (fun acc y =>
        let q := (fp32.decode acc.1).add .rne (k.decode y)
        ((fp32.ofVal .rne false q.1).1, acc.2 ||| (q.2 ||| (fp32.ofVal .rne false q.1).2)))
      (fp32.ofVal .rne false (k.decode (l.headD 0)))
    exec (.vred a d e g) s = .next (yields s (.vred a d e g) t
      { mine s with sp := z.2.2, flags := (mine s).flags ||| r.2 } { z.1 with data := BitVec.ofNat 128 r.1 }) := by
  intro z l r
  have hexec : exec (.vred a d e g) s = execVred a d e g s := rfl
  have hl : lanesOf (.flt k) z.1.data ≠ [] := hk ▸ lanesOf_ne_nil t z.1.data
  refine exec_sum1 hfires hexec (fun p n y => ?_)
  simp only [hk]
  rw [fsum_map hl 0]
  simp only [r, l, hk]

theorem vdot_flt {k : FFmt} (hk : trFmt t = .flt k) (hfires : Fires s (.vdot a b d e g) t) :
    let z := sources s t (some a) (some b)
    let l := (lanesOf (trFmt t) z.1.data).zip (lanesOf (trFmt t) z.2.1.data)
    let r := l.tail.foldl (fun acc y =>
        let q := Val.fma .rne (k.decode y.1) (k.decode y.2) (fp32.decode acc.1)
        ((fp32.ofVal .rne false q.1).1, acc.2 ||| (q.2 ||| (fp32.ofVal .rne false q.1).2)))
      (let q := (k.decode (l.headD (0, 0)).1).mul (k.decode (l.headD (0, 0)).2)
       ((fp32.ofVal .rne false q.1).1, q.2 ||| (fp32.ofVal .rne false q.1).2))
    exec (.vdot a b d e g) s = .next (yields s (.vdot a b d e g) t
      { mine s with sp := z.2.2, flags := (mine s).flags ||| r.2 }
      { z.1 with data := BitVec.ofNat 128 r.1, poison := z.1.poison || z.2.1.poison }) := by
  intro z l r
  have hexec : exec (.vdot a b d e g) s = execVdot a b d e g s := rfl
  have hl : (lanesOf (.flt k) z.1.data).zip (lanesOf (.flt k) z.2.1.data) ≠ [] := hk ▸ zip_lanesOf_ne_nil t z.1.data z.2.1.data
  refine exec_sum2 hfires hexec (fun p n => ?_)
  simp only [hk]
  rw [fsum_map hl (0, 0)]
  simp only [r, l, hk]

theorem vred_int {k : IFmt} {r : Nat × BitVec 7} (hk : trFmt t = .int k)
    (hr : isum k ((lanesOf (trFmt t) (sources s t (some a) none).1.data).map k.decode) = r) (hfires : Fires s (.vred a d e g) t) :
    let z := sources s t (some a) none
    exec (.vred a d e g) s = .next (yields s (.vred a d e g) t
      { mine s with sp := z.2.2, flags := (mine s).flags ||| r.2 } { z.1 with data := BitVec.ofNat 128 r.1 }) := by
  have hexec : exec (.vred a d e g) s = execVred a d e g s := rfl
  exact exec_sum1 hfires hexec (fun p n y => by rw [← hr]; simp only [hk])

theorem vdot_int {k : IFmt} {r : Nat × BitVec 7} (hk : trFmt t = .int k)
    (hr : let z := sources s t (some a) (some b)
      isum k (((lanesOf (trFmt t) z.1.data).zip (lanesOf (trFmt t) z.2.1.data)).map (fun x => k.decode x.1 * k.decode x.2)) = r)
    (hfires : Fires s (.vdot a b d e g) t) :
    let z := sources s t (some a) (some b)
    exec (.vdot a b d e g) s = .next (yields s (.vdot a b d e g) t
      { mine s with sp := z.2.2, flags := (mine s).flags ||| r.2 }
      { z.1 with data := BitVec.ofNat 128 r.1, poison := z.1.poison || z.2.1.poison }) := by
  have hexec : exec (.vdot a b d e g) s = execVdot a b d e g s := rfl
  exact exec_sum2 hfires hexec (fun p n => by rw [← hr]; simp only [hk])

/-- Running sums start from lane 0 of acc, whose lanes all take the last (R311). -/
theorem vscan_run (hfires : Fires s (.vscan a d e g) t) :
    let f := trFmt t
    let z := sources s t (some a) none
    let add (x y : Nat) : Nat × BitVec 7 := match f with
      | .flt k => k.add .rne x y
      | .int k => k.clamp (k.decode x + k.decode y)
    let ls := ((lanesOf f z.1.data).scanl (fun q y => add q.1 y) (lane f (mine s).acc 0, 0)).tail
    let y : Token := { z.1 with data := ofLanes f.bits (ls.map Prod.fst) }
    exec (.vscan a d e g) s = .next (popped
      ((landed ((counted s).setPlane s.curR.plane
          { mine s with sp := z.2.2, flags := (mine s).flags ||| ls.foldl (fun m l => m ||| l.2) 0 })
        s.curR (.vscan a d e g) t (tagWrites (encode (.vscan a d e g)) y y) y.data []).onPlane s.curR.plane
        (fun p => { p with acc := ofLanes f.bits (List.replicate f.lanes (ls.getLastD (0, 0)).1) })) s.curR (maskList (trPop t))) := by
  intro f z add ls y
  have hexec : exec (.vscan a d e g) s = execVscan a d e g s := rfl
  have hls : ls ≠ [] := by
    have hlanes : 0 < (lanesOf f z.1.data).length := List.length_pos_iff.2 (lanesOf_ne_nil t _)
    exact List.ne_nil_of_length_pos (by simpa [ls] using hlanes)
  have hlast (q : Nat × BitVec 7) : ls.getLastD q = ls.getLast hls := by
    rw [List.getLastD_eq_getLast?, List.getLast?_eq_some_getLast hls, Option.getD_some]
  have hsum := runningSums_eq add (lanesOf f z.1.data) (lane f (mine s).acc 0, 0) [] 0
  simp only [List.nil_append] at hsum
  rw [hlast, ← hlast (lane f (mine s).acc 0, 0)]
  exact exec_lands_acc_own hexec (congrArg (scanFired { mine s with sp := z.2.2 } f z.1) hsum) (Bool.or_false _).symm hfires

/-- `vcvt` converts lane after lane; each draws from the g the one before left (R79, R308). -/
theorem vcvt_run {md : Mode} {y : NFmt × Nat} {n : Nat} {sat draws : Bool} (hmd : Mode.ofCode (c.toNat / 16 % 8) = md)
    (hy : cvtTarget (c.toNat % 16) = y) (hn : cvtLanes (trFmt t) (c.toNat % 16) = n)
    (hsat : (decide (c.toNat / 128 % 2 = 1) || decide (10 ≤ c.toNat % 16)) = sat) (hdraws : cvtDraws md (trFmt t) y.1 = draws)
    (hfires : Fires s (.vcvt a c d g) t) :
    let f := trFmt t
    let z := sources s t (some a) none
    let gen (k : Nat) : BitVec 32 := if draws then Nat.repeat (fun g => (srDraw g).1) k (mine s).g else (mine s).g
    let ls := (List.range n).map (fun k => convert f y.1 md sat (lane f z.1.data k) (if draws then (gen (k + 1)).toNat / 65536 else 0))
    exec (.vcvt a c d g) s = .next (yields s (.vcvt a c d g) t
      { mine s with sp := z.2.2, g := gen n, flags := (mine s).flags ||| ls.foldl (fun m l => m ||| l.2) 0 }
      { z.1 with data := ofLanes y.2 (ls.map Prod.fst) }) := by
  subst hmd hy hn hsat hdraws
  intro f z gen ls
  have hexec : exec (.vcvt a c d g) s = execVcvt a c d g s := rfl
  have hconv := convertLanes_draws (cvtDraws (Mode.ofCode (c.toNat / 16 % 8)) f (cvtTarget (c.toNat % 16)).1)
    (convert f (cvtTarget (c.toNat % 16)).1 (Mode.ofCode (c.toNat / 16 % 8)) (c.toNat / 128 % 2 = 1 || 10 ≤ c.toNat % 16))
    (lane f z.1.data) (mine s).g (cvtLanes f (c.toNat % 16))
  rw [← take_lanesOf f z.1.data (cvtLanes_le f _)] at hconv
  exact exec_yields hexec (congrArg (cvtFired { mine s with sp := z.2.2 } (cvtTarget (c.toNat % 16)).2 z.1) hconv)
    (Token.taint_own rfl) hfires

theorem vperm_run (hfires : Fires s (.vperm a b d e g) t) :
    let f := trFmt t
    let z := sources s t (some a) (some b)
    exec (.vperm a b d e g) s = .next (yields s (.vperm a b d e g) t { mine s with sp := z.2.2 }
      { z.1 with data := ofLanes f.bits ((lanesOf f z.2.1.data).map (fun j => if j < f.lanes then lane f z.1.data j else 0)),
                 poison := z.1.poison || z.2.1.poison }) := by
  intro f z
  have hexec : exec (.vperm a b d e g) s = execVperm a b d e g s := rfl
  exact exec_yields hexec rfl (Token.taint_withData _ _ _) hfires

theorem vbcast_run (hfires : Fires s (.vbcast a b d e g) t) :
    let f := trFmt t
    let z := sources s t (some a) (some b)
    exec (.vbcast a b d e g) s = .next (yields s (.vbcast a b d e g) t { mine s with sp := z.2.2 }
      { z.1 with data := ofLanes f.bits (List.replicate f.lanes
                   (if lane f z.2.1.data 0 < f.lanes then lane f z.1.data (lane f z.2.1.data 0) else 0)),
                 poison := z.1.poison || z.2.1.poison }) := by
  intro f z
  have hexec : exec (.vbcast a b d e g) s = execVbcast a b d e g s := rfl
  exact exec_yields hexec rfl (Token.taint_withData _ _ _) hfires

end

end Sys2Proof.Machine

namespace Sys2Proof
open Machine Safety

/-- Settles O21, word by word; then `vcvt` under SR. -/
theorem laneFunctions : Obligations.LaneFunctions := by
  refine ⟨fun s t a b d e c g => ?_, fun s t a d c g hfires hsr hn => ?_⟩
  · intro f z z2 v out each
    refine ⟨fun k => vabs_flt, fun k hk hfires => exec_laneFun hfires hk (execVrcp a d e g s) rfl rfl,
      fun k hk hfires => exec_laneFun hfires hk (execVrsq a d e g s) rfl rfl,
      fun k hk hfires => exec_laneFun hfires hk (execVexp2 a d e g s) rfl rfl,
      fun k hk hfires => exec_laneFun hfires hk (execVlog2 a d e g s) rfl rfl, fun k hk => ?_, fun k hk hmem => ?_, fun hfires => ?_,
      fun hfires => ?_, vperm_run, vbcast_run⟩
    · intro w sum r r2
      have hr : isum k ((lanesOf f v.data).map k.decode) = r := isum_of_ne_nil (mt List.map_eq_nil_iff.1 (lanesOf_ne_nil t _)) k
      have hr2 : isum k (((lanesOf f z2.1.data).zip (lanesOf f z2.2.1.data)).map (fun x => k.decode x.1 * k.decode x.2)) = r2 :=
        isum_of_ne_nil (mt List.map_eq_nil_iff.1 (zip_lanesOf_ne_nil t _ _)) k
      exact ⟨vabs_int hk, fun _ => ⟨vred_int hk hr, vdot_int hk hr2⟩⟩
    · intro dec l r l2 r2
      exact ⟨vred_flt hk, vdot_flt hk⟩
    · intro add ls
      exact ⟨_, vscan_run hfires, rfl⟩
    · intro md n tgt sat hmd ls
      have hrun := vcvt_run rfl (cvtTarget_eq _) (cvtLanes_eq f _) (sat := decide sat) (Bool.decide_or _ _).symm
        (cvtDraws_of_ne hmd _ _) hfires
      have hn : n ≤ f.lanes := Nat.le_trans (Nat.le_of_eq (cvtLanes_eq f _).symm) (cvtLanes_le f _)
      have hls : ls = (List.range n).map (fun k => convert f tgt.1 md (decide sat) (lane f v.data k) 0) := by
        simp only [ls, take_lanesOf f v.data hn, List.map_map]
        rfl
      rw [hls]
      exact hrun
  · intro f y v n sat draws step gen ls
    have hsat : (decide (c.toNat / 128 % 2 = 1) || decide (10 ≤ c.toNat % 16)) = sat := by
      rw [decide_eq_false (by omega : ¬ 10 ≤ c.toNat % 16), Bool.or_false]
    have hstep : (fun g => (srDraw g).1) = step := rfl
    have hrun := vcvt_run hsr (cvtTarget_lane hn) ((cvtLanes_eq f _).trans (if_pos hn)) hsat (draws := draws) (cvtDraws_sr f y) hfires
    rw [hstep] at hrun
    exact hrun

end Sys2Proof
end

section
/-! PROOF of O32. Arcs (R285, R293, R314), what a memory node's access gives (R333), the sequencer (R395) and its settings (R396). -/

namespace Sys2Proof.Machine

open Sys2Proof

/-! ## Arcs -/

/-- A data token takes its latch, where no intersection unit keeps it (R285, R339). -/
theorem State.arrive_data {s : State} {p : PlaneId} {v : Token} (hdata : v.marker = false) (hunits : (s.plane p).isects = []) (ch n : Nat) :
    s.arrive p ch v n = s.setPlane p { s.plane p with latch := tput (s.plane p).latch ch ⟨v, n⟩ } := by
  simp [State.arrive, hdata, hunits]

/-- A marker stands beside the latch (R397). -/
theorem State.arrive_marker {s : State} {p : PlaneId} {v : Token} (hmark : v.marker = true) (ch n : Nat) :
    s.arrive p ch v n = s.setPlane p { s.plane p with mark := tput (s.plane p).mark ch v } := by
  simp [State.arrive, hmark]

/-- What a channel takes that leads to no node and to no element of its tile: its slot keeps the token, and memory is as before. -/
theorem State.putPort_away {s : State} {d : PlaneId} {q : BitVec 5} (h : q.toNat ≤ 7)
    (hnode : ∀ i n, tfind (s.plane d).dst q.toNat ≠ some (.coll i n))
    (hfar : ∀ r c, tfind (s.plane d).dst q.toNat = some (.arc r c) → r.elem.tile ≠ d.elem.tile) (v : Token) :
    (s.putPort d q v).mem = s.mem ∧ (s.putPort d q v).plane d = (s.slotted d q.toNat v).plane d := by
  have hdst : ((s.slotted d q.toNat v).plane d).dst = (s.plane d).dst := s.slotted_dst d q.toNat v
  rw [State.putPort_channel h]
  cases hend : tfind (s.plane d).dst q.toNat with
  | none =>
    rw [State.sendArc_none (hdst ▸ hend)]
    exact ⟨rfl, rfl⟩
  | some x =>
    cases x with
    | arc r c =>
      rw [State.sendArc_far (hdst ▸ hend) (hfar r c hend)]
      exact ⟨rfl, rfl⟩
    | coll i n => exact absurd hend (hnode i n)

/-! ## Completions of memory nodes (R333) -/

/-- A plane that a cut has recorded pushes nothing (R402). -/
theorem State.pushDone_recorded {s : State} {p : PlaneId} (h : (s.plane p).recorded = true) : s.pushDone p = s := by
  simp [State.pushDone, h]

theorem State.pushDone_none {s : State} {p : PlaneId} (h : (s.plane p).accs = []) : s.pushDone p = s := by
  simp [State.pushDone, h]

/-- The token of a plane's only access goes to its rule's destination once the slot there is free. -/
theorem State.pushDone_one {s : State} {p : PlaneId} {a : NodeAcc} {v : Token} {w z : BitVec 32} (haccs : (s.plane p).accs = [a])
    (hdone : a.st = .done v) (hrec : (s.plane p).recorded = false) (hheld : s.held p.elem = false)
    (hrule : (s.plane p).rules[a.slot]? = some (w, z)) (htag : wT w = 0) (hfree : (s.plane p).free (wD w).toNat = true) :
    s.pushDone p = (s.setPlane p { s.plane p with accs := [] }).putPort p (wD w) v := by
  simp [State.pushDone, haccs, hdone, hrec, hheld, hrule, htag, hfree]

/-- Where that slot's channel leads to another tile or nowhere, the slot keeps the token, and memory is as before. -/
theorem State.pushDone_away {s : State} {p : PlaneId} {a : NodeAcc} {v : Token} {w z : BitVec 32} (haccs : (s.plane p).accs = [a])
    (hdone : a.st = .done v) (hrec : (s.plane p).recorded = false) (hheld : s.held p.elem = false)
    (hrule : (s.plane p).rules[a.slot]? = some (w, z)) (htag : wT w = 0) (hfree : (s.plane p).free (wD w).toNat = true)
    (hport : (wD w).toNat ≤ 7) (hnode : ∀ i n, tfind (s.plane p).dst (wD w).toNat ≠ some (.coll i n))
    (hfar : ∀ r c, tfind (s.plane p).dst (wD w).toNat = some (.arc r c) → r.elem.tile ≠ p.elem.tile) :
    let u := s.pushDone p
    u.mem = s.mem ∧ (u.plane p).accs = [] ∧ tfind (u.plane p).outs (wD w).toNat = some v := by
  intro u
  obtain ⟨hmem, hplane⟩ := State.putPort_away (s := s.setPlane p { s.plane p with accs := [] }) (d := p) hport
    (by simpa using hnode) (by simpa using hfar) v
  have hu : u = _ := State.pushDone_one haccs hdone hrec hheld hrule htag hfree
  rw [hu, hplane]
  exact ⟨hmem, by simp [State.slotted], State.slotted_outs _ _ _ _⟩

/-- What a load gave becomes the access's token (R333), poisoned where the data or the address token is (R464). -/
theorem State.nodeAnswer_load {s : State} {r : RuleId} {seq n : Nat} {x : NodeAcc}
    (hfind : (s.plane r.plane).accs.find? (fun x => x.seq = seq && x.slot = r.slot) = some x) (hop : x.op = .load n) (hlate : x.late = false)
    (hpushes : s.silent r = false) (bs : List Byte) (bad : Bool) :
    s.nodeAnswer r seq (.data bs bad) = (s.setPlane r.plane { s.plane r.plane with accs := (s.plane r.plane).accs.map (fun y =>
      if y.seq = seq then { y with st := .done { data := BitVec.ofNat 128 (natOf bs), poison := bad || x.tok.poison } } else y) }).pushDone
        r.plane := by
  simp [State.nodeAnswer, State.nodeDone, hfind, hop, hlate, hpushes, State.onPlane]

/-- A rule's word and trigger are those of its slot. -/
theorem State.rules_of_rule {s : State} {r : RuleId} {w z : BitVec 32} (h : s.rule r = some (w, z)) :
    (s.plane r.plane).rules[r.slot]? = some (w, z) := by
  unfold State.rule at h
  split at h
  case h_1 w' z' hslot =>
    split at h
    case isTrue => exact nomatch h
    case isFalse => rw [hslot]; exact h
  case h_2 => exact nomatch h

/-- A rule whose tag is not 3 pushes its tokens (R335, R336). -/
theorem State.silent_eq_false {s : State} {r : RuleId} {w z : BitVec 32} (h : s.rule r = some (w, z)) (htag : wT w ≠ 3) :
    s.silent r = false := by
  simp [State.silent, h, htag]

/-! ## The sequencer (R395) -/

@[simp] theorem State.tile_setTile (s : State) (t : TileId) (x : Tile) : (s.setTile t x).tile t = x := by
  simp [State.tile]

section
variable {s : State} {t : TileId}

/-- The planes of a tile in the order in which its sequencer looks for the next (R395). -/
def turnOrder (n : Nat) : List Nat := (List.range 4).map (fun k => (n + 1 + k) % 4)

/-- With no turn left on the current plane and none eligible, the sequencer idles. -/
theorem planeSwitch_idles (harg : s.arg = .planeSwitch t) (hchosen : (s.tile t).chosen = []) (hlast : (s.tile t).last ≠ some s.cycle)
    (hover : ¬ (0 < (s.tile t).left ∧ s.eligible t (s.tile t).cur = true)) (hnone : (turnOrder (s.tile t).cur).find? (s.eligible t) = none) :
    exec .planeSwitch s = .next (s.setTile t { s.tile t with idle := true, last := some s.cycle }) := by
  have hexec : exec .planeSwitch s = execPlaneSwitch s := rfl
  rw [turnOrder] at hnone
  simp [hexec, execPlaneSwitch, harg, hchosen, hlast, hover, hnone]

/-- Otherwise the first eligible plane of the order gets its turn. -/
theorem planeSwitch_moves {e : Nat} (harg : s.arg = .planeSwitch t) (hchosen : (s.tile t).chosen = [])
    (hlast : (s.tile t).last ≠ some s.cycle) (hover : ¬ (0 < (s.tile t).left ∧ s.eligible t (s.tile t).cur = true))
    (hsome : (turnOrder (s.tile t).cur).find? (s.eligible t) = some e) :
    ∃ x, exec .planeSwitch s = .next (s.setTile t x) ∧
      x.cur = e ∧ x.idle = false ∧ x.left = s.turn t e - 1 ∧ x.chosen = s.choose t e := by
  have hexec : exec .planeSwitch s = execPlaneSwitch s := rfl
  rw [turnOrder] at hsome
  simp only [hexec, execPlaneSwitch, harg, hchosen, hlast, hsome, ne_eq, not_true_eq_false, decide_false, Bool.or_self, Bool.false_eq_true,
    Bool.and_eq_true, decide_eq_true_eq, hover, if_false]
  exact ⟨_, rfl, rfl, rfl, rfl, rfl⟩

/-- The order begins behind the current plane and has every plane. -/
theorem turnOrder_find_none (n : Nat) {p : Nat → Bool} (h : ∀ e, e < 4 → p e = false) : (turnOrder n).find? p = none := by
  simp only [turnOrder, List.find?_eq_none, List.mem_map]
  rintro _ ⟨k, -, rfl⟩
  simp [h _ (Nat.mod_lt _ (by decide : 0 < 4))]

theorem turnOrder_find_first {n k : Nat} {p : Nat → Bool} (hk : k < 4) (h : p ((n + 1 + k) % 4) = true)
    (hfirst : ∀ j, j < k → p ((n + 1 + j) % 4) = false) : (turnOrder n).find? p = some ((n + 1 + k) % 4) := by
  rw [turnOrder, List.find?_map, Option.map_eq_some_iff]
  refine ⟨k, List.find?_range_eq_some.2 ⟨h, List.mem_range.2 hk, fun j hj => ?_⟩, rfl⟩
  simp [hfirst j hj]

end

/-! ## The sequencer's settings (R396) -/

theorem gctxPerform_run {s : State} {t : TileId} {w : Word} {c : CoreId} {k : Nat} (harg : s.arg = .gctxPerform t w c k) :
    exec .gctxPerform s = .next ((s.setTile t { s.tile t with
      w := (List.range 4).map (fun i => w.toNat / 2 ^ (8 * i) % 256), boost := w.getLsbD 32, skips := [0, 0, 0, 0], left := 0 }).performed c k) := by
  have hexec : exec .gctxPerform s = execGctxPerform s := rfl
  have hweights : [bitsN w 7 0, bitsN w 15 8, bitsN w 23 16, bitsN w 31 24] = (List.range 4).map (fun i => w.toNat / 2 ^ (8 * i) % 256) := rfl
  have hboost : decide (bitsN w 32 32 = 1) = w.getLsbD 32 := by rw [Bool.eq_iff_iff, decide_eq_true_eq, bitsN_bit_one]
  simp only [hexec, execGctxPerform, harg, hweights, hboost]

/-! ## The steps -/

section
variable {s : State} {a : ArcId} {v : Token}

theorem tokenArrival_data (harg : s.arg = .tokenArrival a v) (hdata : v.marker = false) (hunits : (s.plane a.dst).isects = []) :
    exec .tokenArrival s =
      .next (s.setPlane a.dst { s.plane a.dst with latch := tput (s.plane a.dst).latch a.ch ⟨v, s.cycle⟩ }) := by
  have hexec : exec .tokenArrival s = execTokenArrival s := rfl
  simp only [hexec, execTokenArrival, harg, State.arrive_data hdata hunits]

theorem tokenArrival_marker (harg : s.arg = .tokenArrival a v) (hmark : v.marker = true) :
    exec .tokenArrival s = .next (s.setPlane a.dst { s.plane a.dst with mark := tput (s.plane a.dst).mark a.ch v }) := by
  have hexec : exec .tokenArrival s = execTokenArrival s := rfl
  simp only [hexec, execTokenArrival, harg, State.arrive_marker hmark]

/-- An acknowledgement frees the producer's slot (R314); a plane without accesses has no token that waits for it. -/
theorem arcAck_frees {p : PlaneId} {c : Nat} (harg : s.arg = .arcAck a) (hsrc : tfind (s.plane a.dst).src a.ch = some (.arc p c))
    (haccs : (s.plane p).accs = []) : exec .arcAck s =
      .next (s.setPlane p { s.plane p with outs := tdel (s.plane p).outs c, freed := tput (s.plane p).freed c s.cycle }) := by
  have hexec : exec .arcAck s = execArcAck s := rfl
  have hnone : ((s.ackArc p c).plane p).accs = [] := by rw [State.ackArc, State.plane_onPlane]; exact haccs
  simp only [hexec, execArcAck, harg, hsrc, State.pushDone_none hnone]
  rfl

theorem memNodeCompletion_run {r : RuleId} {seq : Nat} {y : Ans} (harg : s.arg = .memNodeCompletion r seq y) :
    exec .memNodeCompletion s = .next (s.nodeAnswer r seq y) := by
  have hexec : exec .memNodeCompletion s = execMemNodeCompletion s := rfl
  simp only [hexec, execMemNodeCompletion, harg]

end

/-- A load's token stays with its access in a plane that a cut has recorded (R402). -/
theorem State.nodeAnswer_keeps {s : State} {r : RuleId} {seq n : Nat} {x : NodeAcc}
    (hfind : (s.plane r.plane).accs.find? (fun x => x.seq = seq && x.slot = r.slot) = some x) (hop : x.op = .load n) (hlate : x.late = false)
    (hpushes : s.silent r = false) (hrec : (s.plane r.plane).recorded = true) (bs : List Byte) (bad : Bool) :
    s.nodeAnswer r seq (.data bs bad) = s.setPlane r.plane { s.plane r.plane with accs := (s.plane r.plane).accs.map (fun y =>
      if y.seq = seq then { y with st := .done { data := BitVec.ofNat 128 (natOf bs), poison := bad || x.tok.poison } } else y) } := by
  rw [State.nodeAnswer_load hfind hop hlate hpushes, State.pushDone_recorded (by rw [State.plane_setPlane]; exact hrec)]

/-- The token of a plane's only access, a load, goes into its rule's output slot (R333). -/
theorem State.nodeAnswer_pushes {s : State} {r : RuleId} {seq n : Nat} {x : NodeAcc} {w z : BitVec 32}
    (haccs : (s.plane r.plane).accs = [x]) (hseq : x.seq = seq) (hslot : x.slot = r.slot) (hop : x.op = .load n) (hlate : x.late = false)
    (hrec : (s.plane r.plane).recorded = false) (hheld : s.held r.plane.elem = false) (hrule : s.rule r = some (w, z)) (htag : wT w = 0)
    (hport : (wD w).toNat ≤ 7) (hfree : (s.plane r.plane).free (wD w).toNat = true)
    (hnode : ∀ i n, tfind (s.plane r.plane).dst (wD w).toNat ≠ some (.coll i n))
    (hfar : ∀ a c, tfind (s.plane r.plane).dst (wD w).toNat = some (.arc a c) → a.elem.tile ≠ r.plane.elem.tile)
    (bs : List Byte) (bad : Bool) :
    let u := s.nodeAnswer r seq (.data bs bad)
    u.mem = s.mem ∧ (u.plane r.plane).accs = [] ∧
      tfind (u.plane r.plane).outs (wD w).toNat = some { data := BitVec.ofNat 128 (natOf bs), poison := bad || x.tok.poison } := by
  have hfind : (s.plane r.plane).accs.find? (fun x => x.seq = seq && x.slot = r.slot) = some x := by simp [haccs, hseq, hslot]
  have hslotRule : (s.plane r.plane).rules[x.slot]? = some (w, z) := hslot ▸ State.rules_of_rule hrule
  rw [State.nodeAnswer_load hfind hop hlate (State.silent_eq_false hrule (by omega))]
  refine State.pushDone_away (s := s.setPlane r.plane _) (z := z)
    (a := { x with st := .done { data := BitVec.ofNat 128 (natOf bs), poison := bad || x.tok.poison } }) ?_ rfl ?_ hheld ?_ htag ?_ hport ?_ ?_
  all_goals rw [State.plane_setPlane]
  · simp [haccs, hseq]
  · exact hrec
  · exact hslotRule
  · exact hfree
  · exact hnode
  · exact hfar

end Sys2Proof.Machine

namespace Sys2Proof
open Machine

/-- Settles O32: arcs and completions step by step, then the sequencer by the first eligible plane of its order, then its settings. -/
theorem arcsAndSequencers : Obligations.ArcsAndSequencers := by
  refine ⟨fun s a v => ⟨tokenArrival_data, tokenArrival_marker, fun p c => arcAck_frees, ?_, ?_⟩, ?_, fun s t w c k => gctxPerform_run⟩
  · intro r seq x bs bad harg hfind ⟨n, hop⟩ hlate hpushes hrec
    rw [memNodeCompletion_run harg, State.nodeAnswer_keeps hfind hop hlate hpushes hrec]
  · intro r seq x bs bad w z harg p haccs hseq hslot ⟨n, hop⟩ hlate hrec hheld hrule htag hport hfree hnode hfar
    exact ⟨_, memNodeCompletion_run harg,
      State.nodeAnswer_pushes haccs hseq hslot hop hlate hrec hheld hrule htag hport hfree hnode hfar bs bad⟩
  · intro s t x harg hchosen hlast hleft
    have hover : ¬ (0 < x.left ∧ s.eligible t x.cur = true) := by
      rintro ⟨hpos, helig⟩
      rcases hleft with hzero | hnot
      · omega
      · exact absurd helig (by simp [hnot])
    refine ⟨fun hnone => planeSwitch_idles harg hchosen hlast hover (turnOrder_find_none _ hnone), fun k hk helig hfirst => ?_⟩
    obtain ⟨y, hrun, hcur, hidle, hturn, hfirings⟩ := planeSwitch_moves harg hchosen hlast hover (turnOrder_find_first hk helig hfirst)
    refine ⟨_, hrun, rfl, ?_⟩
    rw [State.tile_setTile]
    exact ⟨hcur, hidle, hturn, hfirings⟩

end Sys2Proof
end

section
/-! PROOF of O33. Store tiles: what a generator does with the token at its write port (R315, R320, R321, R323), passes and towpath tokens
(R325, R327), reopening (R323), freed-slot notices (R328, R329). -/

namespace Sys2Proof.Machine

open Sys2Proof

/-! ## Generators -/

@[simp] theorem State.gen_setGen (s : State) (g : GenId) (x : Gen) : (s.setGen g x).gen g = x := by
  simp [State.gen]

theorem State.gen_setGen_other (s : State) {g k : GenId} (x : Gen) (h : k ≠ g) : (s.setGen g x).gen k = s.gen k := by
  simp [State.gen, tget_tput_other _ _ _ h]

@[simp] theorem State.gen_onGen (s : State) (g : GenId) (f : Gen → Gen) : (s.onGen g f).gen g = f (s.gen g) := s.gen_setGen g _

@[simp] theorem State.onGen_mem (s : State) (g : GenId) (f : Gen → Gen) : (s.onGen g f).mem = s.mem := rfl

@[simp] theorem State.gen_post (s : State) (ch : Chan) (e : Ev) (n : Nat) (g : GenId) : (s.post ch e n).gen g = s.gen g := rfl

@[simp] theorem State.gen_store (s : State) (l : Loc) (bs : List Byte) (bad : Bool) (g : GenId) : (s.store l bs bad).gen g = s.gen g := rfl

/-- A ring whose consumer is no engine has nobody to tell that it moved. -/
theorem State.ringMoved_unbound {s : State} {g : GenId} (h : (s.gen g).cons = none) : s.ringMoved g = s := by
  simp [State.ringMoved, h]

/-- A FIFO that no rule reads gives nothing. -/
theorem State.genPump_unread {s : State} {g : GenId} {c : GenCfg} (hcfg : (s.gen g).cfg = some c) (hmode : c.recd.mode = 1)
    (hreader : c.reader = false) : s.genPump g = s := by
  cases hport : (s.gen g).rport with
  | some l => simp [State.genPump, hcfg, hport]
  | none => cases hkinds : (s.gen g).kinds <;> simp [State.genPump, hcfg, hport, hmode, hreader, hkinds]

/-- A pass with a word left places it in a free read port, and moves its counters on (R325). -/
theorem State.genPump_word {s : State} {g : GenId} {c : GenCfg} {i : Nat × Nat × Nat} (hcfg : (s.gen g).cfg = some c)
    (hport : (s.gen g).rport = none) (hrec : (s.gen g).recorded = false) (hmode : c.recd.mode ≠ 1) (hpass : (s.gen g).pass = some i)
    (hleft : i.2.2 < ((s.gen g).program c.recd).e2) :
    s.genPump g = (s.setGen g { s.gen g with pass := some (((s.gen g).program c.recd).next i) }).placePort g
      (s.wordTok (passLoc g c.recd (s.gen g) ((s.gen g).program c.recd) i) .data) := by
  simp [State.genPump, hcfg, hport, hrec, hmode, hpass, hleft]

/-! ## Write ports (R320, R321, R323) -/

section
variable {s : State} {g : GenId} {c : GenCfg} {v : Token}

/-- Nothing is taken while the slot being filled is full (R320). -/
theorem portReady_of_full (hcfg : (s.gen g).cfg = some c) (hmode : c.recd.mode ≠ 1) (hfull : (s.gen g).fill ∈ (s.gen g).full) :
    s.portReady g = false := by
  cases hport : (s.gen g).wport <;> simp [State.portReady, hcfg, hport, hmode, hfull]

variable (harg : s.arg = .writePortToken g) (hcfg : (s.gen g).cfg = some c) (hport : (s.gen g).wport = some v)
include harg hcfg hport

theorem writePortToken_waits (hwait : s.portReady g = false) : exec .writePortToken s = .next s := by
  show execWritePortToken s = _
  simp [execWritePortToken, harg, hcfg, hport, hwait]

/-- A FIFO takes a token of any kind at its tail (R321). -/
theorem writePortToken_fifo (hready : s.portReady g = true) (hmode : c.recd.mode = 1) :
    exec .writePortToken s = .next
      (((s.setGen g { s.gen g with wport := none, kinds := (s.gen g).kinds ++ [v.kind] }).store
        (wordLoc g c.recd (((s.gen g).head + (s.gen g).kinds.length) % c.recd.count) 0) (bytesOf 16 v.data.toNat) v.poison).genPump g) := by
  show execWritePortToken s = _
  simp [execWritePortToken, harg, hcfg, hport, hready, hmode]

variable (hready : s.portReady g = true) (hmode : c.recd.mode ≠ 1)
include hready hmode

/-- DATA goes to the next word of the slot being filled (R320). -/
theorem writePortToken_data (hkind : v.kind = .data) :
    exec .writePortToken s = .next
      (((s.setGen g (if (s.gen g).part + 1 = c.recd.words then { s.gen g with wport := none }.fillSlot c.recd.count
          else { s.gen g with wport := none, part := (s.gen g).part + 1 })).store
        (wordLoc g c.recd (s.gen g).fill (s.gen g).part) (bytesOf 16 v.data.toNat) v.poison).ringMoved g) := by
  show execWritePortToken s = _
  simp [execWritePortToken, harg, hcfg, hport, hready, hmode, hkind]

/-- CTRL becomes the program (R324). -/
theorem writePortToken_ctrl (hkind : v.kind = .ctrl) :
    exec .writePortToken s = .next (s.setGen g { s.gen g with wport := none, prog := some v.data }) := by
  show execWritePortToken s = _
  simp [execWritePortToken, harg, hcfg, hport, hready, hmode, hkind]

/-- EOS closes the buffer, and a slot that was begun is full (R323). -/
theorem writePortToken_eos (hkind : v.kind = .eos) :
    exec .writePortToken s = .next
      ((s.setGen g { (if (s.gen g).part = 0 then { s.gen g with wport := none } else { s.gen g with wport := none }.fillSlot c.recd.count)
          with closed := true }).ringMoved g) := by
  show execWritePortToken s = _
  simp [execWritePortToken, harg, hcfg, hport, hready, hmode, hkind]

end

/-! ## Passes and towpath tokens (R325, R327) -/

section
variable {s : State} {g : GenId} {c : GenCfg}

/-- A towpath token sets a generator's state, but a FIFO's (R327). -/
theorem State.towpath_eq (hcfg : (s.gen g).cfg = some c) (run : Bool) :
    s.towpath g run = if c.recd.mode = 1 then s else s.setGen g { s.gen g with run := run } := by
  rw [State.towpath, hcfg]
  rfl

theorem towpathStart_run (harg : s.arg = .towpathStart g) : exec .towpathStart s = .next (s.towpath g true) := by
  show execTowpathStart s = _
  simp only [execTowpathStart, harg]

theorem towpathStop_run (harg : s.arg = .towpathStop g) : exec .towpathStop s = .next (s.towpath g false) := by
  show execTowpathStop s = _
  simp only [execTowpathStop, harg]

/-- A reader in RUN with a full slot and no pass under way begins one, unless a cut has recorded it (R327). -/
theorem passReady_of_passable (hcfg : (s.gen g).cfg = some c) (hreader : c.reader = true) (hrun : (s.gen g).run = true)
    (hpass : (s.gen g).pass = none) (hpassable : (s.gen g).passable c.recd = true) (hrec : (s.gen g).recorded = false) :
    s.passReady g = true := by
  simp [State.passReady, hcfg, hreader, hrun, hpass, hpassable, hrec]

theorem passStart_waits (harg : s.arg = .passStart g) (hwait : s.passReady g = false) : exec .passStart s = .next s := by
  show execPassStart s = _
  simp [execPassStart, harg, hwait]

theorem passStart_run (harg : s.arg = .passStart g) (hready : s.passReady g = true) :
    exec .passStart s = .next ((s.onGen g (fun x => { x with pass := some (0, 0, 0) })).genPump g) := by
  show execPassStart s = _
  simp [execPassStart, harg, hready]

/-- A pass that begins places its first word in the free read port (R325). -/
theorem passStart_places (harg : s.arg = .passStart g) (hready : s.passReady g = true) (hcfg : (s.gen g).cfg = some c)
    (hrec : (s.gen g).recorded = false) (hport : (s.gen g).rport = none) (hmode : c.recd.mode ≠ 1)
    (hsome : 0 < ((s.gen g).program c.recd).e2) :
    let p := (s.gen g).program c.recd
    ∃ u, exec .passStart s = .next u ∧ u.mem = s.mem ∧ (u.gen g).pass = some (p.next (0, 0, 0)) ∧
      (u.gen g).rport = some ⟨s.wordTok (passLoc g c.recd (s.gen g) p (0, 0, 0)) .data, s.cycle + 4⟩ := by
  intro p
  refine ⟨_, passStart_run harg hready, ?_⟩
  have hbegun : (s.onGen g (fun x => { x with pass := some (0, 0, 0) })).gen g = { s.gen g with pass := some (0, 0, 0) } := s.gen_onGen g _
  rw [State.genPump_word (c := c) (i := (0, 0, 0)) (by rw [hbegun]; exact hcfg) (by rw [hbegun]; exact hport) (by rw [hbegun]; exact hrec) hmode
    (by rw [hbegun]) (by rw [hbegun]; exact hsome), hbegun, State.placePort, State.gen_onGen, State.gen_setGen]
  exact ⟨rfl, rfl, rfl⟩

end

/-! ## Reopening (R323) -/

/-- What emptying a slot leaves of a generator: everything but its full bits and its count of notices. -/
def Gen.besideSlots (x : Gen) : Gen := { x with full := [], nseq := 0 }

/-- Emptying a slot writes no memory, and leaves its generator's other state (R329). -/
theorem State.emptySlot_keeps (s : State) (g : GenId) (n : Nat) :
    (s.emptySlot g n).mem = s.mem ∧ ((s.emptySlot g n).gen g).besideSlots = (s.gen g).besideSlots := by
  cases hprod : (s.gen g).prod with
  | none => simp [State.emptySlot, hprod, Gen.besideSlots]
  | some e =>
    simp [State.emptySlot, hprod, Gen.besideSlots]

theorem State.emptySlots_keeps (s : State) (g : GenId) (l : List Nat) :
    let u := l.foldl (fun s i => s.emptySlot g i) s
    u.mem = s.mem ∧ (u.gen g).besideSlots = (s.gen g).besideSlots :=
  ⟨foldl_keeps State.mem (fun u i => (u.emptySlot_keeps g i).1) l s,
    foldl_keeps (fun u => (u.gen g).besideSlots) (fun u i => (u.emptySlot_keeps g i).2) l s⟩

section
variable {s : State} {g : GenId} {c : GenCfg} (harg : s.arg = .bufferReopen g)
include harg

theorem bufferReopen_waits (hwait : s.reopenReady g = false) : exec .bufferReopen s = .next s := by
  show execBufferReopen s = _
  simp [execBufferReopen, harg, hwait]

/-- A buffer reopens with its indices at 0; one that a rule reads places its EOS, and empties what is still full. -/
theorem bufferReopen_run (hready : s.reopenReady g = true) (hcfg : (s.gen g).cfg = some c) :
    exec .bufferReopen s = .next
      ((if c.reader = true then (s.gen g).full.foldl (fun s i => s.emptySlot g i) (s.placePort g { kind := .eos }) else s).onGen g
        (fun x => { x with fill := 0, drain := 0, part := 0, closed := false })) := by
  show execBufferReopen s = _
  simp [execBufferReopen, harg, hready, hcfg]

theorem bufferReopen_opens (hready : s.reopenReady g = true) (hcfg : (s.gen g).cfg = some c) :
    ∃ u, exec .bufferReopen s = .next u ∧ u.mem = s.mem ∧ (u.gen g).closed = false ∧
      (u.gen g).fill = 0 ∧ (u.gen g).drain = 0 ∧ (u.gen g).part = 0 ∧
      (c.reader = true → (u.gen g).rport = some ⟨{ kind := .eos }, s.cycle + 4⟩) := by
  refine ⟨_, bufferReopen_run harg hready hcfg, ?_⟩
  rw [State.onGen_mem, State.gen_onGen]
  cases hreader : c.reader with
  | false => exact ⟨rfl, rfl, rfl, rfl, rfl, nofun⟩
  | true =>
    obtain ⟨hmem, hgen⟩ := (s.placePort g { kind := .eos }).emptySlots_keeps g (s.gen g).full
    refine ⟨hmem, rfl, rfl, rfl, rfl, fun _ => ?_⟩
    have hport := congrArg Gen.rport hgen
    rw [State.placePort, State.gen_onGen] at hport
    exact hport

end

/-! ## Notices (R329) -/

section
variable {s : State} {n : Notice} (harg : s.arg = .freedSlotNotice n)
include harg

theorem freedSlotNotice_nobody (hprod : (s.gen n.gen).prod = none) : exec .freedSlotNotice s = .next s := by
  show execFreedSlotNotice s = _
  simp [execFreedSlotNotice, harg, hprod]

theorem freedSlotNotice_array {h : HiveId} (hprod : (s.gen n.gen).prod = some (.array h)) :
    exec .freedSlotNotice s = .next ((List.range 8).foldl (fun s m => s.drainSend h m)
      (s.setJoint h { s.joint h with notes := (s.joint h).notes ++ [(n.gen, n.slot)] })) := by
  show execFreedSlotNotice s = _
  simp [execFreedSlotNotice, harg, hprod]

end

/-- An array none of whose slices runs an instruction sends nothing (R357). -/
theorem State.drainSends_idle {s : State} {h : HiveId} (hruns : (s.joint h).runs = []) (l : List Nat) :
    l.foldl (fun s m => s.drainSend h m) s = s := by
  induction l with
  | nil => rfl
  | cons m r ih =>
    have hidle : s.drainSend h m = s := by simp [State.drainSend, hruns]
    rw [List.foldl_cons, hidle, ih]

end Sys2Proof.Machine

namespace Sys2Proof
open Machine

/-- Settles O33: the token at a write port by mode and kind, then passes, towpath tokens and reopening, then notices. -/
theorem storeTilesMove : Obligations.StoreTilesMove := by
  refine ⟨fun s g c v => ?_, fun s g c => ?_, fun s n h harg => ?_⟩
  · intro x harg hcfg hport
    refine ⟨writePortToken_waits harg hcfg hport, fun hmode hfull => writePortToken_waits harg hcfg hport (portReady_of_full hcfg hmode hfull),
      fun hready hmode hreader => ?_, fun hready hmode hcons => ⟨fun hkind hpart => ?_, fun hkind hpart => ?_,
        writePortToken_ctrl harg hcfg hport hready hmode, fun hkind hpart => ?_, fun hkind hpart => ?_⟩⟩
    · rw [writePortToken_fifo harg hcfg hport hready hmode, State.genPump_unread (c := c) ?_ hmode hreader]
      rw [State.gen_store, State.gen_setGen]
      exact hcfg
    · rw [writePortToken_data harg hcfg hport hready hmode hkind, if_neg hpart, State.ringMoved_unbound]
      rw [State.gen_store, State.gen_setGen]
      exact hcons
    · rw [writePortToken_data harg hcfg hport hready hmode hkind, if_pos hpart, State.ringMoved_unbound]
      · rfl
      · rw [State.gen_store, State.gen_setGen]
        exact hcons
    · rw [writePortToken_eos harg hcfg hport hready hmode hkind, if_pos hpart, State.ringMoved_unbound]
      rw [State.gen_setGen]
      exact hcons
    · rw [writePortToken_eos harg hcfg hport hready hmode hkind, if_neg hpart, State.ringMoved_unbound]
      · rfl
      · rw [State.gen_setGen]
        exact hcons
  · intro x hcfg
    refine ⟨fun harg => ?_, fun harg => ?_, passStart_waits, fun harg hreader hrun hpass hpassable hrec hport hmode hsome => ?_,
      bufferReopen_waits, fun harg hready => bufferReopen_opens harg hready hcfg⟩
    · rw [towpathStart_run harg, State.towpath_eq hcfg]
    · rw [towpathStop_run harg, State.towpath_eq hcfg]
    · exact passStart_places harg (passReady_of_passable hcfg hreader hrun hpass hpassable hrec) hcfg hrec hport hmode hsome
  · refine ⟨freedSlotNotice_nobody harg, fun hprod hruns => ?_⟩
    rw [freedSlotNotice_array harg hprod, State.drainSends_idle]
    rw [State.joint, State.setJoint_joints, tget_tput_same]
    exact hruns

end Sys2Proof
end

section
/-! SUPPORT. What tokens leave alone: a write to a port, a pop and an exit's comparison change no byte of memory and no generator, and of
the planes they meet neither the accesses of memory nodes nor their number. -/

namespace Sys2Proof.Machine

open Sys2Proof Sys2Proof.Safety

/-- What stands in memory and in the store tiles' generators. -/
def State.holdings (s : State) : List Host.Cell × Tbl GenId Gen := (s.mem, s.gens)

theorem State.mem_of_holdings {s u : State} (h : u.holdings = s.holdings) : u.mem = s.mem := congrArg Prod.fst h

theorem State.gen_of_holdings {s u : State} (h : u.holdings = s.holdings) (g : GenId) : u.gen g = s.gen g := by
  have hgens : u.gens = s.gens := congrArg Prod.snd h
  rw [State.gen, hgens, State.gen]

theorem State.holdings_of_besideSends {s u : State} (h : u.besideSends = s.besideSends) : u.holdings = s.holdings := by
  have hbeside : u.besideSends.holdings = s.besideSends.holdings := by rw [h]
  exact hbeside

theorem State.planes_of_besideSends {s u : State} (h : u.besideSends = s.besideSends) : u.planes = s.planes := by
  have hbeside : u.besideSends.planes = s.besideSends.planes := by rw [h]
  exact hbeside

theorem State.plane_of_besideSends {s u : State} (h : u.besideSends = s.besideSends) (p : PlaneId) : u.plane p = s.plane p := by
  rw [State.plane, State.planes_of_besideSends h, State.plane]

@[simp] theorem State.setPlane_holdings (s : State) (p : PlaneId) (x : Plane) : (s.setPlane p x).holdings = s.holdings := rfl
@[simp] theorem State.onPlane_holdings (s : State) (p : PlaneId) (f : Plane → Plane) : (s.onPlane p f).holdings = s.holdings := rfl
@[simp] theorem State.setColl_holdings (s : State) (i : InstId) (n : Nat) (c : CollNode) : (s.setColl i n c).holdings = s.holdings := rfl
@[simp] theorem State.post_holdings (s : State) (ch : Chan) (e : Ev) (n : Nat) : (s.post ch e n).holdings = s.holdings := rfl
@[simp] theorem State.ackArc_holdings (s : State) (p : PlaneId) (ch : Nat) : (s.ackArc p ch).holdings = s.holdings := rfl
@[simp] theorem State.ite_holdings (p : Prop) [Decidable p] (s t : State) :
    (if p then s else t).holdings = if p then s.holdings else t.holdings := apply_ite State.holdings p s t

/-! ## The ends of arcs (R291, R293, R339) -/

@[simp] theorem State.collNext_holdings (s : State) (i : InstId) (n : Nat) : (s.collNext i n).holdings = s.holdings := by
  simp only [State.collNext]
  split
  · rfl
  · split <;> rfl

@[simp] theorem State.ackTo_holdings (s : State) (p : PlaneId) (ch : Nat) : (s.ackTo p ch).holdings = s.holdings := by
  simp only [State.ackTo]
  split <;> simp

@[simp] theorem State.isectStep_holdings (s : State) (p : PlaneId) (ch : Nat) : (s.isectStep p ch).holdings = s.holdings := by
  simp only [State.isectStep]
  split
  · rfl
  · split
    · rfl
    · split
      · split <;> simp
      · rfl

@[simp] theorem State.arrive_holdings (s : State) (p : PlaneId) (ch : Nat) (t : Token) (n : Nat) :
    (s.arrive p ch t n).holdings = s.holdings := by
  simp [State.arrive]

/-! ## Collective nodes (R443, R444) -/

theorem State.sendCopy_holdings {s t : State} {x : EgressCopy} (h : s.sendCopy x = some t) : t.holdings = s.holdings := by
  simp only [State.sendCopy] at h
  split at h
  · obtain ⟨u, hu, rfl⟩ := Option.map_eq_some_iff.1 h
    exact State.holdings_of_besideSends ((State.countFrames_besideSends _ _ _ _).trans (State.emit_besideSends hu))
  · split at h
    · cases h; exact State.holdings_of_besideSends (State.toNet_besideSends _ _ _ _)
    · cases h

theorem State.sendCopies_holdings (l : List EgressCopy) (s : State) : (s.sendCopies l).1.holdings = s.holdings := by
  induction l generalizing s with
  | nil => rfl
  | cons x r ih =>
    simp only [State.sendCopies]
    split
    · next t ht => rw [ih, State.sendCopy_holdings ht]
    · rfl

@[simp] theorem State.toEgress_holdings (s : State) (k : Nat × Nat × Nat) (t : List EgressCopy) :
    (s.toEgress k t).holdings = s.holdings := by
  have pump (u : State) : (u.pumpEgress k).holdings = u.holdings := by
    refine foldl_keeps (fun a : State × List (List EgressCopy) => a.1.holdings) (fun a t => ?_) _ (u, [])
    dsimp only
    split
    · rfl
    · exact State.sendCopies_holdings _ _
  simp only [State.toEgress]
  split
  · rfl
  · exact pump _

@[simp] theorem State.collOut_holdings (s : State) (c : CollNode) (g : Group) (l : List (CollMsg × NetBody)) :
    (s.collOut c g l).holdings = s.holdings := by
  simp [State.collOut]

@[simp] theorem State.collSpread_holdings (s : State) (c : CollNode) (g : Group) (l : List CollMsg) (body : CollMsg → NetBody)
    (ev : CollMsg → Ev) : (s.collSpread c g l body ev).holdings = s.holdings := by
  rw [State.collSpread, State.collOut_holdings]
  exact foldl_keeps State.holdings (fun _ _ => State.post_holdings _ _ _ _) _ s

@[simp] theorem State.collSend_holdings (s : State) (c : CollNode) (g : Group) (l : List CollMsg) :
    (s.collSend c g l).holdings = s.holdings := by
  simp [State.collSend]

@[simp] theorem State.collOffer_holdings (s : State) (c : CollNode) (g : Group) (m : CollMsg) :
    (s.collOffer c g m).holdings = s.holdings := by
  simp [State.collOffer, State.resultSend]

@[simp] theorem State.collTake_holdings (s : State) (i : InstId) (n : Nat) : (s.collTake i n).holdings = s.holdings := by
  simp only [State.collTake]
  split
  · rfl
  · split
    · simp
    · rfl

@[simp] theorem State.collGive_holdings (s : State) (i : InstId) (n : Nat) (t : Token) : (s.collGive i n t).holdings = s.holdings := by
  simp only [State.collGive]
  split <;> simp

/-! ## Ports and channels -/

@[simp] theorem State.putPort_holdings (s : State) (p : PlaneId) (port : BitVec 5) (t : Token) : (s.putPort p port t).holdings = s.holdings := by
  have send (u : State) (ch : Nat) : (u.sendArc p ch t).holdings = u.holdings := by
    simp only [State.sendArc]
    split <;> simp
  simp [State.putPort, State.pushTok, send]

@[simp] theorem State.popCh_holdings (s : State) (p : PlaneId) (ch : Nat) : (s.popCh p ch).holdings = s.holdings := by
  simp [State.popCh]

@[simp] theorem puts_holdings (s : State) (r : RuleId) (ws : List (BitVec 5 × Token)) : (puts s r ws).holdings = s.holdings :=
  foldl_keeps State.holdings (fun _ _ => State.putPort_holdings _ _ _ _) ws s

@[simp] theorem popped_holdings (s : State) (r : RuleId) (cs : List Nat) : (popped s r cs).holdings = s.holdings :=
  foldl_keeps State.holdings (fun _ _ => State.popCh_holdings _ _ _) cs s

/-! ## What every firing does (R290, R471) -/

@[simp] theorem counted_holdings (s : State) : (counted s).holdings = s.holdings := rfl

/-- An exit's firing is noted for its twin, and a difference may send a fault. -/
theorem State.twinExit_besideSends (s : State) (r : RuleId) (sent : List (BitVec 128 × Kind)) :
    ∃ l, (s.twinExit r sent).besideSends = ({ s with twins := l } : State).besideSends := by
  simp only [State.twinExit]
  split
  · exact ⟨_, rfl⟩
  · split
    · exact ⟨_, rfl⟩
    · split
      · exact ⟨_, rfl⟩
      · split
        · exact ⟨_, rfl⟩
        · split
          · split
            · exact ⟨_, rfl⟩
            · exact ⟨_, State.deliverFault_besideSends _ _ _ _ _ _ _⟩
          · exact ⟨_, rfl⟩

@[simp] theorem State.twinExit_holdings (s : State) (r : RuleId) (sent : List (BitVec 128 × Kind)) :
    (s.twinExit r sent).holdings = s.holdings := by
  obtain ⟨l, h⟩ := s.twinExit_besideSends r sent
  exact (State.holdings_of_besideSends h).trans rfl

@[simp] theorem State.plane_twinExit (s : State) (r : RuleId) (sent : List (BitVec 128 × Kind)) (p : PlaneId) :
    (s.twinExit r sent).plane p = s.plane p := by
  obtain ⟨l, h⟩ := s.twinExit_besideSends r sent
  exact (State.plane_of_besideSends h p).trans rfl

/-- A rule of a plane that holds no graph, and any rule where no twins are armed, has no twin. -/
theorem State.twinExit_untwinned {s : State} {r : RuleId} (h : (s.plane r.plane).inst = none ∨ s.twins = [])
    (sent : List (BitVec 128 × Kind)) : s.twinExit r sent = s := by
  cases hinst : (s.plane r.plane).inst with
  | none => simp [State.twinExit, hinst]
  | some i =>
    have htwins : s.twins = [] := h.resolve_left (by simp [hinst])
    simp [State.twinExit, hinst, htwins]

/-- A fault of a rule changes no plane, no memory and no generator. -/
theorem State.ruleFault_besideSends (s : State) (r : RuleId) (c : Cause) (h2 : Word) (duty : Option Suspended) :
    (s.ruleFault r c h2 duty).besideSends = s.besideSends := by
  simp only [State.ruleFault]
  split
  · rfl
  · exact State.deliverFault_besideSends _ _ _ _ _ _ _

/-! ## The accesses of memory nodes (R333) -/

/-- What an access is, however far it has come. -/
def NodeAcc.issue (a : NodeAcc) : Nat × Nat × Word × MemOp × Token := (a.slot, a.seq, a.addr, a.op, a.tok)

/-- The number of a plane's next access, and the accesses under way. -/
def Plane.issued (p : Plane) : Nat × List (Nat × Nat × Word × MemOp × Token) := (p.nseq, p.accs.map NodeAcc.issue)

theorem State.onPlane_issued {f : Plane → Plane} (h : ∀ x, (f x).issued = x.issued) (s : State) (d p : PlaneId) :
    ((s.onPlane d f).plane p).issued = (s.plane p).issued := by
  by_cases hp : p = d
  · rw [hp, State.plane_onPlane, h]
  · rw [State.plane_onPlane_other s f hp]

/-- Freeing a latch, and acknowledging its token, leaves every plane's accesses. -/
theorem State.popCh_issued (s : State) (d : PlaneId) (ch : Nat) (p : PlaneId) : ((s.popCh d ch).plane p).issued = (s.plane p).issued := by
  have next (u : State) (i : InstId) (n : Nat) : ((u.collNext i n).plane p).issued = (u.plane p).issued := by
    simp only [State.collNext]
    split
    · rfl
    · split
      · rfl
      · rw [State.plane_post]
        exact State.onPlane_issued (by exact fun _ => rfl) _ _ p
  have ack (u : State) : ((u.ackTo d ch).plane p).issued = (u.plane p).issued := by
    simp only [State.ackTo]
    split
    · split
      · exact State.onPlane_issued (by exact fun _ => rfl) _ _ p
      · rfl
    · exact next _ _ _
    · rfl
  simp only [State.popCh]
  split
  · rw [ack]
    exact State.onPlane_issued (by exact fun _ => rfl) _ _ p
  · rfl

theorem State.popOperands_issued (s : State) (r : RuleId) (p : PlaneId) : ((s.popOperands r).plane p).issued = (s.plane p).issued := by
  simp only [State.popOperands]
  split
  · rfl
  · refine (foldl_keeps (fun u : State => (u.plane p).issued) (fun u ch => u.popCh_issued r.plane ch p) _ _).trans ?_
    exact State.onPlane_issued (by exact fun _ => rfl) _ _ p

@[simp] theorem State.popOperands_holdings (s : State) (r : RuleId) : (s.popOperands r).holdings = s.holdings := by
  simp only [State.popOperands]
  split
  · rfl
  · exact foldl_keeps State.holdings (fun u ch => u.popCh_holdings r.plane ch) _ _

/-- An operation at a window is a message (R433). -/
theorem State.windowSend_keeps (s : State) (c : CoreId) (slot sid : Nat) (ask : Asker) (addr : Word) (op : MemOp) (o : Origin) (serial : Nat) :
    (s.windowSend c slot sid ask addr op o serial).holdings = s.holdings ∧
      (s.windowSend c slot sid ask addr op o serial).planes = s.planes := by
  simp only [State.windowSend, State.windowAsk, State.winAttempt]
  split
  · exact ⟨rfl, rfl⟩
  · exact ⟨(State.holdings_of_besideSends (State.toNet_besideSends _ _ _ _)).trans rfl,
      (State.planes_of_besideSends (State.toNet_besideSends _ _ _ _)).trans rfl⟩

/-- Sending a node's accesses notes that they are sent, and is a message for each. -/
theorem State.pumpRule_keeps (s : State) (r : RuleId) :
    (s.pumpRule r).holdings = s.holdings ∧ ∀ p, ((s.pumpRule r).plane p).issued = (s.plane p).issued := by
  have noted (n : Nat) (x : Plane) :
      ({ x with accs := x.accs.map (fun b => if b.seq = n then { b with st := .sent } else b) } : Plane).issued = x.issued := by
    simp only [Plane.issued, List.map_map, Prod.mk.injEq, true_and]
    refine List.map_congr_left fun b _ => ?_
    simp only [Function.comp_apply]
    split <;> rfl
  refine ⟨foldl_keeps State.holdings (fun u a => ?_) _ s, fun p => foldl_keeps (fun u => (u.plane p).issued) (fun u a => ?_) _ s⟩
  · split
    · rfl
    · split
      · exact (State.windowSend_keeps _ _ _ _ _ _ _ _ _).1
      · rfl
    · rfl
  · split
    · exact State.onPlane_issued (noted a.seq) u r.plane p
    · split
      · rw [State.plane, (State.windowSend_keeps _ _ _ _ _ _ _ _ _).2]
        exact State.onPlane_issued (noted a.seq) u r.plane p
      · exact State.onPlane_issued (noted a.seq) u r.plane p
    · rfl

end Sys2Proof.Machine
end

section
/-! PROOF of O23. Streams of store tiles (R330, R332), memory nodes (R26, R249, R277, R333 to R336), sparse instructions (R338, R340), and
collective nodes' ports (R444, R445). -/

namespace Sys2Proof.Machine

open Sys2Proof Sys2Proof.Safety Sys2Proof.Laws

/-! ## Streams of store tiles (R330, R332) -/

section
variable {s : State} {t : BitVec 32} {a b d e : BitVec 5} {g : BitVec 4}

theorem sld_reads (h : Fires s (.sld b d e g) t) (hb : b.toNat ≤ 3) :
    let id : GenId := ⟨s.curR.plane.elem.tile.pair, b.toNat % 4⟩
    ∀ l, (s.gen id).rport = some l → exec (.sld b d e g) s = .next
      (((landed (counted s) s.curR (.sld b d e g) t (tagWrites (encode (.sld b d e g)) l.tok l.tok) l.tok.data (maskList (trPop t))).onGen id
        (fun x => { x with rport := none })).genPump id) := by
  intro id l hl
  have hport : ((s.firedOnce s.curR false).gen id).rport = some l := hl
  show execSld b d e g s = _
  rw [execSld, elemInstr_of_fires h]
  simp only [hb, if_true, hport, id]
  rfl

theorem sld_status (h : Fires s (.sld b d e g) t) (hb : 3 < b.toNat) :
    let v := (s.gen ⟨s.curR.plane.elem.tile.pair, b.toNat % 4⟩).status
    exec (.sld b d e g) s = .next
      (landed (counted s) s.curR (.sld b d e g) t (tagWrites (encode (.sld b d e g)) { data := v } { data := v }) v (maskList (trPop t))) := by
  intro v
  have hb' : ¬ b.toNat ≤ 3 := by omega
  show execSld b d e g s = _
  rw [execSld, elemInstr_of_fires h]
  simp only [hb', if_false]
  rfl

/-- `sst` gives its token to one write port, and to no other (R332). -/
theorem sst_writes (h : Fires s (.sst a b g) t) (hb : b.toNat ≤ 3) :
    let id : GenId := ⟨s.curR.plane.elem.tile.pair, b.toNat % 4⟩
    ∃ u, exec (.sst a b g) s = .next u ∧ u.mem = s.mem ∧ (u.gen id).wport = some (sources s t (some a) none).1 ∧
      ∀ k, k ≠ id → u.gen k = s.gen k := by
  intro id
  have hid : (⟨s.curR.plane.elem.tile.pair, b.toNat⟩ : GenId) = id := by simp [id, Nat.mod_eq_of_lt (by omega : b.toNat < 4)]
  let v := (sources s t (some a) none).1
  let sent : State := ((counted s).onPlane s.curR.plane (fun p => qAction (encode (.sst a b g)) (laneTest (trFmt t) v.data)
    { p with sp := (sources s t (some a) none).2.2 })).twinExit s.curR [(v.data, v.kind)]
  have hsent : sent.holdings = s.holdings := State.twinExit_holdings _ _ _
  have hrun : exec (.sst a b g) s = .next (popped (sent.onGen id (fun x => { x with wport := some v })) s.curR (maskList (trPop t))) := by
    show execSst a b g s = _
    rw [execSst, elemInstr_of_fires h, hid]
    rfl
  have hpopped := popped_holdings (sent.onGen id (fun x => { x with wport := some v })) s.curR (maskList (trPop t))
  refine ⟨_, hrun, (State.mem_of_holdings hpopped).trans ((State.onGen_mem _ _ _).trans (State.mem_of_holdings hsent)), ?_, fun k hk => ?_⟩
  · rw [State.gen_of_holdings hpopped, State.gen_onGen]
  · rw [State.gen_of_holdings hpopped, State.onGen, State.gen_setGen_other _ _ hk, State.gen_of_holdings hsent]

end

/-! ## Memory nodes (R333 to R336) -/

/-- What a rule reads does not depend on the firing's being counted (R41). -/
theorem sources_eq (s : State) (t : BitVec 32) (a b : Option (BitVec 5)) :
    sources s t a b = (s.plane s.curR.plane).two s.curR.plane.plane (trFmt t) a b := by
  simp only [sources, mine, counted, State.firedOnce, State.plane_onPlane]
  cases a <;> cases b <;> rfl

/-- A plane's accesses, and the heads they wait with. -/
def Plane.waiting (p : Plane) : Nat × List NodeAcc × Tbl Nat Latch := (p.nseq, p.accs, p.latch)

/-- What a firing does beside its access: it leaves memory, generators, accesses and heads. -/
def Quiet (k : State → State) : Prop :=
  ∀ v, (k v).holdings = v.holdings ∧ ∀ p, ((k v).plane p).waiting = (v.plane p).waiting

/-- Counting a firing moves no access and no head. -/
theorem State.firedOnce_waiting (s : State) (r : RuleId) (mem : Bool) (p : PlaneId) :
    ((s.firedOnce r mem).plane p).waiting = (s.plane p).waiting := by
  by_cases hp : p = r.plane
  · rw [hp, State.firedOnce, State.plane_onPlane]; rfl
  · rw [State.firedOnce, State.plane_onPlane_other _ _ hp]; rfl

/-- Whether an operation may be at a window (R213): an atomic of a node may not. -/
def MemOp.windowed : MemOp → Bool
  | .atomic _ _ _ => false
  | _ => true

/-- The kind of translated access that an operation of a node asks for (R274). -/
def MemOp.access : MemOp → Acc
  | .load _ => .read
  | _ => .write

/-- A memory node's firing issues its access, and does nothing else of note. -/
theorem memFire_issues {s : State} {i : Instr} {t : BitVec 32} (h : Fires s i t) {a : BitVec 5} {b : Option (BitVec 5)}
    {exit : Option (Token → Token → BitVec 128 × Kind)} {f : Token → Token → Nat × MemOp} (m : Res) (hi : exec i s = m)
    (hm : m = memFire i a b exit f s) :
    let z := sources s t (some a) b
    ∃ k, Quiet k ∧ exec i s = .next (s.nodeIssue s.curR (z.1.data.extractLsb' 0 64) (f z.1 z.2.1).1 (f z.1 z.2.1).2
      { z.1 with poison := z.1.poison || z.2.1.poison } k) := by
  intro z
  rw [hi, hm, memFire, elemInstr_of_fires h]
  simp only [z, sources_eq]
  refine ⟨_, fun v => ?_, rfl⟩
  cases exit with
  | none => exact ⟨rfl, State.firedOnce_waiting v _ _⟩
  | some sent =>
    refine ⟨State.twinExit_holdings _ _ _, fun p => ?_⟩
    simp only [State.plane_twinExit]
    exact State.firedOnce_waiting v _ _ p

/-- A plane with one more access of its memory node. -/
def State.withAccess (s : State) (r : RuleId) (y : NodeAcc) : State :=
  s.setPlane r.plane { s.plane r.plane with accs := (s.plane r.plane).accs ++ [y], nseq := (s.plane r.plane).nseq + 1 }

section
variable {s : State} {r : RuleId} {addr : Word} {len : Nat} {op : MemOp} {tok : Token} {k : State → State} {n : InstId} {x : Inst}

/-- The access that a rule issues next, as it stands at first. -/
def State.newAccess (s : State) (r : RuleId) (addr : Word) (op : MemOp) (tok : Token) (st : NodeSt) : NodeAcc :=
  { slot := r.slot, seq := (s.plane r.plane).nseq, addr := addr, op := op, tok := tok, st := st, holds := st = .asked }

/-- The rule's next access is among its plane's. -/
def State.HasIssued (s u : State) (r : RuleId) (addr : Word) (op : MemOp) (tok : Token) (P : NodeAcc → Prop) : Prop :=
  (u.plane r.plane).nseq = (s.plane r.plane).nseq + 1 ∧ ∃ y ∈ (u.plane r.plane).accs, y.slot = r.slot ∧
    y.seq = (s.plane r.plane).nseq ∧ y.addr = addr ∧ y.op = op ∧ y.tok = tok ∧ P y

theorem State.HasIssued.mono {u : State} {P Q : NodeAcc → Prop} (h : s.HasIssued u r addr op tok P) (hPQ : ∀ y, P y → Q y) :
    s.HasIssued u r addr op tok Q := by
  obtain ⟨hseq, y, hy, hslot, hyseq, haddr, hop, htok, hP⟩ := h
  exact ⟨hseq, y, hy, hslot, hyseq, haddr, hop, htok, hPQ y hP⟩

/-- An access that may go on at once pops its operands and is sent, and stays what it was issued as (R249, R333). -/
theorem State.issued_sent (hk : Quiet k) (st : NodeSt) :
    let u := ((k (s.withAccess r (s.newAccess r addr op tok st))).popOperands r).pumpRule r
    u.mem = s.mem ∧ s.HasIssued u r addr op tok (fun _ => True) := by
  intro u
  let v := k (s.withAccess r (s.newAccess r addr op tok st))
  obtain ⟨hhold, hwait⟩ := hk (s.withAccess r (s.newAccess r addr op tok st))
  obtain ⟨hpump, hsame⟩ := (v.popOperands r).pumpRule_keeps r
  have hmem : u.holdings = s.holdings := hpump.trans ((State.popOperands_holdings _ _).trans hhold)
  have hissued : (u.plane r.plane).issued = ((s.withAccess r (s.newAccess r addr op tok st)).plane r.plane).issued :=
    (hsame _).trans ((State.popOperands_issued _ _ _).trans (congrArg (fun w => (w.1, w.2.1.map NodeAcc.issue)) (hwait r.plane)))
  rw [State.withAccess, State.plane_setPlane] at hissued
  obtain ⟨hseq, haccs⟩ := Prod.mk.inj hissued
  refine ⟨State.mem_of_holdings hmem, hseq, ?_⟩
  have hin : (s.newAccess r addr op tok st).issue ∈ (u.plane r.plane).accs.map NodeAcc.issue := by
    rw [haccs]; simp
  obtain ⟨y, hy, hyissue⟩ := List.mem_map.1 hin
  simp only [NodeAcc.issue, State.newAccess, Prod.mk.injEq] at hyissue
  obtain ⟨hslot, hyseq, haddr, hop, htok⟩ := hyissue
  exact ⟨y, hy, hslot, hyseq, haddr, hop, htok, trivial⟩

/-- One whose address must be translated first waits with its operands (R277, log 73). -/
theorem State.issued_asked (hk : Quiet k) (ch : Chan) (ev : Ev) :
    let u := (k (s.withAccess r (s.newAccess r addr op tok .asked))).post ch ev
    u.mem = s.mem ∧ s.HasIssued u r addr op tok (fun y => y.st = .asked ∧ y.holds = true ∧ (u.plane r.plane).latch = (s.plane r.plane).latch) := by
  intro u
  obtain ⟨hhold, hwait⟩ := hk (s.withAccess r (s.newAccess r addr op tok .asked))
  have hplane : (u.plane r.plane).waiting = ((s.withAccess r (s.newAccess r addr op tok .asked)).plane r.plane).waiting := hwait r.plane
  rw [State.withAccess, State.plane_setPlane] at hplane
  simp only [Plane.waiting, Prod.mk.injEq] at hplane
  obtain ⟨hseq, haccs, hlatch⟩ := hplane
  exact ⟨State.mem_of_holdings hhold, hseq, _, by rw [haccs]; exact List.mem_append_right _ (List.mem_singleton_self _),
    rfl, rfl, rfl, rfl, rfl, rfl, rfl, hlatch⟩

/-- What a rule's access is about (R213). -/
abbrev State.accessTarget (s : State) (r : RuleId) (sid : Nat) (addr : Word) (len : Nat) (win : Bool) : Except Stop Target :=
  checkAddrOf s r.plane.elem.tile.core 0 sid addr len len win

variable (hinst : (s.plane r.plane).inst = some n) (hx : s.inst n = some x)
include hinst hx

theorem State.nodeTarget_eq (win : Bool) : s.nodeTarget r.plane addr len win = s.accessTarget r x.sid addr len win := by
  simp [State.nodeTarget, hinst, hx]

/-- What a rule's access comes to, by what the checks of R213 give (R26, R277, R333). -/
def State.nodeOutcome (s : State) (r : RuleId) (sid : Nat) (addr : Word) (op : MemOp) (tok : Token) (k : State → State) :
    Except Stop Target → State
  | .ok (.here l) => ((k (s.withAccess r (s.newAccess r addr op tok (.ready l)))).popOperands r).pumpRule r
  | .ok (.global va) => (k (s.withAccess r (s.newAccess r addr op tok .asked))).post .none
      (.translation (stationOf r.plane.elem.tile.core) ⟨.rule r (s.plane r.plane).nseq, sid, va, op.access⟩)
  | .ok (.window w) =>
    if s.dispatches sid then ((k (s.withAccess r (s.newAccess r addr op tok (.away w)))).popOperands r).pumpRule r else s.unchosen r
  | .error e =>
    ((s.unchosen r).setPlane r.plane { s.plane r.plane with stuck := (s.plane r.plane).stuck ++ [r.slot] }).ruleFault r e.cause addr none

theorem State.nodeIssue_eq :
    s.nodeIssue r addr len op tok k = s.nodeOutcome r x.sid addr op tok k (s.accessTarget r x.sid addr len op.windowed) := by
  have hbind : (s.plane r.plane).inst.bind s.inst = some x := by rw [hinst, Option.bind_some, hx]
  have htarget (win : Bool) := State.nodeTarget_eq (addr := addr) (len := len) hinst hx win
  cases op
  all_goals
    simp only [State.nodeIssue, hbind, htarget, MemOp.windowed]
    generalize s.accessTarget r x.sid addr len _ = z
    obtain e | l | va | w := z <;> rfl

/-- An access that passes its checks: after a JOB_END none begins at a window (R26); any other is issued, and one whose address must be
translated keeps its operands (R277). -/
theorem State.nodeIssue_passes (hk : Quiet k) {tg : Target} (htarget : s.accessTarget r x.sid addr len op.windowed = .ok tg) :
    let u := s.nodeIssue r addr len op tok k
    u.mem = s.mem ∧ (s.dispatches x.sid = false → (∃ q, tg = .window q) → u = s.unchosen r) ∧
    (s.dispatches x.sid = true ∨ (∀ q, tg ≠ .window q) → s.HasIssued u r addr op tok (fun y => (∃ va, tg = .global va) →
      y.st = .asked ∧ y.holds = true ∧ (u.plane r.plane).latch = (s.plane r.plane).latch)) := by
  intro u
  have hu : u = _ := State.nodeIssue_eq hinst hx
  cases tg with
  | here l =>
    rw [htarget, State.nodeOutcome] at hu
    rw [hu]
    exact ⟨(State.issued_sent hk _).1, nofun, fun _ => (State.issued_sent hk _).2.mono fun _ _ => nofun⟩
  | global va =>
    rw [htarget, State.nodeOutcome] at hu
    rw [hu]
    exact ⟨(State.issued_asked hk _ _).1, nofun, fun _ => (State.issued_asked hk _ _).2.mono fun _ hasked _ => hasked⟩
  | window w =>
    rw [htarget, State.nodeOutcome] at hu
    cases hgoes : s.dispatches x.sid with
    | false =>
      rw [hgoes, if_neg Bool.false_ne_true] at hu
      exact ⟨by rw [hu]; rfl, fun _ _ => hu, fun h => (h.resolve_left Bool.false_ne_true w rfl).elim⟩
    | true =>
      rw [hgoes, if_pos rfl] at hu
      rw [hu]
      exact ⟨(State.issued_sent hk _).1, nofun, fun _ => (State.issued_sent hk _).2.mono fun _ _ => nofun⟩

/-- One that fails them stalls its rule and raises the fault; no access is issued, and no head is taken (R333). -/
theorem State.nodeIssue_stalls {e : Stop} (htarget : s.accessTarget r x.sid addr len op.windowed = .error e) :
    let u := s.nodeIssue r addr len op tok k
    u.mem = s.mem ∧
    u = ((s.unchosen r).setPlane r.plane { s.plane r.plane with stuck := (s.plane r.plane).stuck ++ [r.slot] }).ruleFault r e.cause addr none ∧
      r.slot ∈ (u.plane r.plane).stuck ∧ (u.plane r.plane).accs = (s.plane r.plane).accs ∧
      (u.plane r.plane).latch = (s.plane r.plane).latch := by
  intro u
  have hu : u = _ := State.nodeIssue_eq hinst hx
  rw [htarget, State.nodeOutcome] at hu
  have hbeside := State.ruleFault_besideSends
    ((s.unchosen r).setPlane r.plane { s.plane r.plane with stuck := (s.plane r.plane).stuck ++ [r.slot] }) r e.cause addr none
  have hplane := (State.plane_of_besideSends hbeside r.plane).trans (State.plane_setPlane _ _ _)
  rw [← hu] at hplane
  refine ⟨?_, hu, ?_, by rw [hplane], by rw [hplane]⟩
  · rw [hu]; exact State.mem_of_holdings ((State.holdings_of_besideSends hbeside).trans rfl)
  · rw [hplane]; exact List.mem_append_right _ (List.mem_singleton_self _)

end

/-- A memory node's firing (R333): the access is judged by the checks of R213 with the SID of its plane's graph. -/
theorem memFire_spec {s : State} {i : Instr} {t : BitVec 32} {a : BitVec 5} {b : Option (BitVec 5)}
    {exit : Option (Token → Token → BitVec 128 × Kind)} {f : Token → Token → Nat × MemOp} {n : InstId} {x : Inst} {len : Nat} {op : MemOp}
    (hinst : (s.plane s.curR.plane).inst = some n) (hx : s.inst n = some x) (m : Res) (hi : exec i s = m)
    (hm : m = memFire i a b exit f s) (hf : f (sources s t (some a) b).1 (sources s t (some a) b).2.1 = (len, op)) (h : Fires s i t) :
    let r := s.curR
    let v := (sources s t (some a) b).1
    let w := (sources s t (some a) b).2.1
    let addr := v.data.extractLsb' 0 64
    ∃ u, exec i s = .next u ∧ u.mem = s.mem ∧
      (∀ tg, s.accessTarget r x.sid addr len op.windowed = .ok tg →
        (s.dispatches x.sid = false → (∃ q, tg = .window q) → u = s.unchosen r) ∧
        (s.dispatches x.sid = true ∨ (∀ q, tg ≠ .window q) →
          s.HasIssued u r addr op { v with poison := v.poison || w.poison } (fun y => (∃ va, tg = .global va) →
            y.st = .asked ∧ y.holds = true ∧ (u.plane r.plane).latch = (s.plane r.plane).latch))) ∧
      (∀ e, s.accessTarget r x.sid addr len op.windowed = .error e →
        u = ((s.unchosen r).setPlane r.plane { s.plane r.plane with stuck := (s.plane r.plane).stuck ++ [r.slot] }).ruleFault r e.cause addr none ∧
        r.slot ∈ (u.plane r.plane).stuck ∧ (u.plane r.plane).accs = (s.plane r.plane).accs ∧
        (u.plane r.plane).latch = (s.plane r.plane).latch) := by
  intro r v w addr
  obtain ⟨k, hk, hrun⟩ := memFire_issues h m hi hm
  rw [hf] at hrun
  refine ⟨_, hrun, ?_, fun tg htarget => (State.nodeIssue_passes hinst hx hk htarget).2,
    fun e htarget => (State.nodeIssue_stalls hinst hx htarget).2⟩
  cases htarget : s.accessTarget r x.sid addr len op.windowed with
  | ok tg => exact (State.nodeIssue_passes hinst hx hk htarget).1
  | error e => exact (State.nodeIssue_stalls hinst hx htarget).1

/-! ## Bitmap sparsity (R338, R340) -/

/-- Two changes of a plane, one after the other. -/
theorem State.onPlane_onPlane (s : State) (p : PlaneId) (f g : Plane → Plane) :
    (s.onPlane p f).onPlane p g = s.onPlane p (fun x => g (f x)) := by
  rw [State.onPlane, State.plane_onPlane]
  simp [State.onPlane, State.setPlane, tput_tput]

/-- The lowest bit of a bitmap at or above a place. -/
theorem nextBit_eq {m : BitVec 128} {n j : Nat} (hle : n ≤ j) (hlt : j < 128) (hbit : m.getLsbD j = true)
    (hfirst : ∀ k, n ≤ k → k < j → m.getLsbD k = false) : nextBit m n = j := by
  have hfind : (List.range 128).find? (fun i => n ≤ i && m.getLsbD i) = some j := by
    refine List.find?_range_eq_some.2 ⟨by simp [hle, hbit], List.mem_range.2 hlt, fun k hk => ?_⟩
    by_cases hn : n ≤ k
    · simp [hfirst k hn hk]
    · simp [hn]
  rw [nextBit, hfind, Option.getD_some]

/-- The channels a firing of `bmexp` pops, by its phase and its heads (R338). -/
def bmPops (m : BmState) (vals : Nat) (a b : Nat) (x y : Token) : List Nat :=
  if m.phase = 0 then (if x.kind = .eos then [a, b] else [a])
  else if m.phase = 1 then (if x.kind ≠ .eos && x.data.cpop.toNat = m.n then [a] else [])
  else if m.phase = 2 then (if y.kind ≠ .eos && (m.lane + 1 = vals || m.out + 1 = m.n) then [b] else [])
  else []

/-- The current rule's plane once the firing is counted. -/
theorem plane_firedOnce (s : State) : (s.firedOnce s.curR false).plane s.curR.plane = mine s := rfl

section
variable {s : State} {t : BitVec 32} {a b d e : BitVec 5} {g : BitVec 4}

/-- `isect` gives each of a pair at its result, both with the poison of either (R340, R464). -/
theorem isect_run (h : Fires s (.isect a b d e g) t) :
    let z := sources s t (some a) (some b)
    exec (.isect a b d e g) s = .next (popped (puts (counted s) s.curR (tagWrites (encode (.isect a b d e g))
      { z.1 with poison := z.1.poison || z.2.1.poison } { z.2.1 with poison := z.1.poison || z.2.1.poison })) s.curR (maskList (trPop t))) := by
  show execIsect a b d e g s = _
  rw [execIsect, elemInstr_of_fires h]
  rfl

/-! ### `bmexp`, phase by phase -/

section
variable {x y : Latch} (h : Fires s (.bmexp a b d e g) t)
include h

/-- After the last value the run ends with an EOF. -/
theorem bmexp_eof (hphase : (mine s).bm.phase = 3) :
    exec (.bmexp a b d e g) s = .next (popped (puts ((counted s).onPlane s.curR.plane (fun p => { p with bm := {} })) s.curR
      (let v : Token := { kind := .eof, poison := (mine s).bm.bad }
       tagWrites (encode (.bmexp a b d e g)) v v)) s.curR []) := by
  show execBmexp a b d e g s = _
  rw [execBmexp, elemInstr_of_fires h]
  simp only [plane_firedOnce, hphase]
  rfl

variable (hx : tfind (mine s).latch a.toNat = some x)
include hx

/-- One with another number, or an EOS in its place, raises the fault, and the head stays. -/
theorem bmexp_faults (hphase : (mine s).bm.phase = 1) (hbad : x.tok.kind = .eos ∨ x.tok.data.cpop.toNat ≠ (mine s).bm.n) :
    ∃ u, exec (.bmexp a b d e g) s = .next u ∧ (u.plane s.curR.plane).bm.phase = 4 ∧
      tfind (u.plane s.curR.plane).latch a.toNat = some x := by
  have hrun : ∃ n k, exec (.bmexp a b d e g) s = .next ((counted s).bitmapLen s.curR n k) := by
    show ∃ n k, execBmexp a b d e g s = _
    rw [execBmexp, elemInstr_of_fires h]
    simp only [plane_firedOnce, hx, hphase]
    split
    · exact ⟨_, _, rfl⟩
    · next hkind =>
      rw [if_pos (hbad.resolve_left hkind)]
      exact ⟨_, _, rfl⟩
  obtain ⟨n, k, hrun⟩ := hrun
  refine ⟨_, hrun, ?_⟩
  rw [State.bitmapLen, State.plane_of_besideSends (State.ruleFault_besideSends _ _ _ _ _), State.plane_onPlane]
  exact ⟨rfl, hx⟩

variable (hy : tfind (mine s).latch b.toNat = some y)
include hy

theorem popsOf_bmexp :
    (s.firedOnce s.curR false).popsOf s.curR = bmPops (mine s).bm (trFmt t).vals a.toNat b.toNat x.tok y.tok := by
  have hrule : (s.firedOnce s.curR false).rule s.curR = some (encode (.bmexp a b d e g), t) := (counted_rule s).trans h.1
  have hread : readElement (encode (.bmexp a b d e g)) = some (.bmexp a b d e g) := readElement_encode rfl
  simp only [State.popsOf, hrule, hread, plane_firedOnce, hx, hy, bmPops]
  split
  case h_4 h0 h1 h2 => rw [if_neg h0, if_neg h1, if_neg h2]
  all_goals
    next hphase =>
      simp only [hphase]
      rfl

/-- A header begins a run. -/
theorem bmexp_header (hphase : (mine s).bm.phase = 0) (hkind : x.tok.kind ≠ .eos) :
    exec (.bmexp a b d e g) s = .next (popped ((counted s).onPlane s.curR.plane (fun p =>
      { p with bm := { bad := x.tok.poison, phase := 1, n := x.tok.data.toNat % 256, base := x.tok.data.toNat / 2 ^ 32 % 2 ^ 32 } }))
        s.curR [a.toNat]) := by
  show execBmexp a b d e g s = _
  rw [execBmexp, elemInstr_of_fires h]
  simp only [plane_firedOnce, popsOf_bmexp h hx hy, bmPops, hx, hy, hphase, hkind, if_true, if_false]
  simp [bitsN, popped, counted]

/-- An EOS in its place passes on. -/
theorem bmexp_eos (hphase : (mine s).bm.phase = 0) (hkind : x.tok.kind = .eos) :
    exec (.bmexp a b d e g) s = .next (popped (puts (counted s) s.curR (let v : Token := { kind := .eos, poison := x.tok.poison || y.tok.poison }
      tagWrites (encode (.bmexp a b d e g)) v v)) s.curR [a.toNat, b.toNat]) := by
  show execBmexp a b d e g s = _
  rw [execBmexp, elemInstr_of_fires h]
  simp only [plane_firedOnce, popsOf_bmexp h hx hy, bmPops, hx, hy, hphase, hkind, if_true]
  rfl

/-- A bitmap with as many bits as its header says is kept. -/
theorem bmexp_bitmap (hphase : (mine s).bm.phase = 1) (hkind : x.tok.kind ≠ .eos) (hbits : x.tok.data.cpop.toNat = (mine s).bm.n) :
    exec (.bmexp a b d e g) s = .next (popped ((counted s).onPlane s.curR.plane (fun p =>
      { p with bm := { (mine s).bm with phase := if (mine s).bm.n = 0 then 3 else 2, bitmap := x.tok.data, bit := 0, lane := 0, out := 0,
                                        bad := (mine s).bm.bad || x.tok.poison } })) s.curR [a.toNat]) := by
  show execBmexp a b d e g s = _
  rw [execBmexp, elemInstr_of_fires h]
  simp only [plane_firedOnce, popsOf_bmexp h hx hy, bmPops, hx, hphase, hkind, hbits, ne_eq, not_false_eq_true, not_true_eq_false,
    if_true, if_false, one_ne_zero]
  rfl

/-- A value goes out with the place of its bit; the token of values is popped after its last lane. -/
theorem bmexp_value (hphase : (mine s).bm.phase = 2) (hkind : y.tok.kind ≠ .eos) (hmore : (mine s).bm.out + 1 < (mine s).bm.n) {j : Nat}
    (hnext : nextBit (mine s).bm.bitmap (mine s).bm.bit = j) :
    let m := (mine s).bm
    let v : Token := { data := BitVec.ofNat 128 ((m.base + j) % 2 ^ 32 * 2 ^ 96 + lane (trFmt t) y.tok.data m.lane), poison := m.bad || y.tok.poison }
    exec (.bmexp a b d e g) s = .next (popped (puts ((counted s).onPlane s.curR.plane (fun p =>
      { p with bm := { m with bit := j + 1, lane := (m.lane + 1) % (trFmt t).vals, out := m.out + 1 } })) s.curR
        (tagWrites (encode (.bmexp a b d e g)) v v)) s.curR (if m.lane + 1 = (trFmt t).vals then [b.toNat] else [])) := by
  intro m v
  have hlast : (mine s).bm.out + 1 ≠ (mine s).bm.n := by omega
  show execBmexp a b d e g s = _
  rw [execBmexp, elemInstr_of_fires h]
  simp [plane_firedOnce, popsOf_bmexp h hx hy, bmPops, hy, hphase, hkind, hnext, hlast, State.onPlane_onPlane, m]
  rfl

end

/-! ## Collective nodes' ports (R444, R445) -/

/-- What a rule reads does not depend on whether its window is emptied. -/
theorem sources_firedOnce (s : State) (t : BitVec 32) (a b : Option (BitVec 5)) (mem : Bool) :
    ((s.firedOnce s.curR mem).plane s.curR.plane).two s.curR.plane.plane (trFmt t) a b = sources s t a b := by
  rw [sources_eq, State.firedOnce, State.plane_onPlane]
  cases a <;> cases b <;> rfl

theorem xsend_run (h : Fires s (.xsend a d) t) (hsingle : (s.plane s.curR.plane).inst = none ∨ s.twins = []) :
    let z := sources s t (some a) none
    exec (.xsend a d) s = .next (popped (((s.firedOnce s.curR true).onPlane s.curR.plane (fun p => { p with sp := z.2.2 })).putPort
      s.curR.plane d z.1) s.curR (maskList (trPop t))) := by
  intro z
  show execXsend a d s = _
  rw [execXsend, elemInstr_of_fires h]
  simp only [sources_firedOnce]
  rw [State.twinExit_untwinned]
  · rfl
  · rw [State.plane_onPlane, State.firedOnce, State.plane_onPlane]
    exact hsingle

theorem xrecv_run (h : Fires s (.xrecv a d e g) t) :
    let z := sources s t (some a) none
    exec (.xrecv a d e g) s = .next (landed ((counted s).setPlane s.curR.plane { mine s with sp := z.2.2 }) s.curR (.xrecv a d e g) t
      (tagWrites (encode (.xrecv a d e g)) z.1 { data := BitVec.ofNat 128 (tget (mine s).rank 0xFFFF a.toNat), poison := z.1.poison })
      z.1.data (maskList (trPop t))) := by
  intro z
  have hmap := tagWrites_map (encode (.xrecv a d e g)) z.1 { data := BitVec.ofNat 128 (tget (mine s).rank 0xFFFF a.toNat) }
    (fun v => v.taint (z.1.poison || false))
  have hrank (w : BitVec 128) : ({ data := w } : Token).taint (z.1.poison || false) = { data := w, poison := z.1.poison } := by
    simp [Token.taint]
  rw [← Token.taint_own rfl, hrank] at hmap
  show execXrecv a d e g s = _
  rw [execXrecv, stdFire_of_fires h, ← hmap]
  rfl

end

end Sys2Proof.Machine

namespace Sys2Proof
open Machine Safety

/-- Settles O23: the streams of store tiles, then the accesses of memory nodes by what their checks give, then the sparse instructions
phase by phase and the ports of collective nodes. -/
theorem storeStreamsAndNodes : Obligations.StoreStreamsAndNodes := by
  refine ⟨fun s t a b d e g => ⟨sld_reads, sld_status, sst_writes⟩, fun s t a b d e c g n x => ?_, fun s t a b d e g => ?_⟩
  · intro r hinst hx z z2 node
    have hnode {i : Instr} {a : BitVec 5} {b : Option (BitVec 5)} {exit : Option (Token → Token → BitVec 128 × Kind)}
        {f : Token → Token → Nat × MemOp} {len : Nat} {op : MemOp} (m : Res) (hi : exec i s = m) (hm : m = memFire i a b exit f s)
        (hf : f (sources s t (some a) b).1 (sources s t (some a) b).2.1 = (len, op)) :
        node i (sources s t (some a) b).1 (sources s t (some a) b).2.1 len len op op.windowed := by
      intro h
      obtain ⟨u, hu, hmem, hok, herr⟩ := memFire_spec hinst hx m hi hm hf h
      refine ⟨u, hu, hmem, ?_⟩
      split
      case h_1 tg htarget => exact hok tg htarget
      case h_2 e htarget => exact herr e htarget
    refine ⟨hnode (execMld a d e g s) rfl rfl rfl, hnode (execMst a b d e g s) rfl rfl rfl, fun op hop => ?_, fun hc => ?_⟩
    · have hcode : matomOp c.toNat = op ∧ op ≠ .fadd :=
        (by decide : ∀ q ∈ [(0, AtomOp.add), (1, .and), (2, .or), (3, .xor), (4, .max), (5, .min), (6, .xchg), (8, .badd)],
          matomOp q.1 = q.2 ∧ q.2 ≠ .fadd) _ hop
      exact hnode (len := 8) (op := .atomic op (z.1.data.extractLsb' 64 64) 0) (execMatom a c d g s) rfl rfl (by simp [hcode, z])
    · exact hnode (len := 4) (op := .atomic .fadd (z.1.data.extractLsb' 64 64) 0) (execMatom a c d g s) rfl rfl (by simp [hc, matomOp, z])
  · intro r f z z2 pops m put
    refine ⟨fun h => ⟨_, isect_run h, ?_, rfl⟩, fun h ha hb x y hx hy => ⟨bmexp_header h hx hy, bmexp_eos h hx hy, bmexp_bitmap h hx hy,
      bmexp_faults h hx, fun hphase hkind hmore j hle hlt hbit hfirst => bmexp_value h hx hy hphase hkind hmore (nextBit_eq hle hlt hbit hfirst),
      bmexp_eof h⟩, xsend_run, xrecv_run⟩
    exact State.mem_of_holdings ((popped_holdings _ _ _).trans ((puts_holdings _ _ _).trans (counted_holdings s)))

end Sys2Proof
end

section
/-! SUPPORT. Events to the host (R479, R480): what an entry of a host basin changes, and what it leaves alone. -/

namespace Sys2Proof.Machine

open Sys2Proof

/-- An entry that reaches a host basin changes memory, its poison, the basins and the hold, and nothing else. -/
theorem State.basinPut_keeps (s : State) (n : Nat) (ws : List Word) : ∃ m p b h,
    s.basinPut n ws = { s with mem := m, poison := p, ctl := { s.ctl with basins := b, hold := h } } := by
  simp only [State.basinPut]
  split
  · exact ⟨_, _, _, _, rfl⟩
  · split
    · exact ⟨s.mem, s.poison, s.ctl.basins, _, rfl⟩
    · exact ⟨s.mem, s.poison, _, s.ctl.hold, rfl⟩

theorem State.eventOwner_keeps (s : State) (die code : Nat) (ps : List Word) : ∃ m p b h,
    s.eventOwner die code ps = { s with mem := m, poison := p, ctl := { s.ctl with basins := b, hold := h } } :=
  s.basinPut_keeps 0 _

@[simp] theorem State.eventOwner_owner (s : State) (die code : Nat) (ps : List Word) : (s.eventOwner die code ps).ctl.owner = s.ctl.owner := by
  obtain ⟨m, p, b, h, hu⟩ := s.eventOwner_keeps die code ps
  rw [hu]

@[simp] theorem State.eventOwner_pending (s : State) (die code : Nat) (ps : List Word) : (s.eventOwner die code ps).pending = s.pending := by
  obtain ⟨m, p, b, h, hu⟩ := s.eventOwner_keeps die code ps
  rw [hu]

end Sys2Proof.Machine
end

section
/-! PROOF of O49, O50 and O51. Who owns the device (R481 to R483), and who sets its power cap (R492). -/

namespace Sys2Proof.Machine

open Sys2Proof

/-! ## Writes that reach the registers (R481) -/

section

variable {s : State} {m p : Nat} {v : Word}

/-- A write that reaches the registers is carried out. -/
theorem State.dcr_reaches (hlk : s.lkDown 0 = false) (h : s.dcrReaches m p = true) (f : State → State) : s.dcr m p f = f s := by
  simp [State.dcr, State.byLock_free hlk, h]

/-- One that does not is not. -/
theorem State.dcr_far (hlk : s.lkDown 0 = false) (h : s.dcrReaches m p = false) (f : State → State) : s.dcr m p f = s := by
  simp [State.dcr, State.byLock_free hlk, h]

/-! ## Ownership (R482, R483) -/

theorem claimWrite_writes (harg : s.arg = .claimWrite m p v) : exec .claimWrite s = .next (s.dcr m p (fun s => s.claimDcr m p v)) := by
  change execClaimWrite s = _
  simp only [execClaimWrite, harg]

theorem relinquish_writes (harg : s.arg = .relinquish m p) : exec .relinquish s = .next (s.byOwner m p (fun s => s.handoverDcr 0)) := by
  change execRelinquish s = _
  simp only [execRelinquish, harg]

theorem handover_writes (harg : s.arg = .handover m p v) : exec .handover s = .next (s.byOwner m p (fun s => s.handoverDcr v)) := by
  change execHandover s = _
  simp only [execHandover, harg]

theorem State.claimDcr_other (hv : v ≠ 1) : s.claimDcr m p v = s := by rw [State.claimDcr, if_pos hv]

theorem State.claimDcr_claims (hown : s.ctl.owner = 0) : s.claimDcr m p 1 = s.setOwner m p 0 := by simp [State.claimDcr, hown]

/-- The successor confirms a handover before its second is over. -/
theorem State.claimDcr_confirms {d : Nat} (hown : s.ctl.owner ≠ 0) (hnamed : s.ctl.pending = m) (hdue : s.ctl.handDue = some d)
    (hearly : s.cycle < d) : s.claimDcr m p 1 = s.setOwner m p 1 := by
  simp [State.claimDcr, hown, hnamed, hdue, hearly]

/-- While there is an owner, a claim that confirms nothing is ignored. -/
theorem State.claimDcr_ignored (hown : s.ctl.owner ≠ 0)
    (hno : s.ctl.pending ≠ m ∨ s.ctl.handDue = none ∨ ∃ d, s.ctl.handDue = some d ∧ d ≤ s.cycle) : s.claimDcr m p v = s := by
  by_cases hv : v = 1
  · rcases hno with h | h | ⟨d, h, hd⟩
    · simp [State.claimDcr, hown, h]
    · simp [State.claimDcr, hown, h]
    · simp [State.claimDcr, hown, h, Nat.not_lt.2 hd]
  · exact State.claimDcr_other hv

@[simp] theorem State.timePath_owner (s : State) : s.timePath.ctl.owner = s.ctl.owner := by
  simp only [State.timePath]
  split <;> rfl

@[simp] theorem State.setOwner_owner (s : State) (m p cause : Nat) : (s.setOwner m p cause).ctl.owner = m := by
  simp [State.setOwner, State.ownerEvent]

theorem State.handoverDcr_relinquishes (hown : s.ctl.owner ≠ 0) :
    s.handoverDcr 0 = (s.onCtl (fun c => { c with handover := 0 })).setOwner 0 0 3 := by
  simp [State.handoverDcr, bitsN, Ne.symm hown]

theorem State.handoverDcr_names (hform : bitsN v 63 2 = 0) (hother : v.toNat ≠ s.ctl.owner) (hv : v ≠ 0) : s.handoverDcr v =
    s.onCtl (fun c => { c with handover := v, pending := v.toNat, handDue := some (s.cycle + second) }) := by
  rw [State.handoverDcr, if_neg (by simp [hform, hother]), if_neg hv]

theorem handoverTimeout_run (hlk : s.lkDown 0 = false) (harg : s.arg = .handoverTimeout) : exec .handoverTimeout s = .next
    (if s.handoverLate then (s.onCtl (fun c => { c with pending := 0, handDue := none })).ownerEvent s.ctl.owner 2 else s) := by
  change execHandoverTimeout s = _
  simp only [execHandoverTimeout, harg, State.byLock_free hlk]

theorem ownerPathLost_run (hlk : s.lkDown 0 = false) (harg : s.arg = .ownerPathLost) :
    exec .ownerPathLost s = .next (if s.pathLost then s.setOwner 0 0 4 else s) := by
  change execOwnerPathLost s = _
  simp only [execOwnerPathLost, harg, State.byLock_free hlk]

/-! ## The owner's path (R483) -/

theorem State.pathUp_companion (h : s.ctl.owner = 1) : s.pathUp = s.linkUp 24 := by simp [State.pathUp, h]

theorem State.pathUp_manager (h : s.ctl.owner = 3) :
    s.pathUp = true ↔ s.linkUp s.ctl.plane = true ∧ (s.switch s.ctl.plane).passed = true := by
  simp [State.pathUp, h]

theorem State.timePath_up (h : s.pathUp = true) : s.timePath.ctl.lostAt = none := by simp [State.timePath, h]

theorem State.timePath_down (h : s.pathUp = false) : s.timePath.ctl.lostAt = some (s.ctl.lostAt.getD s.cycle) := by
  cases hl : s.ctl.lostAt <;> simp [State.timePath, h, hl]

/-! ## The power cap (R492) -/

theorem powerCap_writes (harg : s.arg = .powerCap m p v) : exec .powerCap s = .next (s.dcr m p (fun s => s.capDcr m p v)) := by
  change execPowerCap s = _
  simp only [execPowerCap, harg]

/-- Who may write the cap, and with what. -/
def State.mayCap (s : State) (m p : Nat) (v : Word) : Prop :=
  (300 ≤ v.toNat ∧ v.toNat ≤ 1600) ∧
    (s.owns m p = true ∨ ((BitVec.ofNat 64 s.ctl.rack).getLsbD (m - 1) = true ∧ v.toNat < s.ctl.pwrCap))

/-- The state once the cap is set: the write is counted, and the sticky bits take what it did. -/
def State.capped (s : State) (m p : Nat) (v : Word) : State :=
  s.onCtl (fun c => { c with
    pwrCap := v.toNat, pwrWrites := c.pwrWrites + 1,
    pwrHits := c.pwrHits ||| (if v.toNat < c.pwrFloor then 2 else 0) ||| (if s.owns m p then 0 else 8) })

theorem State.capDcr_accepts (h : s.mayCap m p v) : s.capDcr m p v =
    (s.capped m p v).eventOwner 0 0x012 [(s.capped m p v).pwrEventWord, v, (s.capped m p v).ctl.pwrNow] := by
  obtain ⟨⟨hlo, hhi⟩, hwho⟩ := h
  have hv : fld v.toNat 0 = v := by simp [fld]
  have hok : (s.owns m p || (decide (bitsN (BitVec.ofNat 64 s.ctl.rack) (m - 1) (m - 1) = 1) && decide (v.toNat < s.ctl.pwrCap))) = true := by
    simpa [bitsN_bit_one] using hwho
  simp only [State.capDcr, hok, Nat.not_lt.2 hlo, Nat.not_lt.2 hhi, State.capped]
  simp [hv]

theorem State.capDcr_ignores (h : ¬ s.mayCap m p v) : s.capDcr m p v = s := by
  have hno : (decide (v.toNat < 300) || decide (1600 < v.toNat) ||
      !(s.owns m p || (decide (bitsN (BitVec.ofNat 64 s.ctl.rack) (m - 1) (m - 1) = 1) && decide (v.toNat < s.ctl.pwrCap)))) = true := by
    by_contra hc
    refine h ?_
    simp only [Bool.or_eq_true, Bool.not_eq_true', Bool.and_eq_true, decide_eq_true_eq, bitsN_bit_one, not_or, Nat.not_lt,
      Bool.not_eq_false] at hc
    exact ⟨⟨hc.1.1, hc.1.2⟩, hc.2⟩
  simp only [State.capDcr, hno, if_true]

end

end Sys2Proof.Machine

namespace Sys2Proof
open Machine

/-- Settles O49: a claim and a handover by what the registers hold, then the handover's second and the owner's path. -/
theorem ownersChange : Obligations.OwnersChange := by
  intro s m p v hlk
  refine ⟨fun harg => ⟨fun hr hv hown => ?_, fun d hr hv hown hnamed hdue hearly => ?_, fun hno => ?_⟩,
    fun harg => ⟨fun hother => ?_, fun howns hown => ?_⟩, fun harg => ⟨fun hother => ?_, fun howns hform hself hv => ?_⟩,
    fun harg => ⟨fun hlate => ?_, fun hlate => ?_⟩, State.pathUp_companion, State.pathUp_manager, State.timePath_up, State.timePath_down,
    ownerPathLost_run hlk⟩
  · rw [claimWrite_writes harg, State.dcr_reaches hlk hr, hv, State.claimDcr_claims hown]
  · rw [claimWrite_writes harg, State.dcr_reaches hlk hr, hv, State.claimDcr_confirms hown hnamed hdue hearly]
  · rw [claimWrite_writes harg]
    cases hr : s.dcrReaches m p with
    | false => rw [State.dcr_far hlk hr]
    | true =>
      rw [State.dcr_reaches hlk hr]
      rcases hno with h | h | ⟨hown, hnamed⟩
      · simp [hr] at h
      · rw [State.claimDcr_other h]
      · rw [State.claimDcr_ignored hown (.inl hnamed)]
  · rw [relinquish_writes harg, State.byOwner_other hlk hother]
  · rw [relinquish_writes harg, State.byOwner_owner hlk howns, State.handoverDcr_relinquishes hown]
    rfl
  · rw [handover_writes harg, State.byOwner_other hlk hother]
  · rw [handover_writes harg, State.byOwner_owner hlk howns, State.handoverDcr_names hform hself hv]
    rfl
  · rw [handoverTimeout_run hlk harg, hlate]
    rfl
  · rw [handoverTimeout_run hlk harg, hlate]
    rfl

/-- Settles O50: a claim is carried out as the registers say, and makes its writer the owner or changes nothing. -/
theorem claimsMakeOwners : Obligations.ClaimsMakeOwners := by
  intro s m p v harg hlk hr
  rw [claimWrite_writes harg, State.dcr_reaches hlk hr]
  refine ⟨fun hown hv => ⟨_, rfl, ?_⟩, fun hv => by rw [State.claimDcr_other hv], fun hown hno => by rw [State.claimDcr_ignored hown hno]⟩
  rw [hv, State.claimDcr_claims hown, State.setOwner_owner]

/-- Settles O51: a write within its writer's range sets the cap with an event, and any other does nothing. -/
theorem powerCapWrites : Obligations.PowerCapWrites := by
  intro s m p v harg hlk hr
  rw [powerCap_writes harg, State.dcr_reaches hlk hr]
  refine ⟨fun hfit hwho => ⟨_, _, congrArg Host.Outcome.next (State.capDcr_accepts ⟨hfit, hwho⟩), rfl, rfl, rfl⟩, fun hno => ?_⟩
  · rw [State.capDcr_ignores]
    rintro ⟨hfit, hwho⟩
    rcases hno with h | ⟨hother, h⟩
    · exact h hfit
    · rw [hother] at hwho
      rcases hwho with hown | ⟨hrack, hlow⟩
      · simp at hown
      · rcases h with h | h
        · simp [h] at hrack
        · omega

end Sys2Proof
end

section
/-! PROOF of O35. The order in which a haul visits its elements (R370, R371): the index vector counts in mixed radix. -/

namespace Sys2Proof.Machine

open Sys2Proof

/-- The value of digits over their radices, the first digit varying fastest. -/
def radixValue (l : List (Nat × Nat)) : Nat := l.foldr (fun e acc => e.1 + e.2 * acc) 0

theorem digits_length (l : List Nat) (k : Nat) : (digits l k).length = l.length := by
  induction l generalizing k with
  | nil => rfl
  | cons c r ih => simp [digits, ih]

/-- Each digit lies below its radix. -/
theorem digits_lt {l : List Nat} (hpos : ∀ c ∈ l, c ≠ 0) {k i n c : Nat} (hn : (digits l k)[i]? = some n) (hc : l[i]? = some c) : n < c := by
  induction l generalizing k i with
  | nil => simp at hc
  | cons b r ih =>
    cases i with
    | zero =>
      obtain rfl : b = c := by simpa using hc
      obtain rfl : k % b = n := by simpa [digits] using hn
      exact Nat.mod_lt _ (Nat.pos_of_ne_zero (hpos b (by simp)))
    | succ i => exact ih (fun c hc => hpos c (List.mem_cons_of_mem _ hc)) (by simpa [digits] using hn) (by simpa using hc)

/-- A number below the product of the radices is the value of its digits. -/
theorem radixValue_digits {l : List Nat} {k : Nat} (hk : k < l.prod) : radixValue ((digits l k).zip l) = k := by
  induction l generalizing k with
  | nil =>
    obtain rfl : k = 0 := by simpa using hk
    rfl
  | cons c r ih =>
    have hrest : k / c < r.prod := Nat.div_lt_of_lt_mul (by simpa using hk)
    calc radixValue ((digits (c :: r) k).zip (c :: r)) = k % c + c * radixValue ((digits r (k / c)).zip r) := rfl
      _ = k := by rw [ih hrest, Nat.mod_add_div]

end Sys2Proof.Machine

namespace Sys2Proof
open Machine

/-- Settles O35, by induction on the counts. -/
theorem haulVisitOrder : Obligations.HaulVisitOrder := by
  intro d k hplain hpos hk
  have hindex : d.index k = digits (d.cnt.take d.rank) k := by simp [Desc.index, hplain]
  have hprod : k < (d.cnt.take d.rank).prod := by simpa [Desc.total, List.prod_eq_foldl] using hk
  rw [hindex]
  exact ⟨digits_length _ _, fun i n c hn hc => digits_lt hpos hn hc, radixValue_digits hprod⟩

end Sys2Proof
end

section
/-! PROOF of O47. Entries of a host basin (R479, R480), and the companion's barge port (R476 to R478). -/

namespace Sys2Proof.Machine

open Sys2Proof

/-! ## Bytes of a store -/

/-- Words laid out byte by byte take eight bytes each. -/
theorem flatMap_bytesOf_length (ws : List Word) : (ws.flatMap (fun w => bytesOf 8 w.toNat)).length = 8 * ws.length := by
  simp [List.length_flatMap, bytesOf, Nat.mul_comm]

/-- What a store has written reads back. -/
theorem State.bytes_store_at {s : State} (h : Memory.wf s.mem) (l : Loc) (bs : List Byte) : (s.store l bs).bytes l bs.length = bs := by
  refine List.ext_getElem (by simp) (fun i h1 h2 => ?_)
  have hi : bs[i]? = some bs[i] := List.getElem?_eq_getElem h2
  simpa [State.bytes, memRead] using s.memGet_store_at h l bs false hi

/-- A byte beside a store reads as before. -/
theorem State.bytes_store_outside {s : State} (h : Memory.wf s.mem) (l m : Loc) (bs : List Byte)
    (hm : m.key < l.key ∨ l.key + bs.length ≤ m.key) : (s.store l bs).bytes m 1 = s.bytes m 1 := by
  simpa [State.bytes, memRead, State.byte] using s.byte_store_outside h l m bs false hm

/-! ## An entry of a basin (R480) -/

section

variable {s : State} {n : Nat}

@[simp] theorem State.hostBasin_setHostBasin (s : State) (n : Nat) (b : HostBasin) : (s.setHostBasin n b).hostBasin n = b := by
  simp [State.hostBasin, State.setHostBasin]

@[simp] theorem State.setHostBasin_bytes (s : State) (n : Nat) (b : HostBasin) (l : Loc) (k : Nat) :
    (s.setHostBasin n b).bytes l k = s.bytes l k := rfl

/-- An entry is written where its basin has room and no earlier one waits. -/
theorem State.basinPut_writes (hroom : (s.hostBasin n).room = true) (hfirst : ∀ e ∈ s.ctl.hold, e.1 ≠ n) (ws : List Word) :
    s.basinPut n ws = s.basinWrite n ws := by
  have hnone : s.ctl.hold.any (fun e => e.1 = n) = false := by simpa using hfirst
  simp [State.basinPut, hroom, hnone]

/-- Otherwise it is held, or lost where the hold is full. -/
theorem State.basinPut_holds (hwait : (s.hostBasin n).room = false ∨ ∃ e ∈ s.ctl.hold, e.1 = n) (ws : List Word) :
    s.basinPut n ws =
      if s.ctl.hold.length < 256 then s.onCtl (fun c => { c with hold := c.hold ++ [(n, ws)] })
      else s.setHostBasin n { s.hostBasin n with lost := min 4095 ((s.hostBasin n).lost + 1) } := by
  have hno : ((s.hostBasin n).room && !s.ctl.hold.any (fun e => e.1 = n)) = false := by
    rcases hwait with h | h
    · simp [h]
    · have hany : s.ctl.hold.any (fun e => e.1 = n) = true := by simpa using h
      simp [hany]
  simp only [State.basinPut, hno, Bool.false_eq_true, if_false]

end

/-- The place of a basin's next entry. -/
def HostBasin.place (b : HostBasin) : Loc := .comp (b.base + 64 * (b.tail % b.entries))

theorem State.basinWrite_eq (s : State) (n : Nat) (ws : List Word) : s.basinWrite n ws =
    (s.store (s.hostBasin n).place (ws.flatMap (fun w => bytesOf 8 w.toNat))).setHostBasin n
      { s.hostBasin n with tail := ((s.hostBasin n).tail + 1) % 2 ^ 32 } := rfl

/-! ## The barge port (R476 to R478) -/

section

variable {s : State} {ws : List Word}

theorem State.isReady_iff (s : State) : s.isReady = true ↔ s.readyAt.isSome = true ∧ s.ctl.trip = false := by
  simp [State.isReady]

/-- A write to the barge port that is a barge: dropped and counted, queued, or taken. -/
theorem bargePortWrite_run (harg : s.arg = .bargePortWrite ws) (hup : s.linkUp 24 = true) (hlen : ws.length = 8) :
    exec .bargePortWrite s = .next (
      if s.isReady = false then s.onCtl (fun c => { c with early := min 0xFFFF (c.early + 1) })
      else if s.ctl.hostBusy = true ∨ s.ctl.hostq ≠ [] then s.onCtl (fun c => { c with hostq := c.hostq ++ [ws] })
      else s.hostTake ws) := by
  change execBargePortWrite s = _
  simp only [execBargePortWrite, harg, hup, hlen]
  cases s.isReady <;> cases s.ctl.hostBusy <;> by_cases hq : s.ctl.hostq = [] <;> simp [hq]

theorem bargePortWrite_ignored (harg : s.arg = .bargePortWrite ws) (h : s.linkUp 24 = false ∨ ws.length ≠ 8) :
    exec .bargePortWrite s = .next s := by
  change execBargePortWrite s = _
  simp [execBargePortWrite, harg, h]

theorem unknownService_run {host : Bool} (hlk : s.lkDown 0 = false) (harg : s.arg = .unknownService ws host) :
    exec .unknownService s = .next (
      let v := s.eventOwner 0 0x002 [refusedWord .illegalForm (ctlHandler (ws.getD 1 0))]
      if host = true then v.hostNext else v) := by
  change execUnknownService s = _
  simp only [execUnknownService, harg, State.byLock_free hlk]

end

/-! ## A basin's registers (R480) -/

section

variable {s : State} {m p n : Nat} {v : Word}

theorem hostBasinBase_writes (harg : s.arg = .hostBasinBase m p n v) :
    exec .hostBasinBase s = .next (s.dcr m p (fun s => s.basinDcr m n v)) := by
  change execHostBasinBase s = _
  simp only [execHostBasinBase, harg]

theorem hostBasinHead_writes (harg : s.arg = .hostBasinHead m p n v) :
    exec .hostBasinHead s = .next (s.dcr m p (fun s => s.headDcr m n v)) := by
  change execHostBasinHead s = _
  simp only [execHostBasinHead, harg]

/-- A write that would do nothing does nothing, whether it reaches the registers or not. -/
theorem State.dcr_idle (hlk : s.lkDown 0 = false) {f : State → State} (h : f s = s) : s.dcr m p f = s := by
  cases hr : s.dcrReaches m p with
  | false => exact State.dcr_far hlk hr f
  | true => rw [State.dcr_reaches hlk hr, h]

theorem State.basinDcr_sets (hn : n < 4) (hres : bitsN v 5 4 = 0) (hsize : bitsN v 3 0 ≤ 12) : s.basinDcr 1 n v =
    (s.setHostBasin n { s.hostBasin n with base := bitsN v 51 6 * 64, size := bitsN v 3 0, head := 0, tail := 0 }).basinPump := by
  rw [State.basinDcr, if_neg (by simp [hn, hres, hsize])]

theorem State.headDcr_sets (hn : n < 4) :
    s.headDcr 1 n v = (s.setHostBasin n { s.hostBasin n with head := bitsN v 31 0 }).basinPump := by
  rw [State.headDcr, if_neg (by simp [hn])]

theorem State.basinDcr_other (hm : m ≠ 1) : s.basinDcr m n v = s := by
  rw [State.basinDcr, if_pos (by simp [hm])]

theorem State.headDcr_other (hm : m ≠ 1) : s.headDcr m n v = s := by
  rw [State.headDcr, if_pos (by simp [hm])]

end

end Sys2Proof.Machine

namespace Sys2Proof
open Machine

/-- Settles O47: an entry is written or held; then the barge port, refusals, and the basins' registers. -/
theorem hostBasinsAndBarges : Obligations.HostBasinsAndBarges := by
  refine ⟨fun s n ws b hb hlen hwf => ?_, fun s => ⟨fun ws harg => ?_, fun ws host harg hlk => unknownService_run hlk harg, fun m p n v hlk => ?_⟩⟩
  · subst hb
    refine ⟨fun hroom hfirst => ?_, fun hwait => ?_⟩
    · have hbytes : (ws.flatMap (fun w => bytesOf 8 w.toNat)).length = 64 := by rw [flatMap_bytesOf_length, hlen]
      rw [State.basinPut_writes hroom hfirst, State.basinWrite_eq]
      refine ⟨by simp, ?_, fun l hl => ?_⟩
      · have hback := State.bytes_store_at hwf (s.hostBasin n).place (ws.flatMap (fun w => bytesOf 8 w.toNat))
        rw [hbytes] at hback
        exact hback
      · exact State.bytes_store_outside hwf _ l _ (by rw [hbytes]; exact hl)
    · rw [State.basinPut_holds hwait]
      split
      · next hroom => exact ⟨rfl, fun _ => rfl, fun hfull => absurd hroom (Nat.not_lt.2 hfull)⟩
      · next hfull => exact ⟨rfl, fun hroom => absurd hroom hfull, fun _ => ⟨rfl, by simp⟩⟩
  · refine ⟨bargePortWrite_ignored harg, fun hup hlen hnot => ?_, fun hup hlen hready htrip hbusy => ?_,
      fun hup hlen hready htrip hbusy hq => ⟨s.hostTake ws, ?_, rfl, rfl, rfl⟩⟩
    · have hno : s.isReady = false := by
        rcases hnot with h | h <;> simp [State.isReady, h]
      rw [bargePortWrite_run harg hup hlen, if_pos hno]
      rfl
    · rw [bargePortWrite_run harg hup hlen, if_neg (by simp [s.isReady_iff, hready, htrip]), if_pos (.inl hbusy)]
      rfl
    · rw [bargePortWrite_run harg hup hlen, if_neg (by simp [s.isReady_iff, hready, htrip]), if_neg (by simp [hbusy, hq])]
  · refine ⟨fun harg hr hm hn hres hsize => ?_, fun harg hm => ?_, fun harg hr hm hn => ?_, fun harg hm => ?_⟩
    · rw [hostBasinBase_writes harg, State.dcr_reaches hlk hr, hm, State.basinDcr_sets hn hres hsize]
    · rw [hostBasinBase_writes harg, State.dcr_idle hlk (State.basinDcr_other hm)]
    · rw [hostBasinHead_writes harg, State.dcr_reaches hlk hr, hm, State.headDcr_sets hn]
    · rw [hostBasinHead_writes harg, State.dcr_idle hlk (State.headDcr_other hm)]

end Sys2Proof
end

section
/-! PROOF of O48. Power-good and the steps of start-up (R485, R486). -/

namespace Sys2Proof.Machine

open Sys2Proof

/-! ## Memory whose bytes are kept by their keys -/

/-- A byte of memory cleared outside some keys: as before at those, and unlisted elsewhere. -/
theorem memGet_filter {m : List Host.Cell} (h : Memory.wf m) (p : Nat → Bool) (k : Nat) :
    memGet (m.filter (fun c => p c.1)) k = if p k then memGet m k else Memory.unlisted := by
  induction m with
  | nil => simp
  | cons e r ih =>
    obtain ⟨a, b⟩ := e
    have ih := ih (memWf_tail h)
    have hbelow (hlt : k < a) : memGet (r.filter (fun c => p c.1)) k = Memory.unlisted :=
      memGet_below _ k (fun c hc => Nat.lt_trans hlt (memWf_head_lt h c (List.mem_filter.1 hc).1))
    rcases Nat.lt_trichotomy k a with hlt | rfl | hgt
    · cases hp : p a <;> simp [memGet, hp, hlt, Nat.ne_of_gt hlt, hbelow hlt]
    · cases hp : p k
      · rw [hp] at ih
        simpa [List.filter_cons, hp] using ih
      · simp [memGet, hp]
    · cases hp : p a <;> simp [memGet, hp, Nat.not_lt.2 (Nat.le_of_lt hgt), Nat.ne_of_lt hgt, ih]

/-! ## Images and power-good (R485 step 1, R486) -/

theorem FwSig.check_eq_zero_iff (x : FwSig) (v : Nat) :
    x.check v = 0 ↔ x.ecdsa = some x.digest ∧ x.lms = some x.digest ∧ Config.fwMinSec ≤ v := by
  simp only [FwSig.check]
  split
  · next hsig =>
    refine iff_of_false (by decide) (fun ⟨he, hl, _⟩ => ?_)
    simp [he, hl] at hsig
  · next hsig =>
    have hboth : x.ecdsa = some x.digest ∧ x.lms = some x.digest := by simpa using hsig
    split
    · next hlow => exact iff_of_false (by decide) (fun h => Nat.not_le.2 hlow h.2.2)
    · next hhigh => exact iff_of_true rfl ⟨hboth.1, hboth.2, Nat.not_lt.1 hhigh⟩

section

variable {s : State}

theorem powerGood_run (harg : s.arg = .powerGood) : exec .powerGood s = .next (
    if s.ctl.fwSig.check s.ctl.fwSecver = 0 then s.powerOn.startNext 2
    else if s.ctl.fwOtherSig.check s.ctl.fwOtherSec = 0 then (s.powerOn.onCtl Ctl.swapSlots).startNext 2
    else s.powerOn.startFail 1) := by
  change execPowerGood s = _
  simp only [execPowerGood, harg]
  rw [apply_ite Host.Outcome.next, apply_ite Host.Outcome.next]
  rfl

/-- What power-good leaves, whichever image starts: the device's own memories and part, and nothing that runs. -/
theorem powerGood_resets (harg : s.arg = .powerGood) : ∃ c, exec .powerGood s = .next { s.powerOn with ctl := c } := by
  rw [powerGood_run harg]
  split
  · exact ⟨_, rfl⟩
  · split
    · exact ⟨_, rfl⟩
    · exact ⟨_, rfl⟩

/-! ## Steps 2 to 5 (R485) -/

theorem calibrate_fails {node fail : Nat} (harg : s.arg = .calibrate node fail) (hstep : s.starting 2 = true)
    (hfail : fail = 2 ∨ fail = 3 ∨ fail = 5) : exec .calibrate s = .next (s.startFail fail) := by
  change execCalibrate s = _
  rcases hfail with rfl | rfl | rfl <;> simp [execCalibrate, harg, hstep]

theorem calibrate_passes {node : Nat} (harg : s.arg = .calibrate node 0) (hstep : s.starting 2 = true) :
    exec .calibrate s = .next (({ s with node := node % 2 ^ 21 } : State).startNext 3) := by
  change execCalibrate s = _
  simp [execCalibrate, harg, hstep]

/-- The keys of companion memory, which is not the device's. -/
def companionKey (k : Nat) : Bool := (Loc.comp 0).key ≤ k && k < (Loc.comp 0).key + 2 ^ 52

theorem companionKey_comp {a : Nat} (h : a < 2 ^ 52) : companionKey (Loc.comp a).key = true := by
  simp only [companionKey, Bool.and_eq_true, decide_eq_true_iff]
  exact ⟨Nat.add_le_add_left (Nat.zero_le a) _, Nat.add_lt_add_left h _⟩

theorem not_companionKey {k : Nat} (h : k < (Loc.comp 0).key ∨ (Loc.comp (2 ^ 52)).key ≤ k) : companionKey k = false := by
  rcases h with h | h
  · simp [companionKey, Nat.not_le.2 h]
  · have hpast : ¬ k < (Loc.comp 0).key + 2 ^ 52 := Nat.not_lt.2 h
    simp only [companionKey, hpast, decide_false, Bool.and_false]

theorem memoryZeroInit_run {ok : Bool} (harg : s.arg = .memoryZeroInit ok) (hstep : s.starting 3 = true) : exec .memoryZeroInit s = .next (
    if ok then ({ s with mem := s.mem.filter (fun c => companionKey c.1), poison := [] } : State).startNext 4 else s.startFail 4) := by
  change execMemoryZeroInit s = _
  cases ok <;> simp [execMemoryZeroInit, harg, hstep, companionKey]

theorem elementSelfTest_run {l : List ElemId} (harg : s.arg = .elementSelfTest l) (hstep : s.starting 4 = true) :
    exec .elementSelfTest s = .next ((l.foldl State.selfTest s).startNext 5) := by
  change execElementSelfTest s = _
  simp [execElementSelfTest, harg, hstep]

/-- The first failing element of a tile stands on its spare. -/
theorem State.selfTest_spares {e : ElemId} (hcompute : isCompute e.tile.tile = true) (helem : e.elem < 16) (htile : e.tile.tile < 16)
    (hhive : e.tile.hive < 64) (hdie : e.tile.die < s.part.dies) (hspare : (s.tile e.tile).spare = none) :
    s.selfTest e = s.setTile e.tile { s.tile e.tile with spare := some e.elem } := by
  simp [State.selfTest, hcompute, Nat.not_le.2 helem, Nat.not_le.2 htile, Nat.not_le.2 hhive, Nat.not_le.2 hdie, hspare]

/-- The hives of a table that start-up has fenced for their elements are announced. -/
def State.announceSpoiled (s : State) (e : HiveId × Nat) : State := if e.2 = 1 && s.spoiled e.1 then s.hiveEvent e.1 1 1 2 else s

theorem State.announceSpoiled_fenced {h : HiveId} (hspoiled : s.spoiled h = true) : s.announceSpoiled (h, 1) = s.hiveEvent h 1 1 2 := by
  simp [State.announceSpoiled, hspoiled]

/-- The device is ready, and CLK starts. -/
def State.clockStarted (s : State) : State := { s with readyAt := some s.cycle }

theorem ready_run (harg : s.arg = .ready) (hstep : s.starting 5 = true) :
    exec .ready s = .next (s.hiveSt.foldl State.announceSpoiled s.clockStarted) := by
  change execReady s = _
  unfold execReady
  split
  · rw [if_pos hstep]
    rfl
  · next hnot => exact absurd harg hnot

end

end Sys2Proof.Machine

namespace Sys2Proof
open Machine

/-- Settles O48: power-good by the image that passes, then each step by whether it succeeds. -/
theorem startUp : Obligations.StartUp := by
  intro s
  refine ⟨FwSig.check_eq_zero_iff, fun harg => ?_, fun node fail harg hstep => ⟨calibrate_fails harg hstep, fun hok => ?_⟩,
    fun ok harg hstep => ⟨fun hok => ?_, fun hok hwf => ?_⟩,
    fun l harg hstep => ⟨fun hl => ?_, fun e hl hcompute helem htile hhive hdie hspare => ?_⟩,
    fun harg hstep => ⟨fun hquiet => ?_, fun h hone hspoiled => ?_⟩⟩
  · obtain ⟨c, hrun⟩ := powerGood_resets harg
    refine ⟨_, hrun, rfl, rfl, rfl, rfl, rfl, rfl, ?_⟩
    have hc := hrun.symm.trans (powerGood_run harg)
    refine ⟨fun hfirst => ?_, fun hfirst hother => ?_, fun hfirst hother => ?_⟩
    · rw [if_pos hfirst] at hc
      injection hc with hc
      obtain rfl := congrArg State.ctl hc
      exact ⟨rfl, rfl, rfl, rfl⟩
    · rw [if_neg hfirst, if_pos hother] at hc
      injection hc with hc
      obtain rfl := congrArg State.ctl hc
      exact ⟨rfl, rfl, rfl, rfl⟩
    · rw [if_neg hfirst, if_neg hother] at hc
      injection hc with hc
      obtain rfl := congrArg State.ctl hc
      exact ⟨rfl, rfl⟩
  · subst hok
    rw [calibrate_passes harg hstep]
    rfl
  · rw [memoryZeroInit_run harg hstep, hok]
    rfl
  · refine ⟨_, by rw [memoryZeroInit_run harg hstep, if_pos hok], rfl, rfl, fun l hl => ?_, fun a ha => ?_⟩
    · have hno : companionKey l.key = false := not_companionKey hl
      simp [State.bytes, memRead, State.startNext, memGet_filter hwf, hno, Memory.unlisted]
    · simp [State.bytes, memRead, State.startNext, memGet_filter hwf, companionKey_comp ha]
  · rw [elementSelfTest_run harg hstep, hl]
    rfl
  · refine ⟨_, elementSelfTest_run harg hstep, ?_⟩
    rw [hl, List.foldl_cons, State.selfTest_spares hcompute helem htile hhive hdie hspare]
    exact ⟨rfl, rfl, congrArg Tile.spare (s.tile_setTile e.tile _), rfl⟩
  · have hidle : ∀ e ∈ s.hiveSt, s.clockStarted.announceSpoiled e = s.clockStarted := by
      intro e he
      refine if_neg ?_
      rcases hquiet e he with h | h
      · simp [h]
      · simp [show s.clockStarted.spoiled e.1 = false from h]
    rw [ready_run harg hstep, foldl_idle hidle]
    rfl
  · refine (ready_run harg hstep).trans (congrArg Host.Outcome.next ?_)
    calc s.hiveSt.foldl State.announceSpoiled s.clockStarted = s.clockStarted.announceSpoiled (h, 1) := by rw [hone]; rfl
      _ = s.clockStarted.hiveEvent h 1 1 2 := State.announceSpoiled_fenced hspoiled

end Sys2Proof
end

section
/-! PROOF of O53. Power and temperature (R492 to R494), error counts, links and roles (R421, R466, R481), and the map (R495). -/

namespace Sys2Proof.Machine

open Sys2Proof

/-! ## DCR_PWR_NOW (R493) -/

theorem getLsbD_fld {v lo i : Nat} (hi : i < 64) : (fld v lo).getLsbD i = (decide (lo ≤ i) && v.testBit (i - lo)) := by
  rw [fld, BitVec.getLsbD_ofNat, Nat.testBit_mul_two_pow]
  simp [hi]

theorem testBit_bitsN (w : Word) (hi lo i : Nat) : (bitsN w hi lo).testBit i = (decide (i < hi - lo + 1) && w.getLsbD (i + lo)) := by
  rw [bitsN, Nat.testBit_mod_two_pow, Nat.testBit_div_two_pow, BitVec.testBit_toNat]

/-- DCR_PWR_NOW with a throttle level. -/
def withLevel (w : Word) (n : Nat) : Word := (w &&& ~~~(fld 255 32)) ||| fld n 32

theorem withLevel_level (w : Word) {n : Nat} (hn : n < 256) : bitsN (withLevel w n) 39 32 = n := by
  refine Nat.eq_of_testBit_eq (fun i => ?_)
  rw [testBit_bitsN]
  by_cases hi : i < 8
  · have hmask : Nat.testBit (2 ^ 8 - 1) i = true := by rw [Nat.testBit_two_pow_sub_one]; exact decide_eq_true hi
    have h64 : i + 32 < 64 := by omega
    simp only [withLevel, BitVec.getLsbD_or, BitVec.getLsbD_and, BitVec.getLsbD_not, getLsbD_fld h64]
    simp [hi, h64, show Nat.testBit 255 i = true from hmask]
  · have hhigh : n.testBit i = false := Nat.testBit_lt_two_pow (Nat.lt_of_lt_of_le hn (Nat.pow_le_pow_right (n := 2) (by omega) (Nat.not_lt.1 hi)))
    simp [hi, hhigh]

/-- The fields below the level are as they were. -/
theorem withLevel_below (w : Word) (n : Nat) {hi lo : Nat} (hhi : hi < 32) (hlo : lo ≤ hi) :
    bitsN (withLevel w n) hi lo = bitsN w hi lo := by
  refine Nat.eq_of_testBit_eq (fun i => ?_)
  rw [testBit_bitsN, testBit_bitsN]
  by_cases h : i < hi - lo + 1
  · have h64 : i + lo < 64 := by omega
    have h32 : ¬ 32 ≤ i + lo := by omega
    simp only [withLevel, BitVec.getLsbD_or, BitVec.getLsbD_and, BitVec.getLsbD_not, getLsbD_fld h64]
    simp [h32, h64]
  · simp [h]

section

variable {s : State}

/-- The state once the throttle level is drawn: it is 0 only where nothing throttles. -/
theorem State.throttle_spec (s : State) : ∃ n, n < 256 ∧ (s.ctl.pwrLimiting = true ∨ s.ctl.throttling = true → n ≠ 0) ∧
    s.throttle = s.draw.onCtl (fun c => { c with pwrNow := withLevel c.pwrNow n }) := by
  refine ⟨_, ?_, ?_, rfl⟩
  · split <;> omega
  · intro h
    have hon : (s.ctl.pwrLimiting || s.ctl.throttling) = true := by simpa using h
    rw [if_pos hon]
    omega

/-! ## The measured power (R493) -/

theorem le_foldl_max (l : List Nat) (a : Nat) : ∀ x ∈ a :: l, x ≤ l.foldl max a := by
  induction l generalizing a with
  | nil => simp
  | cons b r ih =>
    intro x hx
    have hmax : max a b ≤ r.foldl max (max a b) := ih (max a b) _ (by simp)
    rcases List.mem_cons.1 hx with rfl | hx
    · exact le_trans (le_max_left x b) hmax
    · rcases List.mem_cons.1 hx with rfl | hx
      · exact le_trans (le_max_right a x) hmax
      · exact ih (max a b) x (List.mem_cons_of_mem _ hx)

theorem foldl_max_le {l : List Nat} {a n : Nat} (ha : a ≤ n) (h : ∀ x ∈ l, x ≤ n) : l.foldl max a ≤ n := by
  induction l generalizing a with
  | nil => exact ha
  | cons b r ih => exact ih (max_le ha (h b (by simp))) (fun x hx => h x (List.mem_cons_of_mem _ hx))

/-- The averages of the last second, the new one among them. -/
def State.powerLog (s : State) (avg : Nat) : List (Nat × Nat) := s.ctl.pwrLog.filter (fun e => s.cycle < e.1 + second) ++ [(s.cycle, avg)]

/-- Their peak, a free value that is no less than any of them. -/
def State.powerPeak (s : State) (avg : Nat) : Nat :=
  max (((s.powerLog avg).map Prod.snd).foldl max 0) (Config.freeNat s.free % 2 ^ 16)

theorem State.le_powerPeak {avg : Nat} {e : Nat × Nat} (he : e ∈ s.powerLog avg) : e.2 ≤ s.powerPeak avg :=
  le_trans (le_foldl_max _ 0 e.2 (List.mem_cons_of_mem _ (List.mem_map_of_mem he))) (le_max_left _ _)

theorem State.powerPeak_lt {avg : Nat} (havg : avg ≤ 0xFFFF) (hlog : ∀ e ∈ s.ctl.pwrLog, e.2 ≤ 0xFFFF) : s.powerPeak avg < 2 ^ 16 := by
  have hall : ((s.powerLog avg).map Prod.snd).foldl max 0 ≤ 0xFFFF := by
    refine foldl_max_le (Nat.zero_le _) (fun x hx => ?_)
    obtain ⟨e, he, rfl⟩ := List.mem_map.1 hx
    rcases List.mem_append.1 he with h | h
    · exact hlog e (List.mem_filter.1 h).1
    · rw [List.mem_singleton.1 h]
      exact havg
  have hfree : Config.freeNat s.free % 2 ^ 16 < 2 ^ 16 := Nat.mod_lt _ (by decide)
  exact max_lt (by omega) hfree

/-- The measured average and the peak are in their fields of DCR_PWR_NOW, whatever the throttle level. -/
theorem powerNow_fields {avg peak n : Nat} (havg : avg < 2 ^ 16) (hpeak : peak < 2 ^ 16) :
    let w := withLevel (fld avg 0 ||| fld peak 16) n
    bitsN w 15 0 = avg ∧ bitsN w 31 16 = peak := by
  have h0 : (fld avg 0).toNat = avg := by simp only [fld, BitVec.toNat_ofNat]; omega
  have h1 : (fld avg 0 ||| fld peak 16).toNat = avg + peak * 2 ^ 16 := by
    rw [or_fld_toNat (by omega) (by omega), h0]
  refine ⟨?_, ?_⟩
  · rw [withLevel_below _ _ (by omega) (by omega), bitsN, h1]
    omega
  · rw [withLevel_below _ _ (by omega) (by omega), bitsN, h1]
    omega

theorem capReached_run {now : Nat} (harg : s.arg = .capReached now) : exec .capReached s = .next
    (s.draw.onCtl (fun c =>
      { c with pwrNow := fld (min now 0xFFFF) 0 ||| fld (s.powerPeak (min now 0xFFFF)) 16, pwrLog := s.powerLog (min now 0xFFFF),
               pwrLimiting := decide (s.ctl.pwrCap ≤ min now 0xFFFF),
               pwrHits := c.pwrHits ||| (if decide (s.ctl.pwrCap ≤ min now 0xFFFF) then 1 else 0) })).throttle := by
  change execCapReached s = _
  unfold execCapReached
  split
  · next n hn =>
    obtain rfl : n = now := by rw [hn] at harg; injection harg
    rfl
  · next hnot => exact absurd harg (hnot now)


/-- What a measured average leaves: limiting, the average and the peak, and a level where it limits. -/
theorem capReached_spec {now : Nat} (harg : s.arg = .capReached now) (hlog : ∀ e ∈ s.ctl.pwrLog, e.2 ≤ 0xFFFF) :
    ∃ u, exec .capReached s = .next u ∧ u.mem = s.mem ∧ u.ctl.pwrLimiting = decide (s.ctl.pwrCap ≤ min now 0xFFFF) ∧
      bitsN u.ctl.pwrNow 15 0 = min now 0xFFFF ∧ bitsN u.ctl.pwrNow 31 16 = s.powerPeak (min now 0xFFFF) ∧
      (u.ctl.pwrLimiting = true → bitsN u.ctl.pwrNow 39 32 ≠ 0 ∧ u.ctl.pwrHits.getLsbD 0 = true) := by
  obtain ⟨n, hn, hon, hlevel⟩ := State.throttle_spec (s.draw.onCtl (fun c =>
    { c with pwrNow := fld (min now 0xFFFF) 0 ||| fld (s.powerPeak (min now 0xFFFF)) 16, pwrLog := s.powerLog (min now 0xFFFF),
             pwrLimiting := decide (s.ctl.pwrCap ≤ min now 0xFFFF),
             pwrHits := c.pwrHits ||| (if decide (s.ctl.pwrCap ≤ min now 0xFFFF) then 1 else 0) }))
  have hfields := powerNow_fields (n := n) (show min now 0xFFFF < 2 ^ 16 by omega)
    (State.powerPeak_lt (Nat.min_le_right now 0xFFFF) hlog)
  refine ⟨_, (capReached_run harg).trans (congrArg Host.Outcome.next hlevel), rfl, rfl, hfields.1, hfields.2, fun hlimit => ⟨?_, ?_⟩⟩
  · exact (withLevel_level _ hn).trans_ne (hon (.inl hlimit))
  · have hhot : s.ctl.pwrCap ≤ min now 0xFFFF := of_decide_eq_true hlimit
    simp [hhot]

/-! ## Temperature (R494) -/

/-- The state with a measured temperature, before the throttle level is drawn. -/
def State.warmed (s : State) (die t : Nat) : State :=
  let c := s.ctl.heat die t
  let hot := decide (c.limit < c.hottest)
  { s with ctl := { c with throttling := hot, pwrHits := c.pwrHits ||| (if hot then 4 else 0) } }

theorem State.heated_eq (s : State) (die t : Nat) : s.heated die t = (s.warmed die t).throttle := rfl

/-- A measured temperature changes its own register and nothing else of the device's. -/
theorem Ctl.heat_keeps (c : Ctl) (die t : Nat) : (c.heat die t).limit = c.limit ∧ (c.heat die t).pwrHits = c.pwrHits ∧
    (c.heat die t).trip = c.trip ∧ (c.heat die t).down = c.down := by
  simp only [Ctl.heat]
  split <;> exact ⟨rfl, rfl, rfl, rfl⟩

theorem Ctl.heat_sets (c : Ctl) (die t : Nat) : (die = 0 → (c.heat die t).temp0 = min t 255) ∧ (die = 1 → (c.heat die t).temp1 = min t 255) ∧
    (2 ≤ die → (c.heat die t).hbmTemp = min t 255) := by
  refine ⟨fun h => by rw [h]; rfl, fun h => by rw [h]; rfl, fun h => ?_⟩
  obtain ⟨k, rfl⟩ := Nat.exists_eq_add_of_le' h
  rfl

/-- A measured temperature changes the device's registers and the drawn values, and nothing else. -/
theorem State.heated_keeps (s : State) (die t : Nat) : ∃ c, s.heated die t = { s.draw with ctl := c } ∧
    c.trip = s.ctl.trip ∧ c.down = s.ctl.down ∧ c.kills = s.ctl.kills := by
  obtain ⟨n, -, -, hlevel⟩ := (s.warmed die t).throttle_spec
  refine ⟨_, (s.heated_eq die t).trans hlevel, (s.ctl.heat_keeps die t).2.2.1, (s.ctl.heat_keeps die t).2.2.2, ?_⟩
  show (s.ctl.heat die t).kills = s.ctl.kills
  simp only [Ctl.heat]
  split <;> rfl

theorem State.heated_spec (s : State) (die t : Nat) : (s.heated die t).ctl.throttling = decide (s.ctl.limit < (s.ctl.heat die t).hottest) ∧
    (die = 0 → (s.heated die t).ctl.temp0 = min t 255) ∧ (die = 1 → (s.heated die t).ctl.temp1 = min t 255) ∧
    (2 ≤ die → (s.heated die t).ctl.hbmTemp = min t 255) ∧
    ((s.heated die t).ctl.throttling = true →
      (s.heated die t).ctl.pwrHits = s.ctl.pwrHits ||| 4 ∧ bitsN (s.heated die t).ctl.pwrNow 39 32 ≠ 0) ∧
    ((s.heated die t).ctl.throttling = false → (s.heated die t).ctl.pwrHits = s.ctl.pwrHits) := by
  obtain ⟨hlimit, hhits, -, -⟩ := s.ctl.heat_keeps die t
  obtain ⟨h0, h1, h2⟩ := s.ctl.heat_sets die t
  obtain ⟨n, hn, hon, hlevel⟩ := (s.warmed die t).throttle_spec
  have hpwr : (s.warmed die t).ctl.pwrHits = s.ctl.pwrHits ||| (if (s.warmed die t).ctl.throttling then 4 else 0) := by
    simp only [State.warmed, hhits]
  rw [s.heated_eq die t, hlevel]
  refine ⟨?_, h0, h1, h2, fun hhot => ⟨?_, (withLevel_level _ hn).trans_ne (hon (.inr hhot))⟩, fun hcool => ?_⟩
  · show decide ((s.ctl.heat die t).limit < (s.ctl.heat die t).hottest) = _
    rw [hlimit]
  · exact hpwr.trans (by rw [show (s.warmed die t).ctl.throttling = true from hhot]; rfl)
  · exact hpwr.trans (by rw [show (s.warmed die t).ctl.throttling = false from hcool]; simp)

theorem thermalCrossing_run {die t : Nat} (harg : s.arg = .thermalCrossing die t) (hdie : ¬ (die = 1 ∧ s.part.dies = 1)) :
    exec .thermalCrossing s = .next (
      if die ≤ 1 ∧ 110 ≤ t then s.trip_ die t
      else if (s.heated die t).ctl.throttling = s.ctl.throttling then s.heated die t
      else (s.heated die t).eventOwner 0 0x013 [(s.heated die t).thermWord]) := by
  change execThermalCrossing s = _
  have hno : (die = 1 && s.part.dies = 1) = false := by simpa using hdie
  simp only [execThermalCrossing, harg, hno, Bool.false_eq_true, if_false, Bool.and_eq_true, decide_eq_true_eq]
  split <;> rfl

theorem thermalTrip_run {die t : Nat} (harg : s.arg = .thermalTrip die t) (hdie : die < s.part.dies) :
    exec .thermalTrip s = .next (if t < 110 then s else s.trip_ die t) := by
  change execThermalTrip s = _
  by_cases h : t < 110 <;> simp [execThermalTrip, harg, h, Nat.not_le.2 hdie]

/-! ## A trip (R494) -/

/-- The state of a device that trips, before its jobs are killed. -/
def State.tripped (s : State) (die t : Nat) : State :=
  let s := (s.heated die t).onCtl (fun c => { c with trip := true })
  s.eventOwner 0 0x013 [s.thermWord]

theorem State.trip_again {die t : Nat} (h : s.ctl.trip = true) : s.trip_ die t = s.heated die t := by
  obtain ⟨c, hc, htrip, -, -⟩ := s.heated_keeps die t
  have hon : (s.heated die t).ctl.trip = true := by rw [hc]; exact htrip.trans h
  simp only [State.trip_, hon, if_true]

/-- What a trip leaves of the device before its jobs are killed. -/
theorem State.tripped_keeps (s : State) (die t : Nat) : (s.tripped die t).ctl.trip = true ∧ (s.tripped die t).jobs = s.jobs ∧
    (s.tripped die t).node = s.node ∧ (s.tripped die t).part = s.part ∧ (s.tripped die t).stopped = s.stopped ∧
    (s.tripped die t).ctl.kills = s.ctl.kills ∧ (s.tripped die t).pending = s.pending ∧ (s.tripped die t).ctl.down = s.ctl.down := by
  obtain ⟨c, hc, -, hdown, hkills⟩ := s.heated_keeps die t
  obtain ⟨m, p, b, h, hev⟩ := ((s.heated die t).onCtl (fun c => { c with trip := true })).eventOwner_keeps 0 0x013
    [((s.heated die t).onCtl (fun c => { c with trip := true })).thermWord]
  have hu : s.tripped die t = _ := hev
  rw [hu, hc]
  exact ⟨rfl, rfl, rfl, rfl, rfl, hkills, rfl, hdown⟩

theorem State.trip_first {die t : Nat} (hlk : s.lkDown 0 = false) (h : s.ctl.trip = false) :
    s.trip_ die t = ((s.jobs.map Prod.fst).foldl State.killAll (s.tripped die t)).halt := by
  obtain ⟨c, hc, htrip, -, -⟩ := s.heated_keeps die t
  have hoff : (s.heated die t).ctl.trip = false := by rw [hc]; exact htrip.trans h
  obtain ⟨-, hjobs, -, -, -, -, hpend, hdown⟩ := s.tripped_keeps die t
  have hfree : (s.tripped die t).lkDown 0 = false := by
    simp only [State.lkDown, State.restarting, hpend, hdown]
    exact hlk
  have hby := State.byLock_free hfree (fun s => ((s.jobs.map Prod.fst).foldl State.killAll s).halt)
  rw [hjobs] at hby
  simp only [State.trip_, hoff, Bool.false_eq_true, if_false]
  exact hby

/-- A kill of a trip leaves the trip noted. -/
theorem State.killNow_trip (s : State) (sid : Nat) : (s.killNow sid .killed).ctl.trip = s.ctl.trip := by
  have posts (l : List Nat) (u : State) : (l.foldl (fun (s : State) d => s.post .none (.dieKill d sid .killed)) u).ctl.trip = u.ctl.trip :=
    foldl_keeps (fun s : State => s.ctl.trip) (fun v d => by rw [State.post_ctl]) l u
  simp only [State.killNow]
  split
  · rfl
  · rw [posts]
    simp only [State.setJob_ctl, reduceCtorEq, if_false]
    split <;> rfl

theorem State.ctl_of_besideSends {u : State} (h : u.besideSends = s.besideSends) : u.ctl = s.ctl := by
  have hctl : u.besideSends.ctl = s.besideSends.ctl := by rw [h]
  exact hctl

theorem State.killAll_trip (s : State) (sid : Nat) : (s.killAll sid).ctl.trip = s.ctl.trip := by
  have tells (l : List Nat) : (l.foldl (fun (s : State) n => s.toNet n (some sid) (.spanKill sid .killed)) s).ctl.trip = s.ctl.trip :=
    foldl_keeps (fun s : State => s.ctl.trip) (fun u n => by rw [State.ctl_of_besideSends (u.toNet_besideSends _ _ _)]) l s
  simp only [State.killAll]
  split
  · rfl
  · rw [State.killNow_trip, tells]

theorem State.halt_trip (s : State) : s.halt.ctl.trip = s.ctl.trip := by
  simp only [State.halt]
  split <;> rfl

theorem State.trip_trips {die t : Nat} (hlk : s.lkDown 0 = false) : (s.trip_ die t).ctl.trip = true := by
  cases h : s.ctl.trip with
  | true =>
    obtain ⟨c, hc, htrip, -, -⟩ := s.heated_keeps die t
    rw [State.trip_again h, hc]
    exact htrip.trans h
  | false =>
    rw [State.trip_first hlk h, State.halt_trip, foldl_keeps (fun s : State => s.ctl.trip) State.killAll_trip]
    exact (s.tripped_keeps die t).1

/-- With no job left a trip stops the device. -/
theorem State.trip_rests {die t : Nat} (hlk : s.lkDown 0 = false) (h : s.ctl.trip = false) (hjobs : s.jobs = []) :
    (s.trip_ die t).stopped = true ∧ (s.trip_ die t).readyAt = none := by
  obtain ⟨htrip, hsame, -⟩ := s.tripped_keeps die t
  have hhalt : s.trip_ die t = { s.tripped die t with readyAt := none, stopped := true } := by
    rw [State.trip_first hlk h, hjobs]
    exact if_pos (by simp [htrip, hsame, hjobs])
  rw [hhalt]
  exact ⟨rfl, rfl⟩

/-- The kill of a job that runs on this device alone, by a trip. -/
theorem State.killAll_alone {sid : Nat} (hhas : thas s.jobs sid = true) (hrun : (s.job sid).state = .running)
    (hlead : (s.job sid).span.lead = s.node) (hothers : (s.job sid).others s.node = []) :
    s.killAll sid = (List.range s.part.dies).foldl (fun s d => s.post .none (.dieKill d sid .killed))
      (s.setJob sid { s.job sid with state := .killed .killed, killDies := List.range s.part.dies }) := by
  simp [State.killAll, Job.mortal_of_running hrun, hlead, hothers, State.killNow, hhas, hrun]

theorem State.trip_kills {die t sid : Nat} {j : Job} (hlk : s.lkDown 0 = false) (h : s.ctl.trip = false) (hjobs : s.jobs = [(sid, j)])
    (hrun : j.state = .running) (hlead : j.span.lead = s.node) (hothers : j.others s.node = []) :
    ((s.trip_ die t).job sid).state = .killed .killed ∧ (s.trip_ die t).ctl.kills = s.ctl.kills ∧ (s.trip_ die t).stopped = s.stopped := by
  obtain ⟨-, hsame, hnode, -, hstop, hkills, -⟩ := s.tripped_keeps die t
  generalize hv : s.tripped die t = v at hsame hnode hstop hkills
  have hjob : v.job sid = j := by simp [State.job, hsame, hjobs, tget]
  have posts (l : List Nat) (u : State) : ∃ q,
      l.foldl (fun (s : State) d => s.post .none (.dieKill d sid .killed)) u = { u with pending := q } := by
    induction l generalizing u with
    | nil => exact ⟨u.pending, rfl⟩
    | cons d r ih => exact ih _
  obtain ⟨q, hq⟩ := posts (List.range v.part.dies) (v.setJob sid { v.job sid with state := .killed .killed, killDies := List.range v.part.dies })
  have hall : s.trip_ die t =
      { v.setJob sid { v.job sid with state := .killed .killed, killDies := List.range v.part.dies } with pending := q } := by
    rw [State.trip_first hlk h, hjobs, hv, List.map_cons, List.map_nil, List.foldl_cons, List.foldl_nil,
      State.killAll_alone (by simp [thas, hsame, hjobs]) (by rw [hjob]; exact hrun) (by rw [hjob, hnode]; exact hlead)
        (by rw [hjob, hnode]; exact hothers), hq]
    exact if_neg (by simp [hsame, hjobs, tput])
  rw [hall]
  exact ⟨congrArg Job.state (v.job_setJob sid _), hkills, hstop⟩

end

end Sys2Proof.Machine
end

section
/-! PROOF of O53, its second part: the registers that masters write, and the map (R421, R466, R476, R481, R495). -/

namespace Sys2Proof.Machine

open Sys2Proof

section

variable {s : State} {m p : Nat} {v : Word}

/-! ## Registers that the owner writes (R421, R466, R481, R492 to R494) -/

theorem powerEventClear_writes (harg : s.arg = .powerEventClear m p v) :
    exec .powerEventClear s = .next (s.byOwner m p (fun s => s.pwrEventDcr v)) := by
  change execPowerEventClear s = _
  simp only [execPowerEventClear, harg]

theorem thermalLimit_writes (harg : s.arg = .thermalLimit m p v) :
    exec .thermalLimit s = .next (s.byOwner m p (fun s => s.thermDcr v)) := by
  change execThermalLimit s = _
  simp only [execThermalLimit, harg]

theorem rasClear_writes (harg : s.arg = .rasClear m p v) : exec .rasClear s = .next (s.byOwner m p (fun s => s.rasDcr v)) := by
  change execRasClear s = _
  simp only [execRasClear, harg]

theorem linkOff_writes {n : Nat} {off : Bool} (harg : s.arg = .linkOff m p n off) :
    exec .linkOff s = .next (s.byOwner m p (fun s => s.linkDcr n off)) := by
  change execLinkOff s = _
  simp only [execLinkOff, harg]

theorem State.pwrEventDcr_clears (h1 : bitsN v 15 5 = 0) (h2 : bitsN v 63 32 = 0) :
    s.pwrEventDcr v = s.onCtl (fun c => { c with pwrHits := c.pwrHits &&& ~~~(v.extractLsb' 1 4) }) := by
  rw [State.pwrEventDcr, if_neg (by simp [h1, h2])]

theorem State.thermDcr_sets (hres : bitsN v 63 34 = 0) (hlo : 60 ≤ bitsN v 31 24) (hhi : bitsN v 31 24 ≤ 105) :
    s.thermDcr v = s.onCtl (fun c => { c with limit := bitsN v 31 24 }) := by
  rw [State.thermDcr, if_neg (by simp [hres, hlo, hhi])]

theorem State.linkDcr_sets {n : Nat} {off : Bool} (hn : n < 25) (hthere : linkAbsent s.part n = false)
    (hstays : off = false ∨ s.linkUp n = false) : s.linkDcr n off =
      s.setLink n { s.link n with off := off, st := if off = true ∧ (s.link n).st = 1 then 0 else (s.link n).st } := by
  have hup : (off && s.linkUp n) = false := by rcases hstays with h | h <;> simp [h]
  rw [State.linkDcr, if_neg (by simp [hthere, show ¬ 24 < n by omega])]
  simp only [hup, Bool.false_eq_true, if_false, Bool.and_eq_true, decide_eq_true_eq]

/-- A link that is UP goes DOWN with its off bit. -/
theorem State.linkDcr_downs {n : Nat} (hn : n < 25) (hthere : linkAbsent s.part n = false) (hup : s.linkUp n = true) :
    s.linkDcr n true = (s.setLink n { s.link n with off := true }).linkLost n := by
  have hst : (s.link n).st = 2 := by
    simp only [State.linkUp, Bool.and_eq_true, decide_eq_true_eq] at hup
    exact hup.1
  have hsame : { s.link n with off := true, st := if (true && decide ((s.link n).st = 1)) = true then 0 else (s.link n).st } =
      { s.link n with off := true } := by simp [hst]
  rw [State.linkDcr, if_neg (by simp [hthere, show ¬ 24 < n by omega])]
  simp only [hup, Bool.and_true, if_true, hsame]

/-! ## The map (R476, R481, R495) -/

theorem State.dcrReaches_companion : s.dcrReaches 1 p = true ↔ 2 ≤ s.ctl.phase ∧ s.linkUp 24 = true := by
  simp [State.dcrReaches]

theorem State.dcrReaches_early (h : s.ctl.phase < 2) : s.dcrReaches m p = false := by
  simp [State.dcrReaches, Nat.not_le.2 h]

/-- The owner reaches the registers. -/
theorem State.reaches_of_owns (h : s.owns m p = true) : s.dcrReaches m p = true := by
  simp only [State.owns, Bool.and_eq_true] at h
  exact h.1.1

theorem dcrWrite_run {r : DcrReq} (harg : s.arg = .dcrWrite r) : exec .dcrWrite s = .next
    (s.dcr r.master r.plane (fun s => if r.read then s.dcrAnswer r else if r.size = 8 then s.dcrWrite r else s)) := by
  change execDcrWrite s = _
  simp only [execDcrWrite, harg]

theorem dcrWrite_reads {r : DcrReq} (hlk : s.lkDown 0 = false) (harg : s.arg = .dcrWrite r) (hread : r.read = true)
    (hr : s.dcrReaches r.master r.plane = true) : exec .dcrWrite s = .next (s.dcrAnswer r) := by
  rw [dcrWrite_run harg, State.dcr_reaches hlk hr, if_pos hread]

theorem dcrWrite_writes {r : DcrReq} (hlk : s.lkDown 0 = false) (harg : s.arg = .dcrWrite r) (hread : r.read = false) (hsize : r.size = 8)
    (hr : s.dcrReaches r.master r.plane = true) : exec .dcrWrite s = .next (s.dcrWrite r) := by
  rw [dcrWrite_run harg, State.dcr_reaches hlk hr, if_neg (by simp [hread]), if_pos hsize]

/-- An access that does not reach the registers, or a write of another size, changes nothing. -/
theorem dcrWrite_ignored {r : DcrReq} (hlk : s.lkDown 0 = false) (harg : s.arg = .dcrWrite r)
    (h : s.dcrReaches r.master r.plane = false ∨ (r.read = false ∧ r.size ≠ 8)) : exec .dcrWrite s = .next s := by
  rw [dcrWrite_run harg]
  rcases h with h | ⟨hread, hsize⟩
  · rw [State.dcr_far hlk h]
  · rw [State.dcr_idle hlk (by rw [if_neg (by simp [hread]), if_neg hsize])]

theorem State.dcrRead_unaligned {off : Nat} (h : off % 8 ≠ 0) : s.dcrRead off = 0 := if_pos h

theorem State.dcrAnswer_value {r : DcrReq} (h : r.size = 8) : s.dcrAnswer r = { s with dcrOut := s.dcrOut ++ [(r, s.dcrRead r.off)] } := by
  rw [State.dcrAnswer, if_pos h]

theorem State.dcrAnswer_zero {r : DcrReq} (h : r.off % 8 ≠ 0 ∨ r.size ≠ 8) : s.dcrAnswer r = { s with dcrOut := s.dcrOut ++ [(r, 0)] } := by
  by_cases hsize : r.size = 8
  · rw [State.dcrAnswer_value hsize, State.dcrRead_unaligned (h.resolve_right (not_not.2 hsize))]
  · rw [State.dcrAnswer, if_neg hsize]

theorem State.dcrWrite_unaligned {r : DcrReq} (h : r.off % 8 ≠ 0) : s.dcrWrite r = s := by
  simp only [State.dcrWrite, if_pos h]

theorem State.dcrWrite_rack {r : DcrReq} (hoff : r.off = 0x020) (hown : s.owns r.master r.plane = true) : s.dcrWrite r = s.rackDcr r.val := by
  simp [State.dcrWrite, hoff, hown]

theorem State.dcrWrite_therm {r : DcrReq} (hoff : r.off = 0x200) (hown : s.owns r.master r.plane = true) : s.dcrWrite r = s.thermDcr r.val := by
  simp [State.dcrWrite, hoff, hown]

/-- DCR_STATUS is written by nobody. -/
theorem State.dcrWrite_status {r : DcrReq} (hoff : r.off = 0x010) : s.dcrWrite r = s := by
  simp [State.dcrWrite, hoff]

theorem State.rackDcr_sets (h1 : bitsN v 63 13 = 0) (h2 : bitsN v 7 7 = 0) : s.rackDcr v = s.onCtl (fun c => { c with rack := bitsN v 12 10 }) := by
  rw [State.rackDcr, if_neg (by simp [h1, h2])]

/-- A stopped device faults at every turn but those R494 leaves. -/
theorem State.run_stopped {t : Turn} (hstop : s.stopped = true) (hturn : t.whileStopped = false) : s.run t = .fault .deviceStopped := by
  rw [State.run, if_pos (by simp [hstop, hturn])]

end

end Sys2Proof.Machine

namespace Sys2Proof
open Machine

/-- Settles O53: power, temperature and the trip; then the other registers, by who writes them; then a stopped device. -/
theorem deviceRegisters : Obligations.DeviceRegisters := by
  refine ⟨fun s m p v hlk => ⟨fun harg => ⟨fun hout => ?_, fun hr hown hlo hhi => ?_, fun hr hother hlow => ?_⟩,
      fun harg => ⟨fun hother => ?_, fun hown h1 h2 => ?_⟩, fun harg => ⟨fun hother => ?_, fun hown hres hlo hhi => ?_⟩,
      fun now harg hlog => ?_, fun die t u harg hdie hcool hu => ?_, fun die t harg hdie hhot => ?_, fun die t harg hdie => ?_⟩,
    fun s m p hlk => ⟨fun v harg => ⟨fun hother => ?_, fun hown => ?_⟩,
      fun n off harg hn hthere => ⟨fun hother => ?_, fun hown hstays => ?_, fun hown hoff hup => ?_⟩,
      State.dcrReaches_companion, State.dcrReaches_early, fun r harg hm hp hread => ?_, fun r harg hm hp hread => ?_⟩,
    fun s t => State.run_stopped⟩
  · rw [powerCap_writes harg, State.dcr_idle hlk (State.capDcr_ignores (fun h => by obtain ⟨hfit, -⟩ := h; omega))]
  · rw [powerCap_writes harg, State.dcr_reaches hlk hr, State.capDcr_accepts ⟨⟨hlo, hhi⟩, .inl hown⟩]
    obtain ⟨q, b, c, d, hev⟩ := (s.capped m p v).eventOwner_keeps 0 0x012 [(s.capped m p v).pwrEventWord, v, (s.capped m p v).ctl.pwrNow]
    exact ⟨_, rfl, by rw [hev]; rfl, by rw [hev]; rfl⟩
  · have hno : ¬ s.mayCap m p v := by
      rintro ⟨-, hown | ⟨-, hbelow⟩⟩
      · simp [hother] at hown
      · omega
    rw [powerCap_writes harg, State.dcr_idle hlk (State.capDcr_ignores hno)]
  · rw [powerEventClear_writes harg, State.byOwner_other hlk hother]
  · rw [powerEventClear_writes harg, State.byOwner_owner hlk hown, State.pwrEventDcr_clears h1 h2]
    rfl
  · rw [thermalLimit_writes harg, State.byOwner_other hlk hother]
  · rw [thermalLimit_writes harg, State.byOwner_owner hlk hown, State.thermDcr_sets hres hlo hhi]
    rfl
  · obtain ⟨u, hrun, hmem, hlimit, havg, hpeak, hlevel⟩ := capReached_spec harg hlog
    refine ⟨u, hrun, hmem, hlimit, havg, ?_, fun e he hnew => ?_, hlevel⟩
    · rw [hpeak]
      exact State.le_powerPeak (e := (s.cycle, min now 0xFFFF)) (List.mem_append_right _ (List.mem_singleton.2 rfl))
    · rw [hpeak]
      exact State.le_powerPeak (List.mem_append_left _ (List.mem_filter.2 ⟨he, decide_eq_true hnew⟩))
  · subst hu
    obtain ⟨c, hc, -⟩ := s.heated_keeps die t
    obtain ⟨hthrottle, h0, h1, h2, hon, hoff⟩ := s.heated_spec die t
    have hrun := thermalCrossing_run harg hdie
    rw [if_neg (by omega)] at hrun
    refine ⟨by rw [hc]; rfl, hthrottle, h0, h1, h2, hon, hoff, fun hsame => ?_, fun hcross => ?_⟩
    · rw [hrun, if_pos hsame]
    · rw [hrun, if_neg hcross]
  · have hdies : s.part.dies ≤ 2 := by cases s.part <;> decide
    rw [thermalCrossing_run harg (by omega), if_pos ⟨by omega, hhot⟩]
  · refine ⟨fun hcool => ?_, fun hhot => ⟨?_, State.trip_trips hlk, ?_⟩, fun hhot => State.trip_rests hlk,
      fun sid j hhot => State.trip_kills hlk⟩
    · rw [thermalTrip_run harg hdie, if_pos hcool]
    · rw [thermalTrip_run harg hdie, if_neg (Nat.not_lt.2 hhot)]
    · simp [State.isReady, State.trip_trips hlk]
  · rw [rasClear_writes harg, State.byOwner_other hlk hother]
  · rw [rasClear_writes harg, State.byOwner_owner hlk hown]
    rfl
  · rw [linkOff_writes harg, State.byOwner_other hlk hother]
  · rw [linkOff_writes harg, State.byOwner_owner hlk hown, State.linkDcr_sets hn hthere hstays]
  · rw [linkOff_writes harg, State.byOwner_owner hlk hown, hoff, State.linkDcr_downs hn hthere hup]
  · subst hm hp
    refine ⟨fun hfar => dcrWrite_ignored hlk harg (.inl hfar), fun hr hal hsize => ?_, fun hr hbad => ?_⟩
    · rw [dcrWrite_reads hlk harg hread hr, State.dcrAnswer_value hsize]
    · rw [dcrWrite_reads hlk harg hread hr, State.dcrAnswer_zero hbad]
  · subst hm hp
    refine ⟨fun hsize => dcrWrite_ignored hlk harg (.inr ⟨hread, hsize⟩), fun hsize => ⟨fun hno => ?_, fun hown hoff h1 h2 => ?_,
      fun hown hoff => ?_, fun hoff => ?_⟩⟩
    · cases hr : s.dcrReaches r.master r.plane with
      | false => exact dcrWrite_ignored hlk harg (.inl hr)
      | true => rw [dcrWrite_writes hlk harg hread hsize hr, State.dcrWrite_unaligned (hno.resolve_left (by simp [hr]))]
    · rw [dcrWrite_writes hlk harg hread hsize (State.reaches_of_owns hown), State.dcrWrite_rack hoff hown, State.rackDcr_sets h1 h2]
      rfl
    · rw [dcrWrite_writes hlk harg hread hsize (State.reaches_of_owns hown), State.dcrWrite_therm hoff hown]
    · cases hr : s.dcrReaches r.master r.plane with
      | false => exact dcrWrite_ignored hlk harg (.inl hr)
      | true => rw [dcrWrite_writes hlk harg hread hsize hr, State.dcrWrite_status hoff]

end Sys2Proof
end

section
/-! PROOF of O41. The attempts of remote operations: the answer of an attempt, its timeout, and the exactly-once table. -/

namespace Sys2Proof.Machine
open Sys2Proof

/-- The request an entry of the exactly-once table stands for (R434). -/
def Once.isOf (e : Once) (node : Nat) (c : CoreId) (slot seq : Nat) : Prop :=
  e.req.node = node ∧ e.req.core = c ∧ e.req.slot = slot ∧ e.req.seq = seq

/-- The release an answered operation sends for its entry of the exactly-once table (R434). -/
def State.onceRelease (s : State) (r : WinReq) : State :=
  if !r.once then s
  else if bitsN r.addr 61 41 = s.node then s.post .none (.requestIdRelease s.node r.core r.slot r.seq)
  else s.toNet (bitsN r.addr 61 41) (some r.sid) (.release s.node r.core r.slot r.seq)

section
variable {s : State}

theorem ratomPerform_run {n : Nat} {x : WinUnder} {l : Loc} (harg : s.arg = .ratomPerform n) (hx : tfind s.winReqs n = some x)
    (hl : x.loc = some l) : exec .ratomPerform s =
      .next (s.perform { asker := .window n, sid := x.req.sid, loc := l, addr := x.req.addr, op := x.req.op }) := by
  change execRatomPerform s = _
  simp [execRatomPerform, harg, hx, hl]

section
variable {r : WinReq} {x : Ans} (harg : s.arg = .remoteAnswer r x)
include harg

theorem remoteAnswer_unknown (hw : tfind s.wreqs (r.core, r.slot, r.seq) = none) : exec .remoteAnswer s = .next s := by
  change execRemoteAnswer s = _
  simp [execRemoteAnswer, harg, hw]

variable {a : WinAttempt} (hw : tfind s.wreqs (r.core, r.slot, r.seq) = some a)
include hw

theorem remoteAnswer_stale (hc : a.req.copy ≠ r.copy) : exec .remoteAnswer s = .next s := by
  change execRemoteAnswer s = _
  simp [execRemoteAnswer, harg, hw, hc]

variable (hask : a.req.asker = r.asker) (hcopy : a.req.copy = r.copy)
include hask hcopy

theorem remoteAnswer_busy (hx : x = .refused) : exec .remoteAnswer s =
    .next (if a.req.attempt = r.attempt then s.winRetry (r.core, r.slot, r.seq) else s) := by
  change execRemoteAnswer s = _
  subst hx
  simp only [execRemoteAnswer, harg, hw, hask, hcopy, ne_eq, not_true_eq_false, decide_false, Bool.or_self, Bool.false_eq_true, if_false]
  split <;> rfl

theorem remoteAnswer_ends (hx : x ≠ .refused) : exec .remoteAnswer s =
    .next ((({ s with wreqs := tdel s.wreqs (r.core, r.slot, r.seq) } : State).onceRelease r).winEnd a x) := by
  change execRemoteAnswer s = _
  cases x with
  | refused => exact absurd rfl hx
  | _ => simp [execRemoteAnswer, harg, hw, hask, hcopy, State.onceRelease]

end

section
variable {r : WinReq}

theorem State.onceRelease_load (h : r.once = false) : s.onceRelease r = s := by
  simp [State.onceRelease, h]

theorem State.onceRelease_here (h : r.once = true) (hn : bitsN r.addr 61 41 = s.node) :
    s.onceRelease r = s.post .none (.requestIdRelease s.node r.core r.slot r.seq) := by
  simp [State.onceRelease, h, hn]

theorem State.onceRelease_away (h : r.once = true) (hn : bitsN r.addr 61 41 ≠ s.node) :
    s.onceRelease r = s.toNet (bitsN r.addr 61 41) (some r.sid) (.release s.node r.core r.slot r.seq) := by
  simp [State.onceRelease, h, hn]

end

section
variable {c : CoreId} {slot seq node k : Nat} {a : WinAttempt}

theorem remoteAttemptTimeout_run (harg : s.arg = .remoteAttemptTimeout c slot seq node k) (hw : tfind s.wreqs (c, slot, seq) = some a) :
    exec .remoteAttemptTimeout s = .next (if a.req.attempt = k ∧ a.due ≤ s.cycle then s.winRetry (c, slot, seq) else s) := by
  change execRemoteAttemptTimeout s = _
  simp only [execRemoteAttemptTimeout, harg, hw, Bool.and_eq_true, decide_eq_true_eq]
  split <;> rfl

theorem mem_onceFree_once (e : Once) :
    e ∈ (s.onceFree node c slot seq).once ↔ e ∈ s.once ∧ ¬ e.isOf node c slot seq := by
  simp only [State.onceFree, Once.isOf, List.mem_filter, Bool.not_eq_true', Bool.and_eq_false_iff, decide_eq_false_iff_not]
  tauto

theorem requestIdRelease_run (harg : s.arg = .requestIdRelease node c slot seq) :
    exec .requestIdRelease s = .next (s.onceFree node c slot seq) := by
  change execRequestIdRelease s = _
  unfold execRequestIdRelease
  rw [harg]

variable (harg : s.arg = .requestIdExpiry node c slot seq)
include harg

theorem requestIdExpiry_young (h : ∀ e ∈ s.once, e.isOf node c slot seq → s.cycle < e.born + 2 ^ 30) :
    exec .requestIdExpiry s = .next s := by
  change execRequestIdExpiry s = _
  unfold execRequestIdExpiry
  rw [harg]
  refine if_neg fun hany => ?_
  obtain ⟨e, he, hof⟩ := List.any_eq_true.1 hany
  simp only [Bool.and_eq_true, decide_eq_true_eq] at hof
  obtain ⟨⟨⟨⟨hnode, hcore⟩, hslot⟩, hseq⟩, hold⟩ := hof
  exact absurd (h e he ⟨hnode, hcore, hslot, hseq⟩) (Nat.not_lt.2 hold)

theorem requestIdExpiry_old {e : Once} (he : e ∈ s.once) (hof : e.isOf node c slot seq) (hold : e.born + 2 ^ 30 ≤ s.cycle) :
    exec .requestIdExpiry s = .next (s.onceFree node c slot seq) := by
  change execRequestIdExpiry s = _
  unfold execRequestIdExpiry
  rw [harg]
  obtain ⟨hnode, hcore, hslot, hseq⟩ := hof
  exact if_pos (List.any_eq_true.2 ⟨e, he, by simpa [hnode, hcore, hslot, hseq] using hold⟩)

end

end

end Sys2Proof.Machine

namespace Sys2Proof
open Machine

/-- Settles O41: an attempt's answer and timeout by their cases; the table's entries that a request id names leave it. -/
theorem remoteAttempts : Obligations.RemoteAttempts := by
  refine fun s => ⟨fun n x l harg hx hl => ratomPerform_run harg hx hl, fun r x harg => ⟨remoteAnswer_unknown harg,
    fun a hw hc => remoteAnswer_stale harg hw hc, fun a hw hask hcopy => ⟨fun hx hk => ?_, fun hx hk => ?_, fun hx h => ?_, fun hx h hn => ?_,
    fun hx h hn => ?_⟩⟩, fun c slot seq node k a harg hw => ⟨fun hk hdue => ?_, fun hdue => ?_⟩,
    fun node c slot seq => ⟨fun harg => ⟨s.onceFree node c slot seq, requestIdRelease_run harg, rfl, fun e he => ?_, fun e he hnot => ?_⟩,
      fun harg h => requestIdExpiry_young harg fun e he ⟨h1, h2, h3, h4⟩ => h e he h1 h2 h3 h4,
      fun e he harg h1 h2 h3 h4 hold => requestIdExpiry_old harg he ⟨h1, h2, h3, h4⟩ hold⟩⟩
  · rw [remoteAnswer_busy harg hw hask hcopy hx, if_pos hk]
  · rw [remoteAnswer_busy harg hw hask hcopy hx, if_neg hk]
  · rw [remoteAnswer_ends harg hw hask hcopy hx, State.onceRelease_load h]
  · rw [remoteAnswer_ends harg hw hask hcopy hx, State.onceRelease_here (s := { s with wreqs := tdel s.wreqs (r.core, r.slot, r.seq) }) h hn]
  · rw [remoteAnswer_ends harg hw hask hcopy hx, State.onceRelease_away (s := { s with wreqs := tdel s.wreqs (r.core, r.slot, r.seq) }) h hn]
  · rw [remoteAttemptTimeout_run harg hw, if_pos ⟨hk, hdue⟩]
  · rw [remoteAttemptTimeout_run harg hw, if_neg fun h => absurd h.2 (Nat.not_le.2 hdue)]
  · exact ((mem_onceFree_once e).1 he).2
  · exact (mem_onceFree_once e).2 ⟨he, hnot⟩

end Sys2Proof
end

section
/-! PROOF of O40. A window's entry: its reservation, the pieces it checks, the exactly-once table, and its close. -/

namespace Sys2Proof.Machine
open Sys2Proof

@[simp] theorem State.win_setWin (s : State) (sid id : Nat) (w : Win) : (s.setWin sid id w).win sid id = w :=
  tget_tput_same _ _ _ _

/-- What an entry's home asks of its station for a piece it admits (R426). -/
def WinReq.query (r : WinReq) (w : Win) (n : Nat) : XReq :=
  ⟨.window n, r.sid, w.base + r.off, match r.op with | .load _ => .read | _ => .write⟩

/-- A piece that its entry admits is counted there and translated (R426). -/
def State.winAdmit (s : State) (r : WinReq) : State :=
  let w := s.win r.sid (winId r.addr)
  ({ (s.setWin r.sid (winId r.addr) { w with fly := w.fly + 1 }) with
       nextSerial := s.nextSerial + 1, winReqs := tput s.winReqs s.nextSerial { req := r } } : State).post .none
    (.translation (stationOf (winHome (winId r.addr))) (r.query w s.nextSerial))

/-- A piece that its entry does not let in is counted as a violation, at the entry too where that is OPEN or CLOSING (R426). -/
def State.winRefuse (s : State) (r : WinReq) : State :=
  let w := s.win r.sid (winId r.addr)
  let s : State := { s with viols := tput s.viols r.sid (tget s.viols 0 r.sid + 1) }
  if w.st = 2 ∨ w.st = 3 then (s.setWin r.sid (winId r.addr) { w with viol := w.viol + 1 }).winFault w r .remoteViolation else s

/-- A piece that is performed exactly once is put into the table (R434). -/
def State.onceEnter (s : State) (r : WinReq) : State :=
  if r.once then { s with once := s.once ++ [{ req := r, born := s.cycle }] } else s

/-- The check of a piece that is new to the exactly-once table (R426). -/
def State.winCheck (s : State) (r : WinReq) : State :=
  if (s.win r.sid (winId r.addr)).admits r then s.winAdmit r else (s.winRefuse r).winDone r (.fault .remoteViolation)

section
variable {s : State}

section
variable {w : WinOp} (harg : s.arg = .windowReserve w) (hask : (s.ctx w.thread).awaiting w.ask ≠ none)
include harg hask

theorem windowReserve_free (hst : (s.win w.sid w.id).st = 0) : exec .windowReserve s = .next
    ((s.setWin w.sid w.id { s.win w.sid w.id with st := 1 }).post .none (.loadReply w.thread w.ask 0 (.reserved (.comp 0) 0))) := by
  change execWindowReserve s = _
  unfold execWindowReserve
  rw [harg]
  exact (if_neg (by simpa using hask)).trans (if_pos hst)

theorem windowReserve_taken (hst : (s.win w.sid w.id).st ≠ 0) :
    exec .windowReserve s = .next (s.post .none (.loadReply w.thread w.ask 0 .refused)) := by
  change execWindowReserve s = _
  unfold execWindowReserve
  rw [harg]
  exact (if_neg (by simpa using hask)).trans (if_neg hst)

end

section
variable {r : WinReq}

theorem State.onceEnter_plain (h : r.once = false) : s.onceEnter r = s := by simp [State.onceEnter, h]

theorem State.onceEnter_once (h : r.once = true) :
    s.onceEnter r = { s with once := s.once ++ [{ req := r, born := s.cycle }] } := by simp [State.onceEnter, h]

theorem State.winCheck_admitted (h : (s.win r.sid (winId r.addr)).admits r = true) : s.winCheck r = s.winAdmit r :=
  if_pos h

theorem State.winCheck_refused (h : (s.win r.sid (winId r.addr)).admits r = false) :
    s.winCheck r = (s.winRefuse r).winDone r (.fault .remoteViolation) :=
  if_neg (by simp [h])

theorem State.winRefuse_closed (h2 : (s.win r.sid (winId r.addr)).st ≠ 2) (h3 : (s.win r.sid (winId r.addr)).st ≠ 3) :
    s.winRefuse r = { s with viols := tput s.viols r.sid (tget s.viols 0 r.sid + 1) } :=
  if_neg (by simp [h2, h3])

theorem State.winRefuse_open (h : (s.win r.sid (winId r.addr)).st = 2 ∨ (s.win r.sid (winId r.addr)).st = 3) : s.winRefuse r =
    (({ s with viols := tput s.viols r.sid (tget s.viols 0 r.sid + 1) } : State).setWin r.sid (winId r.addr)
      { s.win r.sid (winId r.addr) with viol := (s.win r.sid (winId r.addr)).viol + 1 }).winFault (s.win r.sid (winId r.addr)) r .remoteViolation :=
  if_pos h

theorem State.winDone_reply (h : r.once = false) (a : Ans) : s.winDone r a = s.winReply r a := by
  simp [State.winDone, h]

theorem State.winAdmit_spec : (s.winAdmit r).mem = s.mem ∧
    (s.winAdmit r).win r.sid (winId r.addr) = { s.win r.sid (winId r.addr) with fly := (s.win r.sid (winId r.addr)).fly + 1 } ∧
    tfind (s.winAdmit r).winReqs s.nextSerial = some { req := r } ∧ (s.winAdmit r).once = s.once ∧
    ∃ x, (s.winAdmit r).pending = s.pending ++ [⟨.none, s.cycle, .translation (stationOf (winHome (winId r.addr))) x⟩] ∧
      x.asker = .window s.nextSerial ∧ x.sid = r.sid ∧ x.va = (s.win r.sid (winId r.addr)).base + r.off :=
  ⟨rfl, State.win_setWin .., tfind_tput_same .., rfl, r.query _ _, rfl, rfl, rfl, rfl⟩

variable (harg : s.arg = .windowPieceCheck r)
include harg

/-- What the check of a piece does with the entry of the exactly-once table that has its request id, if there is one. -/
theorem windowPieceCheck_known {e : Once} (h : r.once = true) (he : s.once.find? (fun e => e.req.same r) = some e) :
    (∀ a, e.res = some a → exec .windowPieceCheck s = .next (s.winReply r a)) ∧
    (e.res = none → exec .windowPieceCheck s = .next
      { s with once := s.once.map (fun e => if e.req.same r then { e with waits := e.waits ++ [r] } else e) }) := by
  change (∀ a, _ → execWindowPieceCheck s = _) ∧ (_ → execWindowPieceCheck s = _)
  unfold execWindowPieceCheck
  rw [harg]
  simp only [h, if_true, he]
  exact ⟨fun a ha => by rw [ha], fun hn => by rw [hn]⟩

theorem windowPieceCheck_full (h : r.once = true) (he : s.once.find? (fun e => e.req.same r) = none) (hfull : 4096 ≤ s.once.length) :
    exec .windowPieceCheck s = .next (s.winReply r .refused) := by
  change execWindowPieceCheck s = _
  unfold execWindowPieceCheck
  rw [harg]
  simp only [h, if_true, he]
  exact if_pos (by simpa using hfull)

theorem windowPieceCheck_new (h : r.once = true → s.once.find? (fun e => e.req.same r) = none ∧ s.once.length < 4096) :
    exec .windowPieceCheck s = .next ((s.onceEnter r).winCheck r) := by
  have hnone : (if r.once then s.once.find? (fun e => e.req.same r) else none) = none := by
    split
    · next ho => exact (h ho).1
    · rfl
  have hroom : ¬ (r.once && decide (4096 ≤ s.once.length)) = true := by
    simpa using fun ho => (h ho).2
  change execWindowPieceCheck s = _
  unfold execWindowPieceCheck
  split
  · next q hq =>
    obtain rfl : r = q := Ev.windowPieceCheck.inj (harg.symm.trans hq)
    simp only [hnone]
    refine (if_neg hroom).trans ?_
    by_cases hadm : ((s.onceEnter r).win r.sid (winId r.addr)).admits r = true
    · exact (if_pos hadm).trans (congrArg _ (if_pos hadm).symm)
    · refine (if_neg hadm).trans (congrArg _ ((congrArg (State.winDone · r (.fault .remoteViolation)) ?_).trans (if_neg hadm).symm))
      simp only [Bool.or_eq_true, decide_eq_true_eq]
      rfl
  · next hnot => exact absurd harg (hnot r)

end

section
variable {w : WinOp} (harg : s.arg = .wclosePerform w)
include harg

theorem wclosePerform_notOpen (h : (s.win w.sid w.id).st ≠ 2) :
    exec .wclosePerform s = .next (s.wcloseDone w Cause.illegalForm.code) := by
  change execWclosePerform s = _
  unfold execWclosePerform
  rw [harg]
  exact if_pos h

theorem wclosePerform_open (h : (s.win w.sid w.id).st = 2) : exec .wclosePerform s =
    if (s.win w.sid w.id).fly = 0 then
      .next ((s.setWin w.sid w.id { s.win w.sid w.id with st := 3, closing := some w }).post .none (.windowFreed w.sid w.id))
    else .next (s.setWin w.sid w.id { s.win w.sid w.id with st := 3, closing := some w }) := by
  change execWclosePerform s = _
  unfold execWclosePerform
  rw [harg]
  exact if_neg (not_not_intro h)

end

theorem windowFreed_closes {sid id : Nat} {w : WinOp} (harg : s.arg = .windowFreed sid id) (hw : (s.win sid id).closing = some w)
    (hst : (s.win sid id).st = 3) (hfly : (s.win sid id).fly = 0) :
    exec .windowFreed s = .next ((s.setWin sid id { viol := (s.win sid id).viol }).wcloseDone w 0) := by
  change execWindowFreed s = _
  unfold execWindowFreed
  rw [harg]
  simp only [hw]
  exact if_pos (by simp [hst, hfly])

end

end Sys2Proof.Machine

namespace Sys2Proof
open Machine

/-- Settles O40: the reservation by the entry's state; a piece by its entry of the exactly-once table, then by the checks of its
window; the close by the entry's state and its pieces under way. -/
theorem windowsCheckPieces : Obligations.WindowsCheckPieces := by
  refine fun s => ⟨fun w harg hask => ?_, fun r id w harg hid hw => ?_, fun w harg => ⟨wclosePerform_notOpen harg, fun hst => ?_⟩,
    fun sid id w harg hw hst hfly => windowFreed_closes harg hw hst hfly⟩
  · by_cases hst : (s.win w.sid w.id).st = 0
    · exact ⟨_, _, windowReserve_free harg hask hst, rfl, rfl, fun _ => ⟨rfl, State.win_setWin ..⟩, fun h => absurd hst h⟩
    · exact ⟨_, _, windowReserve_taken harg hask hst, rfl, rfl, fun h => absurd h hst, fun _ => ⟨rfl, rfl⟩⟩
  · subst hid hw
    refine ⟨fun h hadm => ?_, fun h hadm h2 h3 => ?_, fun h hadm hst => ?_, fun h he hroom => ⟨fun hadm => ?_, fun hadm h2 h3 => ?_⟩,
      fun e h he => ?_, windowPieceCheck_full harg⟩
    · rw [windowPieceCheck_new harg (by simp [h]), State.onceEnter_plain h, State.winCheck_admitted hadm]
      exact ⟨_, rfl, State.winAdmit_spec⟩
    · rw [windowPieceCheck_new harg (by simp [h]), State.onceEnter_plain h, State.winCheck_refused hadm, State.winRefuse_closed h2 h3, State.winDone_reply h]
    · rw [windowPieceCheck_new harg (by simp [h]), State.onceEnter_plain h, State.winCheck_refused hadm, State.winRefuse_open hst, State.winDone_reply h]
    · rw [windowPieceCheck_new harg (fun _ => ⟨he, hroom⟩), State.onceEnter_once h,
        State.winCheck_admitted (s := { s with once := s.once ++ [{ req := r, born := s.cycle }] }) hadm]
      obtain ⟨hmem, hwin, hreq, honce, hsent⟩ := State.winAdmit_spec (s := { s with once := s.once ++ [{ req := r, born := s.cycle }] }) (r := r)
      exact ⟨_, rfl, hmem, honce, hwin, hreq, hsent⟩
    · rw [windowPieceCheck_new harg (fun _ => ⟨he, hroom⟩), State.onceEnter_once h,
        State.winCheck_refused (s := { s with once := s.once ++ [{ req := r, born := s.cycle }] }) hadm,
        State.winRefuse_closed (s := { s with once := s.once ++ [{ req := r, born := s.cycle }] }) h2 h3]
    · obtain ⟨hanswered, hwaits⟩ := windowPieceCheck_known harg h he
      exact ⟨hanswered, fun hn => ⟨_, hwaits hn, rfl, rfl, rfl⟩⟩
  · rw [wclosePerform_open harg hst]
    split
    · next hfly => exact ⟨_, rfl, rfl, State.win_setWin .., fun _ => rfl, fun h => absurd hfly h⟩
    · next hfly => exact ⟨_, rfl, rfl, State.win_setWin .., fun h => absurd h hfly, fun _ => rfl⟩

end Sys2Proof
end

section
/-! SUPPORT. What the body of an instruction reads and buffers is what its thread reads and buffers (R38, R189, R379). -/

namespace Sys2Proof.Machine

open Sys2Proof Sys2Proof.Safety

section
variable {s : State} {i : Instr} {g : BitVec 4} {body : State → ThreadId → Except Stop State}

theorem threadInstr_ok {t : State} (h : Runs s i g) (hb : body s.acting s.curT = .ok t) : threadInstr i g body s = .next t := by
  rw [threadInstr_run h, hb]

theorem threadInstr_stops {e : Stop} (h : Runs s i g) (hb : body s.acting s.curT = .error e) :
    threadInstr i g body s = .next (s.stop s.curT e (encode i)) := by
  rw [threadInstr_run h, hb]

end

theorem checkAddr_acting (s : State) (ea : Word) (al n : Nat) (win : Bool) :
    checkAddr s.acting s.curT ea al n win = checkAddr s s.curT ea al n win := by
  rw [checkAddr, checkAddr, acting_ctx]; rfl

theorem forward_acting (s : State) (ea : Word) (bs : List Byte) : forward s.acting s.curT ea bs = forward s s.curT ea bs := by
  have hkey : fwdKey s.acting s.curT = fwdKey s s.curT := by
    funext a
    rw [fwdKey, fwdKey, acting_ctx, begun_sid]
    rfl
  have hbyte : fwdByte s.acting s.curT = fwdByte s s.curT := by
    funext k
    rw [fwdByte, fwdByte, acting_ctx, begun_buf, hkey]
    rfl
  rw [forward, forward, hkey, hbyte]

theorem readRecord_acting (s : State) (ea : Word) (al n : Nat) :
    readRecord s.acting s.curT ea al n = readRecord s s.curT ea al n := by
  simp only [readRecord, checkAddr_acting, forward_acting]; rfl

theorem room_of_Room {s : State} (h : Room s) : (begun s).room = .ok () := by
  obtain ⟨hnone, hlen⟩ := h
  refine room_ok ?_ hlen
  rw [List.any_eq_not_all_not]
  simpa using hnone

/-- A reach with room takes the effect, and asks for its translations. -/
theorem addEff_acting {s : State} (h : Room s) (e : Eff) (ps : List Probe) :
    s.acting.addEff s.curT e ps = .ok (buffering s e ps) := by
  simp only [State.addEff, acting_ctx, room_of_Room h, State.acting, State.setCtx_setCtx, buffering]

theorem buffering_plain (s : State) (e : Eff) :
    buffering s e [] = s.setCtx s.curT { begun s with buf := (begun s).buf ++ [⟨e, []⟩] } := by
  simp [buffering, State.askProbes]

end Sys2Proof.Machine
end

section
/-! PROOF of O16. The words of hauls (R365, R379, R380, R382, R383) and of the joint array (R347, R348, R356 to R361). -/

namespace Sys2Proof.Machine

open Sys2Proof Sys2Proof.Safety

section
variable {s : State} {i : Instr} {g : BitVec 4} {a b d e : BitVec 5} {v : Word}

theorem needHandlerCore_handler {t : ThreadId} (h : t.core.isHandler = true) : needHandlerCore t = .ok () := by
  simp [needHandlerCore, h]

theorem needHandlerCore_edge {t : ThreadId} (h : t.core.isHandler = false) : needHandlerCore t = .error ⟨.unavailable, none⟩ := by
  simp [needHandlerCore, h]

/-! ## Hauls -/

theorem tagWord_acting (ha : Reads s a v) (hv : v.toNat < 2048) : tagWord s.acting s.curT a = .ok v.toNat := by
  have hlow : bitsN v 63 11 = 0 := by simp only [bitsN]; omega
  simp [tagWord, reads_acting ha, hlow, bind, Except.bind]

section
variable {x : Bool} {bs : List Byte} (h : Runs s i g) (ha : Reads s a v) (hcore : s.curT.core.isHandler = true)
  (hbs : readRecord s s.curT v 64 512 = .ok bs) (hne : bs ≠ []) (hcheck : (Desc.of bs).check s (cur s).sid x = .ok ())
include h ha hcore hbs hne hcheck

/-- A haul that passes its checks is buffered where its tag is FREE; where it is not, the predicate is cleared (R379). -/
theorem haulOp_free (hfree : tget s.tags .free (s.curT.core, (Desc.of bs).tag) = .free) (hroom : Room s) :
    haulOp i x g a d s = .next (({ s with tags := tput s.tags (s.curT.core, (Desc.of bs).tag) .reserved } : State).setCtx s.curT
      { (begun s).setPred d.toNat true with buf := (begun s).buf ++ [⟨.haul x (Desc.of bs).tag bs (encode i), []⟩] }) := by
  have hcheck' : (Desc.of bs).check s.acting (begun s).sid x = .ok () := hcheck
  have hfree' : tget s.acting.tags .free (s.curT.core, (Desc.of bs).tag) = .free := hfree
  rw [haulOp]
  apply threadInstr_ok h
  simp only [reads_acting ha, needHandlerCore_handler hcore, readRecord_acting, hbs, hne, acting_ctx, hcheck', hfree', addEff_acting hroom,
    bind, Except.bind, if_true, if_false, buffering_plain]
  have hmove (t : Tbl (CoreId × Nat) TagState) (c : Ctx) :
      ({ s.setCtx s.curT c with tags := t } : State) = ({ s with tags := t } : State).setCtx s.curT c := rfl
  rw [State.onCtx, hmove, State.ctx_setCtx, State.setCtx_setCtx]
  rfl

theorem haulOp_taken (htag : tget s.tags .free (s.curT.core, (Desc.of bs).tag) ≠ .free) :
    haulOp i x g a d s = .next (s.setCtx s.curT ((begun s).setPred d.toNat false)) := by
  have hcheck' : (Desc.of bs).check s.acting (begun s).sid x = .ok () := hcheck
  have htag' : tget s.acting.tags .free (s.curT.core, (Desc.of bs).tag) ≠ .free := htag
  rw [haulOp]
  apply threadInstr_ok h
  simp only [reads_acting ha, needHandlerCore_handler hcore, readRecord_acting, hbs, hne, acting_ctx, hcheck', htag',
    bind, Except.bind, if_false]
  simp [State.onCtx, State.acting]

end

theorem hcancel_run (h : Runs s (.hcancel a g) g) (ha : Reads s a v) (hcore : s.curT.core.isHandler = true) (hv : v.toNat < 2048)
    (hroom : Room s) : exec (.hcancel a g) s = .next (buffering s (.hcancel v.toNat) []) := by
  change execHcancel a g s = _
  apply threadInstr_ok h
  simp only [needHandlerCore_handler hcore, tagWord_acting ha hv, addEff_acting hroom, bind, Except.bind]

theorem hslot_run (h : Runs s (.hslot a g) g) (ha : Reads s a v) (hcore : s.curT.core.isHandler = true)
    (hring : ringCheck s (cur s).sid v true = .ok ()) (hroom : Room s) :
    exec (.hslot a g) s = .next (buffering s (.hslot v) []) := by
  have hring' : ringCheck s.acting (begun s).sid v true = .ok () := hring
  change execHslot a g s = _
  apply threadInstr_ok h
  simp only [needHandlerCore_handler hcore, reads_acting ha, acting_ctx, hring', addEff_acting hroom, bind, Except.bind]

theorem hstat_run (h : Runs s (.hstat a d g) g) (ha : Reads s a v) (hcore : s.curT.core.isHandler = true) (hv : v.toNat < 2048) :
    exec (.hstat a d g) s = .next (s.setCtx s.curT ((begun s).wr d (hstatWord s s.curT.core v.toNat))) := by
  change execHstat a d g s = _
  apply scalarInstr_run h
  simp only [needHandlerCore_handler hcore, tagWord_acting ha hv, bind, Except.bind]
  rfl

/-- The state a tag's word gives (R383). -/
def State.tagCode (s : State) (c : CoreId) (n : Nat) : Nat :=
  match tget s.tags TagState.free (c, n) with
  | .free => 0 | .reserved => 1 | .queued => 2
  | .running => if ((tfind s.hauls (c, n)).map (fun h => h.legs.any Leg.stalled)).getD false then 4 else 3
  | .stopped => 5 | .complete => 6

theorem State.tagCode_lt (s : State) (c : CoreId) (n : Nat) : s.tagCode c n < 8 := by
  unfold State.tagCode
  split
  case h_4 => split <;> decide
  all_goals decide

theorem hstatWord_code (s : State) (c : CoreId) (n : Nat) : (hstatWord s c n).toNat % 8 = s.tagCode c n := by
  have hlow (x : Nat) (hx : x < 8) (m : Nat) : (fld x 0 ||| fld m 16).toNat % 8 = x := by
    have hx' : (fld x 0).toNat % 8 = x := by simp [fld]; omega
    have hm : (fld m 16).toNat % 8 = 0 := by simp [fld]; omega
    rw [BitVec.toNat_or, show 8 = 2 ^ 3 from rfl, Nat.or_mod_two_pow, ← show 8 = 2 ^ 3 from rfl, hx', hm, Nat.or_zero]
  exact hlow _ (s.tagCode_lt c n) _

/-! ## The joint array -/

theorem addJoint_acting (hroom : Room s) (hfew : ((cur s).buf.filter (fun b => b.eff.joint)).length < 16) (eff : Eff) :
    s.acting.addJoint s.curT eff = .ok (buffering s eff []) := by
  have hno : ¬ 16 ≤ ((begun s).buf.filter (fun b => b.eff.joint)).length := Nat.not_le.2 hfew
  simp only [State.addJoint, acting_ctx, hno, decide_false, Bool.false_and, Bool.false_eq_true, if_false, addEff_acting hroom]

section
variable {r : List Byte} (ha : Reads s a v) (hcore : s.curT.core.isHandler = true) (hroom : Room s)
  (hfew : ((cur s).buf.filter (fun b => b.eff.joint)).length < 16)
include hcore hroom hfew

theorem jzero_run (h : Runs s (.jzero e g) g) : exec (.jzero e g) s = .next (buffering s (.jzero e.toNat) []) := by
  change execJzero e g s = _
  apply threadInstr_ok h
  simp only [needHandlerCore_handler hcore, addJoint_acting hroom hfew, bind, Except.bind]

theorem jdrainO_run {k : BitVec 10} (h : Runs s (.jdrainO a k e g) g) :
    exec (.jdrainO a k e g) s = .next (buffering s (.jdrainO e.toNat a.toNat k.toNat) []) := by
  change execJdrainO a k e g s = _
  apply threadInstr_ok h
  simp only [needHandlerCore_handler hcore, addJoint_acting hroom hfew, bind, Except.bind]

include ha

theorem gang_run (h : Runs s (.gang a g) g) (hr : readRecord s s.curT v 64 64 = .ok r) (hne : r ≠ [])
    (hform : (OpRec.of r).check r s.part.caps s.curT.core.member = none) :
    exec (.gang a g) s = .next (buffering s (.gang r) []) := by
  have hform' : (OpRec.of r).check r s.acting.part.caps s.curT.core.member = none := hform
  change execGang a g s = _
  apply threadInstr_ok h
  simp only [reads_acting ha, needHandlerCore_handler hcore, readRecord_acting, hr, hne, hform', if_false, addJoint_acting hroom hfew, bind,
    Except.bind]

/-- A drain to a generator has no address to check (R357). -/
theorem jdrain_run (h : Runs s (.jdrain a e g) g) (hr : readRecord s s.curT v 32 32 = .ok r) (hne : r ≠ [])
    (hform : (DrainRec.of r).form r = true) (htarget : (DrainRec.of r).target = 0) :
    exec (.jdrain a e g) s = .next (buffering s (.jdrain e.toNat r) []) := by
  have hmem : ¬ (DrainRec.of r).target = 1 := by omega
  change execJdrain a e g s = _
  apply threadInstr_ok h
  simp only [reads_acting ha, needHandlerCore_handler hcore, readRecord_acting, hr, hne, hform, hmem, if_false, addJoint_acting hroom hfew,
    Bool.not_true, Bool.false_eq_true, bind, Except.bind]

end

section
variable {hv : HiveId} (hcore : s.curT.core.isHandler = true) (hhive : s.curT.core.hive? = some hv)
include hcore hhive

theorem jstat_run (h : Runs s (.jstat d e g) g) :
    exec (.jstat d e g) s = .next (s.setCtx s.curT ((begun s).wr d (jstatWord s hv s.curT.core.member e.toNat))) := by
  change execJstat d e g s = _
  apply scalarInstr_run h
  simp only [needHandlerCore_handler hcore, hhive, bind, Except.bind]
  rfl

theorem jred_run (h : Runs s (.jred d g) g) :
    exec (.jred d g) s = .next (s.setCtx s.curT ((begun s).wr d (jredWord (s.joint hv)))) := by
  change execJred d g s = _
  apply scalarInstr_run h
  simp only [needHandlerCore_handler hcore, hhive, bind, Except.bind]
  rfl

end

/-- An edge core has no joint array (R347). -/
theorem threadInstr_edge {f : State → ThreadId → Except Stop State} (h : Runs s i g) (hcore : s.curT.core.isHandler = false) :
    threadInstr i g (fun s th => do needHandlerCore th; f s th) s = .next (s.stop s.curT ⟨.unavailable, none⟩ (encode i)) := by
  apply threadInstr_stops h
  simp only [needHandlerCore_edge hcore, bind, Except.bind]

theorem threadInstr_edgeReads {f : State → ThreadId → Word → Except Stop State} (h : Runs s i g) (ha : Reads s a v)
    (hcore : s.curT.core.isHandler = false) :
    threadInstr i g (fun s th => do let ea ← rd s th a; needHandlerCore th; f s th ea) s =
      .next (s.stop s.curT ⟨.unavailable, none⟩ (encode i)) := by
  apply threadInstr_stops h
  simp only [reads_acting ha, needHandlerCore_edge hcore, bind, Except.bind]

theorem scalarInstr_edge {f : State → ThreadId → Ctx → Except Stop Ctx} (h : Runs s i g) (hcore : s.curT.core.isHandler = false) :
    scalarInstr i g (fun s th c => do needHandlerCore th; f s th c) s = .next (s.stop s.curT ⟨.unavailable, none⟩ (encode i)) := by
  apply scalarInstr_stops h
  simp only [needHandlerCore_edge hcore, bind, Except.bind]

end

end Sys2Proof.Machine

namespace Sys2Proof
open Machine Safety

/-- Settles O16: hauls word by word, then the words of the joint array on a handler core and on an edge core. -/
theorem engineWords : Obligations.EngineWords := by
  refine ⟨fun s a d g v ha hcore => ⟨fun h bs hbs hne hcheck => ⟨haulOp_free h ha hcore hbs hne hcheck, haulOp_taken h ha hcore hbs hne hcheck⟩,
      fun h bs hbs hne hcheck => ⟨haulOp_free h ha hcore hbs hne hcheck, haulOp_taken h ha hcore hbs hne hcheck⟩,
      fun h hv hroom => hcancel_run h ha hcore hv hroom, fun h hring hroom => hslot_run h ha hcore hring hroom,
      fun h hv => ⟨_, hstat_run h ha hcore hv, hstatWord_code s _ _⟩⟩,
    fun s a d e k g v ha => ⟨fun hcore => ⟨fun h r hr hne hform hroom hfew => gang_run ha hcore hroom hfew h hr hne hform,
      fun h hroom hfew => jzero_run hcore hroom hfew h,
      fun h r hr hne hform htarget hroom hfew => jdrain_run ha hcore hroom hfew h hr hne hform htarget,
      fun h hroom hfew => jdrainO_run hcore hroom hfew h,
      fun hv hhive => ⟨fun h => jstat_run hcore hhive h, fun h => jred_run hcore hhive h⟩⟩,
    fun h hcore => show execJzero e g s = _ from threadInstr_edge h hcore,
    fun h hcore => show execJdrainO a k e g s = _ from threadInstr_edge h hcore,
    fun h hcore => show execJstat d e g s = _ from scalarInstr_edge h hcore,
    fun h hcore => show execJred d g s = _ from scalarInstr_edge h hcore,
    fun h hcore => show execGang a g s = _ from threadInstr_edgeReads h ha hcore,
    fun h hcore => show execJdrain a e g s = _ from threadInstr_edgeReads h ha hcore⟩⟩

end Sys2Proof
end

section
/-! PROOF of O17. The words of graph instances (R389 to R412), of windows and remote operations (R424 to R439), and of groups (R449, R454). -/

namespace Sys2Proof.Machine

open Sys2Proof Sys2Proof.Safety

section
variable {s : State} {a b d : BitVec 5} {g : BitVec 4} {v w : Word}

/-! ## What a body reads -/

theorem placeCheck_acting (s : State) (sid : Nat) (w : Word) : placeCheck s.acting sid w = placeCheck s sid w := rfl

theorem graphOp_acting (s : State) (i : Instr) (n : Nat) (p : Word) (o : Option Word) (x : Word) :
    s.acting.graphOp s.curT i n p o x =
      { op := n, place := p, other := o, arg := x, thread := s.curT, serial := (cur s).serial, origin := s.originOf s.curT,
        ask := (cur s).awaits, word := encode i } := by
  rw [State.graphOp, acting_ctx]
  congr 1
  rw [State.originOf, State.originOf, acting_ctx]
  rfl

theorem originOf_acting (s : State) : s.acting.originOf s.curT = s.originOf s.curT := by
  rw [State.originOf, State.originOf, acting_ctx]; rfl

theorem remoteCheck_acting (s : State) (op : Nat) (r : List Byte) (ea : Word) :
    remoteCheck s.acting s.curT op r ea = remoteCheck s s.curT op r ea := by
  simp only [remoteCheck, acting_ctx, begun_sid, checkAddr_acting]; rfl

theorem State.askProbes_keeps {τ : Type} (f : State → τ) (hpost : ∀ s ch e n, f (s.post ch e n) = f s) (s : State) (t : ThreadId) (n : Nat) :
    f (s.askProbes t n) = f s := by
  refine foldl_keeps f (fun u i => ?_) _ _
  split
  · exact hpost ..
  · rfl

/-- The wait of a thread that has asked for a reservation (R126). -/
def reservationWait (d : BitVec 5) (v : Word) (e : Eff) (ps : List Probe) : LoadWait :=
  { kind := .reserve d.toNat, addr := v, pieces := [], eff := some e, probes := ps }

theorem buffering_mem (s : State) (e : Eff) (ps : List Probe) : (buffering s e ps).mem = s.mem :=
  State.askProbes_keeps State.mem (fun _ _ _ _ => rfl) _ _ _

theorem buffering_ctx (s : State) (e : Eff) (ps : List Probe) :
    (buffering s e ps).ctx s.curT = { begun s with buf := (begun s).buf ++ [⟨e, ps⟩] } := by
  rw [buffering, State.askProbes_keeps (fun u => u.ctx s.curT) (fun _ _ _ _ => State.ctx_post ..), State.ctx_setCtx]

/-- A predicate of p1 to p7 reads as it was set (R150). -/
theorem Ctx.pred_setPred_true (c : Ctx) {d : BitVec 5} (hd : WellFormed.predW d = true) : (c.setPred d.toNat true).pred d.toNat = true := by
  obtain ⟨hlow, hhigh⟩ : 1 ≤ d.toNat ∧ d.toNat ≤ 7 := by simpa [WellFormed.predW] using hd
  have hbit : d.toNat < 8 := by omega
  simp [Ctx.pred, Ctx.setPred, hbit]

/-- The predicate a word names last, where its ranges end with one, is writable (R44). -/
theorem Runs.predW {i : Instr} {x : Bool} (h : Runs s i g) (hi : WellFormed.rangesOk i = (x && WellFormed.predW d) := by rfl) :
    WellFormed.predW d = true := by
  obtain ⟨-, -, hranges, -⟩ := h
  rw [hi, Bool.and_eq_true] at hranges
  exact hranges.2

/-! ## Graph operations -/

section
variable (ha : Reads s a v)
include ha

theorem gload_run (h : Runs s (.gload a d g) g) (hplace : placeCheck s (cur s).sid v = .ok ())
    (hwhole : recN (s.image (cur s).sid (v.toNat % 2 ^ 14)) 0x16 2 = 0) : exec (.gload a d g) s =
      .next ((s.acting.onCtx s.curT (fun c => { c with status := .loadWait, loadWait := some (reservationWait d v (.graph (s.acting.graphOp s.curT (.gload a d g) 0xA8 v none 0)) []) })).post .none
        (.graphReserve (s.acting.graphOp s.curT (.gload a d g) 0xA8 v none 0))) := by
  have hlow : bitsN v 13 0 = v.toNat % 2 ^ 14 := by simp only [bitsN]; omega
  have hwhole' : recN (s.acting.image (cur s).sid (bitsN v 13 0)) 0x16 2 = 0 := hlow ▸ hwhole
  change execGload a d g s = _
  apply threadInstr_ok h
  simp only [reads_acting ha, acting_ctx, begun_sid, placeCheck_acting, hplace, hwhole', bind, Except.bind]
  rfl

variable (hplace : placeCheck s (cur s).sid v = .ok ()) (hroom : Room s)
include hplace hroom

theorem gswap_none (h : Runs s (.gswap a b g) g) (hz : b = 10) : exec (.gswap a b g) s =
    .next (buffering s (.graph (s.acting.graphOp s.curT (.gswap a b g) 0xA9 v none 0)) []) := by
  change execGswap a b g s = _
  apply threadInstr_ok h
  simp only [reads_acting ha, acting_ctx, begun_sid, placeCheck_acting, hplace, hz, if_true, addEff_acting hroom, bind, Except.bind]

theorem grest_none (h : Runs s (.grest a b g) g) (hz : b = 10) : exec (.grest a b g) s =
    .next (buffering s (.graph (s.acting.graphOp s.curT (.grest a b g) 0xAE v none 0)) []) := by
  change execGrest a b g s = _
  apply threadInstr_ok h
  simp only [reads_acting ha, acting_ctx, begun_sid, placeCheck_acting, hplace, hz, if_true, addEff_acting hroom, bind, Except.bind]

variable (hb : Reads s b w)
include hb

theorem gswap_other (h : Runs s (.gswap a b g) g) (hz : b ≠ 10) (hother : placeCheck s (cur s).sid w = .ok ()) :
    exec (.gswap a b g) s = .next (buffering s (.graph (s.acting.graphOp s.curT (.gswap a b g) 0xA9 v (some w) 0)) []) := by
  change execGswap a b g s = _
  apply threadInstr_ok h
  simp only [reads_acting ha, reads_acting hb, acting_ctx, begun_sid, placeCheck_acting, hplace, hother, hz, if_false, addEff_acting hroom,
    bind, Except.bind]

theorem gmark_run (h : Runs s (.gmark a b g) g) (hw : w.toNat < 65536) :
    exec (.gmark a b g) s = .next (buffering s (.graph (s.acting.graphOp s.curT (.gmark a b g) 0xAA v none w)) []) := by
  have hlow : bitsN w 63 16 = 0 := by simp only [bitsN]; omega
  change execGmark a b g s = _
  apply threadInstr_ok h
  simp only [reads_acting ha, reads_acting hb, acting_ctx, begun_sid, placeCheck_acting, hplace, hlow, ne_eq, not_true_eq_false, if_false,
    addEff_acting hroom, bind, Except.bind]

theorem gsave_run (h : Runs s (.gsave a b g) g) (harea : areaCheck w = .ok ()) : exec (.gsave a b g) s =
    .next (buffering s (.graph (s.acting.graphOp s.curT (.gsave a b g) 0xAD v none w)) (s.areaProbes (cur s).sid v w true)) := by
  change execGsave a b g s = _
  apply threadInstr_ok h
  simp only [reads_acting ha, reads_acting hb, acting_ctx, begun_sid, placeCheck_acting, hplace, harea, addEff_acting hroom, bind, Except.bind]
  rfl

theorem grest_area (h : Runs s (.grest a b g) g) (hz : b ≠ 10) (harea : areaCheck w = .ok ()) : exec (.grest a b g) s =
    .next (buffering s (.graph (s.acting.graphOp s.curT (.grest a b g) 0xAE v (some w) 0)) (s.areaProbes (cur s).sid v w false)) := by
  change execGrest a b g s = _
  apply threadInstr_ok h
  simp only [reads_acting ha, reads_acting hb, acting_ctx, begun_sid, placeCheck_acting, hplace, harea, hz, if_false, addEff_acting hroom,
    bind, Except.bind]
  rfl

omit hplace in
theorem gctx_run {t : TileId} (h : Runs s (.gctx a b g) g) (haddr : checkAddr s s.curT v 1 1 false = .ok (.here (.tile t 0)))
    (htile : isCompute t.tile = true) (hlow : 2 ^ 62 ≤ v.toNat) (hhigh : v.toNat < 2 ^ 63) (hw : w.toNat < 2 ^ 33) :
    exec (.gctx a b g) s = .next (buffering s (.gctx t w) []) := by
  have hzero : bitsN w 63 33 = 0 := by simp only [bitsN]; omega
  change execGctx a b g s = _
  apply threadInstr_ok h
  simp [reads_acting ha, reads_acting hb, kind_fabric hlow hhigh, checkAddr_acting, haddr, htile, hzero, addEff_acting hroom, bind, Except.bind]

end

/-- The record of the detector that `gquiet` reads (R412). -/
theorem gquiet_record (ha : Reads s a v) (h : Runs s (.gquiet a d g) g) (hsel : v.toNat % 16 = 2) (hv : v.toNat < 2 ^ 27)
    (hplace : placeCheck s (cur s).sid (BitVec.ofNat 64 (v.toNat / 16)) = .ok ()) :
    exec (.gquiet a d g) s = .next (s.setCtx s.curT
      ((begun s).wr d (((tget s.snaps [] (v.toNat / 16 / 2 ^ 22 % 2))[0]?).getD 0))) := by
  have hbits : bitsN v 3 0 = 2 ∧ bitsN v 63 38 = 0 ∧ bitsN v 31 27 = 0 ∧ bitsN v 37 32 = 0 ∧ bitsN v 26 4 = v.toNat / 16 := by
    simp only [bitsN]; omega
  have hdie : bitsN (BitVec.ofNat 64 (v.toNat / 16)) 22 22 = v.toNat / 16 / 2 ^ 22 % 2 := by
    simp only [bitsN, BitVec.toNat_ofNat]; omega
  obtain ⟨h3, h63, h31, h37, h26⟩ := hbits
  change execGquiet a d g s = _
  apply threadInstr_ok h
  simp only [reads_acting ha, acting_ctx, begun_sid, h3, h63, h31, h37, h26, placeCheck_acting, hplace, hdie, bind, Except.bind]
  simp [State.onCtx, State.acting]

/-! ## Windows and remote operations -/

section
variable (ha : Reads s a v)
include ha

/-- The effect of a remote operation in slot n (R428, R429). -/
def remoteEff (op n : Nat) (r : List Byte) : Eff :=
  if op = 0xB2 then .rget n r else if op = 0xB3 then .rput n r else .ratom n r

/-- The current thread's remote operation takes slot n of its core, and sets the predicate (R428, R429). -/
def State.takeSlot (s : State) (op n : Nat) (r : List Byte) (ps : List Probe) (d : BitVec 5) : State :=
  let u := buffering s (remoteEff op n r) ps
  ({ u with rslots := tput u.rslots (s.curT.core, n) { op := op, desc := r, sid := (cur s).sid, origin := s.originOf s.curT } } : State).onCtx
    s.curT (fun c => c.setPred d.toNat true)

/-- A reservation of a window that `wopen` asks for (R424). -/
def State.winReservation (s : State) (r : List Byte) : WinOp :=
  { id := recN r 0x10 1, release := false,
    args := [BitVec.ofNat 64 (bitsN (recW r 0) 56 0), recW r 8, BitVec.ofNat 64 (recN r 0x11 1), BitVec.ofNat 64 (recN r 0x14 4)],
    thread := s.curT, serial := (cur s).serial, sid := (cur s).sid, origin := s.originOf s.curT, ask := (cur s).awaits }

/-- A reservation of a group's rank that `cjoin` asks for (R449). -/
def State.rankReservation (s : State) (r : List Byte) : CollOp :=
  { die := s.curT.core.die, release := false, args := (List.range 8).map (fun i => recW r (8 * i)), thread := s.curT,
    serial := (cur s).serial, sid := (cur s).sid, origin := s.originOf s.curT, ask := (cur s).awaits }

theorem wopen_run {r : List Byte} (h : Runs s (.wopen a d g) g) (hr : readRecord s s.curT v 32 32 = .ok r) (hne : r ≠ [])
    (hform : winForm r = true) : exec (.wopen a d g) s =
      .next ((s.acting.onCtx s.curT (fun c => { c with status := .loadWait, loadWait := some (reservationWait d v (.wopen (s.winReservation r)) 
        (probesOf (.global (bitsN (recW r 0) 56 0)) (recN r 8 8) (if 2 ≤ recN r 0x11 1 then .write else .read))) })).post .none
        (.windowReserve (s.winReservation r))) := by
  change execWopen a d g s = _
  apply threadInstr_ok h
  simp only [reads_acting ha, readRecord_acting, hr, hne, hform, Bool.not_true, Bool.false_eq_true, if_false, acting_ctx, originOf_acting,
    bind, Except.bind]
  rfl

theorem cjoin_run {r : List Byte} (h : Runs s (.cjoin a d g) g) (hr : readRecord s s.curT v 64 64 = .ok r) (hne : r ≠ [])
    (hform : cjoinForm (s.rankReservation r).args = true) (hplace : placeCheck s (cur s).sid (cPlace (s.rankReservation r).args) = .ok ()) :
    exec (.cjoin a d g) s =
      .next ((s.acting.onCtx s.curT (fun c => { c with status := .loadWait, loadWait := some (reservationWait d v (.cjoin (s.rankReservation r)) 
        (probesOf (.global (bitsN (cTable (s.rankReservation r).args) 56 0)) (16 * cN (s.rankReservation r).args) .read)) })).post .none
        (.cjoinReserve (s.rankReservation r))) := by
  have hform' : cjoinForm ((List.range 8).map (fun i => recW r (8 * i))) = true := hform
  have hplace' : placeCheck s (cur s).sid (cPlace ((List.range 8).map (fun i => recW r (8 * i)))) = .ok () := hplace
  change execCjoin a d g s = _
  apply threadInstr_ok h
  simp only [reads_acting ha, readRecord_acting, hr, hne, hform', Bool.not_true, Bool.false_eq_true, if_false, acting_ctx, begun_sid,
    placeCheck_acting, hplace', originOf_acting, bind, Except.bind]
  rfl

theorem wclose_run (h : Runs s (.wclose a g) g) (hv : v.toNat < 256) (hroom : Room s) : exec (.wclose a g) s = .next (buffering s (.wclose
    { id := v.toNat, release := true, args := [], thread := s.curT, serial := (cur s).serial, sid := (cur s).sid,
      origin := s.originOf s.curT }) []) := by
  have hlow : bitsN v 63 8 = 0 := by simp only [bitsN]; omega
  change execWclose a g s = _
  apply threadInstr_ok h
  simp only [reads_acting ha, hlow, ne_eq, not_true_eq_false, if_false, acting_ctx, originOf_acting, addEff_acting hroom, bind, Except.bind]
  rfl

section
variable {i : Instr} {op : Nat} {r : List Byte} {ps : List Probe} (h : Runs s i g) (hr : readRecord s s.curT v 64 64 = .ok r) (hne : r ≠ [])
  (hcheck : remoteCheck s s.curT op r v = .ok ps)
include h hr hne hcheck

/-- Where no slot of the core is free, the predicate is cleared (R429). -/
theorem remoteOp_full (hfull : s.freeSlot s.curT.core = none) :
    remoteOp i op a d g s = .next (s.setCtx s.curT ((begun s).setPred d.toNat false)) := by
  have hfull' : s.acting.freeSlot s.curT.core = none := hfull
  apply threadInstr_ok h
  simp only [reads_acting ha, readRecord_acting, hr, hne, if_false, remoteCheck_acting, hcheck, hfull', bind, Except.bind]
  rw [State.onCtx, acting_ctx, State.acting, State.setCtx_setCtx]

/-- The operation takes the lowest free slot, and its effect enters the reach (R428, R429). -/
theorem remoteOp_takes {n : Nat} (hfree : s.freeSlot s.curT.core = some n) (hroom : Room s) (hd : WellFormed.predW d = true) :
    ∃ u, remoteOp i op a d g s = .next u ∧ u.mem = s.mem ∧ (u.ctx s.curT).pred d.toNat = true ∧
      (u.ctx s.curT).buf = (cur s).buf ++ [⟨remoteEff op n r, ps⟩] ∧
      ∃ o, tfind u.rslots (s.curT.core, n) = some o ∧ o.op = op ∧ o.desc = r := by
  have hfree' : s.acting.freeSlot s.curT.core = some n := hfree
  have hrun : remoteOp i op a d g s = .next (s.takeSlot op n r ps d) := by
    apply threadInstr_ok h
    simp only [reads_acting ha, readRecord_acting, hr, hne, if_false, remoteCheck_acting, hcheck, hfree', addEff_acting hroom, acting_ctx,
      begun_sid, originOf_acting, bind, Except.bind]
    rfl
  have hctx : (s.takeSlot op n r ps d).ctx s.curT = ((buffering s (remoteEff op n r) ps).ctx s.curT).setPred d.toNat true := by
    rw [State.takeSlot, State.onCtx, State.ctx_setCtx]
    rfl
  refine ⟨_, hrun, buffering_mem .., ?_, ?_, _, tfind_tput_same .., rfl, rfl⟩
  · rw [hctx]
    exact Ctx.pred_setPred_true _ hd
  · rw [hctx, buffering_ctx]
    rfl

end

end

/-- The numbers `nstat` gives under sel 1: free slots of the core, entries of the exactly-once table, violations (R439). -/
theorem nstat_counts (ha : Reads s a v) (h : Runs s (.nstat a d g) g) (hv : v = 1) :
    exec (.nstat a d g) s = .next (s.setCtx s.curT ((begun s).wr d
      (fld (256 - (s.rslots.filter (fun e => e.1.1 = s.curT.core)).length) 0 ||| fld s.once.length 16 |||
        fld (tget s.viols 0 (cur s).sid).toNat 32))) := by
  subst hv
  have h3 : bitsN (1 : Word) 3 0 = 1 := rfl
  have h4 : bitsN (1 : Word) 63 4 = 0 := rfl
  change execNstat a d g s = _
  apply threadInstr_ok h
  simp only [reads_acting ha, acting_ctx, begun_sid, h3, h4, ne_eq, not_true_eq_false, if_false, bind, Except.bind]
  rw [State.onCtx, acting_ctx, State.acting, State.setCtx_setCtx]
  rfl

/-- `cstat` of a group that has no rank here reads 0 (R454). -/
theorem cstat_unknown (ha : Reads s a v) (h : Runs s (.cstat a d g) g) (hv : v.toNat < 2 ^ 16) (hsel : v.toNat % 16 = 0)
    (hnone : s.groups.filter (fun e => e.1.1 = (cur s).sid && e.1.2.1 = v.toNat / 16) = []) :
    exec (.cstat a d g) s = .next (s.setCtx s.curT ((begun s).wr d 0)) := by
  have hbits : bitsN v 63 60 = 0 ∧ bitsN v 47 41 = 0 ∧ bitsN v 39 37 = 0 ∧ bitsN v 31 28 = 0 ∧ bitsN v 3 0 = 0 ∧ bitsN v 27 16 = 0 ∧
      bitsN v 36 32 = 0 ∧ bitsN v 59 48 = 0 ∧ bitsN v 40 40 = 0 ∧ bitsN v 15 4 = v.toNat / 16 := by
    simp only [bitsN]; omega
  obtain ⟨h63, h47, h39, h31, h3, h27, h36, h59, h40, h15⟩ := hbits
  have hnone' : s.acting.groups.filter (fun e => e.1.1 = (cur s).sid && e.1.2.1 = v.toNat / 16) = [] := hnone
  change execCstat a d g s = _
  apply threadInstr_ok h
  simp only [reads_acting ha, acting_ctx, begun_sid, h63, h47, h39, h31, h3, h27, h36, h59, h40, h15, hnone', bind, Except.bind]
  simp [State.onCtx, State.acting]

/-- A body that asks and waits leaves its thread in a load wait (R126). -/
theorem asks_of_run {i : Instr} {e : Ev}
    (h : exec i s = .next ((s.acting.onCtx s.curT (fun c => { c with status := .loadWait, loadWait := some l })).post .none e)) :
    ∃ u, exec i s = .next u ∧ u.mem = s.mem ∧ (u.ctx s.curT).status = .loadWait ∧ u.pending = s.pending ++ [⟨.none, s.cycle, e⟩] := by
  refine ⟨_, h, rfl, ?_, rfl⟩
  rw [State.ctx_post, State.onCtx, State.ctx_setCtx]

end

end Sys2Proof.Machine

namespace Sys2Proof
open Machine Safety

/-- Settles O17, word by word. -/
theorem graphWords : Obligations.GraphWords := by
  refine ⟨fun s a b d g v w ha hb => ⟨fun hplace => ⟨fun h hwhole => ?_, fun hroom => ⟨fun h => ⟨fun hz => ?_, fun hz hother => ?_⟩,
      fun h hw => ?_, fun h harea => ?_, fun h => ⟨fun hz => ?_, fun hz harea => ?_⟩⟩⟩,
    fun h t haddr htile hlow hhigh hw hroom => gctx_run ha hroom hb h haddr htile hlow hhigh hw,
    fun h hsel hv hplace => gquiet_record ha h hsel hv hplace⟩,
    fun s a d g v ha => ⟨fun h r hr hne hform => asks_of_run (wopen_run ha h hr hne hform), fun h hv hroom => wclose_run ha h hv hroom,
      fun r n ps hr hne hfree hroom => ?_, fun r ps hr hne hfull => ?_, fun h hv => nstat_counts ha h hv,
      fun h r hr hne hform hplace => asks_of_run (cjoin_run ha h hr hne hform hplace),
      fun h hv hsel hnone => cstat_unknown ha h hv hsel hnone⟩⟩
  · obtain ⟨u, hu, hmem, hwait, hsent⟩ := asks_of_run (gload_run ha h hplace hwhole)
    exact ⟨u, hu, hmem, hwait, _, hsent ▸ List.mem_append_right _ (List.mem_singleton_self _), _, rfl, rfl, rfl⟩
  · rw [gswap_none ha hplace hroom h hz, graphOp_acting]
  · rw [gswap_other ha hplace hroom hb h hz hother, graphOp_acting]
  · rw [gmark_run ha hplace hroom hb h hw, graphOp_acting]
  · rw [gsave_run ha hplace hroom hb h harea, graphOp_acting]
  · rw [grest_none ha hplace hroom h hz, graphOp_acting]
  · rw [grest_area ha hplace hroom hb h hz harea, graphOp_acting]
  · exact ⟨fun h hcheck => remoteOp_takes ha h hr hne hcheck hfree hroom (Runs.predW h),
      fun h hcheck => remoteOp_takes ha h hr hne hcheck hfree hroom (Runs.predW h),
      fun h hcheck => remoteOp_takes ha h hr hne hcheck hfree hroom (Runs.predW h)⟩
  · exact ⟨fun h hcheck => remoteOp_full ha h hr hne hcheck hfull, fun h hcheck => remoteOp_full ha h hr hne hcheck hfull,
      fun h hcheck => remoteOp_full ha h hr hne hcheck hfull⟩

end Sys2Proof
end

section
/-! PROOF of O54. Element errors and the spare (R467 to R469), twins (R470), lockkeepers' errors and restarts (R474, R488), firmware (R489). -/

namespace Sys2Proof.Machine
open Sys2Proof

/-! ## What events about elements keep -/

section
variable {s : State} {e : ElemId}

/-- An event about an element is one entry of some host basin. -/
theorem State.elemEvent_keeps (s : State) (e : ElemId) (code : Nat) (ps : List Word) : ∃ m p b h,
    s.elemEvent e code ps = { s with mem := m, poison := p, ctl := { s.ctl with basins := b, hold := h } } := by
  unfold State.elemEvent
  split
  · exact s.basinPut_keeps _ _
  · exact s.basinPut_keeps _ _

@[simp] theorem State.elem_setElem (s : State) (e : ElemId) (x : Elem) : (s.setElem e x).elem e = x := tget_tput_same _ _ _ _

@[simp] theorem State.tile_setElem (s : State) (e : ElemId) (x : Elem) (t : TileId) : (s.setElem e x).tile t = s.tile t := rfl

/-! ## Errors of elements -/

/-- An element whose error comes to light: counted, and its firings of the cycle squashed (R466, R467). -/
def State.squash (s : State) (e : ElemId) : State :=
  s.countUncorr.setTile e.tile { s.tile e.tile with
    chosen := (s.tile e.tile).chosen.filter (fun r => r.plane.elem ≠ e), skipped := (s.tile e.tile).skipped.filter (fun r => r.plane.elem ≠ e) }

/-- What the element keeps of the error: when it came, and the firing to be run again (R467, R468). -/
def State.struck (s : State) (e : ElemId) : Elem :=
  { s.elem e with
    lastErr := some s.cycle, replay := true,
    retry := match (s.tile e.tile).chosen.find? (fun r => r.plane.elem = e) with | some r => some r | none => (s.elem e).retry }

/-- The element held for the replay of its windows (R468), -/
def State.replaying (s : State) (e : ElemId) : State :=
  (s.squash e).setElem e { s.struck e with heldTo := s.cycle + (s.squash e).replayCycles e }

/-- and held for the move to the spare (R469). -/
def State.sparing (s : State) (e : ElemId) : State :=
  ((s.squash e).setElem e { s.struck e with heldTo := s.cycle + spareHold }).post .none (.spareMove e)

theorem State.sparing_mem (s : State) (e : ElemId) : (s.sparing e).mem = s.mem := by
  simp [State.sparing, State.squash, State.countUncorr]


theorem State.sparing_planes (s : State) (e : ElemId) : (s.sparing e).planes = s.planes := by
  simp [State.sparing, State.squash, State.countUncorr]


theorem State.sparing_pending (s : State) (e : ElemId) : (s.sparing e).pending = s.pending ++ [⟨.none, s.cycle, .spareMove e⟩] := by
  simp [State.sparing, State.squash, State.countUncorr, State.post]

theorem two_le_replayCycles (s : State) (e : ElemId) : 2 ≤ s.replayCycles e := Nat.le_add_left _ _

theorem State.replaying_elem (s : State) (e : ElemId) :
    (s.replaying e).elem e = { s.struck e with heldTo := s.cycle + (s.squash e).replayCycles e } := State.elem_setElem _ _ _

theorem State.replaying_tile (s : State) (e : ElemId) :
    ((s.replaying e).tile e.tile).chosen = (s.tile e.tile).chosen.filter (fun r => r.plane.elem ≠ e) := by
  rw [State.replaying, State.tile_setElem, State.squash]
  exact congrArg Tile.chosen (tget_tput_same _ _ _ _)

/-- A first error: the firing it met is squashed and kept, and the element is held (R467, R468). -/
theorem State.replaying_spec (hlive : (s.elem e).dead = false) :
    (s.replaying e).mem = s.mem ∧ (s.replaying e).planes = s.planes ∧ ((s.replaying e).elem e).lastErr = some s.cycle ∧
    ((s.replaying e).elem e).dead = false ∧ s.cycle < ((s.replaying e).elem e).heldTo ∧ ((s.replaying e).elem e).replay = true ∧
    (s.replaying e).pending = s.pending ∧ (∀ q ∈ ((s.replaying e).tile e.tile).chosen, q.plane.elem ≠ e) ∧
    (∀ q, (s.tile e.tile).chosen.find? (fun q => q.plane.elem = e) = some q → ((s.replaying e).elem e).retry = some q) := by
  have hlong := two_le_replayCycles (s.squash e) e
  rw [State.replaying_elem, State.replaying_tile]
  refine ⟨rfl, rfl, rfl, hlive, Nat.lt_add_of_pos_right (by omega), rfl, rfl, fun q hq => ?_, fun q hq => ?_⟩
  · simpa using (List.mem_filter.1 hq).2
  · simp only [State.struck, hq]

section
variable (harg : s.arg = .elementError e) (hlive : (s.elem e).dead = false) (hfree : (s.elem e).heldTo ≤ s.cycle) (helem : e.elem < 16)
  (hcompute : isCompute e.tile.tile = true)
include harg hlive hfree helem hcompute

/-- A first error, or one more than a millisecond after the last, holds the element until its windows are replayed (R467, R468). -/
theorem elementError_first (hlate : ∀ c, (s.elem e).lastErr = some c → c + 1250000 < s.cycle) :
    exec .elementError s = .next (s.replaying e) := by
  change execElementError s = _
  unfold execElementError
  rw [harg]
  refine (if_neg (by simp [hlive, hcompute]; omega)).trans ?_
  have hsoon : ¬ (match (s.elem e).lastErr with | some c => decide (s.cycle ≤ c + ms) | none => false) = true := by
    split
    · next c hc => exact fun h => absurd (hlate c hc) (Nat.not_lt.2 (of_decide_eq_true h))
    · exact Bool.false_ne_true
  exact if_neg hsoon

/-- One within a millisecond asks for the spare, or fails the element where the spare is taken (R469). -/
theorem elementError_soon {c : Nat} (hlast : (s.elem e).lastErr = some c) (hsoon : s.cycle ≤ c + 1250000) : exec .elementError s =
    .next (if (s.tile e.tile).spare.isNone then s.sparing e else ((s.squash e).setElem e (s.struck e)).elementFail e) := by
  change execElementError s = _
  unfold execElementError
  rw [harg]
  refine (if_neg (by simp [hlive, hcompute]; omega)).trans ?_
  have hsoon' : (match (s.elem e).lastErr with | some c => decide (s.cycle ≤ c + ms) | none => false) = true := by
    rw [hlast]
    exact decide_eq_true hsoon
  refine (if_pos hsoon').trans ?_
  cases hspare : (s.tile e.tile).spare.isNone with
  | true => exact (if_pos hspare).trans (by rw [if_pos rfl]; rfl)
  | false => exact (if_neg (by change ¬ (s.tile e.tile).spare.isNone = true; rw [hspare]; decide)).trans (by rw [if_neg (by decide)]; rfl)

end

/-- An element out of use for good, and counted (R469). -/
def State.withdraw (s : State) (e : ElemId) : State :=
  (s.setElem e { s.elem e with dead := true }).onCtl (fun c => { c with fails := c.fails + 1 })

/-- An element without a graph fails for good: counted, with an event (R469). -/
theorem State.elementFail_bare (hbare : ∀ p, (s.plane ⟨e, p⟩).inst = none) :
    ((s.elementFail e).elem e).dead = true ∧ (s.elementFail e).ctl.fails = s.ctl.fails + 1 := by
  have hnone : s.elemInsts e = [] := by
    simp [State.elemInsts, hbare]
  have hfail : s.elementFail e = (s.withdraw e).elemEvent e 0x009 [fld 0 0] := by
    unfold State.elementFail
    rw [hnone]
    rfl
  obtain ⟨m, p, b, h, hevent⟩ := (s.withdraw e).elemEvent_keeps e 0x009 [fld 0 0]
  rw [hfail, hevent]
  exact ⟨congrArg Elem.dead (tget_tput_same _ _ _ _), rfl⟩

theorem elementError_spec (harg : s.arg = .elementError e) (hlive : (s.elem e).dead = false) (hfree : (s.elem e).heldTo ≤ s.cycle)
    (helem : e.elem < 16) (hcompute : isCompute e.tile.tile = true) : ∃ u, exec .elementError s = .next u ∧
      ((s.elem e).lastErr = none → u.mem = s.mem ∧ u.planes = s.planes ∧ (u.elem e).lastErr = some s.cycle ∧ (u.elem e).dead = false ∧
        s.cycle < (u.elem e).heldTo ∧ (u.elem e).replay = true ∧ u.pending = s.pending ∧
        (∀ q ∈ (u.tile e.tile).chosen, q.plane.elem ≠ e) ∧
        (∀ q, (s.tile e.tile).chosen.find? (fun q => q.plane.elem = e) = some q → (u.elem e).retry = some q)) ∧
      (∀ c, (s.elem e).lastErr = some c → s.cycle ≤ c + 1250000 → (s.tile e.tile).spare = none →
        u.mem = s.mem ∧ u.planes = s.planes ∧ u.pending = s.pending ++ [⟨.none, s.cycle, .spareMove e⟩]) ∧
      (∀ c k, (s.elem e).lastErr = some c → s.cycle ≤ c + 1250000 → (s.tile e.tile).spare = some k → (∀ p, (s.plane ⟨e, p⟩).inst = none) →
        (u.elem e).dead = true ∧ u.ctl.fails = s.ctl.fails + 1) := by
  by_cases hsoon : ∃ c, (s.elem e).lastErr = some c ∧ s.cycle ≤ c + 1250000
  · obtain ⟨c, hlast, hle⟩ := hsoon
    refine ⟨_, elementError_soon harg hlive hfree helem hcompute hlast hle, fun h => absurd (hlast.symm.trans h) (by simp),
      fun _ _ _ hspare => ?_, fun _ k _ _ hspare hbare => ?_⟩
    · rw [hspare, if_pos Option.isNone_none]
      exact ⟨s.sparing_mem e, s.sparing_planes e, s.sparing_pending e⟩
    · rw [hspare, if_neg (by simp)]
      exact State.elementFail_bare hbare
  · have hlate : ∀ c, (s.elem e).lastErr = some c → c + 1250000 < s.cycle := fun c hc =>
      Nat.not_le.1 fun hle => hsoon ⟨c, hc, hle⟩
    exact ⟨_, elementError_first harg hlive hfree helem hcompute hlate, fun _ => State.replaying_spec hlive,
      fun c hc hle => absurd ⟨c, hc, hle⟩ hsoon, fun c _ hc hle => absurd ⟨c, hc, hle⟩ hsoon⟩

/-! ## The move to the spare -/

section
variable (harg : s.arg = .spareMove e) (hlk : s.lkDown e.tile.die = false)
include harg hlk

theorem spareMove_dead (hdead : (s.elem e).dead = true) : exec .spareMove s = .next s := by
  change execSpareMove s = _
  unfold execSpareMove
  rw [harg]
  exact congrArg Host.Outcome.next ((State.byLock_free hlk _).trans (if_pos (by simp [hdead])))

theorem spareMove_moves {c : Nat} (hlive : (s.elem e).dead = false) (hspare : (s.tile e.tile).spare = none)
    (hlast : (s.elem e).lastErr = some c) (hheld : (s.elem e).heldTo = c + 4096) : exec .spareMove s =
      .next ((((s.setTile e.tile { s.tile e.tile with spare := some e.elem }).setElem e { s.elem e with heldTo := s.cycle }).onCtl
        (fun c => { c with spares := c.spares + 1 })).elemEvent e 0x008 []) := by
  change execSpareMove s = _
  unfold execSpareMove
  rw [harg]
  exact congrArg Host.Outcome.next ((State.byLock_free hlk _).trans
    ((if_neg (by simp [hlive, hspare, hlast, hheld, spareHold])).trans (if_neg (by simp [hspare]))))

end

end

/-! ## Twins -/

section
variable {s : State}

theorem twin_arms {c p0 p1 : Word} {a b : InstId} (harg : s.arg = .twin c p0 p1) (hlk : s.lkDown 0 = false) (h0 : bitsN p0 63 16 = 0)
    (h1 : bitsN p1 31 23 = 0) (h2 : bitsN p1 63 55 = 0) (ha : s.twinInst (bitsN p0 15 0) (bitsN p1 22 0) = some a)
    (hb : s.twinInst (bitsN p0 15 0) (bitsN p1 54 32) = some b) (hok : s.twinOk a b = true) :
    exec .twin s = .next ({ s with twins := s.twins ++ [{ a := a, b := b }] } : State).hostNext := by
  change execTwin s = _
  unfold execTwin
  split
  · next q0 q1 hq =>
    obtain ⟨-, rfl, rfl⟩ := Ev.twin.inj (harg.symm.trans hq)
    rw [State.byLock_free hlk]
    simp only [h0, h1, h2, ha, hb, hok, ne_eq, not_true_eq_false, decide_false, Bool.or_self, Bool.false_eq_true, if_false, if_true]
  · next hnot => exact absurd harg (hnot _ _ _)

/-! ## Lockkeepers -/

/-- The lockkeepers that are restarting, with one more (R488). -/
def addDown (l : List Nat) (die : Nat) : List Nat := if l.contains die then l else l ++ [die]

theorem contains_addDown (l : List Nat) (die d : Nat) : (addDown l die).contains d = (l.contains d || decide (d = die)) := by
  unfold addDown
  split
  · next hin =>
    by_cases hd : d = die
    · subst hd; simpa using hin
    · simp [hd]
  · simp

theorem State.restartLock_here {die : Nat} (h : die < s.part.dies) :
    s.restartLock die = s.onCtl (fun c => { c with restarts := c.restarts + 1, down := addDown c.down die }) :=
  if_neg (Nat.not_le.2 h)

theorem lockkeeperMemoryError_run {die : Nat} (harg : s.arg = .lockkeeperMemoryError die) (hdie : die < s.part.dies) :
    exec .lockkeeperMemoryError s = .next ((((s.jobs.filterMap
      (fun e => if e.2.hives.any (fun h => h.die = die) then some e.1 else none)).foldl
        (fun s k => s.wantKill die k .killed) s.countUncorr)).restartLock die) := by
  change execLockkeeperMemoryError s = _
  unfold execLockkeeperMemoryError
  rw [harg]
  exact if_neg (Nat.not_le.2 hdie)

@[simp] theorem State.restarting_restartLock {die : Nat} (h : die < s.part.dies) (d : Nat) :
    (s.restartLock die).restarting d = (s.restarting d || decide (d = die)) := by
  rw [State.restartLock_here h]
  exact contains_addDown _ _ _

theorem State.lkDown_of_restarting {die : Nat} (h : s.restarting die = true) : s.lkDown die = true := by
  simp [State.lkDown, h]

section
variable {die : Nat} (harg : s.arg = .lockkeeperRestartDone die)
include harg

theorem lockkeeperRestartDone_up (h : s.restarting die = false) : exec .lockkeeperRestartDone s = .next s := by
  change execLockkeeperRestartDone s = _
  unfold execLockkeeperRestartDone
  rw [harg]
  exact if_pos (by simp [h])

theorem lockkeeperRestartDone_ends (h : s.restarting die = true) (hgo : s.ctl.fwGo = false) : exec .lockkeeperRestartDone s =
    .next (s.onCtl (fun c => { c with down := c.down.filter (· ≠ die) })) := by
  change execLockkeeperRestartDone s = _
  unfold execLockkeeperRestartDone
  rw [harg]
  exact (if_neg (by simp [h])).trans (if_neg (by simp [hgo]))

end

/-- What comes for a lockkeeper that is down waits (R488). -/
theorem State.byLock_down {die : Nat} (h : s.lkDown die = true) (f : State → State) :
    s.byLock die f = s.onCtl (fun c => { c with held := c.held ++ [(die, s.arg)] }) := by
  simp [State.byLock, h]

/-- The oldest of what waited goes on, and keeps its lockkeeper busy (R488). -/
theorem State.relockDie_takes {die : Nat} {e : Ev} {r : List (Nat × Ev)} (hup : s.lkDown die = false) (hheld : s.ctl.held = (die, e) :: r) :
    s.relockDie die = (s.onCtl (fun c => { c with held := r })).post (.lock die) e := by
  simp only [State.relockDie, hup, hheld, Bool.false_eq_true, if_false]
  simp [State.onCtl, hheld, dropFirst]

theorem State.relockDie_down {die : Nat} (h : s.lkDown die = true) : s.relockDie die = s := by
  simp [State.relockDie, h]

theorem State.lkDown_post (d : Nat) (ch : Chan) (e : Ev) (n : Nat) :
    (s.post ch e n).lkDown d = (s.lkDown d || decide (ch = .lock d)) := by
  change (s.restarting d || (s.pending ++ [_]).any _) = _
  rw [List.any_append, ← Bool.or_assoc]
  simp [State.lkDown]

/-! ## Firmware -/

theorem FwSig.check_eq (x : FwSig) (v : Nat) : x.check v =
    if x.ecdsa ≠ some x.digest ∨ x.lms ≠ some x.digest then 1 else if v < Config.fwMinSec then 2 else 0 := by
  simp only [FwSig.check, Bool.or_eq_true, decide_eq_true_eq]

section
variable {c a n : Word} (harg : s.arg = .fwStage c a n) (hlk : s.lkDown 0 = false)
include harg hlk

theorem fwStage_stranger (ho : s.ctl.owner ≠ 1) : exec .fwStage s = .next (s.fwRefused 6 .access) := by
  change execFwStage s = _
  unfold execFwStage
  rw [harg]
  exact congrArg Host.Outcome.next ((State.byLock_free hlk _).trans (if_pos ho))

theorem fwStage_malformed (ho : s.ctl.owner = 1) (h : a.toNat % 4096 ≠ 0 ∨ 2 ^ 24 < n.toNat) :
    exec .fwStage s = .next (s.fwRefused 6 .illegalForm) := by
  change execFwStage s = _
  unfold execFwStage
  rw [harg]
  exact congrArg Host.Outcome.next ((State.byLock_free hlk _).trans ((if_neg (not_not_intro ho)).trans (if_pos (by
    simp only [Bool.or_eq_true, decide_eq_true_eq]
    tauto))))

/-- The slots once an image is staged: it stands in the other one (R489). -/
def Ctl.staged (c : Ctl) (img : List Byte) : Ctl :=
  { c with fwStaged := true, fwOther := Config.fwVersion img % 2 ^ 24, fwOtherSec := Config.fwSecver img % 256,
           fwOtherSig := ⟨Config.sha384 img, Config.fwEcdsa img, Config.fwLms img⟩ }

theorem fwStage_judges (ho : s.ctl.owner = 1) (ha : a.toNat % 4096 = 0) (hhigh : bitsN a 63 52 = 0) (hn : n.toNat ≤ 2 ^ 24) :
    exec .fwStage s = .next (if s.fwJudge (s.bytes (.comp a.toNat) n.toNat) = 0 then
        (s.onCtl (·.staged (s.bytes (.comp a.toNat) n.toNat))).firmware 0
      else s.firmware (s.fwJudge (s.bytes (.comp a.toNat) n.toNat))) := by
  change execFwStage s = _
  unfold execFwStage
  rw [harg]
  exact congrArg Host.Outcome.next ((State.byLock_free hlk _).trans ((if_neg (not_not_intro ho)).trans (if_neg (by
    simp [ha, hhigh]; omega))))

end

/-- The judgement of an image, case by case (R486, log 12). -/
theorem State.fwJudge_cases (img : List Byte) :
    (if s.fwJudge img = 0 then (s.onCtl (·.staged img)).firmware 0 else s.firmware (s.fwJudge img)) =
      if s.linkUp 24 = true ∧ Config.fwEcdsa img = some (Config.sha384 img) ∧ Config.fwLms img = some (Config.sha384 img) ∧
          Config.fwMinSec ≤ Config.fwSecver img % 256 then (s.onCtl (·.staged img)).firmware 0
      else if s.linkUp 24 = false then s.firmware 3
      else if Config.fwEcdsa img ≠ some (Config.sha384 img) ∨ Config.fwLms img ≠ some (Config.sha384 img) then s.firmware 1
      else s.firmware 2 := by
  cases hup : s.linkUp 24 with
  | false => simp [State.fwJudge, hup]
  | true =>
    simp only [State.fwJudge, hup, FwSig.check_eq]
    by_cases hsig : Config.fwEcdsa img ≠ some (Config.sha384 img) ∨ Config.fwLms img ≠ some (Config.sha384 img)
    · have hno : ¬ (Config.fwEcdsa img = some (Config.sha384 img) ∧ Config.fwLms img = some (Config.sha384 img) ∧
          Config.fwMinSec ≤ Config.fwSecver img % 256) := by tauto
      simp [hsig, hno]
    · obtain ⟨he, hl⟩ := not_or.1 hsig
      rw [not_not] at he hl
      by_cases hsec : Config.fwSecver img % 256 < Config.fwMinSec
      · simp [he, hl, hsec, Nat.not_le.2 hsec]
      · simp [he, hl, hsec, Nat.not_lt.1 hsec]

section
variable {c : Word} (harg : s.arg = .fwActivate c) (hlk : s.lkDown 0 = false)
include harg hlk

theorem fwActivate_stranger (ho : s.ctl.owner ≠ 1) : exec .fwActivate s = .next (s.fwRefused 7 .access) := by
  change execFwActivate s = _
  unfold execFwActivate
  rw [harg]
  exact congrArg Host.Outcome.next ((State.byLock_free hlk _).trans (if_pos ho))

theorem fwActivate_empty (ho : s.ctl.owner = 1) (hst : s.ctl.fwStaged = false) : exec .fwActivate s = .next (s.firmware 4) := by
  change execFwActivate s = _
  unfold execFwActivate
  rw [harg]
  exact congrArg Host.Outcome.next ((State.byLock_free hlk _).trans ((if_neg (not_not_intro ho)).trans (if_pos (by simp [hst]))))

theorem fwActivate_swaps (ho : s.ctl.owner = 1) (hst : s.ctl.fwStaged = true) : exec .fwActivate s =
    .next ((List.range s.part.dies).foldl State.restartLock (s.onCtl (fun c => { c.swapSlots with fwStaged := false, fwGo := true }))) := by
  change execFwActivate s = _
  unfold execFwActivate
  rw [harg]
  exact congrArg Host.Outcome.next ((State.byLock_free hlk _).trans ((if_neg (not_not_intro ho)).trans (if_neg (by simp [hst]))))

end

/-- A restart changes what is down and its count alone. -/
theorem State.restartLock_keeps {τ : Type} (f : State → τ) (h : ∀ (s : State) (x : BitVec 8) (d : List Nat),
    f (s.onCtl (fun c => { c with restarts := x, down := d })) = f s) (s : State) (die : Nat) : f (s.restartLock die) = f s := by
  unfold State.restartLock
  split
  · rfl
  · exact h _ _ _

/-- Restarting every lockkeeper leaves each of them down (R489). -/
theorem State.restartLocks_restarting (s : State) {d : Nat} (hd : d < s.part.dies) :
    ((List.range s.part.dies).foldl State.restartLock s).restarting d = true := by
  have hpart (u : State) (die : Nat) : (u.restartLock die).part = u.part := State.restartLock_keeps State.part (fun _ _ _ => rfl) u die
  have hboth : ((List.range s.part.dies).foldl State.restartLock s).part = s.part ∧
      ((List.range s.part.dies).foldl State.restartLock s).restarting d = true := by
    obtain ⟨l, r, hlr⟩ := List.append_of_mem (List.mem_range.2 hd)
    rw [hlr, List.foldl_append, List.foldl_cons]
    have hbefore : (l.foldl State.restartLock s).part = s.part := foldl_keeps State.part hpart l s
    refine List.foldlRecOn (motive := fun u => u.part = s.part ∧ u.restarting d = true) r State.restartLock
      ⟨(hpart _ _).trans hbefore, ?_⟩ fun u hu die _ => ⟨(hpart u die).trans hu.1, ?_⟩
    · rw [State.restarting_restartLock (hbefore ▸ hd), decide_eq_true rfl, Bool.or_true]
    · unfold State.restartLock
      split
      · exact hu.2
      · exact (contains_addDown _ _ _).trans (by rw [show u.ctl.down.contains d = true from hu.2, Bool.true_or])
  exact hboth.2

end

end Sys2Proof.Machine

namespace Sys2Proof
open Machine

/-- Settles O54: an element's error by its last one and the spare, the move to the spare, twins; then a lockkeeper's errors and restarts by who
is down, and the two firmware services by the owner and the image. -/
theorem elementsAndLockkeepers : Obligations.ElementsAndLockkeepers := by
  refine ⟨fun s => ⟨fun e x harg hx hlive hfree helem hcompute => ?_, fun e harg hlk => ⟨fun hdead => spareMove_dead harg hlk hdead,
      fun c hlive hspare hlast hheld => ?_⟩, fun c p0 p1 a b harg hlk h0 h1 h2 ha hb hok => twin_arms harg hlk h0 h1 h2 ha hb hok⟩,
    fun s => ⟨fun die harg hjobs hdie => ?_, fun die sid j harg hjobs hhive hdie => ?_, fun die harg => ⟨lockkeeperRestartDone_up harg,
      fun h hgo => ⟨_, lockkeeperRestartDone_ends harg h hgo, rfl, ?_, rfl, rfl⟩⟩, fun die f => ⟨fun h => ?_, fun h => State.byLock_free h f⟩,
      fun e r hheld hup hdown => ?_, fun c a n harg hlk => ⟨fwStage_stranger harg hlk, fwStage_malformed harg hlk, fun ho ha hhigh hn => ?_⟩,
      fun c harg hlk => ⟨fwActivate_stranger harg hlk, fwActivate_empty harg hlk, fun ho hst => ⟨_, fwActivate_swaps harg hlk ho hst, ?_⟩⟩⟩⟩
  · subst hx
    exact elementError_spec harg hlive hfree helem hcompute
  · obtain ⟨m, p, b, h, hevent⟩ := State.elemEvent_keeps
      (((s.setTile e.tile { s.tile e.tile with spare := some e.elem }).setElem e { s.elem e with heldTo := s.cycle }).onCtl
        (fun c => { c with spares := c.spares + 1 })) e 0x008 []
    refine ⟨_, spareMove_moves harg hlk hlive hspare hlast hheld, ?_⟩
    rw [hevent]
    exact ⟨congrArg Tile.spare (tget_tput_same _ _ _ _), congrArg Elem.heldTo (tget_tput_same _ _ _ _), rfl⟩
  · refine ⟨_, lockkeeperMemoryError_run harg hdie, ?_⟩
    rw [hjobs, List.filterMap_nil, List.foldl_nil]
    have hdown : (s.countUncorr.restartLock die).restarting die = true := by
      rw [State.restarting_restartLock (s := s.countUncorr) hdie, decide_eq_true rfl, Bool.or_true]
    refine ⟨?_, State.lkDown_of_restarting hdown, ?_⟩
    · exact State.restartLock_keeps State.mem (fun _ _ _ => rfl) _ _
    · rw [State.restartLock_here (s := s.countUncorr) hdie]
      exact ⟨rfl, rfl⟩
  · have hany : j.hives.any (fun h => h.die = die) = true := by simpa using hhive
    rw [lockkeeperMemoryError_run harg hdie, hjobs, List.filterMap_cons, if_pos hany]
    rfl
  · simp [State.restarting, State.onCtl]
  · rw [State.byLock_down h]
    exact ⟨rfl, rfl⟩
  · have hfirst := State.relockDie_takes hup hheld
    have hother : (s.relockDie 0).lkDown 1 = true := by
      rw [hfirst, State.lkDown_post, show (s.onCtl _).lkDown 1 = s.lkDown 1 from rfl, hdown, Bool.true_or]
    have hself : (s.relockDie 0).lkDown 0 = true := by
      rw [hfirst, State.lkDown_post, decide_eq_true rfl, Bool.or_true]
    rw [State.relock, State.relockDie_down hother]
    refine ⟨?_, ?_, hself⟩
    · rw [hfirst]; rfl
    · rw [hfirst]; rfl
  · rw [fwStage_judges harg hlk ho ha hhigh hn]
    exact congrArg Host.Outcome.next (State.fwJudge_cases _)
  · exact ⟨foldl_keeps State.mem (State.restartLock_keeps State.mem fun _ _ _ => rfl) _ _,
      foldl_keeps (fun u : State => u.ctl.fwActive) (State.restartLock_keeps (fun u => u.ctl.fwActive) fun _ _ _ => rfl) _ _,
      foldl_keeps (fun u : State => u.ctl.fwVersion) (State.restartLock_keeps (fun u => u.ctl.fwVersion) fun _ _ _ => rfl) _ _,
      foldl_keeps (fun u : State => u.ctl.fwStaged) (State.restartLock_keeps (fun u => u.ctl.fwStaged) fun _ _ _ => rfl) _ _,
      fun d hd => State.lkDown_of_restarting (State.restartLocks_restarting _ hd)⟩

end Sys2Proof
end

section
/-! SUPPORT. Joint arrays (R341 to R363): what the operations of generators and engines leave alone, and the slices of a hive's members. -/

namespace Sys2Proof.Machine
open Sys2Proof

@[simp] theorem State.joint_setJoint (s : State) (h : HiveId) (j : Joint) : (s.setJoint h j).joint h = j := tget_tput_same _ _ _ _

@[simp] theorem State.slice_setSlice (s : State) (h : HiveId) (m b : Nat) (x : Slice) : (s.setSlice h m b x).slice h m b = x :=
  tget_tput_same _ _ _ _

theorem State.slice_setSlice_other (s : State) (h : HiveId) {m k : Nat} (b : Nat) (x : Slice) (hm : k ≠ m) :
    (s.setSlice h m b x).slice h k b = s.slice h k b :=
  tget_tput_other _ _ _ (by simp [hm])

/-- Memory, and what the joint arrays and their slices hold. -/
def State.arrays (s : State) : List Host.Cell × Tbl HiveId Joint × Tbl (HiveId × Nat × Nat) Slice := (s.mem, s.joints, s.slices)

theorem State.arrays_eq_iff {s u : State} : u.arrays = s.arrays ↔ u.mem = s.mem ∧ u.joints = s.joints ∧ u.slices = s.slices := by
  simp [State.arrays]

theorem State.joint_of_arrays {s u : State} (hu : u.arrays = s.arrays) (h : HiveId) : u.joint h = s.joint h := by
  obtain ⟨-, hj, -⟩ := State.arrays_eq_iff.1 hu
  rw [State.joint, hj, State.joint]

@[simp] theorem State.post_arrays (s : State) (ch : Chan) (e : Ev) (n : Nat) : (s.post ch e n).arrays = s.arrays := rfl
@[simp] theorem State.setGen_arrays (s : State) (g : GenId) (x : Gen) : (s.setGen g x).arrays = s.arrays := rfl
@[simp] theorem State.onGen_arrays (s : State) (g : GenId) (f : Gen → Gen) : (s.onGen g f).arrays = s.arrays := rfl

theorem State.report_besideSends (s : State) (o : Origin) (c : Cause) (unit : Nat) (h2 : Word) :
    (s.report o c unit h2).besideSends = s.besideSends := by
  unfold State.report
  exact State.deliverFault_besideSends ..

theorem State.arrays_of_besideSends {s u : State} (h : u.besideSends = s.besideSends) : u.arrays = s.arrays := by
  have hbeside : u.besideSends.arrays = s.besideSends.arrays := by rw [h]
  exact hbeside

@[simp] theorem State.report_arrays (s : State) (o : Origin) (c : Cause) (unit : Nat) (h2 : Word) :
    (s.report o c unit h2).arrays = s.arrays := State.arrays_of_besideSends (s.report_besideSends o c unit h2)

@[simp] theorem State.emptySlot_arrays (s : State) (g : GenId) (n : Nat) : (s.emptySlot g n).arrays = s.arrays := by
  cases hprod : (s.gen g).prod with
  | none => simp [State.emptySlot, hprod]
  | some e => simp [State.emptySlot, hprod]

/-- Binding an engine to a producer side sends notices, and changes that side alone. -/
theorem State.bindProd_keeps {τ : Type} (f : State → τ) (hpost : ∀ (s : State) ch e n, f (s.post ch e n) = f s)
    {s : State} {g : GenId} {e : Engine} (hset : ∀ n, f (s.setGen g { s.gen g with prod := some e, nseq := n }) = f s) :
    f (s.bindProd g e) = f s := by
  simp only [State.bindProd]
  split
  · refine (foldl_keeps f (fun u i => ?_) _ _).trans (hset _)
    split
    · exact hpost ..
    · rfl
  · rfl

@[simp] theorem State.bindProd_arrays (s : State) (g : GenId) (e : Engine) : (s.bindProd g e).arrays = s.arrays :=
  State.bindProd_keeps State.arrays (fun _ _ _ _ => rfl) fun _ => rfl

theorem State.cons_bindProd (s : State) (g k : GenId) (e : Engine) : ((s.bindProd g e).gen k).cons = (s.gen k).cons := by
  refine State.bindProd_keeps (fun u => (u.gen k).cons) (fun _ _ _ _ => rfl) fun n => ?_
  by_cases hk : k = g
  · subst hk
    rw [State.gen_setGen]
  · rw [State.gen_setGen_other _ _ hk]

/-! ## Changing every member's slice -/

/-- Changes the slices of the first n members, each by its own number. -/
def State.onSlices (s : State) (h : HiveId) (b : Nat) (f : Nat → Slice → Slice) (n : Nat) : State :=
  (List.range n).foldl (fun s m => s.setSlice h m b (f m (s.slice h m b))) s

section
variable (s : State) (h : HiveId) (b : Nat) (f : Nat → Slice → Slice)

theorem State.onSlices_keeps {τ : Type} (g : State → τ) (hg : ∀ (s : State) h m b x, g (s.setSlice h m b x) = g s) (n : Nat) :
    g (s.onSlices h b f n) = g s :=
  foldl_keeps g (fun u m => hg u h m b _) _ _

theorem State.slice_onSlices (n m : Nat) :
    (s.onSlices h b f n).slice h m b = if m < n then f m (s.slice h m b) else s.slice h m b := by
  induction n with
  | zero => rfl
  | succ n ih =>
    have hstep : s.onSlices h b f (n + 1) = (s.onSlices h b f n).setSlice h n b (f n ((s.onSlices h b f n).slice h n b)) := by
      simp [State.onSlices, List.range_succ]
    rw [hstep]
    by_cases hm : m = n
    · subst hm
      rw [State.slice_setSlice, ih, if_neg (lt_irrefl m), if_pos (Nat.lt_succ_self m)]
    · rw [State.slice_setSlice_other _ _ _ _ hm, ih]
      exact if_congr (by omega) rfl rfl

end

end Sys2Proof.Machine
end

section
/-! PROOF of O34. The joint array: its barrier and ops (R348 to R354), the sums of a block (R96, R97), slice instructions (R355 to R359). -/

namespace Sys2Proof.Machine
open Sys2Proof

/-! ## What the barrier reports, and what an op binds (R349, R362) -/

/-- The value h2 of each member's GANG_MISMATCH (R349, R362). -/
def mismatchH2 (hs : List (List Byte × Origin)) (m : Nat) : Word :=
  let recs := hs.map Prod.fst
  let s0 := recN (recs.headD []) 0 2
  match hs[m]? with
  | some e => jointH2 (recN e.1 0 2) s0 0 (recN e.1 3 1) m (recs.all (fun r => recN r 0 2 = s0)) 0
  | none => 0

/-- Reports a GANG_MISMATCH for each member's head (R349). -/
def State.reportHeads (s : State) (hs : List (List Byte × Origin)) (h2 : Nat → Word) : State :=
  (List.range 8).foldl (fun s m => match hs[m]? with
    | some e => s.report e.2 .gangMismatch 3 (h2 m)
    | none => s) s

theorem State.reportHeads_arrays (s : State) (hs : List (List Byte × Origin)) (h2 : Nat → Word) : (s.reportHeads hs h2).arrays = s.arrays := by
  refine foldl_keeps State.arrays (fun u m => ?_) _ _
  split
  · exact u.report_arrays ..
  · rfl

/-- Binds the consumer sides of an op's rings to the array. -/
def State.bindReads (s : State) (h : HiveId) (l : List GenId) : State :=
  l.foldl (fun s g => s.onGen g (fun x => { x with cons := some (.array h) })) s

/-- Binds the producer sides of its partial rings. -/
def State.bindParts (s : State) (h : HiveId) (l : List (Nat × GenId)) : State :=
  l.foldl (fun s e => if (s.gen e.2).prod = some (.array h) then s else s.bindProd e.2 (.array h)) s

theorem State.bindReads_arrays (s : State) (h : HiveId) (l : List GenId) : (s.bindReads h l).arrays = s.arrays :=
  foldl_keeps State.arrays (fun u g => u.onGen_arrays g _) _ _

theorem State.bindReads_cons (s : State) (h : HiveId) {l : List GenId} {g : GenId} (hg : g ∈ l) :
    ((s.bindReads h l).gen g).cons = some (.array h) := by
  refine foldl_brings (P := fun u : State => (u.gen g).cons = some (.array h)) hg (fun u => ?_) (fun u k hu => ?_) s
  · rw [State.gen_onGen]
  · by_cases hk : g = k
    · subst hk; rw [State.gen_onGen]
    · rw [State.onGen, State.gen_setGen_other _ _ hk, hu]

theorem State.bindParts_arrays (s : State) (h : HiveId) (l : List (Nat × GenId)) : (s.bindParts h l).arrays = s.arrays := by
  refine foldl_keeps State.arrays (fun u e => ?_) _ _
  split
  · rfl
  · exact u.bindProd_arrays ..

theorem State.bindParts_cons (s : State) (h : HiveId) (l : List (Nat × GenId)) (g : GenId) : ((s.bindParts h l).gen g).cons = (s.gen g).cons := by
  refine foldl_keeps (fun u : State => (u.gen g).cons) (fun u e => ?_) _ _
  split
  · rfl
  · exact u.cons_bindProd ..

section
variable {s : State} {h : HiveId}

/-! ## The barrier (R348, R349) -/

/-- The queues once every head has left. -/
def Joint.rest (j : Joint) : Joint := { j with queues := j.queues.map (fun e => (e.1, e.2.drop 1)) }

section
variable (harg : s.arg = .jointBarrier h)
include harg

theorem jointBarrier_waits (hno : (s.joint h).gangHeads = none) : exec .jointBarrier s = .next s := by
  change execJointBarrier s = _
  simp [execJointBarrier, harg, hno]

variable {hs : List (List Byte × Origin)} (hheads : (s.joint h).gangHeads = some hs)
include hheads

theorem jointBarrier_full (hfull : 4 ≤ (s.joint h).ops.length) : exec .jointBarrier s = .next s := by
  change execJointBarrier s = _
  unfold execJointBarrier
  rw [harg]
  simp only [hheads]
  exact if_pos hfull

variable {r : List Byte} {o : Origin} (hfirst : hs.head? = some (r, o)) (hroom : (s.joint h).ops.length < 4)
include hfirst hroom

theorem jointBarrier_queues (hsame : ∀ e ∈ hs, sharedOf e.1 = sharedOf r) : exec .jointBarrier s = .next (s.setJoint h
    { (s.joint h).rest with ops := (s.joint h).ops ++ [{ recs := hs.map Prod.fst, origins := hs.map Prod.snd }] }) := by
  have hr : (hs.map Prod.fst).headD [] = r := by
    rw [List.headD_eq_head?_getD, List.head?_map, hfirst]; rfl
  change execJointBarrier s = _
  unfold execJointBarrier
  rw [harg]
  simp only [hheads, hr]
  refine (if_neg (Nat.not_le.2 hroom)).trans (if_pos ?_)
  simpa using fun a b hab => hsame (a, b) hab

theorem jointBarrier_reports (hdiff : ∃ e ∈ hs, sharedOf e.1 ≠ sharedOf r) :
    exec .jointBarrier s = .next ((s.setJoint h (s.joint h).rest).reportHeads hs (mismatchH2 hs)) := by
  have hr : (hs.map Prod.fst).headD [] = r := by
    rw [List.headD_eq_head?_getD, List.head?_map, hfirst]; rfl
  change execJointBarrier s = _
  unfold execJointBarrier
  rw [harg]
  simp only [hheads, hr]
  refine (if_neg (Nat.not_le.2 hroom)).trans ((if_neg ?_).trans (congrArg Host.Outcome.next (List.foldl_ext _ _ _ fun u m _ => ?_)))
  · obtain ⟨⟨a, b⟩, hab, hne⟩ := hdiff
    simpa using ⟨a, ⟨b, hab⟩, hne⟩
  · cases hm : hs[m]? with
    | none => rfl
    | some e => simp only [mismatchH2, hm, hr]

end

/-! ## The head of the op queue (R349) -/

section
variable {o : Op} {l : List Op} (harg : s.arg = .opHeadCheck h) (hops : (s.joint h).ops = o :: l)
include harg hops

theorem opHeadCheck_waits (hwait : o.checked = true ∨ (o.gens h).any s.reconfPassed = true) : exec .opHeadCheck s = .next s := by
  change execOpHeadCheck s = _
  unfold execOpHeadCheck
  rw [harg]
  simp only [hops]
  exact if_pos (by rcases hwait with hw | hw <;> simp [hw])

variable (hnew : o.checked = false) (hfree : (o.gens h).any s.reconfPassed = false)
include hnew hfree

/-- An op that fails a check is dropped, and reported for each member. -/
theorem opHeadCheck_drops {d : Nat} (hfault : o.headFault s h = some d) :
    ∃ u, exec .opHeadCheck s = .next u ∧ u.arrays = (s.setJoint h { s.joint h with ops := l }).arrays := by
  change ∃ u, execOpHeadCheck s = .next u ∧ _
  unfold execOpHeadCheck
  rw [harg]
  simp only [hops, hfault]
  refine ⟨_, if_neg (by simp [hnew, hfree]), foldl_keeps State.arrays (fun u m => ?_) _ _⟩
  split
  · exact u.report_arrays ..
  · rfl

theorem opHeadCheck_binds (hok : o.headFault s h = none) : exec .opHeadCheck s = .next
    (((s.setJoint h { s.joint h with
        ops := { o with checked := true } :: l, partials := ((s.joint h).partials ++ (o.parts h).map Prod.snd).eraseDups }).bindReads h
      (o.gens h)).bindParts h (o.parts h)) := by
  change execOpHeadCheck s = _
  unfold execOpHeadCheck
  rw [harg]
  simp only [hops, hok]
  exact if_neg (by simp [hnew, hfree])

end

end

end Sys2Proof.Machine
end

section
/-! PROOF of O34, its second part: an op's blocks and its end (R350 to R354), the sums of a block (R96, R97), slice instructions (R355 to R359). -/

namespace Sys2Proof.Machine
open Sys2Proof

/-! ## An op (R350 to R354) -/

section
variable {s : State} {h : HiveId} {o : Op} {l : List Op} (hops : (s.joint h).ops = o :: l)
include hops

theorem opStart_waits (harg : s.arg = .opStart h) (hwait : (s.joint h).startReady = false ∨ thas s.moves h = true) :
    exec .opStart s = .next s := by
  change execOpStart s = _
  unfold execOpStart
  rw [harg]
  simp only [hops]
  exact if_pos (by rcases hwait with hw | hw <;> simp [hw])

/-- The array once its head op has started: the flag it waited for is cleared (R350, R352). -/
def Joint.started (j : Joint) (o : Op) (l : List Op) : Joint :=
  { j with ops := { o with started := true } :: l, shard := if o.rec0.opt 4 then j.shard &&& ~~~(1#16 <<< o.rec0.shard) else j.shard }

omit hops in
theorem Joint.startReady_of {j : Joint} (hops : j.ops = o :: l) (hchecked : o.checked = true) (hnew : o.started = false)
    (hflag : o.rec0.opt 4 = true → j.shard.getLsbD o.rec0.shard = true) (hbank : ∀ r ∈ j.runs, r.2.entry.eff.bank ≠ o.rec0.bank) :
    j.startReady = true := by
  have hflag' : (!o.rec0.opt 4 || j.shard.getLsbD o.rec0.shard) = true := by
    cases hopt : o.rec0.opt 4 with
    | false => rfl
    | true => exact hflag hopt
  simp only [Joint.startReady, hops, hchecked, hnew, hflag', Bool.not_false, Bool.and_self, Bool.true_and, List.all_eq_true, decide_eq_true_eq]
  exact hbank

/-- An ORDERED op starts from zero (R351). -/
theorem opStart_run (harg : s.arg = .opStart h) (hready : (s.joint h).startReady = true) (hmove : thas s.moves h = false) :
    exec .opStart s = .next (if o.rec0.mode = 1 then
        (s.setJoint h ((s.joint h).started o l)).onSlices h o.rec0.bank (fun _ x => { x with vals := [] }) 8
      else s.setJoint h ((s.joint h).started o l)) := by
  change execOpStart s = _
  unfold execOpStart
  rw [harg]
  simp only [hops]
  exact if_neg (by simp [hready, hmove])

theorem blockStart_run (harg : s.arg = .blockStart h) (hready : s.blockReady h = true) : exec .blockStart s = .next
    ((s.setJoint h { s.joint h with ops := { o with busy := true } :: l }).post .none (.blockEnd h) (opCycles o.rec0.fa)) := by
  change execBlockStart s = _
  unfold execBlockStart
  rw [harg]
  simp only [hready, hops]
  rfl

omit hops in
theorem blockStart_waits (harg : s.arg = .blockStart h) (hwait : s.blockReady h = false) : exec .blockStart s = .next s := by
  change execBlockStart s = _
  unfold execBlockStart
  rw [harg]
  exact if_neg (by simp [hwait])

/-- A block that does not empty its slots adds its products to every member's slice (R350, R351). -/
theorem blockEnd_run (harg : s.arg = .blockEnd h) (hbusy : o.busy = true) (hslot : (o.blk + 1) % o.perSlot s h ≠ 0) : exec .blockEnd s = .next
    ((s.onSlices h o.rec0.bank (fun m _ => s.blockSlice h o m) 8).setJoint h
      { s.joint h with ops := { o with busy := false, blk := o.blk + 1 } :: l }) := by
  change execBlockEnd s = _
  unfold execBlockEnd
  rw [harg]
  simp only [hops, hbusy, Bool.not_true, Bool.false_eq_true, if_false, if_neg hslot]
  refine congrArg (fun u : State => Host.Outcome.next (u.setJoint h _)) (List.foldl_ext _ _ _ fun u m hm => ?_)
  simp [List.mem_range.1 hm]

theorem opComplete_waits (harg : s.arg = .opComplete h) (hwait : (s.joint h).endReady h = false) : exec .opComplete s = .next s := by
  change execOpComplete s = _
  unfold execOpComplete
  rw [harg]
  simp only [hops]
  exact if_pos (by simp [hwait])

/-- Each ring has slot n full, as the op says once its partial slots are written (R353). -/
def State.fillParts (s : State) (n : Nat) (l : List (Nat × GenId)) : State :=
  l.foldl (fun s e => s.onGen e.2 (fun x => { x with full := x.full ++ [n] })) s

omit hops in
theorem State.fillParts_arrays (s : State) (n : Nat) (l : List (Nat × GenId)) : (s.fillParts n l).arrays = s.arrays :=
  foldl_keeps State.arrays (fun (u : State) (e : Nat × GenId) => u.onGen_arrays e.2 (fun x => { x with full := x.full ++ [n] })) l s

theorem opComplete_run (harg : s.arg = .opComplete h) (hready : (s.joint h).endReady h = true) (hmode : o.rec0.mode ≠ 1) :
    exec .opComplete s = .next (((s.fillParts o.rec0.shard (o.parts h)).onSlices h o.rec0.bank
      (fun _ x => { x with kind := o.rec0.kind, red := decide (o.rec0.mode = 2), seq := o.rec0.seq }) 8).setJoint h
        { s.joint h with ops := l }) := by
  change execOpComplete s = _
  unfold execOpComplete
  rw [harg]
  simp only [hops]
  exact (if_neg (by simp [hready])).trans (if_neg (by simp [hmode]))

end

/-! ## The sums of a block (R96, R97) -/

theorem int8_decode {x : Nat} (hx : x < 256) : (⟨8, true⟩ : IFmt).decode x = (BitVec.ofNat 8 x).toInt := by
  rw [BitVec.toInt_eq_toNat_cond, BitVec.toNat_ofNat, Nat.mod_eq_of_lt hx]
  by_cases hneg : 128 ≤ x
  · rw [if_neg (by omega)]
    simp [IFmt.decode, Nat.mod_eq_of_lt hx, hneg]
  · rw [if_pos (by omega)]
    simp [IFmt.decode, Nat.mod_eq_of_lt hx, hneg]

theorem blockSum_eq (l : List (Nat × Nat)) (hl : ∀ e ∈ l, e.1 < 256 ∧ e.2 < 256) :
    l.foldl (fun (t : Int) e => t + (⟨8, true⟩ : IFmt).decode e.1 * (⟨8, true⟩ : IFmt).decode e.2) 0 =
      (l.map (fun e => (BitVec.ofNat 8 e.1).toInt * (BitVec.ofNat 8 e.2).toInt)).sum := by
  have hmap : l.map (fun e => (⟨8, true⟩ : IFmt).decode e.1 * (⟨8, true⟩ : IFmt).decode e.2) =
      l.map (fun e => (BitVec.ofNat 8 e.1).toInt * (BitVec.ofNat 8 e.2).toInt) :=
    List.map_congr_left fun e he => by rw [int8_decode (hl e he).1, int8_decode (hl e he).2]
  rw [← hmap, List.sum_eq_foldl, List.foldl_map]

/-- A block of integers adds its exact sum, and says where that left the range (R96, R97). -/
theorem blockAdd_int {r : OpRec} (hr : r.fa = 5) (acc : BitVec 32) (a b : List Nat) (ea eb : Nat) (ha : ∀ x ∈ a, x < 256)
    (hb : ∀ x ∈ b, x < 256) :
    let p := ((a.zip b).map (fun e => (BitVec.ofNat 8 e.1).toInt * (BitVec.ofNat 8 e.2).toInt)).sum
    blockAdd r acc a b ea eb = (BitVec.ofInt 32 (acc.toInt + p), if -2 ^ 31 ≤ acc.toInt + p ∧ acc.toInt + p < 2 ^ 31 then 0 else flagIovf) := by
  intro p
  have hp : (a.zip b).foldl (fun (t : Int) e => t + (⟨8, true⟩ : IFmt).decode e.1 * (⟨8, true⟩ : IFmt).decode e.2) 0 = p :=
    blockSum_eq _ fun e he => ⟨ha _ (List.of_mem_zip he).1, hb _ (List.of_mem_zip he).2⟩
  rw [blockAdd, if_pos hr]
  simp only [hp, Bool.or_eq_true, decide_eq_true_eq]
  congr 1
  by_cases hin : -2 ^ 31 ≤ acc.toInt + p ∧ acc.toInt + p < 2 ^ 31
  · rw [if_pos hin, if_neg (by omega)]
  · rw [if_neg hin, if_pos (by omega)]

/-! ## Slice instructions (R348, R355 to R359) -/

section
variable {s : State} {h : HiveId} {m : Nat}

theorem State.joint_sliceEnd (s : State) (h : HiveId) (m : Nat) :
    (s.sliceEnd h m).joint h = { s.joint h with runs := tdel (s.joint h).runs m } := State.joint_setJoint _ _ _

theorem sliceStart_waits (harg : s.arg = .sliceStart h m) (hwait : (s.joint h).sliceReady m = false ∨ thas s.moves h = true) :
    exec .sliceStart s = .next s := by
  change execSliceStart s = _
  unfold execSliceStart
  rw [harg]
  exact if_pos (by rcases hwait with hw | hw <;> simp [hw])

/-- `jzero` clears its slice at once (R356). -/
theorem sliceStart_zeroes {b : Nat} {o : Origin} {l : List JEntry} (harg : s.arg = .sliceStart h m) (hready : (s.joint h).sliceReady m = true)
    (hmove : thas s.moves h = false) (hhead : tget (s.joint h).queues [] m = ⟨.jzero b, o⟩ :: l) : exec .sliceStart s = .next
      (((s.setJoint h { s.joint h with
          queues := tput (s.joint h).queues m l, runs := tput (s.joint h).runs m { entry := ⟨.jzero b, o⟩ } }).setSlice h m b
        { seq := (s.slice h m b).seq }).sliceEnd h m) := by
  change execSliceStart s = _
  unfold execSliceStart
  rw [harg]
  simp only [hhead]
  exact if_neg (by simp [hready, hmove, Eff.gens])

theorem jdrainComplete_fabric {b n : Nat} {rec : List Byte} {o : Origin} (harg : s.arg = .jdrainComplete h m)
    (hrun : tfind (s.joint h).runs m = some ⟨⟨.jdrain b rec, o⟩, 0, true, n⟩) (htarget : (DrainRec.of rec).target = 1) :
    exec .jdrainComplete s = .next ((s.drainFin h m (DrainRec.of rec)).sliceEnd h m) := by
  have hfabric : ¬ (DrainRec.of rec).target = 0 := by omega
  change execJdrainComplete s = _
  unfold execJdrainComplete
  rw [harg]
  simp only [hrun, hfabric, if_false]

theorem jdrainComplete_waits {b n k : Nat} {rec : List Byte} {o : Origin} (harg : s.arg = .jdrainComplete h m)
    (hrun : tfind (s.joint h).runs m = some ⟨⟨.jdrain b rec, o⟩, n + 1, true, k⟩) : exec .jdrainComplete s = .next s := by
  change execJdrainComplete s = _
  unfold execJdrainComplete
  rw [harg]
  simp only [hrun]

/-! ## Partial slots (R98, R359) -/

section
variable {b g n k z : Nat} {w : Bool} {o : Origin} (harg : s.arg = .partialCombine h m)
  (hrun : tfind (s.joint h).runs m = some ⟨⟨.jdrainO b g n, o⟩, k, w, z⟩)
include harg hrun

theorem partialCombine_waits (hwait : s.combineReady h m = false) : exec .partialCombine s = .next s := by
  change execPartialCombine s = _
  unfold execPartialCombine
  rw [harg]
  simp only [hrun]
  exact if_pos (by simp [hwait])

end

/-- The value i of partial slot k of a member's ring (R353). -/
def State.partialValue (s : State) (h : HiveId) (m g k i : Nat) : BitVec 32 :=
  BitVec.ofNat 32 (natOf (s.bytes (.tile (memberGen h m g).tile
    (((s.tileGen (memberGen h m g)).map StoreRec.base).getD 0 + 32768 * k + 4 * i)) 4))

/-- Combines one value of an INT32 slot (R98). -/
def intCombine (c : BitVec 32 × BitVec 7) (v : BitVec 32) : BitVec 32 × BitVec 7 :=
  (BitVec.ofInt 32 (c.1.toInt + v.toInt),
    c.2 ||| (if c.1.toInt + v.toInt < -(2 ^ 31 : Int) || (2 ^ 31 : Int) ≤ c.1.toInt + v.toInt then flagIovf else 0))

theorem intCombine_fst (c : BitVec 32 × BitVec 7) (v : BitVec 32) : (intCombine c v).1 = c.1 + v := by
  simp [intCombine, BitVec.ofInt_add]

/-- The slots' values are summed modulo 2^32. -/
theorem intCombine_foldl {f : Nat → BitVec 32} {x : Nat → Nat} (hf : ∀ k, f k = BitVec.ofNat 32 (x k)) (n : Nat) (c : BitVec 32 × BitVec 7) :
    ((List.range n).foldl (fun c k => intCombine c (f k)) c).1 = c.1 + BitVec.ofNat 32 ((List.range n).map x).sum := by
  induction n with
  | zero => simp
  | succ n ih =>
    rw [List.range_succ, List.foldl_append, List.foldl_cons, List.foldl_nil, intCombine_fst, ih, List.map_append, List.sum_append,
      BitVec.ofNat_add]
    simp [BitVec.add_assoc, hf]

/-- Value i of the slice once n slots are combined. -/
def State.combined (s : State) (h : HiveId) (m g n i : Nat) : BitVec 32 :=
  ((List.range (n - 1)).foldl (fun c k => intCombine c (s.partialValue h m g (k + 1) i)) (s.partialValue h m g 0 i, 0)).1

theorem State.combined_eq (s : State) (h : HiveId) (m g i : Nat) {n : Nat} (hn : 0 < n) {x : Nat → Nat}
    (hx : ∀ k, s.partialValue h m g k i = BitVec.ofNat 32 (x k)) : s.combined h m g n i = BitVec.ofNat 32 ((List.range n).map x).sum := by
  obtain ⟨n, rfl⟩ := Nat.exists_eq_succ_of_ne_zero (Nat.pos_iff_ne_zero.1 hn)
  rw [State.combined, intCombine_foldl (fun k => hx (k + 1)), List.range_succ_eq_map, List.map_cons, List.sum_cons, BitVec.ofNat_add, hx,
    List.map_map]
  rfl

/-- Combining INT32 slots writes their sums to the slice, empties the slots, and ends the instruction (R359). -/
theorem partialCombine_sums {b g n k z : Nat} {w : Bool} {o : Origin} (harg : s.arg = .partialCombine h m)
    (hrun : tfind (s.joint h).runs m = some ⟨⟨.jdrainO b g n, o⟩, k, w, z⟩) (hready : s.combineReady h m = true)
    (hkind : tget (s.joint h).part 1 (memberGen h m g, 0) = 2) :
    ∃ x : Slice, x.kind = 2 ∧ x.vals = (List.range 8192).map (s.combined h m g n) ∧ exec .partialCombine s =
      .next (((List.range n).foldl (fun s i => s.emptySlot (memberGen h m g) i) (s.setSlice h m b x)).sliceEnd h m) := by
  change ∃ x : Slice, _ ∧ _ ∧ execPartialCombine s = _
  unfold execPartialCombine
  rw [harg]
  simp only [hrun, hkind, if_true]
  refine ⟨_, rfl, ?_, if_neg (by simp [hready])⟩
  rw [List.map_map]
  generalize List.range 8192 = l
  exact List.map_congr_left fun i _ => rfl

/-- A slot that is emptied is not full, and emptying fills none. -/
theorem State.full_emptySlot (s : State) (g : GenId) (i : Nat) :
    ((s.emptySlot g i).gen g).full = (s.gen g).full.filter (· ≠ i) := by
  cases hprod : (s.gen g).prod with
  | none => simp [State.emptySlot, hprod]
  | some e => simp [State.emptySlot, hprod]

theorem State.full_emptySlots (s : State) (g : GenId) {n i : Nat} (hi : i < n) :
    i ∉ (((List.range n).foldl (fun s i => s.emptySlot g i) s).gen g).full := by
  refine foldl_brings (P := fun u : State => i ∉ (u.gen g).full) (List.mem_range.2 hi) (fun u => ?_) (fun u k hu => ?_) s
  · rw [State.full_emptySlot]; simp
  · rw [State.full_emptySlot]; exact fun hin => hu (List.mem_filter.1 hin).1

end

end Sys2Proof.Machine

namespace Sys2Proof
open Machine

/-- Settles O34: the barrier, the head of the queue and the op by the array's state; the sum of a block; the slice instructions. -/
theorem jointArrayRuns : Obligations.JointArrayRuns := by
  refine ⟨fun s h => ⟨jointBarrier_waits, fun hs harg hheads hfull => jointBarrier_full harg hheads hfull,
      fun hs r o harg hheads hfirst hroom => ⟨fun hsame => jointBarrier_queues harg hheads hfirst hroom hsame, fun hdiff => ?_⟩,
      fun o l harg hops hwait => opHeadCheck_waits harg hops hwait, fun o l harg hops hnew hfree => ⟨fun d hfault => ?_, fun hok => ?_⟩⟩,
    fun s h o l hops => ⟨fun harg hwait => opStart_waits hops harg hwait, fun harg hchecked hnew hflag hbank hmove => ?_,
      fun harg hready => blockStart_run hops harg hready, fun harg hwait => blockStart_waits harg hwait,
      fun harg hbusy hslot => ⟨_, blockEnd_run hops harg hbusy hslot, ?_⟩, fun harg hwait => opComplete_waits hops harg hwait,
      fun harg hready hmode => ⟨_, opComplete_run hops harg hready hmode, ?_⟩⟩,
    fun r acc a b ea eb hr _ _ ha hb => ?_,
    fun s h m o => ⟨sliceStart_waits, fun b l harg hready hmove hhead => ⟨_, sliceStart_zeroes harg hready hmove hhead, ?_⟩,
      fun b rec n harg hrun htarget => jdrainComplete_fabric harg hrun htarget, fun b rec n k harg hrun => jdrainComplete_waits harg hrun,
      fun b g n x harg hrun hwait => partialCombine_waits harg hrun hwait, fun b g n k w z harg hrun hn hfull hkind => ?_⟩⟩
  · obtain ⟨hmem, hjoints, hslices⟩ := State.arrays_eq_iff.1 (State.reportHeads_arrays (s.setJoint h (s.joint h).rest) hs (mismatchH2 hs))
    refine ⟨_, jointBarrier_reports harg hheads hfirst hroom hdiff, hmem, hslices, ?_, mismatchH2 hs, rfl⟩
    rw [State.joint_of_arrays (State.reportHeads_arrays ..), State.joint_setJoint]
    rfl
  · obtain ⟨u, hrun, hu⟩ := opHeadCheck_drops harg hops hnew hfree hfault
    obtain ⟨hmem, -, hslices⟩ := State.arrays_eq_iff.1 hu
    exact ⟨u, hrun, hmem, hslices, by rw [State.joint_of_arrays hu, State.joint_setJoint]⟩
  · have hu := (State.bindParts_arrays ((s.setJoint h { s.joint h with
        ops := { o with checked := true } :: l, partials := ((s.joint h).partials ++ (o.parts h).map Prod.snd).eraseDups }).bindReads h
      (o.gens h)) h (o.parts h)).trans (State.bindReads_arrays _ _ _)
    obtain ⟨hmem, -, hslices⟩ := State.arrays_eq_iff.1 hu
    refine ⟨_, opHeadCheck_binds harg hops hnew hfree hok, hmem, hslices, by rw [State.joint_of_arrays hu, State.joint_setJoint], fun e he => ?_⟩
    rw [State.bindParts_cons]
    exact State.bindReads_cons _ _ (List.mem_append_left _ (List.mem_map_of_mem he))
  · have hrun := opStart_run hops harg (Joint.startReady_of hops hchecked hnew hflag hbank) hmove
    by_cases hmode : o.rec0.mode = 1
    · rw [if_pos hmode] at hrun
      refine ⟨_, hrun, State.onSlices_keeps _ _ _ _ State.mem (fun _ _ _ _ _ => rfl) _, ?_, fun hno => absurd hmode hno, fun _ m hm => ?_⟩
      · rw [State.onSlices_keeps _ _ _ _ (fun u : State => u.joint h) (fun _ _ _ _ _ => rfl), State.joint_setJoint]
        rfl
      · rw [State.slice_onSlices, if_pos hm]
    · rw [if_neg hmode] at hrun
      exact ⟨_, hrun, rfl, State.joint_setJoint .., fun _ => rfl, fun hyes => absurd hyes hmode⟩
  · refine ⟨State.onSlices_keeps _ _ _ _ State.mem (fun _ _ _ _ _ => rfl) _, State.joint_setJoint ..,
      State.onSlices_keeps _ _ _ _ State.gens (fun _ _ _ _ _ => rfl) _, fun m hm => ?_⟩
    exact (State.slice_onSlices ..).trans (if_pos hm)
  · obtain ⟨hmem, -, hslices⟩ := State.arrays_eq_iff.1 (State.fillParts_arrays s o.rec0.shard (o.parts h))
    refine ⟨(State.onSlices_keeps _ _ _ _ State.mem (fun _ _ _ _ _ => rfl) _).trans hmem, State.joint_setJoint .., fun m hm => ?_⟩
    refine (State.slice_onSlices ..).trans ((if_pos hm).trans ?_)
    rw [State.slice, hslices]
    rfl
  · have hsum := blockAdd_int hr acc a b ea eb ha hb
    exact ⟨congrArg Prod.fst hsum, congrArg Prod.snd hsum⟩
  · refine ⟨rfl, State.slice_setSlice .., ?_⟩
    rw [State.joint_sliceEnd]
    refine ⟨?_, tfind_tdel_same _ _⟩
    exact (congrArg (fun j : Joint => tget j.queues [] m) (State.joint_setJoint ..)).trans (tget_tput_same _ _ _ _)
  · have hready : s.combineReady h m = true := by
      simpa [State.combineReady, hrun] using hfull
    obtain ⟨x, hx, hvals, hexec⟩ := partialCombine_sums harg hrun hready hkind
    have hu : ((List.range n).foldl (fun s i => s.emptySlot (memberGen h m g) i) (s.setSlice h m b x)).arrays = (s.setSlice h m b x).arrays :=
      foldl_keeps State.arrays (fun u i => u.emptySlot_arrays _ i) _ _
    obtain ⟨hmem, -, hslices⟩ := State.arrays_eq_iff.1 hu
    have hslice : ((List.range n).foldl (fun s i => s.emptySlot (memberGen h m g) i) (s.setSlice h m b x)).slice h m b = x := by
      rw [State.slice, hslices]
      exact State.slice_setSlice ..
    refine ⟨_, hexec, hmem, (congrArg Slice.kind hslice).trans hx, ?_, fun i hi => State.full_emptySlots _ _ hi, fun i hi => ?_⟩
    · rw [State.joint_sliceEnd]
      exact tfind_tdel_same _ _
    · have hvalue (k : Nat) : s.partialValue h m g k i = BitVec.ofNat 32 (BitVec.ofNat 64 (natOf (s.bytes (.tile (memberGen h m g).tile
          (((s.tileGen (memberGen h m g)).map StoreRec.base).getD 0 + 32768 * k + 4 * i)) 4))).toNat := by
        rw [BitVec.ofNat_toNat, BitVec.setWidth_ofNat_of_le (by decide)]
        rfl
      refine (congrArg (fun y : Slice => y.vals[i]?) hslice).trans ?_
      rw [hvals, List.getElem?_map, List.getElem?_range hi, Option.map_some, s.combined_eq h m g i hn hvalue]

end Sys2Proof
end

section
/-! PROOF of O39. Links (R418 to R421): what a receiver takes, replays, spares and training; routers (R417, R461). -/

namespace Sys2Proof.Machine
open Sys2Proof

/-! ## What a receiver takes (R418, R419) -/

@[simp] theorem State.link_setLink (s : State) (n : Nat) (l : Link) : (s.setLink n l).link n = l := tget_tput_same _ _ _ _

@[simp] theorem State.link_linkSays (s : State) (k n : Nat) (m : LinkMsg) : (s.linkSays k m).link n = s.link n := rfl

section
variable {s : State} {rx : Rx} {k : Nat}

theorem State.receive_nothing (h : s.linkUp rx.link = false ∨ (s.link rx.link).change ≠ none) : s.receive rx k = (s, false) := by
  refine if_pos ?_
  rcases h with h | h
  · simp [h]
  · simp [Option.isSome_iff_ne_none.2 h]

section
variable (hup : s.linkUp rx.link = true) (hchange : (s.link rx.link).change = none)
include hup hchange

theorem State.receive_stray (hseq : rx.seq ≠ (s.link rx.link).rseq) :
    s.receive rx k = (s.linkSays rx.link (.flitAck (s.link rx.link).rseq), false) :=
  (if_neg (by simp [hup, hchange])).trans (if_pos hseq)

variable (hseq : rx.seq = (s.link rx.link).rseq)
include hseq

/-- The last good flit of a message. -/
theorem State.receive_good (hbad : rx.bad = none) : (s.receive rx k).2 = true ∧
    ((s.receive rx k).1.link rx.link).rseq = (s.link rx.link).rseq + BitVec.ofNat 12 (k - (s.link rx.link).rpart) := by
  have hrec : s.receive rx k = _ := (if_neg (by simp [hup, hchange])).trans (if_neg (not_not_intro hseq))
  rw [hrec, hbad]
  exact ⟨rfl, congrArg Link.rseq (tget_tput_same _ _ _ _)⟩

/-- A flit that fails its CRC is asked for again. -/
theorem State.receive_bad {b lane : Nat} (hbad : rx.bad = some (b, lane)) : (s.receive rx k).2 = false ∧
    ∃ o ∈ (s.receive rx k).1.netOut, o.link = rx.link ∧
      o.msg = .replay ((s.link rx.link).rseq + BitVec.ofNat 12 (min b (k - (s.link rx.link).rpart - 1))) := by
  have hrec : s.receive rx k = _ := (if_neg (by simp [hup, hchange])).trans (if_neg (not_not_intro hseq))
  rw [hrec, hbad]
  exact ⟨rfl, _, List.mem_append_right _ (List.mem_singleton_self _), rfl, rfl⟩

end

theorem State.receive_whole_iff : (s.receive rx k).2 = true ↔
    s.linkUp rx.link = true ∧ (s.link rx.link).change = none ∧ rx.seq = (s.link rx.link).rseq ∧ rx.bad = none := by
  constructor
  · intro h
    have hup : s.linkUp rx.link = true := by
      by_contra hno
      rw [State.receive_nothing (.inl (by simpa using hno))] at h
      exact Bool.false_ne_true h
    have hchange : (s.link rx.link).change = none := by
      by_contra hno
      rw [State.receive_nothing (.inr hno)] at h
      exact Bool.false_ne_true h
    have hseq : rx.seq = (s.link rx.link).rseq := by
      by_contra hno
      rw [State.receive_stray hup hchange hno] at h
      exact Bool.false_ne_true h
    refine ⟨hup, hchange, hseq, ?_⟩
    cases hbad : rx.bad with
    | none => rfl
    | some b => exact absurd h (by rw [(State.receive_bad hup hchange hseq hbad).1]; exact Bool.false_ne_true)
  · exact fun ⟨hup, hchange, hseq, hbad⟩ => (State.receive_good hup hchange hseq hbad).1

theorem State.receive_tables (s : State) (rx : Rx) (k : Nat) :
    (s.receive rx k).1.node = s.node ∧ (s.receive rx k).1.jobs = s.jobs ∧ (s.receive rx k).1.accepts = s.accepts ∧
    (s.receive rx k).1.flows = s.flows ∧ (s.receive rx k).1.viols = s.viols := by
  obtain ⟨l, o, hu⟩ := s.receive_keeps rx k
  rw [hu]
  exact ⟨rfl, rfl, rfl, rfl, rfl⟩

end

/-! ## Replays (R418, R420) -/

/-- A link that has been asked to send from flit q again (R418). -/
def Link.asked (l : Link) (q : BitVec 12) : Link :=
  { l with replays := l.replays + 1, tries := if 0 < l.tries ∧ l.tryOf = q then l.tries + 1 else 1, tryOf := q }

section
variable {s : State} {n : Nat}

section
variable {seq : Nat} (harg : s.arg = .replayRequest n seq)
include harg

theorem replayRequest_void
    (h : s.linkUp n = false ∨ (s.link n).unacked - (s.link n).held ≤ (s.link n).before (BitVec.ofNat 12 seq)) :
    exec .replayRequest s = .next s := by
  change execReplayRequest s = _
  unfold execReplayRequest
  rw [harg]
  exact if_pos (by rcases h with h | h <;> simp [h])

variable (hup : s.linkUp n = true) (hin : (s.link n).before (BitVec.ofNat 12 seq) < (s.link n).unacked - (s.link n).held)
include hup hin

theorem replayRequest_run : exec .replayRequest s = .next
    (if 16 ≤ ((s.link n).asked (BitVec.ofNat 12 seq)).tries then (s.setLink n ((s.link n).asked (BitVec.ofNat 12 seq))).linkLost n
     else if (s.link n).change.isSome then s.setLink n { (s.link n).asked (BitVec.ofNat 12 seq) with again := some (BitVec.ofNat 12 seq) }
     else (s.setLink n ((s.link n).asked (BitVec.ofNat 12 seq))).replayFrom n (BitVec.ofNat 12 seq)) := by
  change execReplayRequest s = _
  unfold execReplayRequest
  rw [harg]
  refine (if_neg (by simp [hup]; omega)).trans ?_
  simp only [Bool.and_eq_true, decide_eq_true_eq]
  rw [apply_ite Host.Outcome.next, apply_ite Host.Outcome.next]
  rfl

end

/-- The flits of the buffer, from flit q onward. -/
theorem State.replayFrom_setLink (l : Link) (q : BitVec 12) : (s.setLink n l).replayFrom n q =
    { s.setLink n l with netOut := s.netOut ++ (dropFlits l.buf (l.before q)).map (fun o => { o with again := true }) } := by
  rw [State.replayFrom, State.link_setLink]
  rfl

theorem linkFlitAck_run {k : Nat} (harg : s.arg = .linkFlitAck n k) (hup : s.linkUp n = true) (hpos : 0 < k)
    (hk : k ≤ (s.link n).unacked - (s.link n).held) :
    exec .linkFlitAck s = .next (s.setLink n { s.link n with buf := dropFlits (s.link n).buf k, tries := 0 }).netGo := by
  change execLinkFlitAck s = _
  unfold execLinkFlitAck
  rw [harg]
  exact if_pos (by simp [hup, hpos, hk])

/-! ## Lanes and training (R419, R420) -/

section
variable {lane : Nat} (harg : s.arg = .laneSpare n lane)
include harg

theorem laneSpare_unblamed (hb : (s.link n).blamed lane = false) : exec .laneSpare s = .next s := by
  change execLaneSpare s = _
  unfold execLaneSpare
  rw [harg]
  exact if_pos (by simp [hb])

theorem laneSpare_run (hup : s.linkUp n = true) (hlane : lane < 8) (hb : (s.link n).blamed lane = true) : exec .laneSpare s =
    if (s.link n).spared = true then .next (s.linkLost n)
    else .next ((s.setLink n { s.link n with
      spared := true, lane := lane, change := some (s.cycle + 12500), blame := (s.link n).blame.filter (fun b => b.1 ≠ lane) }).eventOwner
        (linkDie n) 0x00C [fld n 0 ||| fld lane 8]) := by
  change execLaneSpare s = _
  unfold execLaneSpare
  rw [harg]
  exact if_neg (by simp [hup, hb, hlane])

end

/-- A link whose change of lanes has ended. -/
def State.laneDone (s : State) (n : Nat) : State := s.setLink n { s.link n with change := none, again := none, held := 0 }

theorem laneSpareDone_run (harg : s.arg = .laneSpareDone n) (hchange : (s.link n).change ≠ none) : exec .laneSpareDone s =
    .next (match (s.link n).again with
      | some q => (s.laneDone n).replayFrom n q
      | none => (s.laneDone n).sendHeld n (s.link n).held).netGo := by
  change execLaneSpareDone s = _
  unfold execLaneSpareDone
  rw [harg]
  exact if_pos (Option.isSome_iff_ne_none.2 hchange)

theorem State.sendHeld_laneDone (s : State) (n : Nat) : (s.laneDone n).sendHeld n (s.link n).held =
    { s.laneDone n with netOut := (s.laneDone n).netOut ++ dropFlits (s.link n).buf ((s.link n).unacked - (s.link n).held) } := by
  rw [State.sendHeld, State.laneDone, State.link_setLink]
  rfl

theorem linkDown_run (harg : s.arg = .linkDown n) : exec .linkDown s = .next (if s.linkUp n = true then s.linkLost n else s) := by
  change execLinkDown s = _
  unfold execLinkDown
  rw [harg, apply_ite Host.Outcome.next]

section
variable {ok : Bool} {peer : Nat} (harg : s.arg = .linkTrain n ok peer) (hport : linkAbsent s.part n = false) (hn : n < 25)
  (hdown : (s.link n).st ≠ 2) (hoff : (s.link n).off = false)
include harg hport hn hdown hoff

theorem linkTrain_ends (hst : (s.link n).st = 1) :
    exec .linkTrain s = .next (if ok = true then s.linkBack n peer else s.setLink n { s.link n with st := 0 }) := by
  change execLinkTrain s = _
  unfold execLinkTrain
  rw [harg]
  exact (if_neg (by simp [hport, hdown, hoff]; omega)).trans (if_pos hst)

theorem linkTrain_down (hst : (s.link n).st ≠ 1) : exec .linkTrain s =
    if s.cycle < (s.link n).train then .next s else .next (s.setLink n { s.link n with st := 1, train := s.cycle + 1250000 }) := by
  change execLinkTrain s = _
  unfold execLinkTrain
  rw [harg]
  exact (if_neg (by simp [hport, hdown, hoff]; omega)).trans (if_neg hst)

end

end

/-! ## Routers (R417, R461) -/

section
variable {s : State} {link : Nat} {p : NetPkt}

theorem State.packetCame_passes (hdst : p.dst ≠ s.node) (ok : Bool) : s.packetCame link p ok = s.pumpWait ⟨p, some link⟩ := if_pos hdst

section
variable (hdst : p.dst = s.node)
include hdst

/-- A packet that is no piece of a window, and whose seal fails, is counted and discarded. -/
theorem State.packetCame_forged {k : Nat} (hsid : p.sid = some k) (hjob : thas s.jobs k = true) (hbody : ∀ r, p.body ≠ .window r) :
    s.packetCame link p false = { s with viols := tput s.viols k (tget s.viols 0 k + 1) } := by
  unfold State.packetCame
  simp only [hsid]
  refine (if_neg (not_not_intro hdst)).trans ((if_pos (by simp [hjob])).trans ?_)
  cases hp : p.body with
  | window r => exact absurd hp (hbody r)
  | _ => rfl

theorem State.packetCame_adaptive (hord : p.ordered = false) : s.packetCame link p true = s.deliver link p := by
  unfold State.packetCame
  exact (if_neg (not_not_intro hdst)).trans ((if_neg (by simp)).trans (if_pos (by simp [hord])))

variable (hord : p.ordered = true)
include hord

theorem State.packetCame_next (hseq : p.seq = tget s.accepts 0 (p.src, p.vnet, p.prio)) : s.packetCame link p true =
    ((({ s with accepts := tput s.accepts (p.src, p.vnet, p.prio) (p.seq + 1) } : State).countNet p.sid false).deliver link p).sendAck
      none none s.node p.src p.vnet p.prio p.seq := by
  unfold State.packetCame
  refine (if_neg (not_not_intro hdst)).trans ((if_neg (by simp)).trans ((if_neg (by simp [hord])).trans ((if_pos hseq).trans ?_)))
  rw [← hseq]

theorem State.packetCame_other (hseq : p.seq ≠ tget s.accepts 0 (p.src, p.vnet, p.prio)) : s.packetCame link p true =
    if tget s.accepts 0 (p.src, p.vnet, p.prio) = 0 then s
    else s.sendAck none none s.node p.src p.vnet p.prio (tget s.accepts 0 (p.src, p.vnet, p.prio) - 1) := by
  unfold State.packetCame
  exact (if_neg (not_not_intro hdst)).trans ((if_neg (by simp)).trans ((if_neg (by simp [hord])).trans (if_neg hseq)))

end

theorem routerAccept_run {rx : Rx} {ok : Bool} (harg : s.arg = .routerAccept rx p ok) : exec .routerAccept s =
    .next (s.received (some rx) (linkFlits p.framed p.body.flits) (fun s => s.packetCame rx.link p ok)) := by
  change execRouterAccept s = _
  unfold execRouterAccept
  rw [harg]

/-! ## Acknowledgements and resends (R417) -/

theorem routerAck_run {rx : Rx} {src dst vnet prio seq : Nat} {ring : Option RingPos} (harg : s.arg = .routerAck rx src dst vnet prio seq ring) :
    exec .routerAck s = .next (s.received (some rx) 1 (fun s => s.ackCame rx.link ring src dst vnet prio seq)) := by
  change execRouterAck s = _
  unfold execRouterAck
  rw [harg]

/-- A flow once every packet up to a number is acknowledged. -/
def Flow.acked (f : Flow) (seq : Nat) : Flow := { f with kept := f.kept.filter (fun x => seq < x.pkt.seq) }

/-- A flow whose packets are all to be sent again. -/
def Flow.unsent (f : Flow) : Flow := { f with kept := f.kept.map (fun x => { x with sent := false }) }

theorem routerResend_run {dst vnet prio : Nat} (harg : s.arg = .routerResend dst vnet prio) : exec .routerResend s =
    if s.resendDue (dst, vnet, prio) = true then
      .next ({ s with flows := tput s.flows (dst, vnet, prio) (tget s.flows {} (dst, vnet, prio)).unsent } : State).netGo
    else .next s := by
  change execRouterResend s = _
  unfold execRouterResend
  split
  · next d v q hq =>
    obtain ⟨rfl, rfl, rfl⟩ := Ev.routerResend.inj (harg.symm.trans hq)
    rfl
  · next hnot => exact absurd harg (hnot _ _ _)

end

end Sys2Proof.Machine

namespace Sys2Proof
open Machine

/-- Settles O39: a receiver by the link's state and the flit, replays by their count, lanes and training by the link's state; a packet by its
destination, seal and number, an acknowledgement by its destination, a resend by the oldest packet. -/
theorem linksAndRouters : Obligations.LinksAndRouters := by
  refine ⟨fun s n l hl => ?_, fun s => ⟨fun rx p ok harg => ?_, fun rx src dst vnet prio seq ring f harg hf => ?_,
    fun dst vnet prio f harg hf => ?_⟩⟩
  · subst hl
    refine ⟨fun rx k hrx => ?_, fun seq q m harg hq hm => ?_, fun k harg hup hpos hk => linkFlitAck_run harg hup hpos hk,
      fun lane harg hup hlane => ⟨laneSpare_unblamed harg, fun hb hsp => ?_, fun hb hsp => ?_⟩, fun harg hchange => ⟨fun hno => ?_, fun q hq => ?_⟩,
      linkDown_run, fun ok peer harg hport hn hdown hoff => ⟨fun hst hearly => ?_, fun hst hdue => ?_, linkTrain_ends harg hport hn hdown hoff⟩⟩
    · subst hrx
      exact ⟨State.receive_whole_iff, fun h => congrArg Prod.fst (State.receive_nothing h),
        fun hup hchange hseq => congrArg Prod.fst (State.receive_stray hup hchange hseq),
        fun hup hchange hseq hbad => (State.receive_good hup hchange hseq hbad).2,
        fun b lane hup hchange hseq hbad => (State.receive_bad hup hchange hseq hbad).2⟩
    · subst hq
      obtain rfl : m = (s.link n).asked (BitVec.ofNat 12 seq) := hm
      refine ⟨replayRequest_void harg, fun hup hin htries hchange => ?_, fun hup hin htries hchange => ?_, fun hup hin htries => ?_⟩
      · rw [replayRequest_run harg hup hin, if_neg (Nat.not_le.2 htries), if_neg (by simp [hchange]), State.replayFrom_setLink]
        rfl
      · rw [replayRequest_run harg hup hin, if_neg (Nat.not_le.2 htries), if_pos (Option.isSome_iff_ne_none.2 hchange)]
      · rw [replayRequest_run harg hup hin, if_pos htries]
    · rw [laneSpare_run harg hup hlane hb, if_pos hsp]
    · rw [laneSpare_run harg hup hlane hb, if_neg (by simp [hsp])]
    · rw [laneSpareDone_run harg hchange, hno, State.sendHeld_laneDone]
      rfl
    · rw [laneSpareDone_run harg hchange, hq]
      rfl
    · rw [linkTrain_down harg hport hn hdown hoff hst, if_pos hearly]
    · rw [linkTrain_down harg hport hn hdown hoff hst, if_neg (Nat.not_lt.2 hdue)]
  · obtain ⟨hnode, hjobs, haccepts, -, hviols⟩ := s.receive_tables rx (linkFlits p.framed p.body.flits)
    refine ⟨fun hpart => ?_, fun hwhole => ?_⟩
    · rw [routerAccept_run harg, State.received_part hpart]
    rw [routerAccept_run harg, State.received_whole hwhole, ← hnode, ← hjobs, ← haccepts]
    refine ⟨fun hdst => ?_, fun k hdst hok hsid hjob hbody => ?_, fun hdst hok hord => ?_, fun hdst hok hord hseq => ?_,
      fun hdst hok hord hseq => ?_⟩
    · rw [State.packetCame_passes hdst]
    · rw [hok, State.packetCame_forged hdst hsid hjob hbody, hviols]
    · rw [hok, State.packetCame_adaptive hdst hord]
    · rw [hok, State.packetCame_next hdst hord hseq]
    · rw [hok, State.packetCame_other hdst hord hseq]
  · subst hf
    obtain ⟨hnode, -, -, hflows, -⟩ := s.receive_tables rx 1
    refine ⟨fun hpart => ?_, fun hwhole hdst => ?_, fun hwhole hdst => ?_⟩
    · rw [routerAck_run harg, State.received_part hpart]
    · rw [routerAck_run harg, State.received_whole hwhole, State.ackCame, if_pos (hnode ▸ hdst)]
    · rw [routerAck_run harg, State.received_whole hwhole, State.ackCame, if_neg (not_not_intro (hnode ▸ hdst)), hflows]
  · subst hf
    refine ⟨fun x r hkept hsent hdue => ?_, fun hkept => ?_⟩
    · rw [routerResend_run harg, if_pos (by simp [State.resendDue, hkept, hsent, hdue])]
      rfl
    · rw [routerResend_run harg, if_neg (by simp [State.resendDue, hkept])]

end Sys2Proof
end

section
/-! PROOFS of O37 and O38, the common layer: what the work on planes, generators and collective nodes leaves of the memory and of the
lockkeepers' tables (R389 to R391). -/

namespace Sys2Proof.Machine
open Sys2Proof Sys2Proof.Safety

/-- What stands in memory, the instances, the saves and restores under way, and the cycle. -/
def State.books (s : State) : List Host.Cell × Tbl InstId Inst × Tbl InstId Save × Nat := (s.mem, s.insts, s.saves, s.cycle)

section
variable {s u : State} (h : u.books = s.books)
include h

theorem State.mem_of_books : u.mem = s.mem := congrArg Prod.fst h
theorem State.insts_of_books : u.insts = s.insts := congrArg (·.2.1) h
theorem State.saves_of_books : u.saves = s.saves := congrArg (·.2.2.1) h
theorem State.cycle_of_books : u.cycle = s.cycle := congrArg (·.2.2.2) h
theorem State.inst_of_books (i : InstId) : u.inst i = s.inst i := congrArg (tfind · i) (State.insts_of_books h)

end

theorem State.books_of_besideSends {s u : State} (h : u.besideSends = s.besideSends) : u.books = s.books := by
  have hbeside : u.besideSends.books = s.besideSends.books := by rw [h]
  exact hbeside

@[simp] theorem State.post_books (s : State) (ch : Chan) (e : Ev) (n : Nat) : (s.post ch e n).books = s.books := rfl
@[simp] theorem State.setPlane_books (s : State) (p : PlaneId) (x : Plane) : (s.setPlane p x).books = s.books := rfl
@[simp] theorem State.onPlane_books (s : State) (p : PlaneId) (f : Plane → Plane) : (s.onPlane p f).books = s.books := rfl
@[simp] theorem State.setGen_books (s : State) (g : GenId) (x : Gen) : (s.setGen g x).books = s.books := rfl
@[simp] theorem State.onGen_books (s : State) (g : GenId) (f : Gen → Gen) : (s.onGen g f).books = s.books := rfl
@[simp] theorem State.setColl_books (s : State) (i : InstId) (n : Nat) (c : CollNode) : (s.setColl i n c).books = s.books := rfl
@[simp] theorem State.ackArc_books (s : State) (p : PlaneId) (ch : Nat) : (s.ackArc p ch).books = s.books := rfl
@[simp] theorem State.setHaul_books (s : State) (c : CoreId) (tag : Nat) (h : Haul) : (s.setHaul c tag h).books = s.books := rfl
@[simp] theorem State.rearrive_books (s : State) (g : GraphOp) : (s.rearrive g).books = s.books := rfl
@[simp] theorem State.ite_books (p : Prop) [Decidable p] (s t : State) : (if p then s else t).books = if p then s.books else t.books :=
  apply_ite State.books p s t

@[simp] theorem State.again_books (s : State) (l : List GraphOp) : (s.again l).books = s.books :=
  foldl_keeps State.books (fun u g => u.rearrive_books g) l s

@[simp] theorem State.graphDone_books (s : State) (g : GraphOp) (status detail : Nat) : (s.graphDone g status detail).books = s.books := by
  simp [State.graphDone]

/-! ## Arcs and collective nodes -/

@[simp] theorem State.collNext_books (s : State) (i : InstId) (n : Nat) : (s.collNext i n).books = s.books := by
  simp only [State.collNext]
  split
  · rfl
  · split <;> rfl

@[simp] theorem State.ackTo_books (s : State) (p : PlaneId) (ch : Nat) : (s.ackTo p ch).books = s.books := by
  simp only [State.ackTo]
  split <;> simp

@[simp] theorem State.isectStep_books (s : State) (p : PlaneId) (ch : Nat) : (s.isectStep p ch).books = s.books := by
  simp only [State.isectStep]
  split
  · rfl
  · split
    · rfl
    · split
      · split <;> simp
      · rfl

@[simp] theorem State.arrive_books (s : State) (p : PlaneId) (ch : Nat) (t : Token) (n : Nat) : (s.arrive p ch t n).books = s.books := by
  simp [State.arrive]

theorem State.sendCopy_books {s t : State} {x : EgressCopy} (h : s.sendCopy x = some t) : t.books = s.books := by
  simp only [State.sendCopy] at h
  split at h
  · obtain ⟨u, hu, rfl⟩ := Option.map_eq_some_iff.1 h
    exact State.books_of_besideSends ((State.countFrames_besideSends _ _ _ _).trans (State.emit_besideSends hu))
  · split at h
    · cases h; exact State.books_of_besideSends (State.toNet_besideSends _ _ _ _)
    · cases h

theorem State.sendCopies_books (l : List EgressCopy) (s : State) : (s.sendCopies l).1.books = s.books := by
  induction l generalizing s with
  | nil => rfl
  | cons x r ih =>
    simp only [State.sendCopies]
    split
    · next t ht => rw [ih, State.sendCopy_books ht]
    · rfl

@[simp] theorem State.pumpEgress_books (s : State) (k : Nat × Nat × Nat) : (s.pumpEgress k).books = s.books := by
  refine foldl_keeps (fun a : State × List (List EgressCopy) => a.1.books) (fun a t => ?_) _ (s, [])
  dsimp only
  split
  · rfl
  · exact State.sendCopies_books _ _

@[simp] theorem State.toEgress_books (s : State) (k : Nat × Nat × Nat) (t : List EgressCopy) : (s.toEgress k t).books = s.books := by
  simp only [State.toEgress]
  split
  · rfl
  · exact State.pumpEgress_books _ _

@[simp] theorem State.collOut_books (s : State) (c : CollNode) (g : Group) (l : List (CollMsg × NetBody)) : (s.collOut c g l).books = s.books := by
  simp [State.collOut]

@[simp] theorem State.collSpread_books (s : State) (c : CollNode) (g : Group) (l : List CollMsg) (body : CollMsg → NetBody)
    (ev : CollMsg → Ev) : (s.collSpread c g l body ev).books = s.books := by
  rw [State.collSpread, State.collOut_books]
  exact foldl_keeps State.books (fun _ _ => State.post_books _ _ _ _) _ s

@[simp] theorem State.collSend_books (s : State) (c : CollNode) (g : Group) (l : List CollMsg) : (s.collSend c g l).books = s.books := by
  simp [State.collSend]

@[simp] theorem State.collOffer_books (s : State) (c : CollNode) (g : Group) (m : CollMsg) : (s.collOffer c g m).books = s.books := by
  simp [State.collOffer, State.resultSend]

@[simp] theorem State.collTake_books (s : State) (i : InstId) (n : Nat) : (s.collTake i n).books = s.books := by
  simp only [State.collTake]
  split
  · rfl
  · split
    · simp
    · rfl

@[simp] theorem State.collGive_books (s : State) (i : InstId) (n : Nat) (t : Token) : (s.collGive i n t).books = s.books := by
  simp only [State.collGive]
  split <;> simp

@[simp] theorem State.sendArc_books (s : State) (p : PlaneId) (ch : Nat) (t : Token) : (s.sendArc p ch t).books = s.books := by
  simp only [State.sendArc]
  split <;> simp

@[simp] theorem State.putPort_books (s : State) (p : PlaneId) (port : BitVec 5) (t : Token) : (s.putPort p port t).books = s.books := by
  simp [State.putPort, State.pushTok]

@[simp] theorem State.pushDone_books (s : State) (p : PlaneId) : (s.pushDone p).books = s.books := by
  have ports (u : State) (l : List (BitVec 5)) (t : Token) : (l.foldl (fun s q => s.putPort p q t) u).books = u.books :=
    foldl_keeps State.books (fun _ _ => State.putPort_books _ _ _ _) l u
  simp only [State.pushDone]
  split
  · rfl
  · refine foldl_keeps State.books (fun u a => ?_) _ s
    split
    · simp [ports]
    · rfl

/-! ## Generators -/

@[simp] theorem State.emitTowpath_books (s : State) (c : CoreId) (code : Nat) : (s.emitTowpath c code).books = s.books := by
  simp only [State.emitTowpath]
  split <;> simp

@[simp] theorem State.emptySlot_books (s : State) (g : GenId) (n : Nat) : (s.emptySlot g n).books = s.books := by
  simp only [State.emptySlot]
  split <;> rfl

@[simp] theorem State.genPump_books (s : State) (g : GenId) : (s.genPump g).books = s.books := by
  simp only [State.genPump]
  split
  · split
    · rfl
    · split
      · split
        · split <;> rfl
        · rfl
      · split
        · rfl
        · simp [State.placePort]
  · rfl

/-! ## Nodes -/

@[simp] theorem State.freeze_books (s : State) (b : Bool) (n : NodeId) : (s.freeze b n).books = s.books := by
  cases n with
  | plane p => rfl
  | gen g => rfl
  | coll i k => simp only [State.freeze]; split <;> rfl

@[simp] theorem State.thaw_books (s : State) (n : NodeId) : (s.thaw n).books = s.books := by
  cases n with
  | plane p => simp [State.thaw]
  | gen g => simp [State.thaw]
  | coll i k =>
    have hfrozen := s.freeze_books false (.coll i k)
    simp only [State.thaw]
    split <;> simp [hfrozen]

@[simp] theorem State.sendMarks_books (s : State) (i : InstId) (t : Token) (n : NodeId) : (s.sendMarks i t n).books = s.books := by
  cases n with
  | plane p =>
    exact (foldl_keeps State.books (fun u g => u.onGen_books g _) _ _).trans
      (foldl_keeps State.books (fun u _ => u.sendArc_books p _ t) _ s)
  | gen g => rfl
  | coll j k => simp only [State.sendMarks]; split <;> rfl

/-! ## An image in its graph (R393, R394) -/

@[simp] theorem State.loadElem_books (s : State) (i : InstId) (r : List Byte) : (s.loadElem i r).books = s.books := rfl
@[simp] theorem State.loadIsect_books (s : State) (i : InstId) (r : List Byte) : (s.loadIsect i r).books = s.books := rfl

@[simp] theorem State.claim_books (s : State) (i : InstId) (img : List Byte) : (s.claim i img).books = s.books := by
  refine (foldl_keeps State.books (fun _ _ => ?_) _ _).trans ?_
  · rfl
  refine (foldl_keeps State.books (fun _ _ => ?_) _ _).trans ?_
  · rfl
  refine (foldl_keeps State.books (fun u r => u.loadIsect_books i r) _ _).trans ?_
  refine foldl_keeps State.books (fun u t => ?_) _ s
  exact foldl_keeps State.books (fun _ _ => State.setPlane_books _ _ _) t.elems u

@[simp] theorem State.loadWire_books (s : State) (i : InstId) (init : Bool) (r : List Byte) : (s.loadWire i init r).books = s.books := by
  simp [State.loadWire]

@[simp] theorem State.loadColls_books (s : State) (i : InstId) : (s.loadColls i).books = s.books := by
  refine foldl_keeps State.books (fun _ _ => ?_) _ s
  rfl

@[simp] theorem State.loadImage_books (s : State) (i : InstId) (img : List Byte) (init : Bool) : (s.loadImage i img init).books = s.books := by
  refine (State.loadColls_books _ i).trans ?_
  refine (foldl_keeps State.books (fun u r => u.loadWire_books i init r) _ _).trans ?_
  refine (foldl_keeps State.books (fun u r => u.loadIsect_books i r) _ _).trans ?_
  exact foldl_keeps State.books (fun u r => u.loadElem_books i r) _ s

/-! ## The table of instances -/

@[simp] theorem State.inst_setInst (s : State) (i : InstId) (x : Inst) : (s.setInst i x).inst i = some x := tfind_tput_same ..
theorem State.inst_setInst_other (s : State) {i j : InstId} (x : Inst) (h : j ≠ i) : (s.setInst i x).inst j = s.inst j := tfind_tput_other _ _ h

theorem State.onInst_some {s : State} {i : InstId} {x : Inst} (h : s.inst i = some x) (f : Inst → Inst) : s.onInst i f = s.setInst i (f x) := by
  rw [State.onInst, h]

theorem State.settle_some {s : State} {i : InstId} {x : Inst} (h : s.inst i = some x) :
    s.settle i = (s.setInst i { x with waitq := [] }).again x.waitq := by
  rw [State.settle, h]

/-- A graph that settles keeps its entry but for what waited (R391). -/
theorem State.settle_inst {s : State} {i : InstId} {x : Inst} (h : s.inst i = some x) :
    (s.settle i).mem = s.mem ∧ (s.settle i).inst i = some { x with waitq := [] } := by
  have hagain := (s.setInst i { x with waitq := [] }).again_books x.waitq
  rw [State.settle_some h]
  exact ⟨(State.mem_of_books hagain).trans (State.setInst_mem ..), (State.inst_of_books hagain i).trans (State.inst_setInst ..)⟩

/-- What is sent stays sent while operations that waited arrive again. -/
theorem State.mem_pending_again {s : State} {p : Pend} (h : p ∈ s.pending) (l : List GraphOp) : p ∈ (s.again l).pending := by
  induction l generalizing s with
  | nil => exact h
  | cons g r ih => exact ih (s := s.rearrive g) (List.mem_append_left _ h)

theorem State.mem_pending_settle {s : State} {p : Pend} (h : p ∈ s.pending) (i : InstId) : p ∈ (s.settle i).pending := by
  cases hinst : s.inst i with
  | none => simpa [State.settle, hinst] using h
  | some x => rw [State.settle_some hinst]; exact State.mem_pending_again (s := s.setInst i _) h _

/-- The completion of a graph operation, with its status (R392). -/
theorem State.graphDone_sends (s : State) {g : GraphOp} {status : Nat} (detail : Nat) (hop : g.op < 256) (hstatus : status < 128) :
    ∃ c, ⟨.barge (.lock (bitsN g.place 22 22)) g.origin.core 5, s.cycle + 1, .completionArrival g.origin.core c⟩ ∈
      (s.graphDone g status detail).pending ∧ bitsN c.w0 22 16 = status := by
  rw [State.graphDone, if_neg (Nat.not_le.2 hop)]
  refine ⟨_, List.mem_append_right _ (List.mem_singleton_self _), ?_⟩
  have hplace : bitsN g.place 22 0 < 2 ^ 23 := Nat.mod_lt _ (by omega)
  have hcode : (fld g.op 0).toNat = g.op := by rw [fld, BitVec.toNat_ofNat]; omega
  have hmark : (fld g.op 0 ||| fld 1 15).toNat = g.op + 2 ^ 15 := by rw [or_fld_toNat (by omega) (by omega), hcode, Nat.one_mul]
  have hword : (fld g.op 0 ||| fld 1 15 ||| fld status 16).toNat = g.op + 2 ^ 15 + status * 2 ^ 16 := by
    rw [or_fld_toNat (by omega) (by omega), hmark]
  rw [bitsN, or_fld_toNat (by omega) (by omega), hword]
  omega

end Sys2Proof.Machine
end

section
/-! PROOF of O37: instances load (R390 to R394) and are swapped (R398 to R400). -/

namespace Sys2Proof.Machine
open Sys2Proof Sys2Proof.Safety

/-! ## Reservation (R393) -/

section
variable {s : State} {g : GraphOp} (harg : s.arg = .graphReserve g)
include harg

theorem graphReserve_stale (hasks : (s.ctx g.thread).awaiting g.ask = none) : exec .graphReserve s = .next s := by
  change execGraphReserve s = _
  unfold execGraphReserve
  rw [harg]
  exact if_pos (by simp [hasks])

variable (hasks : (s.ctx g.thread).awaiting g.ask ≠ none)
include hasks

theorem graphReserve_early (hturn : s.inTurn g = false) : exec .graphReserve s = .next (s.rearrive g) := by
  change execGraphReserve s = _
  unfold execGraphReserve
  rw [harg]
  exact (if_neg (by simp [hasks])).trans (if_pos (by simp [hturn]))

variable (hturn : s.inTurn g = true)
include hturn

theorem graphReserve_saving (hsave : thas s.saves (s.placeInst g.origin.sid g.place) = true) :
    exec .graphReserve s = .next (s.putOff (s.placeInst g.origin.sid g.place) g) := by
  change execGraphReserve s = _
  unfold execGraphReserve
  rw [harg]
  exact (if_neg (by simp [hasks])).trans ((if_neg (by simp [hturn])).trans (if_pos hsave))

variable (hsave : thas s.saves (s.placeInst g.origin.sid g.place) = false)
include hsave

theorem graphReserve_taken {n : Inst} (hinst : s.inst (s.placeInst g.origin.sid g.place) = some n) :
    exec .graphReserve s = .next (s.post .none (.loadReply g.thread g.ask 0 .refused)) := by
  change execGraphReserve s = _
  unfold execGraphReserve
  rw [harg]
  exact (if_neg (by simp [hasks])).trans ((if_neg (by simp [hturn])).trans ((if_neg (by simp [hsave])).trans (if_pos (by simp [hinst]))))

variable (hinst : s.inst (s.placeInst g.origin.sid g.place) = none)
include hinst

theorem graphReserve_behind {j : InstId} (hbehind : s.behind [s.placeInst g.origin.sid g.place] = some j) :
    exec .graphReserve s = .next (s.putOff j g) := by
  change execGraphReserve s = _
  unfold execGraphReserve
  rw [harg]
  refine (if_neg (by simp [hasks])).trans ((if_neg (by simp [hturn])).trans ((if_neg (by simp [hsave])).trans
    ((if_neg (by simp [hinst])).trans ((if_pos (by simp [hbehind])).trans ?_))))
  rw [hbehind]

/-- A reservation that nothing keeps waiting is judged, with its graph as RESERVED (R393). -/
theorem graphReserve_judged (hbehind : s.behind [s.placeInst g.origin.sid g.place] = none) :
    let i := s.placeInst g.origin.sid g.place
    let r := s.newInst g.origin.sid g.place .reserved
    let img := s.image g.origin.sid r.image
    exec .graphReserve s = (match (s.setInst i r).judge i img with
      | .no => .next (s.post .none (.loadReply g.thread g.ask 0 .refused))
      | .wait j => .next (s.waitOn j g)
      | .ok => .next (((s.setInst i r).claim i img).post .none (.loadReply g.thread g.ask 0 (.reserved (.comp 0) 0)))) := by
  change execGraphReserve s = _
  unfold execGraphReserve
  rw [harg]
  exact (if_neg (by simp [hasks])).trans ((if_neg (by simp [hturn])).trans ((if_neg (by simp [hsave])).trans
    ((if_neg (by simp [hinst])).trans (if_neg (by simp [hbehind])))))

end

/-- What a reservation takes stands with its graph RESERVED, and its thread is answered. -/
theorem State.claimed (s : State) (i : InstId) (r : Inst) (img : List Byte) (e : Ev) :
    let u := ((s.setInst i r).claim i img).post .none e
    u.mem = s.mem ∧ u.inst i = some r ∧ ⟨.none, s.cycle, e⟩ ∈ u.pending := by
  intro u
  have hclaim := (s.setInst i r).claim_books i img
  refine ⟨(State.mem_of_books hclaim).trans (State.setInst_mem ..), (State.inst_of_books hclaim i).trans (State.inst_setInst ..), ?_⟩
  have hcycle : ((s.setInst i r).claim i img).cycle = s.cycle := (State.cycle_of_books hclaim).trans rfl
  rw [← hcycle]
  exact List.mem_append_right _ (List.mem_singleton_self _)

/-! ## Loading (R394) -/

theorem gloadPerform_run {s : State} {g : GraphOp} {n : Inst} (harg : s.arg = .gloadPerform g)
    (hinst : s.inst (s.placeInst g.origin.sid g.place) = some n) (hst : n.st = .reserved) :
    let i := s.placeInst g.origin.sid g.place
    let v := s.performed g.origin.core g.rel
    exec .gloadPerform s = .next (((v.setInst i { n with st := .loading, wave := some { op := g } }).loadImage i (v.image n.sid n.image) true).post
      (.loads i.die) (.gloadDone i)) := by
  intro i v
  change execGloadPerform s = _
  unfold execGloadPerform
  rw [harg]
  have hinst' : (s.performed g.origin.core g.rel).inst (s.placeInst g.origin.sid g.place) = some n := hinst
  simp only [hinst', hst, if_true]
  rfl

theorem State.loaded (s : State) (i : InstId) (n : Inst) (img : List Byte) (ch : Chan) (e : Ev) :
    let u := ((s.setInst i n).loadImage i img true).post ch e
    u.mem = s.mem ∧ u.inst i = some n ∧ ⟨ch, s.cycle, e⟩ ∈ u.pending := by
  intro u
  have hload := (s.setInst i n).loadImage_books i img true
  refine ⟨(State.mem_of_books hload).trans (State.setInst_mem ..), (State.inst_of_books hload i).trans (State.inst_setInst ..), ?_⟩
  have hcycle : ((s.setInst i n).loadImage i img true).cycle = s.cycle := (State.cycle_of_books hload).trans rfl
  rw [← hcycle]
  exact List.mem_append_right _ (List.mem_singleton_self _)

theorem gloadDone_run {s : State} {i : InstId} {n : Inst} {w : Wave} (harg : s.arg = .gloadDone i) (hinst : s.inst i = some n)
    (hst : n.st = .loading) (hwave : n.wave = some w) :
    exec .gloadDone s = .next (((s.setInst i { n with st := .shadow, wave := none }).graphDone w.op 0 0).settle i) := by
  change execGloadDone s = _
  unfold execGloadDone
  rw [harg]
  simp only [hinst]
  rw [hst, hwave]

/-- A graph whose entry changes, whose operation completes and which settles. -/
theorem State.done_settled (s : State) (i : InstId) (n : Inst) (g : GraphOp) (status detail : Nat) :
    let u := ((s.setInst i n).graphDone g status detail).settle i
    u.mem = s.mem ∧ u.inst i = some { n with waitq := [] } := by
  intro u
  have hdone := (s.setInst i n).graphDone_books g status detail
  obtain ⟨hmem, hinst⟩ := State.settle_inst ((State.inst_of_books hdone i).trans (State.inst_setInst ..))
  exact ⟨hmem.trans ((State.mem_of_books hdone).trans (State.setInst_mem ..)), hinst⟩

/-! ## The swap (R398) -/

section
variable {s : State} {g : GraphOp} (harg : s.arg = .gswapPerform g)
include harg

theorem gswapPerform_early (hturn : s.inTurn g = false) :
    exec .gswapPerform s = .next ((s.performed g.origin.core g.rel).rearrive g) := by
  have hturn' : (s.performed g.origin.core g.rel).inTurn g = false := hturn
  change execGswapPerform s = _
  unfold execGswapPerform
  rw [harg]
  exact if_pos (by simp [hturn'])

variable (hturn : s.inTurn g = true)
include hturn

theorem gswapPerform_waits {j : InstId} (hwait : s.mustWait g = some j) :
    exec .gswapPerform s = .next ((s.performed g.origin.core g.rel).putOff j g) := by
  have hturn' : (s.performed g.origin.core g.rel).inTurn g = true := hturn
  have hwait' : (s.performed g.origin.core g.rel).mustWait g = some j := hwait
  change execGswapPerform s = _
  unfold execGswapPerform
  rw [harg]
  refine (if_neg (by simp [hturn'])).trans ?_
  rw [hwait']

variable (hwait : s.mustWait g = none) {x : Inst} (hinst : s.inst (s.placeInst g.origin.sid g.place) = some x)
  (hown : ∀ e ∈ s.gens, ∀ c, e.2.pend = some c → c.inst ≠ s.placeInst g.origin.sid g.place)
include hwait hinst hown

omit harg hturn hwait hinst in
theorem pending_none : ((s.gens.filter (fun e => match e.2.pend with
    | some c => c.inst = s.placeInst g.origin.sid g.place | none => false)).map Prod.fst) = [] := by
  rw [List.map_eq_nil_iff, List.filter_eq_nil_iff]
  intro e he
  split
  · next c hc => simpa using hown e he c hc
  · simp

theorem gswapPerform_alone (hother : g.other = none) : exec .gswapPerform s =
    let v := s.performed g.origin.core g.rel
    .next (if x.st = .shadow then (v.setInst (s.placeInst g.origin.sid g.place) { x with st := .active }).graphDone g 0 0 else v.graphDone g 2 0) := by
  have hturn' : (s.performed g.origin.core g.rel).inTurn g = true := hturn
  have hwait' : (s.performed g.origin.core g.rel).mustWait g = none := hwait
  have hinst' : (s.performed g.origin.core g.rel).inst ((s.performed g.origin.core g.rel).placeInst g.origin.sid g.place) = some x := hinst
  change execGswapPerform s = _
  unfold execGswapPerform
  rw [harg]
  refine (if_neg (by simp [hturn'])).trans ?_
  simp only [hwait', hother, Option.map_none, hinst', apply_ite Host.Outcome.next]
  exact if_congr (by rw [Bool.and_eq_true, decide_eq_true_iff]; exact and_iff_left (decide_eq_true (pending_none hown))) rfl rfl

theorem gswapPerform_retires {w : Word} {y : Inst} (hother : g.other = some w) (hold : s.inst (s.placeInst g.origin.sid w) = some y)
    (hst : x.st = .shadow) (hold_st : y.st = .active) : exec .gswapPerform s = .next ((s.performed g.origin.core g.rel).setInst
      (s.placeInst g.origin.sid w) { y with st := .swapping, wave := some { op := g, new := some (s.placeInst g.origin.sid g.place) } }) := by
  have hturn' : (s.performed g.origin.core g.rel).inTurn g = true := hturn
  have hwait' : (s.performed g.origin.core g.rel).mustWait g = none := hwait
  have hinst' : (s.performed g.origin.core g.rel).inst ((s.performed g.origin.core g.rel).placeInst g.origin.sid g.place) = some x := hinst
  have hold' : (s.performed g.origin.core g.rel).inst ((s.performed g.origin.core g.rel).placeInst g.origin.sid w) = some y := hold
  change execGswapPerform s = _
  unfold execGswapPerform
  rw [harg]
  refine (if_neg (by simp [hturn'])).trans ?_
  simp only [hwait', hother, Option.map_some, hinst', hold']
  refine if_pos ?_
  rw [hst, hold_st, Bool.and_eq_true]
  exact ⟨rfl, (congrArg (List.all · _) (pending_none hown)).trans rfl⟩

end

/-- What works on a graph of its own keeps an operation waiting (R391). -/
theorem State.mustWait_unsettled {s : State} {g : GraphOp} (hbehind : s.behind (s.opInsts g) = none) {k : InstId}
    (hfind : (s.opInsts g).find? s.unsettled = some k) : s.mustWait g = some k := by
  simp only [State.mustWait, hbehind]
  exact hfind

/-! ## Nodes pass RECONF (R399) -/

/-- A marker stops no plane. -/
theorem State.sendArc_recorded {t : Token} (hmark : t.marker = true) (s : State) (p q : PlaneId) (ch : Nat) :
    ((s.sendArc p ch t).plane q).recorded = (s.plane q).recorded := by
  simp only [State.sendArc]
  split
  · split
    · next d c hd hnear =>
      rw [State.arrive_marker hmark]
      by_cases hq : q = d
      · subst hq; rw [State.plane_setPlane]
      · rw [State.plane_setPlane_other _ _ hq]
    · rfl
  · simp only [State.collGive]
    split
    · rfl
    · rw [if_pos hmark]; rfl
  · rfl

theorem State.sendMarks_recorded {t : Token} (hmark : t.marker = true) (s : State) (i : InstId) (p : PlaneId) :
    ((s.sendMarks i t (.plane p)).plane p).recorded = (s.plane p).recorded := by
  refine (foldl_keeps (fun u : State => (u.plane p).recorded) (fun _ _ => ?_) _ _).trans ?_
  · rfl
  · exact foldl_keeps (fun u : State => (u.plane p).recorded) (fun u _ => u.sendArc_recorded hmark p p _) _ s

theorem reconfPass_run {s : State} {i : InstId} {n : NodeId} (harg : s.arg = .reconfPass i n) :
    exec .reconfPass s = if s.passNow i n then .next (((s.freeze true n).sendMarks i { kind := .reconf } n).onInst i (fun x =>
      { x with wave := x.wave.map (fun w => { w with passed := w.passed ++ [n], strays := w.strays ++ s.strays n }) })) else .next s := by
  change execReconfPass s = _
  unfold execReconfPass
  rw [harg]

/-- A plane that a marker wave has reached: it is stopped, and its graph's wave is noted. -/
theorem State.planePassed {s : State} {i : InstId} {x : Inst} (hinst : s.inst i = some x) (p : PlaneId) {t : Token} (hmark : t.marker = true)
    (f : Inst → Inst) : let u := ((s.freeze true (.plane p)).sendMarks i t (.plane p)).onInst i f
    u.mem = s.mem ∧ (u.plane p).recorded = true ∧ u.inst i = some (f x) := by
  intro u
  have hbooks : ((s.freeze true (.plane p)).sendMarks i t (.plane p)).books = s.books := by rw [State.sendMarks_books, State.freeze_books]
  have hu : u = ((s.freeze true (.plane p)).sendMarks i t (.plane p)).setInst i (f x) :=
    State.onInst_some ((State.inst_of_books hbooks i).trans hinst) f
  have hrec : (((s.freeze true (.plane p)).sendMarks i t (.plane p)).plane p).recorded = true := by
    rw [State.sendMarks_recorded hmark, State.freeze, State.plane_onPlane]
  rw [hu]
  exact ⟨(State.setInst_mem ..).trans (State.mem_of_books hbooks), hrec, State.inst_setInst ..⟩

/-! ## The swap ends (R400) -/

theorem State.again_planes (s : State) (l : List GraphOp) : (s.again l).planes = s.planes :=
  foldl_keeps State.planes (fun u g => (rfl : (u.rearrive g).planes = u.planes)) l s

theorem State.dropInst_mem (s : State) (i : InstId) : (s.dropInst i).mem = s.mem := by
  rw [State.dropInst, State.mem_of_books (State.again_books _ _)]

@[simp] theorem State.dropInst_insts (s : State) (i : InstId) : (s.dropInst i).insts = tdel s.insts i := by
  rw [State.dropInst, State.insts_of_books (State.again_books _ _)]

theorem State.dropInst_planes (s : State) (i : InstId) : (s.dropInst i).planes = s.planes.filter (fun e => e.2.inst ≠ some i) :=
  State.again_planes _ _

theorem State.graphDone_planes (s : State) (g : GraphOp) (status detail : Nat) : (s.graphDone g status detail).planes = s.planes := by
  rw [State.graphDone]; split <;> rfl

/-- What a table gives for a key stands in it, or is the default. -/
theorem tget_mem_or {κ ν : Type} [DecidableEq κ] (t : Tbl κ ν) (d : ν) (k : κ) : tget t d k = d ∨ ∃ e ∈ t, e.2 = tget t d k := by
  induction t with
  | nil => exact .inl rfl
  | cons e r ih =>
    rw [tget]
    split
    · exact .inr ⟨e, List.mem_cons_self, rfl⟩
    · rcases ih with hd | ⟨y, hy, hval⟩
      · exact .inl hd
      · exact .inr ⟨y, List.mem_cons_of_mem _ hy, hval⟩

/-- No plane is left with a graph that was dropped. -/
theorem State.dropInst_plane (s : State) (i : InstId) (p : PlaneId) : ((s.dropInst i).plane p).inst ≠ some i := by
  rw [State.plane, State.dropInst_planes]
  rcases tget_mem_or (s.planes.filter (fun e => e.2.inst ≠ some i)) {} p with hd | ⟨e, he, hval⟩
  · rw [hd]; exact nofun
  · rw [← hval]; simpa using (List.mem_filter.1 he).2

theorem swapEnd_waits {s : State} {i : InstId} (harg : s.arg = .swapEnd i) (hover : s.swapOver i = false) : exec .swapEnd s = .next s := by
  change execSwapEnd s = _
  unfold execSwapEnd
  rw [harg]
  exact if_pos (by simp [hover])

theorem swapEnd_run {s : State} {i j : InstId} {x : Inst} {w : Wave} (harg : s.arg = .swapEnd i) (hover : s.swapOver i = true)
    (hinst : s.inst i = some x) (hwave : x.wave = some w) (hstrays : w.strays = []) (hnew : w.new = some j) :
    exec .swapEnd s = .next ((((s.dropInst i).onInst j (fun y => { y with st := .active })).graphDone w.op 0 0).settle j) := by
  change execSwapEnd s = _
  unfold execSwapEnd
  rw [harg]
  refine (if_neg (by simp [hover])).trans ?_
  simp only [hinst, hwave, hstrays, hnew, firstStray]

/-- A swap without strays: the old graph is FREE with all its planes, the new one ACTIVE. -/
theorem State.swapped (s : State) {i j : InstId} (hne : j ≠ i) {y : Inst} (hinst : s.inst j = some y) (g : GraphOp) :
    let u := (((s.dropInst i).onInst j (fun y => { y with st := .active })).graphDone g 0 0).settle j
    u.mem = s.mem ∧ u.inst i = none ∧ u.inst j = some { y with st := .active, waitq := [] } ∧ ∀ p, (u.plane p).inst ≠ some i := by
  intro u
  have hj : (s.dropInst i).inst j = some y := by rw [State.inst, State.dropInst_insts, tfind_tdel_other _ hne]; exact hinst
  obtain ⟨v, hv⟩ : ∃ v, v = ((s.dropInst i).setInst j { y with st := .active }).graphDone g 0 0 := ⟨_, rfl⟩
  have hvbooks : v.books = ((s.dropInst i).setInst j { y with st := .active }).books := by rw [hv, State.graphDone_books]
  have hvinst : v.inst j = some { y with st := .active } := (State.inst_of_books hvbooks j).trans (State.inst_setInst ..)
  have hu : u = (v.setInst j { y with st := .active, waitq := [] }).again y.waitq := by
    simp only [u]
    rw [State.onInst_some hj, ← hv, State.settle_some hvinst]
  have hubooks : u.books = (v.setInst j { y with st := .active, waitq := [] }).books := by rw [hu, State.again_books]
  refine ⟨?_, ?_, ?_, fun p => ?_⟩
  · rw [State.mem_of_books hubooks, State.setInst_mem, State.mem_of_books hvbooks, State.setInst_mem, State.dropInst_mem]
  · rw [State.inst_of_books hubooks, State.inst_setInst_other _ _ hne.symm, State.inst_of_books hvbooks, State.inst_setInst_other _ _ hne.symm,
      State.inst, State.dropInst_insts, tfind_tdel_same]
  · rw [State.inst_of_books hubooks, State.inst_setInst]
  · have hplanes : u.planes = (s.dropInst i).planes := by
      rw [hu, State.again_planes]
      change v.planes = _
      rw [hv, State.graphDone_planes]
      rfl
    rw [State.plane, hplanes]
    exact s.dropInst_plane i p

end Sys2Proof.Machine

namespace Sys2Proof
open Machine

/-- Settles O37: each step's branches in their order, over what claiming, loading and the waves of markers leave of the instances. -/
theorem instancesLoadAndSwap : Obligations.InstancesLoadAndSwap := by
  unfold Obligations.InstancesLoadAndSwap
  refine ⟨fun s g i n hi => ?_, fun s g i j x y => ?_⟩
  · subst hi
    refine ⟨graphReserve_stale, graphReserve_early, fun harg hasks hturn => ⟨graphReserve_saving harg hasks hturn,
      fun hinst hsave => graphReserve_taken harg hasks hturn hsave hinst,
      fun j hinst hsave => graphReserve_behind harg hasks hturn hsave hinst, fun hinst hsave hbehind hno => ?_,
      fun hinst hsave hbehind hok => ⟨_, ?_, s.claimed _ _ (s.image g.origin.sid (s.newInst g.origin.sid g.place .reserved).image) _⟩⟩, fun harg hinst hst => ⟨_, gloadPerform_run harg hinst hst, State.loaded ..⟩,
      fun w harg hinst hst hwave => ?_⟩
    · rw [graphReserve_judged harg hasks hturn hsave hinst hbehind, hno]
    · rw [graphReserve_judged harg hasks hturn hsave hinst hbehind, hok]
    · obtain ⟨hmem, hsettled⟩ := s.done_settled (s.placeInst g.origin.sid g.place) { n with st := .shadow, wave := none } w.op 0 0
      refine ⟨_, gloadDone_run harg hinst hst hwave, hmem, hsettled, fun hop => ?_⟩
      obtain ⟨c, hsent, hstatus⟩ := (s.setInst (s.placeInst g.origin.sid g.place) { n with st := .shadow, wave := none }).graphDone_sends 0 hop
        (status := 0) (by omega)
      exact ⟨c, State.mem_pending_settle hsent _, hstatus⟩
  · refine ⟨gswapPerform_early, fun harg hturn => gswapPerform_waits harg hturn, fun hbehind k => State.mustWait_unsettled hbehind,
      fun harg hi hturn hwait hinst hown => ?_, fun n harg hno => ?_, fun p w harg hpass hinst hwave => ?_, swapEnd_waits,
      fun w harg hover hinst hwave hstrays hnew hne hj => ⟨_, swapEnd_run harg hover hinst hwave hstrays hnew, s.swapped hne hj w.op⟩⟩
    · subst hi
      refine ⟨fun hother hst => ?_, fun hother hst => ?_, fun w hother hj hold hst hold_st => ?_⟩
      · have hdone := ((s.performed g.origin.core g.rel).setInst (s.placeInst g.origin.sid g.place) { x with st := .active }).graphDone_books g 0 0
        refine ⟨_, (gswapPerform_alone harg hturn hwait hinst hown hother).trans (congrArg Host.Outcome.next (if_pos hst)), ?_, ?_⟩
        · exact (State.mem_of_books hdone).trans rfl
        · exact (State.inst_of_books hdone _).trans (State.inst_setInst ..)
      · have hdone := (s.performed g.origin.core g.rel).graphDone_books g 2 0
        exact ⟨_, (gswapPerform_alone harg hturn hwait hinst hown hother).trans (congrArg Host.Outcome.next (if_neg hst)),
          State.mem_of_books hdone, State.insts_of_books hdone⟩
      · subst hj
        exact ⟨_, gswapPerform_retires harg hturn hwait hinst hown hother hold hst hold_st, rfl, State.inst_setInst ..⟩
    · rw [reconfPass_run harg, hno]
      rfl
    · obtain ⟨hmem, hrec, hnoted⟩ := State.planePassed hinst p (t := { kind := .reconf }) rfl (fun x =>
        { x with wave := x.wave.map (fun w => { w with passed := w.passed ++ [.plane p], strays := w.strays ++ s.strays (.plane p) }) })
      refine ⟨_, (reconfPass_run harg).trans (if_pos hpass), hmem, hrec, hnoted.trans ?_⟩
      rw [hwave, Option.map_some]

end Sys2Proof
end

section
/-! PROOF of O38: instances are cut (R401, R402), saved (R405, R407) and restored (R408). -/

namespace Sys2Proof.Machine
open Sys2Proof Sys2Proof.Safety

/-! ## gmark (R402) -/

/-- A graph at which a swap or cut works has not settled (R391). -/
theorem State.unsettled_marking {s : State} {i : InstId} {x : Inst} (hinst : s.inst i = some x) (hst : x.st = .marking) :
    s.unsettled i = true := by
  simp [State.unsettled, State.instSt, hinst, hst]

/-- An operation that need not wait finds its own graph settled. -/
theorem State.settled_of_mustWait {s : State} {g : GraphOp} (hwait : s.mustWait g = none) :
    s.unsettled (s.placeInst g.origin.sid g.place) = false := by
  simp only [State.mustWait] at hwait
  split at hwait
  · cases hwait
  · simpa using List.find?_eq_none.1 hwait _ List.mem_cons_self

section
variable {s : State} {g : GraphOp} (harg : s.arg = .gmarkPerform g) (hop : g.op < 256) (hturn : s.inTurn g = true)
  (hwait : s.mustWait g = none) {x : Inst} (hinst : s.inst (s.placeInst g.origin.sid g.place) = some x)
include harg hop hturn hwait hinst

theorem gmarkPerform_run : exec .gmarkPerform s = .next (if x.st = .active then
      (s.performed g.origin.core g.rel).setInst (s.placeInst g.origin.sid g.place)
        { x with st := .marking, wave := some { op := g, id := g.arg.toNat, now := decide (g.arg = 0xFFFF) } }
    else (s.performed g.origin.core g.rel).graphDone g 2 0) := by
  have hturn' : (s.performed g.origin.core g.rel).inTurn g = true := hturn
  have hwait' : (s.performed g.origin.core g.rel).mustWait g = none := hwait
  have hinst' : (s.performed g.origin.core g.rel).inst (s.placeInst g.origin.sid g.place) = some x := hinst
  have hst : x.st ≠ .marking := fun h => Bool.false_ne_true ((State.settled_of_mustWait hwait).symm.trans (State.unsettled_marking hinst h))
  change execGmarkPerform s = _
  unfold execGmarkPerform
  rw [harg]
  simp only [if_neg (Nat.not_le.2 hop), hinst']
  refine (if_neg (by simp [hturn'])).trans ((if_neg (by simp [hst])).trans ?_)
  rw [hwait', apply_ite Host.Outcome.next]

end

/-! ## A node records (R402) -/

theorem nodeRecord_waits {s : State} {i : InstId} {n : NodeId} (harg : s.arg = .nodeRecord i n) (hready : s.nodeReady i n = false) :
    exec .nodeRecord s = .next s := by
  change execNodeRecord s = _
  unfold execNodeRecord
  rw [harg]
  exact if_pos (by simp [hready])

/-- A plane that records for a cut, before its graph's wave is noted: it sends its MARK at once where nothing keeps it. -/
def State.planeRecorded (s : State) (i : InstId) (p : PlaneId) (w : Wave) : State :=
  let u := s.freeze true (.plane p)
  if u.markNow (.plane p) then u.sendMarks i { kind := .mark, data := BitVec.ofNat 128 w.id } (.plane p) else u

theorem State.planeRecorded_books (s : State) (i : InstId) (p : PlaneId) (w : Wave) : (s.planeRecorded i p w).books = s.books := by
  simp [State.planeRecorded]

theorem State.planeRecorded_recorded (s : State) (i : InstId) (p : PlaneId) (w : Wave) : ((s.planeRecorded i p w).plane p).recorded = true := by
  have hfrozen : ((s.freeze true (.plane p)).plane p).recorded = true := by rw [State.freeze, State.plane_onPlane]
  simp only [State.planeRecorded]
  split
  · rw [State.sendMarks_recorded rfl, hfrozen]
  · exact hfrozen

/-- The wave of a cut once one more node has recorded (R402). -/
def Wave.recorded (w : Wave) (n : NodeId) (go : Bool) : Wave :=
  { w with passed := w.passed ++ [n], sent := if go then w.sent ++ [n] else w.sent }

theorem nodeRecord_plane {s : State} {i : InstId} {p : PlaneId} {x : Inst} {w : Wave} (harg : s.arg = .nodeRecord i (.plane p))
    (hready : s.nodeReady i (.plane p) = true) (hinst : s.inst i = some x) (hwave : x.wave = some w) (hnew : .plane p ∉ w.passed) :
    exec .nodeRecord s = .next ((s.planeRecorded i p w).setInst i
      { x with wave := some (w.recorded (.plane p) ((s.freeze true (.plane p)).markNow (.plane p))) }) := by
  have hinst' : (s.planeRecorded i p w).inst i = some x := (State.inst_of_books (s.planeRecorded_books i p w) i).trans hinst
  have hfirst : (!w.passed.contains (.plane p)) = true := by simpa using hnew
  change execNodeRecord s = _
  unfold execNodeRecord
  rw [harg]
  refine (if_neg (by simp [hready])).trans ?_
  simp only [hinst, Option.bind_some, hwave, hfirst, if_true]
  refine congrArg Host.Outcome.next ((State.onInst_some hinst' _).trans ?_)
  rw [hwave]
  rfl

/-! ## The cut is complete (R402) -/

theorem cutComplete_waits {s : State} {i : InstId} (harg : s.arg = .cutComplete i) (hover : s.cutOver i = false) : exec .cutComplete s = .next s := by
  change execCutComplete s = _
  unfold execCutComplete
  rw [harg]
  exact if_pos (by simp [hover])

/-- A graph that is CUT, with its area (R405). -/
def Inst.cutWith (x : Inst) (a : List PByte) : Inst := { x with st := .cut, wave := none, area := a.map Prod.fst, areaBad := badPieces a }

theorem cutComplete_run {s : State} {i : InstId} {x : Inst} {w : Wave} (harg : s.arg = .cutComplete i) (hover : s.cutOver i = true)
    (hinst : s.inst i = some x) (hwave : x.wave = some w) : exec .cutComplete s = .next
      (((w.op :: w.joined).foldl (fun u g => u.graphDone g 0 (cutArea s i w).length) (s.setInst i (x.cutWith (cutArea s i w)))).settle i) := by
  change execCutComplete s = _
  unfold execCutComplete
  rw [harg]
  refine (if_neg (by simp [hover])).trans ?_
  simp only [hinst, hwave]
  rfl

theorem State.cut_settled (s : State) (i : InstId) (x : Inst) (l : List GraphOp) (n : Nat) :
    let u := (l.foldl (fun u g => u.graphDone g 0 n) (s.setInst i x)).settle i
    u.mem = s.mem ∧ u.inst i = some { x with waitq := [] } := by
  intro u
  have hdone : (l.foldl (fun u g => u.graphDone g 0 n) (s.setInst i x)).books = (s.setInst i x).books :=
    foldl_keeps State.books (fun u g => u.graphDone_books g 0 n) l _
  obtain ⟨hmem, hinst⟩ := State.settle_inst ((State.inst_of_books hdone i).trans (State.inst_setInst ..))
  exact ⟨hmem.trans ((State.mem_of_books hdone).trans (State.setInst_mem ..)), hinst⟩

/-! ## Pieces of an area (R376, R407) -/

/-- A save or restore as it stands. -/
def State.setSave (s : State) (i : InstId) (v : Save) : State := { s with saves := tput s.saves i v }

@[simp] theorem State.tfind_setSave (s : State) (i : InstId) (v : Save) : tfind (s.setSave i v).saves i = some v := tfind_tput_same ..

/-- Issuing pieces changes only which of them are under way. -/
theorem State.savePump_keeps {i : InstId} (n : Nat) : ∀ {s : State} {v : Save}, tfind s.saves i = some v →
    (s.savePump i n).mem = s.mem ∧ (s.savePump i n).insts = s.insts ∧
      ∃ z, tfind (s.savePump i n).saves i = some z ∧ z.bytes = v.bytes ∧ z.va = v.va ∧ z.want = v.want := by
  induction n with
  | zero => exact fun hsave => ⟨rfl, rfl, _, hsave, rfl, rfl, rfl⟩
  | succ n ih =>
    intro s v hsave
    rw [State.savePump, hsave]
    dsimp only
    split
    · obtain ⟨hmem, hinsts, z, hz, hbytes, hva, hwant⟩ :=
        ih (s := (s.setSave i { v with next := v.next + 32, fly := v.fly ++ [v.next] }).saveAsk i v v.next) (s.tfind_setSave i _)
      exact ⟨hmem, hinsts, z, hz, hbytes, hva, hwant⟩
    · exact ⟨rfl, rfl, v, hsave, rfl, rfl, rfl⟩

theorem State.saveBegun (s : State) (i : InstId) (v : Save) : let u := (s.setSave i v).savePump i 9
    u.mem = s.mem ∧ u.insts = s.insts ∧ ∃ z, tfind u.saves i = some z ∧ z.bytes = v.bytes ∧ z.va = v.va ∧ z.want = v.want :=
  State.savePump_keeps 9 (s.tfind_setSave i v)

/-! ## gsave (R407) -/

section
variable {s : State} {g : GraphOp} (hturn : s.inTurn g = true) (hwait : s.mustWait g = none)
include hturn hwait

section
variable {x : Inst} (hinst : s.inst (s.placeInst g.origin.sid g.place) = some x)
include hinst

theorem gsavePerform_run (harg : s.arg = .gsavePerform g) (hst : x.st = .cut) (hfree : s.jointBound (s.placeInst g.origin.sid g.place) = false)
    (hfits : areaFits g.arg x.area.length = true) : exec .gsavePerform s = .next (((s.performed g.origin.core g.rel).setSave
      (s.placeInst g.origin.sid g.place) { op := g, va := g.arg, bytes := x.area, bad := x.areaBad, want := x.area.length }).savePump
        (s.placeInst g.origin.sid g.place) 9) := by
  have hturn' : (s.performed g.origin.core g.rel).inTurn g = true := hturn
  have hwait' : (s.performed g.origin.core g.rel).mustWait g = none := hwait
  have hinst' : (s.performed g.origin.core g.rel).inst (s.placeInst g.origin.sid g.place) = some x := hinst
  have hfree' : (s.performed g.origin.core g.rel).jointBound (s.placeInst g.origin.sid g.place) = false := hfree
  change execGsavePerform s = _
  unfold execGsavePerform
  rw [harg]
  refine (if_neg (by simp [hturn'])).trans ?_
  simp only [hwait', hinst']
  exact (if_neg (by simp [hst])).trans ((if_neg (by simp [hfree'])).trans (if_neg (by simp [hfits])))

theorem gsavePerform_uncut (harg : s.arg = .gsavePerform g) (hst : x.st ≠ .cut) :
    exec .gsavePerform s = .next ((s.performed g.origin.core g.rel).graphDone g 2 0) := by
  have hturn' : (s.performed g.origin.core g.rel).inTurn g = true := hturn
  have hwait' : (s.performed g.origin.core g.rel).mustWait g = none := hwait
  have hinst' : (s.performed g.origin.core g.rel).inst (s.placeInst g.origin.sid g.place) = some x := hinst
  change execGsavePerform s = _
  unfold execGsavePerform
  rw [harg]
  refine (if_neg (by simp [hturn'])).trans ?_
  simp only [hwait', hinst']
  exact if_pos hst

/-! ## grest (R408) -/

theorem grestPerform_inPlace (harg : s.arg = .grestPerform g) (hother : g.other = none) (hst : x.st = .cut) : exec .grestPerform s = .next
    (((s.performed g.origin.core g.rel).resumeCut (s.placeInst g.origin.sid g.place) x).graphDone g 0 0) := by
  have hturn' : (s.performed g.origin.core g.rel).inTurn g = true := hturn
  have hwait' : (s.performed g.origin.core g.rel).mustWait g = none := hwait
  have hinst' : (s.performed g.origin.core g.rel).inst (s.placeInst g.origin.sid g.place) = some x := hinst
  change execGrestPerform s = _
  unfold execGrestPerform
  rw [harg]
  refine (if_neg (by simp [hturn'])).trans ?_
  simp only [hwait', hinst', hother]
  exact if_pos hst

end

theorem grestPerform_reads {a : Word} (harg : s.arg = .grestPerform g) (hother : g.other = some a) (hfits : areaFits a 64 = true) :
    exec .grestPerform s = .next (((s.performed g.origin.core g.rel).setSave (s.placeInst g.origin.sid g.place)
      { op := g, va := a, bytes := [], want := 64 }).savePump (s.placeInst g.origin.sid g.place) 9) := by
  have hturn' : (s.performed g.origin.core g.rel).inTurn g = true := hturn
  have hwait' : (s.performed g.origin.core g.rel).mustWait g = none := hwait
  change execGrestPerform s = _
  unfold execGrestPerform
  rw [harg]
  refine (if_neg (by simp [hturn'])).trans ?_
  simp only [hwait', hother]
  exact if_neg (by simp [hfits])

end

theorem State.resumeHauls_books (s : State) (i : InstId) : (s.resumeHauls i).books = s.books := by
  refine foldl_keeps State.books (fun u k => ?_) _ s
  simp only [State.onHaul]
  split <;> rfl

/-- A graph that goes on in place is ACTIVE, without its area (R408). -/
theorem State.resumeCut_keeps (s : State) (i : InstId) (x : Inst) (g : GraphOp) :
    let u := (s.resumeCut i x).graphDone g 0 0
    u.mem = s.mem ∧ u.inst i = some { x with st := .active, area := [], areaBad := [] } := by
  intro u
  have hbooks : u.books = (s.setInst i { x with st := .active, area := [], areaBad := [] }).books := by
    refine (State.graphDone_books ..).trans ((State.resumeHauls_books _ i).trans ?_)
    exact foldl_keeps State.books (fun v n => v.thaw_books n) _ _
  exact ⟨(State.mem_of_books hbooks).trans (State.setInst_mem ..), (State.inst_of_books hbooks i).trans (State.inst_setInst ..)⟩

/-! ## A save or restore ends (R407, R408) -/

theorem State.saveEnd_keeps (s : State) (i : InstId) (v : Save) :
    (s.saveEnd i v).mem = s.mem ∧ (s.saveEnd i v).insts = s.insts ∧ tfind (s.saveEnd i v).saves i = none := by
  have hagain : (s.saveEnd i v).books = ({ s with saves := tdel s.saves i } : State).books := State.again_books _ _
  refine ⟨(State.mem_of_books hagain).trans rfl, (State.insts_of_books hagain).trans rfl, ?_⟩
  rw [State.saves_of_books hagain]
  exact tfind_tdel_same ..

section
variable {s : State} {i : InstId} {v : Save} (hsave : tfind s.saves i = some v)
include hsave

theorem gsaveDone_run (harg : s.arg = .gsaveDone i) (hop : v.op.op = 0xAD) : exec .gsaveDone s = .next (if v.ended = true then
    if v.failed = 0 then ((s.dropInst i).graphDone v.op 0 v.want).saveEnd i v else (s.graphDone v.op v.failed v.done).saveEnd i v
    else s) := by
  change execGsaveDone s = _
  unfold execGsaveDone
  rw [harg]
  simp only [hsave]
  cases hended : v.ended with
  | false => exact if_neg (by simp)
  | true => exact (if_pos (by simp [hop])).trans (apply_ite Host.Outcome.next ..).symm

variable (harg : s.arg = .grestDone i) (hop : v.op.op = 0xAE) (hended : v.ended = true)
include harg hop hended

theorem grestDone_failed (hfailed : v.failed ≠ 0) : exec .grestDone s = .next ((s.graphDone v.op v.failed 0).saveEnd i v) := by
  change execGrestDone s = _
  unfold execGrestDone
  rw [harg]
  simp only [hsave]
  exact (if_neg (by simp [hop, hended])).trans (if_pos hfailed)

theorem grestDone_rebuilt {z : State} (hgood : v.failed = 0) (hwhole : v.want ≠ 64) (hbad : v.bad = [])
    (hbuilt : s.rebuild v.op i v.bytes = .ok z) : exec .grestDone s = .next ((z.graphDone v.op 0 0).saveEnd i v) := by
  change execGrestDone s = _
  unfold execGrestDone
  rw [harg]
  simp only [hsave]
  refine (if_neg (by simp [hop, hended])).trans ((if_neg (by simp [hgood])).trans ((if_neg hwhole).trans ((if_neg (by simp [hbad])).trans ?_)))
  rw [hbuilt]

end

end Sys2Proof.Machine

namespace Sys2Proof
open Machine

/-- Settles O38: each step's branches in their order, over what markers, resuming, issuing pieces and ending leave of the instances. -/
theorem instancesCutAndRestore : Obligations.InstancesCutAndRestore := by
  unfold Obligations.InstancesCutAndRestore
  refine ⟨fun s g i x hinst => ⟨fun harg hi hop hturn hwait => ?_, fun n => nodeRecord_waits, fun p w harg hready hwave hnew => ?_,
    cutComplete_waits, fun w harg hover hwave => ⟨_, cutComplete_run harg hover hinst hwave, State.cut_settled ..⟩⟩,
    fun s g i x v => ⟨fun hi hturn hwait hinst => ?_, fun hsave => ?_⟩⟩
  · subst hi
    have hrun := gmarkPerform_run harg hop hturn hwait hinst
    refine ⟨fun hst => ⟨_, hrun.trans (congrArg Host.Outcome.next (if_pos hst)), rfl, State.inst_setInst ..⟩, fun hst => ?_⟩
    have hdone := (s.performed g.origin.core g.rel).graphDone_books g 2 0
    obtain ⟨c, hsent, hstatus⟩ := (s.performed g.origin.core g.rel).graphDone_sends 0 hop (status := 2) (by omega)
    exact ⟨_, c, hrun.trans (congrArg Host.Outcome.next (if_neg hst)), State.mem_of_books hdone, State.insts_of_books hdone, hsent, hstatus⟩
  · have hbooks := s.planeRecorded_books i p w
    exact ⟨_, _, _, nodeRecord_plane harg hready hinst hwave hnew, (State.setInst_mem ..).trans (State.mem_of_books hbooks),
      s.planeRecorded_recorded i p w, State.inst_setInst .., rfl, rfl⟩
  · subst hi
    refine ⟨fun harg hst hfree hfits => ?_, fun harg hst => ?_, fun harg hother hst => ?_, fun a harg hother hfits => ?_⟩
    · obtain ⟨hmem, hinsts, z, hz, hbytes, hva, hwant⟩ := (s.performed g.origin.core g.rel).saveBegun (s.placeInst g.origin.sid g.place)
        { op := g, va := g.arg, bytes := x.area, bad := x.areaBad, want := x.area.length }
      exact ⟨_, z, gsavePerform_run hturn hwait hinst harg hst hfree hfits, hmem, hinsts, hz, hbytes, hva, hwant⟩
    · have hdone := (s.performed g.origin.core g.rel).graphDone_books g 2 0
      exact ⟨_, gsavePerform_uncut hturn hwait hinst harg hst, State.mem_of_books hdone, State.insts_of_books hdone, State.saves_of_books hdone⟩
    · exact ⟨_, grestPerform_inPlace hturn hwait hinst harg hother hst, State.resumeCut_keeps (s.performed g.origin.core g.rel) _ x g⟩
    · obtain ⟨hmem, hinsts, z, hz, -, hva, hwant⟩ := (s.performed g.origin.core g.rel).saveBegun (s.placeInst g.origin.sid g.place)
        { op := g, va := a, bytes := [], want := 64 }
      exact ⟨_, z, grestPerform_reads hturn hwait harg hother hfits, hmem, hinsts, hz, hva, hwant⟩
  · refine ⟨fun harg hop hended => ?_, fun harg hop hended hgood => ?_, fun harg hop hended hfailed => ?_, fun harg hop hended hfailed => ?_,
      fun z harg hop hended hgood hwhole hbad hbuilt => grestDone_rebuilt hsave harg hop hended hgood hwhole hbad hbuilt⟩
    · rw [gsaveDone_run hsave harg hop, if_neg (by simp [hended])]
    · have hdone := (s.dropInst i).graphDone_books v.op 0 v.want
      obtain ⟨hmem, hinsts, hend⟩ := ((s.dropInst i).graphDone v.op 0 v.want).saveEnd_keeps i v
      refine ⟨_, (gsaveDone_run hsave harg hop).trans (by rw [if_pos hended, if_pos hgood]), ?_, ?_, hend⟩
      · rw [hmem, State.mem_of_books hdone, State.dropInst_mem]
      · rw [State.inst, hinsts, State.insts_of_books hdone, State.dropInst_insts, tfind_tdel_same]
    · have hdone := s.graphDone_books v.op v.failed v.done
      obtain ⟨hmem, hinsts, hend⟩ := (s.graphDone v.op v.failed v.done).saveEnd_keeps i v
      exact ⟨_, (gsaveDone_run hsave harg hop).trans (by rw [if_pos hended, if_neg hfailed]), hmem.trans (State.mem_of_books hdone),
        hinsts.trans (State.insts_of_books hdone), hend⟩
    · have hdone := s.graphDone_books v.op v.failed 0
      obtain ⟨hmem, hinsts, hend⟩ := (s.graphDone v.op v.failed 0).saveEnd_keeps i v
      exact ⟨_, grestDone_failed hsave harg hop hended hfailed, hmem.trans (State.mem_of_books hdone),
        hinsts.trans (State.insts_of_books hdone), hend⟩

end Sys2Proof
end

section
/-! PROOF of O36: hauls start (R364, R372), go on with the answers of their accesses (R374, R376), end (R378, R380, R381) and give slots
back (R382). -/

namespace Sys2Proof.Machine
open Sys2Proof Sys2Proof.Safety

/-! ## The record of a haul -/

@[simp] theorem State.haul?_setHaul (s : State) (c : CoreId) (tag : Nat) (h : Haul) : (s.setHaul c tag h).haul? c tag = some h := tfind_tput_same ..

@[simp] theorem State.setHaul_setHaul (s : State) (c : CoreId) (tag : Nat) (g h : Haul) :
    (s.setHaul c tag g).setHaul c tag h = s.setHaul c tag h := by
  simp [State.setHaul, tput_tput]

theorem State.onHaul_some {s : State} {c : CoreId} {tag : Nat} {h : Haul} (hhaul : s.haul? c tag = some h) (f : Haul → Haul) :
    s.onHaul c tag f = s.setHaul c tag (f h) := by
  rw [State.onHaul, hhaul]

theorem State.onLeg_one {s : State} {c : CoreId} {tag : Nat} {h : Haul} {l : Leg} (hhaul : s.haul? c tag = some h) (hlegs : h.legs = [l])
    (f : Leg → Leg) : s.onLeg c tag 0 f = s.setHaul c tag { h with legs := [f l] } := by
  simp only [State.onLeg, hhaul, hlegs]
  rfl

/-! ## Legs between two memories (R373) -/

/-- Whether a leg has a ring at neither end. -/
def Leg.memOnly (l : Leg) : Prop := (∃ x, l.src = .mem x) ∧ ∃ y, l.dst = .mem y

/-- Whether every leg of a haul goes between two memories. -/
def Haul.memOnly (h : Haul) : Prop := ∀ l ∈ h.legs, l.memOnly

theorem Haul.memOnly_one {h : Haul} {l : Leg} {x y : Word} (hlegs : h.legs = [l]) (hsrc : l.src = .mem x) (hdst : l.dst = .mem y) :
    h.memOnly := fun m hm => by
  rw [hlegs, List.mem_singleton] at hm
  subst hm
  exact ⟨⟨x, hsrc⟩, y, hdst⟩

section
variable {s : State} {c : CoreId} {tag : Nat} {h : Haul} (hhaul : s.haul? c tag = some h) (hmem : h.memOnly)
include hhaul hmem

/-- A change of legs that leaves their ends alone leaves the haul one between two memories. -/
theorem State.onLeg_memOnly (n : Nat) {f : Leg → Leg} (hf : ∀ l : Leg, l.memOnly → (f l).memOnly) :
    ∃ ls, (∀ l ∈ ls, l.memOnly) ∧ s.onLeg c tag n f = s.setHaul c tag { h with legs := ls } := by
  refine ⟨h.legs.mapIdx (fun i l => if i = n then f l else l), fun l hl => ?_, by rw [State.onLeg, hhaul]⟩
  obtain ⟨i, hi, rfl⟩ := List.mem_mapIdx.1 hl
  split
  · exact hf _ (hmem _ (List.getElem_mem hi))
  · exact hmem _ (List.getElem_mem hi)

theorem State.srcClose_memOnly (n fuel : Nat) : s.srcClose c tag n fuel = s := by
  cases fuel with
  | zero => rfl
  | succ fuel =>
    rw [State.srcClose, hhaul]
    dsimp only
    split
    · rfl
    · next l hl =>
      obtain ⟨⟨x, hx⟩, -⟩ := hmem l (List.mem_of_getElem? hl)
      rw [hx]

theorem State.slotClose_memOnly (n fuel : Nat) : s.slotClose c tag n fuel = s := by
  cases fuel with
  | zero => rfl
  | succ fuel =>
    rw [State.slotClose, hhaul]
    dsimp only
    split
    · rfl
    · next l hl =>
      obtain ⟨-, y, hy⟩ := hmem l (List.mem_of_getElem? hl)
      rw [hy]

theorem State.padSlots_memOnly (n : Nat) (dead : List Nat) : s.padSlots c tag n dead = s := by
  rw [State.padSlots, hhaul]
  dsimp only
  split
  · rfl
  · next l hl =>
    obtain ⟨-, y, hy⟩ := hmem l (List.mem_of_getElem? hl)
    rw [hy]

/-- What the end does to a leg, where it has no ring: it changes the leg only. -/
theorem State.legEnds_memOnly (n : Nat) (dead : List Nat) {f : Leg → Leg} (hf : ∀ l : Leg, l.memOnly → (f l).memOnly) :
    ∃ ls, (∀ l ∈ ls, l.memOnly) ∧
      (((s.onLeg c tag n f).padSlots c tag n dead).srcClose c tag n 9).slotClose c tag n 9 = s.setHaul c tag { h with legs := ls } := by
  obtain ⟨ls, hls, hput⟩ := State.onLeg_memOnly hhaul hmem n hf
  have hkept := s.haul?_setHaul c tag { h with legs := ls }
  refine ⟨ls, hls, ?_⟩
  rw [hput, State.padSlots_memOnly hkept hls, State.srcClose_memOnly hkept hls, State.slotClose_memOnly hkept hls]

/-- A haul between two memories that ends early abandons its stalled accesses and nothing else (R381). -/
theorem State.haulEndEarly_memOnly : ∃ ls, (∀ l ∈ ls, l.memOnly) ∧ s.haulEndEarly c tag = s.setHaul c tag { h with ending := true, legs := ls } := by
  rw [State.haulEndEarly, hhaul]
  dsimp only
  refine List.foldlRecOn (motive := fun u : State => ∃ ls, (∀ l ∈ ls, l.memOnly) ∧ u = s.setHaul c tag { h with ending := true, legs := ls }) _ _
    ⟨h.legs, fun l hl => hmem l hl, rfl⟩ ?_
  rintro u ⟨ls, hls, rfl⟩ n -
  split
  · exact ⟨ls, hls, rfl⟩
  · refine Exists.imp (fun ms hms => ⟨hms.1, hms.2.trans (State.setHaul_setHaul ..)⟩)
      (State.legEnds_memOnly (s.haul?_setHaul c tag { h with ending := true, legs := ls }) hls n _ ?_)
    exact fun _ hl => hl

/-- A haul between two memories that fails ends early with its status (R376, R381). -/
theorem State.haulFail_runs (x : Cause) (hruns : h.ending = false) :
    ∃ ls, (∀ l ∈ ls, l.memOnly) ∧ s.haulFail c tag x = s.setHaul c tag { h with status := x.code, ending := true, legs := ls } := by
  obtain ⟨ls, hls, hend⟩ := State.haulEndEarly_memOnly (s.haul?_setHaul c tag { h with status := x.code }) (fun l hl => hmem l hl)
  refine ⟨ls, hls, ?_⟩
  rw [State.haulFail, hhaul]
  exact (if_neg (by simp [hruns])).trans (hend.trans (State.setHaul_setHaul ..))

end

/-! ## A copy between two memories goes on -/

/-- A haul between two memories that no cut stops, as it goes on from a state: its accesses change neither memory nor the tags by
themselves. -/
def CopyGoes (s : State) (c : CoreId) (tag : Nat) (u : State) : Prop :=
  u.mem = s.mem ∧ u.tags = s.tags ∧ ∃ g, u.haul? c tag = some g ∧ g.memOnly ∧ g.stopping = false

section
variable {s : State} {c : CoreId} {tag : Nat} {u : State}

theorem CopyGoes.setHaul (hu : CopyGoes s c tag u) {g : Haul} (hmem : g.memOnly) (hgoes : g.stopping = false) :
    CopyGoes s c tag (u.setHaul c tag g) := by
  obtain ⟨hbytes, htags, -⟩ := hu
  exact ⟨hbytes, htags, g, u.haul?_setHaul c tag g, hmem, hgoes⟩

theorem CopyGoes.sends (hu : CopyGoes s c tag u) (p : List Pend) : CopyGoes s c tag { u with pending := p } := hu

theorem CopyGoes.onHaul (hu : CopyGoes s c tag u) (f : Haul → Haul) (hlegs : ∀ h, (f h).legs = h.legs) (hstop : ∀ h, (f h).stopping = h.stopping) :
    CopyGoes s c tag (u.onHaul c tag f) := by
  obtain ⟨-, -, g, hg, hmem, hgoes⟩ := id hu
  rw [State.onHaul_some hg]
  exact hu.setHaul (fun l hl => hmem l (by rwa [hlegs] at hl)) ((hstop g).trans hgoes)

theorem CopyGoes.onLeg (hu : CopyGoes s c tag u) (n : Nat) (f : Leg → Leg) (hf : ∀ l : Leg, l.memOnly → (f l).memOnly) :
    CopyGoes s c tag (u.onLeg c tag n f) := by
  obtain ⟨-, -, g, hg, hmem, hgoes⟩ := id hu
  obtain ⟨ls, hls, heq⟩ := State.onLeg_memOnly hg hmem n hf
  rw [heq]
  exact hu.setHaul hls hgoes

theorem CopyGoes.fail (hu : CopyGoes s c tag u) (x : Cause) : CopyGoes s c tag (u.haulFail c tag x) := by
  obtain ⟨-, -, g, hg, hmem, hgoes⟩ := id hu
  cases hruns : g.ending with
  | true =>
    have hsame : u.haulFail c tag x = u := by simp [State.haulFail, hg, hruns]
    rwa [hsame]
  | false =>
    obtain ⟨ls, hls, heq⟩ := State.haulFail_runs hg hmem x hruns
    rw [heq]
    exact hu.setHaul hls hgoes

/-- An access is only sent (R376). -/
theorem State.haulAccess_sends (s : State) (c : CoreId) (tag n k : Nat) (h : Haul) (e : HEnd) (l : Leg) (op : MemOp) (write : Bool) :
    ∃ p, (s.haulAccess c tag n k h e l op write).1 = { s with pending := p } := by
  cases e with
  | ring g => exact ⟨_, rfl⟩
  | mem base =>
    simp only [State.haulAccess]
    split
    · exact ⟨_, rfl⟩
    · exact ⟨_, rfl⟩
    · exact ⟨s.pending, rfl⟩
    · exact ⟨s.pending, rfl⟩

theorem CopyGoes.access (hu : CopyGoes s c tag u) (n k : Nat) (h : Haul) (e : HEnd) (l : Leg) (op : MemOp) (write : Bool) :
    CopyGoes s c tag (u.haulAccess c tag n k h e l op write).1 := by
  obtain ⟨p, hp⟩ := u.haulAccess_sends c tag n k h e l op write
  rw [hp]
  exact hu.sends p

theorem CopyGoes.write (hu : CopyGoes s c tag u) (n k : Nat) (v : List Byte) (bad : Bool) :
    CopyGoes s c tag (u.haulWrite c tag n k v bad) := by
  simp only [State.haulWrite]
  split
  · exact hu
  · split
    · exact hu
    · have hput := (hu.onLeg n (fun l => l.put k (some (.writing v bad))) (fun _ hl => hl)).access
      split
      · split
        · exact (hput ..).onHaul (fun h => { h with poison := true }) (fun _ => rfl) (fun _ => rfl)
        · exact hput ..
      · exact ((hput ..).onLeg n (fun l => l.put k none) (fun _ hl => hl)).fail _

theorem CopyGoes.issue (hu : CopyGoes s c tag u) (n : Nat) (h : Haul) (l : Leg) : CopyGoes s c tag (u.haulIssue c tag n h l) := by
  have hnext := hu.onLeg n (fun m => { m with idx := l.idx + 1 }) (fun _ hm => hm)
  simp only [State.haulIssue]
  split
  · exact hnext.write ..
  · split
    · exact (hnext.onHaul (fun h => { h with outside := h.outside + 1 }) (fun _ => rfl) (fun _ => rfl)).write ..
    · have hread := (hnext.onLeg n (fun m => m.put l.idx (some .reading)) (fun _ hm => hm)).access
      split
      · exact hread ..
      · exact ((hread ..).onLeg n (fun m => m.put l.idx (some .readNack)) (fun _ hm => hm)).fail _

theorem CopyGoes.legPump (n fuel : Nat) : ∀ {u : State}, CopyGoes s c tag u → CopyGoes s c tag (u.legPump c tag n fuel) := by
  induction fuel with
  | zero => exact id
  | succ fuel ih =>
    intro u hu
    obtain ⟨-, -, g, hg, hmem, hgoes⟩ := id hu
    rw [State.legPump, hg]
    dsimp only
    split
    · exact hu
    · next l hl =>
      split
      · exact hu
      · exact ih (hu.issue ..)
      · next k hk =>
        have hleg := hmem l (List.mem_of_getElem? hl)
        exact ih ((hu.onLeg n (fun _ => { l with notes := l.notes.filter (· ≠ k), slots := l.slots ++ [k] }) (fun _ _ => hleg)).issue ..)

/-- A copy between two memories runs on without a stop (R384 stops only what is bound to a ring). -/
theorem CopyGoes.pump (hu : CopyGoes s c tag u) : CopyGoes s c tag (u.haulPump c tag) := by
  obtain ⟨-, -, g, hg, -, -⟩ := id hu
  simp only [State.haulPump, hg]
  split
  · exact hu
  · have hlegs : CopyGoes s c tag ((List.range g.legs.length).foldl (fun s n => s.legPump c tag n 16) u) :=
      List.foldlRecOn (motive := CopyGoes s c tag) _ _ hu (fun v hv n _ => hv.legPump n 16)
    obtain ⟨v, hv⟩ : ∃ v, v = (List.range g.legs.length).foldl (fun s n => s.legPump c tag n 16) u := ⟨_, rfl⟩
    rw [← hv] at hlegs ⊢
    obtain ⟨-, -, k, hk, -, hgoes⟩ := id hlegs
    have hpad : v.padStopped c tag = v := by simp [State.padStopped, hk, hgoes]
    rw [hpad, hk]
    have hrest : Haul.halted v k = false := by simp [Haul.halted, hgoes]
    simp only [hrest, Bool.false_and]
    exact hlegs

end

/-! ## The start (R364, R372, R373) -/

section
variable {s : State} {c : CoreId} (harg : s.arg = .haulStart c)
include harg

theorem haulStart_none (hnext : s.nextHaul c = none) : exec .haulStart s = .next s := by
  change execHaulStart s = _
  unfold execHaulStart
  rw [harg]
  simp only [hnext]

variable {tag : Nat} {h : Haul} (hnext : s.nextHaul c = some tag) (hhaul : tfind s.hauls (c, tag) = some h)
include hnext hhaul

theorem haulStart_resumes (hres : h.resumed = true) : exec .haulStart s = .next (((s.setTag c tag .running).setHaul c tag
    { h with resumed := false, stopping := false, legs := h.legs.map (Leg.resume s) }).haulPump c tag) := by
  have hhaul' : s.haul? c tag = some h := hhaul
  change execHaulStart s = _
  unfold execHaulStart
  rw [harg]
  simp only [hnext, hhaul']
  exact if_pos hres

variable (hnew : h.resumed = false)
include hnew

theorem haulStart_fails {x : Cause}
    (hpre : ((Desc.of h.desc).ends h.x).findSome? ((Desc.of h.desc).preEnd (s.setTag c tag .running) c h.sid) = some x) :
    exec .haulStart s = .next (((s.setTag c tag .running).setHaul c tag { h with status := x.code, ending := true }).haulEnd c tag) := by
  have hhaul' : s.haul? c tag = some h := hhaul
  change execHaulStart s = _
  unfold execHaulStart
  rw [harg]
  simp only [hnext, hhaul']
  refine (if_neg (by simp [hnew])).trans ?_
  rw [hpre]

omit harg hnext hhaul hnew in
/-- The one leg of a copy between two memories. -/
theorem Desc.legs_memOnly {d : Desc} (sid : Nat) (hsrc : d.srcRing = false) (hdst : d.dstRing = false) :
    d.legs s sid false = [{ src := .mem d.src, dst := .mem d.dst, esz := d.esz, bsrc := !d.boundDst, bdst := d.boundDst }] := by
  simp [Desc.legs, hsrc, hdst]

theorem haulStart_copies
    (hpre : ((Desc.of h.desc).ends h.x).findSome? ((Desc.of h.desc).preEnd (s.setTag c tag .running) c h.sid) = none) (hx : h.x = false)
    (hsrc : (Desc.of h.desc).srcRing = false) (hdst : (Desc.of h.desc).dstRing = false) : exec .haulStart s = .next
      (((s.setTag c tag .running).setHaul c tag { h with legs := (Desc.of h.desc).legs s h.sid false }).haulPump c tag) := by
  have hhaul' : s.haul? c tag = some h := hhaul
  change execHaulStart s = _
  unfold execHaulStart
  rw [harg]
  simp only [hnext, hhaul']
  refine (if_neg (by simp [hnew])).trans ?_
  rw [hpre]
  simp only [hx, Desc.legs_memOnly h.sid hsrc hdst]
  exact if_neg (by simp [legSides, State.sidesFree])

end

end Sys2Proof.Machine
end

section
/-! PROOF of O36, its second part: answers of accesses (R374, R376), ends and cancels (R378, R380, R381), slots given back (R382). -/

namespace Sys2Proof.Machine
open Sys2Proof Sys2Proof.Safety

/-! ## An answered access (R374, R376) -/

theorem Haul.at_one {h : Haul} {l : Leg} {k : Nat} {st : HStage} (hlegs : h.legs = [l]) (hfly : l.fly.find? (fun f => f.1 = k) = some (k, st)) :
    h.at_ 0 k = some (l, st) := by
  simp [Haul.at_, hlegs, hfly]

section
variable {s : State} {c : CoreId} {tag k : Nat} {h : Haul} {l : Leg} {st : HStage} {x y : Word} (hhaul : s.haul? c tag = some h)
  (hlegs : h.legs = [l]) (hruns : h.ending = false) (hsrc : l.src = .mem x) (hdst : l.dst = .mem y)
  (hfly : l.fly.find? (fun f => f.1 = k) = some (k, st))
include hhaul hlegs hsrc hdst

/-- The leg with one element's stage changed has no slot to close. -/
theorem State.put_closes (f : Option HStage) (n fuel : Nat) :
    (s.onLeg c tag 0 (fun l => l.put k f)).srcClose c tag n fuel = s.onLeg c tag 0 (fun l => l.put k f) := by
  rw [State.onLeg_one hhaul hlegs]
  exact State.srcClose_memOnly (s.haul?_setHaul ..) (Haul.memOnly_one (l := l.put k f) rfl hsrc hdst) n fuel

include hfly

omit hsrc in
theorem haulAccessAnswer_fault {z : Cause} (harg : s.arg = .haulAccessAnswer c tag (2 * k) (.fault z)) :
    exec .haulAccessAnswer s = .next ((s.onLeg c tag 0 (fun l => l.put k none)).haulFail c tag z) := by
  have hat := Haul.at_one hlegs hfly
  change execHaulAccessAnswer s = _
  unfold execHaulAccessAnswer
  rw [harg]
  simp only [Nat.mul_mod_right, Nat.mul_div_cancel_left k (Nat.zero_lt_two), hhaul, hat, hdst]
  cases st <;> rfl

include hruns

theorem haulAccessAnswer_read {bs : List Byte} {bad : Bool} (harg : s.arg = .haulAccessAnswer c tag (2 * k) (.data bs bad)) (hst : st = .reading)
    (hin : l.bdst = true → (Desc.of h.desc).inside ((Desc.of h.desc).index k) = true) : exec .haulAccessAnswer s = .next
      (((s.onLeg c tag 0 (fun l => l.put k none)).haulWrite c tag 0 k bs bad).haulPump c tag) := by
  have hat := Haul.at_one hlegs hfly
  change execHaulAccessAnswer s = _
  unfold execHaulAccessAnswer
  rw [harg]
  simp only [Nat.mul_mod_right, Nat.mul_div_cancel_left k (Nat.zero_lt_two), hhaul, hat, hst, State.put_closes hhaul hlegs hsrc hdst]
  refine (if_neg (by simp [hruns])).trans (if_neg ?_)
  cases hb : l.bdst with
  | false => simp
  | true => simp [hin hb]

omit hruns in
theorem haulAccessAnswer_written {bs v : List Byte} {bad b : Bool} (harg : s.arg = .haulAccessAnswer c tag (2 * k) (.data bs bad))
    (hst : st = .writing v b) (hk : k < padKey) : exec .haulAccessAnswer s = .next
      ((s.setHaul c tag { h with legs := [l.put k none], moved := h.moved + 1 }).haulPump c tag) := by
  have hat := Haul.at_one hlegs hfly
  have hcount : ((s.onLeg c tag 0 (fun l => l.put k none)).haulMoved c tag 0 k) =
      s.setHaul c tag { h with legs := [l.put k none], moved := h.moved + 1 } := by
    rw [State.onLeg_one hhaul hlegs, State.haulMoved, State.onHaul_some (s.haul?_setHaul ..), State.setHaul_setHaul]
    exact congrArg (s.setHaul c tag) (if_pos (by simp [hk]))
  have hclose : (s.setHaul c tag { h with legs := [l.put k none], moved := h.moved + 1 }).slotClose c tag 0 9 =
      s.setHaul c tag { h with legs := [l.put k none], moved := h.moved + 1 } :=
    State.slotClose_memOnly (s.haul?_setHaul ..) (Haul.memOnly_one (l := l.put k none) rfl hsrc hdst) 0 9
  change execHaulAccessAnswer s = _
  unfold execHaulAccessAnswer
  rw [harg]
  simp only [Nat.mul_mod_right, Nat.mul_div_cancel_left k (Nat.zero_lt_two), hhaul, hat, hst, hcount, hclose, hdst]

omit hdst in
theorem haulAccessAnswer_nack (harg : s.arg = .haulAccessAnswer c tag (2 * k) .nack) (hst : st = .reading) :
    exec .haulAccessAnswer s = .next
      (((s.onLeg c tag 0 (fun l => l.put k (some .readNack))).deliverFault h.origin (faultWord .pageFault 2 0 0 0 0 h.origin.rank true) 0
        ((Desc.of h.desc).addr x (Desc.of h.desc).ss ((Desc.of h.desc).index k) l.bsrc) (fld h.word.toNat 0)
        (some (.haul c tag (2 * k)))).haulPump c tag) := by
  have hat := Haul.at_one hlegs hfly
  change execHaulAccessAnswer s = _
  unfold execHaulAccessAnswer
  rw [harg]
  simp only [Nat.mul_mod_right, Nat.mul_div_cancel_left k (Nat.zero_lt_two), hhaul, hat, hst, hsrc]
  exact if_neg (by simp [hruns])

omit hfly in
/-- A haul whose access fails ends early with the cause as its status, and has changed no byte (R376, R381). -/
theorem State.failed_status (z : Cause) : ∃ g, ((s.onLeg c tag 0 (fun l => l.put k none)).haulFail c tag z).mem = s.mem ∧
    ((s.onLeg c tag 0 (fun l => l.put k none)).haulFail c tag z).haul? c tag = some g ∧ g.status = z.code ∧ g.ending = true := by
  obtain ⟨ls, -, heq⟩ := State.haulFail_runs (s.haul?_setHaul c tag { h with legs := [l.put k none] })
    (Haul.memOnly_one (l := l.put k none) rfl hsrc hdst) z hruns
  rw [State.onLeg_one hhaul hlegs, heq, State.haul?_setHaul]
  exact ⟨_, rfl, rfl, rfl, rfl⟩

end

/-! ## The end of a haul (R373, R378) -/

/-- What stands once a haul has ended: memory as it was, its tag COMPLETE, no binding, and its completion on its way. -/
def HaulEnded (s : State) (c : CoreId) (tag : Nat) (u : State) (g : Haul) : Prop :=
  u.mem = s.mem ∧ tget u.tags .free (c, tag) = .complete ∧ tfind u.hauls (c, tag) = none ∧
    (∀ e ∈ u.gens, e.2.prod ≠ some (.haul c tag) ∧ e.2.cons ≠ some (.haul c tag)) ∧
    u.pending = (s.unbind (.haul c tag)).pending ++ [⟨.none, s.cycle + 1, .completionArrival c (g.completion tag)⟩]

/-- What a cut keeps of generators stands in its graph. -/
theorem State.snapGens_insts (l : List GenId) (s : State) : ∃ m, l.foldl State.snapGen s = { s with insts := m } := by
  refine List.foldlRecOn (motive := fun u : State => ∃ m, u = { s with insts := m }) l State.snapGen ⟨s.insts, rfl⟩ ?_
  rintro u ⟨m, rfl⟩ g -
  simp only [State.snapGen]
  split
  · exact ⟨m, rfl⟩
  · split
    · exact ⟨m, rfl⟩
    · split
      · exact ⟨m, rfl⟩
      · split
        · exact ⟨_, rfl⟩
        · exact ⟨m, rfl⟩

theorem State.haulEnd_eq {s : State} {c : CoreId} {tag : Nat} {g : Haul} (hhaul : s.haul? c tag = some g) :
    ∃ m, s.haulEnd c tag = ({ (s.unbind (.haul c tag)).setTag c tag .complete with insts := m, hauls := tdel s.hauls (c, tag) } : State).post .none
      (.completionArrival c (g.completion tag)) 1 := by
  obtain ⟨m, hm⟩ := State.snapGens_insts g.rings ((s.unbind (.haul c tag)).setTag c tag .complete)
  refine ⟨m, ?_⟩
  rw [State.haulEnd, hhaul]
  simp only [hm]
  rfl

/-- No side of a generator stays bound to what was unbound. -/
theorem State.unbind_unbound (s : State) (e : Engine) : ∀ x ∈ (s.unbind e).gens, x.2.prod ≠ some e ∧ x.2.cons ≠ some e := by
  intro x hx
  obtain ⟨y, -, rfl⟩ := List.mem_map.1 hx
  dsimp only
  constructor
  · split
    · exact nofun
    · assumption
  · split
    · exact nofun
    · assumption

/-- A haul that ends from a state that differs from another in the records of hauls and tags only. -/
theorem State.haulEnd_ended (s : State) (c : CoreId) (tag : Nat) (ts : Tbl (CoreId × Nat) TagState) (g : Haul) :
    HaulEnded s c tag ((({ s with tags := ts } : State).setHaul c tag g).haulEnd c tag) g ∧
      ((({ s with tags := ts } : State).setHaul c tag g).haulEnd c tag).dropped = s.dropped := by
  obtain ⟨m, hend⟩ := State.haulEnd_eq (({ s with tags := ts } : State).haul?_setHaul c tag g)
  rw [hend]
  exact ⟨⟨rfl, tget_tput_same .., tfind_tdel_same .., State.unbind_unbound _ _, rfl⟩, rfl⟩

section
variable {s : State} {c : CoreId} {tag : Nat} {h : Haul} (hhaul : s.haul? c tag = some h)
include hhaul

theorem haulComplete_run (harg : s.arg = .haulComplete c tag) : exec .haulComplete s =
    if h.finished = true ∧ tget s.tags TagState.free (c, tag) = .running then .next (s.haulEnd c tag) else .next s := by
  change execHaulComplete s = _
  unfold execHaulComplete
  rw [harg]
  simp only [hhaul, Bool.and_eq_true, decide_eq_true_eq]

theorem State.haulEnd_here : HaulEnded s c tag (s.haulEnd c tag) h := by
  obtain ⟨m, hend⟩ := State.haulEnd_eq hhaul
  rw [hend]
  exact ⟨rfl, tget_tput_same .., tfind_tdel_same .., State.unbind_unbound _ _, rfl⟩

omit hhaul in
theorem haulCancel_run {rel : Nat} (harg : s.arg = .haulCancel c tag rel) :
    exec .haulCancel s = .next ((s.haulCancelled c tag).performed c rel) := by
  change execHaulCancel s = _
  unfold execHaulCancel
  rw [harg]

theorem State.haulCancelled_queued (hst : tget s.tags TagState.free (c, tag) = .queued) :
    s.haulCancelled c tag = (s.setHaul c tag { h with cancelled := true }).haulEnd c tag := by
  rw [State.haulCancelled, hhaul, hst]

theorem State.haulCancelled_stopped (hst : tget s.tags TagState.free (c, tag) = .stopped) : s.haulCancelled c tag =
    { (s.setHaul c tag { h with cancelled := true }).haulEnd c tag with dropped := s.dropped ++ [⟨c, tag, h.sid, h.desc⟩] } := by
  rw [State.haulCancelled, hhaul, hst]

theorem State.haulCancelled_running (hst : tget s.tags TagState.free (c, tag) = .running) (hruns : h.ending = false) :
    s.haulCancelled c tag = (s.setHaul c tag { h with cancelled := true }).haulEndEarly c tag := by
  rw [State.haulCancelled, hhaul, hst]
  exact if_neg (by simp [hruns])

theorem State.haulCancelled_complete (hst : tget s.tags TagState.free (c, tag) = .complete) : s.haulCancelled c tag = s := by
  rw [State.haulCancelled, hhaul, hst]

end

theorem Haul.completion_moved (h : Haul) (tag : Nat) : (h.completion tag).w1.toNat = h.moved % 2 ^ 40 := by
  change (fld (h.moved % 2 ^ 40) 0).toNat = _
  rw [fld, BitVec.toNat_ofNat]
  omega

/-! ## Slots given back (R382) -/

section
variable {s : State} {c : CoreId} {w : Word} {o : Origin} {k : GenCfg} {rel : Nat} (harg : s.arg = .hslotPerform c w o rel)
  (hcfg : (s.gen (s.ringAt o.sid w)).cfg = some k)
include harg hcfg

theorem hslotPerform_run : exec .hslotPerform s =
    if k.recd.mode = 0 ∧ k.reader = false ∧ (s.gen (s.ringAt o.sid w)).cons = none ∧ (s.gen (s.ringAt o.sid w)).drain = bitsN w 23 16 ∧
      (s.gen (s.ringAt o.sid w)).drain ∈ (s.gen (s.ringAt o.sid w)).full
    then .next ((s.performed c rel).emptyDrain (s.ringAt o.sid w)) else .next ((s.performed c rel).report o .illegalForm 2 w) := by
  have hcfg' : ((s.performed c rel).gen ((s.performed c rel).ringAt o.sid w)).cfg = some k := hcfg
  change execHslotPerform s = _
  unfold execHslotPerform
  rw [harg]
  simp only [hcfg', Bool.and_eq_true, Bool.not_eq_true', decide_eq_true_eq, List.contains_iff_mem, and_assoc]
  rfl

end

theorem State.emptyDrain_gives {s : State} {g : GenId} {k : GenCfg} (hcfg : (s.gen g).cfg = some k) :
    (s.emptyDrain g).mem = s.mem ∧ ((s.emptyDrain g).gen g).full = (s.gen g).full.filter (· ≠ (s.gen g).drain) ∧
      ((s.emptyDrain g).gen g).drain = ((s.gen g).drain + 1) % k.recd.count := by
  have heq : s.emptyDrain g = (s.emptySlot g (s.gen g).drain).onGen g (fun y => { y with drain := ((s.gen g).drain + 1) % k.recd.count }) := by
    rw [State.emptyDrain, hcfg]
  rw [heq, State.gen_onGen]
  exact ⟨State.mem_of_books (s.emptySlot_books g _), s.full_emptySlot g _, rfl⟩

end Sys2Proof.Machine

namespace Sys2Proof
open Machine

/-- Settles O36: each step's branches in their order; a copy between two memories never opens, fills or empties a slot, and an end unbinds,
takes the record away and sends the completion. -/
theorem haulsMove : Obligations.HaulsMove := by
  unfold Obligations.HaulsMove
  refine ⟨fun s c tag h harg => ⟨haulStart_none harg, fun hnext hhaul hnew => ⟨fun x hpre => ?_, fun hpre hx hsrc hdst hstop => ?_⟩,
    fun hnext hhaul hres => haulStart_resumes harg hnext hhaul hres⟩, ?_, ?_, ?_⟩
  · obtain ⟨⟨hmem, htag, hgone, -, hsent⟩, -⟩ := s.haulEnd_ended c tag (tput s.tags (c, tag) .running) { h with status := x.code, ending := true }
    exact ⟨_, haulStart_fails harg hnext hhaul hnew hpre, hmem, htag, hgone, hsent⟩
  · have hrun := haulStart_copies harg hnext hhaul hnew hpre hx hsrc hdst
    have hcopy : CopyGoes (s.setTag c tag .running) c tag
        ((s.setTag c tag .running).setHaul c tag { h with legs := (Desc.of h.desc).legs s h.sid false }) :=
      ⟨rfl, rfl, _, State.haul?_setHaul .., Haul.memOnly_one (Desc.legs_memOnly h.sid hsrc hdst) rfl rfl, hstop⟩
    obtain ⟨hmem, htags, -⟩ := hcopy.pump
    exact ⟨hrun, _, hrun, hmem, (congrArg (tget · TagState.free (c, tag)) htags).trans (tget_tput_same ..)⟩
  · intro s c tag k a h l st x y harg hhaul hlegs hruns hsrc hdst hfly hk
    refine ⟨fun bs bad ha hst hin => ?_, fun bs bad v b ha hst => ?_, fun z ha => ?_, fun ha hst => ?_⟩
    · exact haulAccessAnswer_read hhaul hlegs hruns hsrc hdst hfly (ha ▸ harg) hst hin
    · exact haulAccessAnswer_written hhaul hlegs hsrc hdst hfly (ha ▸ harg) hst hk
    · obtain ⟨g, hmem, hg, hstatus, hend⟩ := State.failed_status hhaul hlegs hruns hsrc hdst z
      exact ⟨_, g, haulAccessAnswer_fault hhaul hlegs hdst hfly (ha ▸ harg), hmem, hg, hstatus, hend⟩
    · exact haulAccessAnswer_nack hhaul hlegs hruns hsrc hfly (ha ▸ harg) hst
  · intro s c tag h hhaul
    refine ⟨fun harg hfin hst => ?_, fun harg hno => ?_, fun rel harg => ⟨fun hst => ?_, fun hst => ?_, fun hst hruns => ?_, fun hst => ?_⟩,
      h.completion_moved tag⟩
    · have hrun := (haulComplete_run hhaul harg).trans (if_pos ⟨hfin, hst⟩)
      exact ⟨hrun, _, hrun, State.haulEnd_here hhaul⟩
    · refine (haulComplete_run hhaul harg).trans (if_neg fun ⟨hfin, hst⟩ => ?_)
      rcases hno with hno | hno
      · exact Bool.false_ne_true (hno.symm.trans hfin)
      · exact hno hst
    · obtain ⟨hended, hdropped⟩ := s.haulEnd_ended c tag s.tags { h with cancelled := true }
      rcases hst with hst | hst
      · refine ⟨_, haulCancel_run harg, ?_, ?_⟩
        · rw [State.haulCancelled_queued hhaul hst]; exact hended
        · rw [State.haulCancelled_queued hhaul hst, if_neg (by rw [hst]; decide)]; exact hdropped
      · refine ⟨_, haulCancel_run harg, ?_, ?_⟩
        · rw [State.haulCancelled_stopped hhaul hst]; exact hended
        · rw [State.haulCancelled_stopped hhaul hst, if_pos hst]; rfl
    · rw [haulCancel_run harg, State.haulCancelled_queued hhaul hst]
    · rw [haulCancel_run harg, State.haulCancelled_running hhaul hst hruns]
    · rw [haulCancel_run harg, State.haulCancelled_complete hhaul hst]
  · intro s c w o k rel harg g x hcfg
    refine ⟨fun hmode hread hcons hdrain hfull => ?_, fun hno => (hslotPerform_run harg hcfg).trans (if_neg fun ⟨hmode, hread, hcons, hdrain, hfull⟩ => ?_)⟩
    · have hrun := (hslotPerform_run harg hcfg).trans (if_pos ⟨hmode, hread, hcons, hdrain, hfull⟩)
      obtain ⟨hmem, hfulls, hnext⟩ := State.emptyDrain_gives (s := s.performed c rel) hcfg
      exact ⟨hrun, _, hrun, hmem, hfulls, hnext⟩
    · rcases hno with h | h | h | h | h
      · exact h hmode
      · exact Bool.false_ne_true (hread.symm.trans h)
      · exact h hcons
      · exact h hdrain
      · exact h hfull

end Sys2Proof
end

section
/-! PROOF of O43: attestation (R455 to R457), sessions (R459), policies (R458) and keys (R452, R460). -/

namespace Sys2Proof.Machine
open Sys2Proof Sys2Proof.Safety

/-! ## What a reception and a management message leave alone -/

/-- Receiving a message changes only links and what goes out (R418). -/
theorem State.receive_trust (s : State) (rx : Rx) (k : Nat) :
    (s.receive rx k).1.mem = s.mem ∧ (s.receive rx k).1.cycle = s.cycle ∧ (s.receive rx k).1.switches = s.switches ∧
      (s.receive rx k).1.policy = s.policy ∧ (s.receive rx k).1.spdm = s.spdm ∧ (s.receive rx k).1.sessions = s.sessions ∧
      (s.receive rx k).1.groups = s.groups := by
  obtain ⟨l, o, hu⟩ := s.receive_keeps rx k
  rw [hu]
  exact ⟨rfl, rfl, rfl, rfl, rfl, rfl, rfl⟩

theorem State.switch_receive (s : State) (rx : Rx) (k p : Nat) : (s.receive rx k).1.switch p = s.switch p := by
  obtain ⟨-, -, hsw, -⟩ := s.receive_trust rx k
  rw [State.switch, hsw, State.switch]

theorem State.spdmReason_receive (s : State) (rx : Rx) (k : Nat) (d : BitVec 384) (m : SpdmMsg) :
    (s.receive rx k).1.spdmReason d m = s.spdmReason d m := by
  obtain ⟨-, -, -, hpol, -⟩ := s.receive_trust rx k
  simp only [State.spdmReason, hpol]

@[simp] theorem State.switch_setSwitch (s : State) (p : Nat) (x : Switch) : (s.setSwitch p x).switch p = x := tget_tput_same ..
theorem State.switch_setSwitch_other (s : State) {p q : Nat} (x : Switch) (h : q ≠ p) : (s.setSwitch p x).switch q = s.switch q :=
  tget_tput_other _ _ _ h

theorem State.mgmt_besideSends (s : State) (n : Nat) (b : MgmtBody) : (s.mgmt n b).besideSends = s.besideSends := State.linkGive_besideSends ..

/-- What trust rests on (R456, R455, R458). -/
def State.trust (s : State) : List Host.Cell × Tbl Nat Switch × Tbl Nat Nat × List Nat := (s.mem, s.switches, s.spdm, s.sessions)

theorem State.mgmt_trust (s : State) (n : Nat) (b : MgmtBody) : (s.mgmt n b).trust = s.trust := by
  have hbeside : (s.mgmt n b).besideSends.trust = s.besideSends.trust := by rw [State.mgmt_besideSends]
  exact hbeside

/-- A management message of no type or length of R459 is only received. -/
theorem State.managed_malformed (s : State) {rx : Rx} (h : rx.formed = false) (f : State → State) : s.managed rx f = (s.receive rx rx.flits).1 := by
  simp [State.managed, State.received, h]

theorem State.managed_part {s : State} {rx : Rx} (h : (s.receive rx rx.flits).2 = false) (f : State → State) :
    s.managed rx f = (s.receive rx rx.flits).1 := State.received_part h _

theorem State.managed_whole {s : State} {rx : Rx} (hform : rx.formed = true) (h : (s.receive rx rx.flits).2 = true) (f : State → State) :
    s.managed rx f = f (s.receive rx rx.flits).1 := (State.managed_formed hform f).trans (State.received_whole h f)

/-! ## Why a message is refused (R455 to R457) -/

section
variable (s : State) (d : BitVec 384) {m : SpdmMsg}

theorem State.spdmReason_version (h : m.step = 1) : s.spdmReason d m = 0 ↔ 13 ∈ m.versions ∨ 12 ∈ m.versions := by
  simp only [State.spdmReason, h, SpdmMsg.version]
  by_cases h13 : 13 ∈ m.versions
  · simp [h13]
  · by_cases h12 : 12 ∈ m.versions
    · simp [h12, h13]
    · simp [h12, h13]

theorem State.spdmReason_chain (h : m.step = 5) : s.spdmReason d m = if m.chain = true ∧ m.anchor ∈ s.policy.anchors then 0 else 4 := by
  simp [State.spdmReason, h]

theorem State.spdmReason_signed (h : m.step = 6 ∨ m.step = 8 ∨ m.step = 10) : s.spdmReason d m = if m.ecdsa = some m.transcript then 0 else 5 := by
  rcases h with h | h | h
  · simp [State.spdmReason, h]
  · simp [State.spdmReason, h]
  · simp [State.spdmReason, h]

theorem State.spdmReason_lms (h : m.step = 7 ∨ m.step = 9) : s.spdmReason d m = if m.lms = some d then 0 else 6 := by
  rcases h with h | h
  · simp [State.spdmReason, h]
  · simp [State.spdmReason, h]

theorem State.spdmReason_last (h : m.step = 11) : s.spdmReason d m = 0 := by
  simp [State.spdmReason, h]

end

/-! ## A switch's message (R456) -/

section
variable {v : State} {m : SpdmMsg} (hplane : m.plane < 18)
include hplane

theorem State.spdmJudge_refuses (hstep : (v.switch m.plane).step ≠ 0) (hsame : (v.switch m.plane).step = m.step) (hlast : m.step < 12)
    (hreason : v.spdmReason (v.switch m.plane).td m ≠ 0) :
    v.spdmJudge m = v.refuseSwitch m.plane (v.spdmReason (v.switch m.plane).td m) :=
  (if_neg (by omega)).trans ((if_neg (by omega)).trans ((if_neg (by simp [← hsame, hstep])).trans (if_pos hreason)))

theorem State.spdmJudge_asks (hstep : (v.switch m.plane).step ≠ 0) (hsame : (v.switch m.plane).step = m.step) (hlast : m.step < 11)
    (hreason : v.spdmReason (v.switch m.plane).td m = 0) :
    v.spdmJudge m = (v.setSwitch m.plane ((v.switch m.plane).learn m)).spdmAsk m.plane (m.step + 1) 0 :=
  (if_neg (by omega)).trans ((if_neg (by omega)).trans ((if_neg (by simp [← hsame, hstep])).trans
    ((if_neg (by simp [hreason])).trans (if_pos hlast))))

theorem State.spdmJudge_passes (hstep : (v.switch m.plane).step = 11) (hlast : m.step = 11) :
    let x := v.setSwitch m.plane (v.switch m.plane)
    v.spdmJudge m =
      (((x.setSwitch m.plane { v.switch m.plane with step := 0, passed := true }).policyRefuses x.policies m.plane).replan m.plane).timePath := by
  have hlearn : (v.switch m.plane).learn m = v.switch m.plane := by simp [Switch.learn, hlast]
  have hrun : v.spdmJudge m = let x := v.setSwitch m.plane ((v.switch m.plane).learn m)
      (((x.setSwitch m.plane { (v.switch m.plane).learn m with step := 0, passed := true }).policyRefuses x.policies m.plane).replan
        m.plane).timePath :=
    (if_neg (by omega)).trans ((if_neg (by omega)).trans ((if_neg (by simp [hstep, hlast])).trans
      ((if_neg (by simp [v.spdmReason_last _ hlast])).trans (if_neg (by omega)))))
  rw [hrun, hlearn]

theorem State.spdmJudge_ends (hpassed : (v.switch m.plane).passed = true) (hlast : m.step = 12) : v.spdmJudge m = v.endSession m.plane :=
  (if_neg (by omega)).trans ((if_pos hlast).trans (if_pos hpassed))

end

/-- The next request of an attestation: the switch's record says which, and until when (R456). -/
theorem State.spdmAsk_notes (s : State) (p step tries : Nat) :
    (s.spdmAsk p step tries).mem = s.mem ∧
      (s.spdmAsk p step tries).switch p = { s.switch p with step := step, tries := tries, due := s.cycle + spdmWait } := by
  have htrust : (s.spdmAsk p step tries).trust =
      (s.setSwitch p { s.switch p with step := step, tries := tries, due := s.cycle + spdmWait }).trust := State.mgmt_trust ..
  have hsw : (s.spdmAsk p step tries).switches =
      (s.setSwitch p { s.switch p with step := step, tries := tries, due := s.cycle + spdmWait }).switches := congrArg (·.2.1) htrust
  refine ⟨congrArg Prod.fst htrust, ?_⟩
  rw [State.switch, hsw]
  exact tget_tput_same ..

theorem spdmResponse_run {s : State} {m : SpdmMsg} {rx : Rx} (harg : s.arg = .spdmResponse m rx) :
    exec .spdmResponse s = .next (s.managed rx (fun u => u.spdmJudge m)) := by
  change execSpdmResponse s = _
  unfold execSpdmResponse
  rw [harg]

section
variable {s : State} {p : Nat} (harg : s.arg = .spdmTimeout p)
include harg

theorem spdmTimeout_run : exec .spdmTimeout s = if (s.switch p).step = 0 ∨ s.cycle < (s.switch p).due then .next s
    else if (s.switch p).tries < 3 then .next (s.spdmAsk p (s.switch p).step ((s.switch p).tries + 1)) else .next (s.refuseSwitch p 8) := by
  change execSpdmTimeout s = _
  unfold execSpdmTimeout
  rw [harg]
  simp only [Bool.or_eq_true, decide_eq_true_eq]

end

/-! ## Sessions with the companion and with lockkeepers (R455, R459) -/

theorem spdmRequest_run {s : State} {node : Nat} {m : SpdmMsg} {rx : Rx} (harg : s.arg = .spdmRequest node m rx) :
    exec .spdmRequest s = .next (s.managed rx (fun u => u.spdmServe node m)) := by
  change execSpdmRequest s = _
  unfold execSpdmRequest
  rw [harg]

/-- The sessions after a request that is answered at its step. -/
def State.sessionsAfter (s : State) (node step : Nat) : List Nat :=
  if step = 11 then s.sessions.filter (· ≠ node) ++ [node] else if step = 12 then s.sessions.filter (· ≠ node) else s.sessions

section
variable {s : State} {node : Nat} {m : SpdmMsg}

theorem State.spdmServe_refused (hstep : s.sessionStep node (tget s.spdm 0 node) m = none) :
    (s.spdmServe node m).trust = (s.mem, s.switches, tdel s.spdm node, s.sessions) := by
  rw [State.spdmServe, hstep]
  exact State.mgmt_trust ..

theorem State.spdmServe_answered {k : Nat} (hstep : s.sessionStep node (tget s.spdm 0 node) m = some k) :
    (s.spdmServe node m).trust = (s.mem, s.switches, tput s.spdm node k, s.sessionsAfter node m.step) := by
  rw [State.spdmServe, hstep]
  refine (State.mgmt_trust ..).trans ?_
  rw [State.sessionsAfter]
  split
  · rfl
  · split
    · rfl
    · rfl

/-- A request changes neither memory nor any switch. -/
theorem State.spdmServe_keeps : (s.spdmServe node m).mem = s.mem ∧ (s.spdmServe node m).switches = s.switches := by
  cases hstep : s.sessionStep node (tget s.spdm 0 node) m with
  | none => exact ⟨congrArg Prod.fst (State.spdmServe_refused hstep), congrArg (·.2.1) (State.spdmServe_refused hstep)⟩
  | some k => exact ⟨congrArg Prod.fst (State.spdmServe_answered hstep), congrArg (·.2.1) (State.spdmServe_answered hstep)⟩

theorem State.spdmServe_begins (h : m.step = 1) : tget (s.spdmServe node m).spdm 0 node = 1 ∧ (s.spdmServe node m).sessions = s.sessions := by
  have htrust := State.spdmServe_answered (s := s) (node := node) (m := m) (k := 1) (by simp [State.sessionStep, h])
  have hspdm : (s.spdmServe node m).spdm = tput s.spdm node 1 := congrArg (·.2.2.1) htrust
  have hsess : (s.spdmServe node m).sessions = s.sessionsAfter node m.step := congrArg (·.2.2.2) htrust
  rw [hspdm, hsess]
  exact ⟨tget_tput_same .., by simp [State.sessionsAfter, h]⟩

theorem State.spdmServe_opens (h : m.step = 11) (hat : tget s.spdm 0 node = 10)
    (hauth : node = s.node ∨ (m.chain = true ∧ m.anchor ∈ s.policy.anchors ∧ m.ecdsa = some m.transcript)) :
    node ∈ (s.spdmServe node m).sessions := by
  have htrust := State.spdmServe_answered (s := s) (node := node) (m := m) (k := 11) (by
    simp only [State.sessionStep, h, hat]
    exact if_pos (by simpa [and_assoc] using hauth))
  have hsess : (s.spdmServe node m).sessions = s.sessionsAfter node m.step := congrArg (·.2.2.2) htrust
  rw [hsess, State.sessionsAfter, if_pos h]
  exact List.mem_append_right _ (List.mem_singleton_self _)

theorem State.spdmServe_outOfOrder (h : m.step = 11) (hat : tget s.spdm 0 node ≠ 10) :
    (s.spdmServe node m).sessions = s.sessions ∧ tget (s.spdmServe node m).spdm 0 node = 0 := by
  have htrust := State.spdmServe_refused (s := s) (node := node) (m := m) (by
    simp only [State.sessionStep, h]
    exact if_neg (by simp [hat]))
  have hspdm : (s.spdmServe node m).spdm = tdel s.spdm node := congrArg (·.2.2.1) htrust
  rw [hspdm]
  exact ⟨congrArg (·.2.2.2) htrust, tget_of_tfind_none (tfind_tdel_same ..)⟩

theorem State.spdmServe_closes (h : m.step = 12) (hat : tget s.spdm 0 node = 11) : node ∉ (s.spdmServe node m).sessions := by
  have htrust := State.spdmServe_answered (s := s) (node := node) (m := m) (k := 0) (by simp [State.sessionStep, h, hat])
  have hsess : (s.spdmServe node m).sessions = s.sessionsAfter node m.step := congrArg (·.2.2.2) htrust
  rw [hsess, State.sessionsAfter, if_neg (by omega), if_pos h]
  simp

end

/-! ## Policies (R458) -/

/-- The policy that a record in memory gives: none where it is ill placed, too long or malformed (R458). -/
def State.policyAt (s : State) (a n : Word) : Option Policy :=
  if a.toNat % 64 = 0 && bitsN a 63 52 = 0 && n.toNat ≤ policyMax then Policy.read (s.bytes (.comp a.toNat) n.toNat) else none

section
variable {s : State} {b a n : Word} (harg : s.arg = .policy b a n) (hlk : s.lkDown 0 = false)
include harg hlk

theorem policy_sets {p : Policy} (hp : s.policyAt a n = some p) : exec .policy s = .next
    ((List.range 18).foldl (fun (v : State) k => v.policyRefuses [p] k) { s with policy := p }).hostNext := by
  change execPolicy s = _
  unfold execPolicy
  split
  · next b' a' n' hq =>
    obtain ⟨rfl, rfl, rfl⟩ := Ev.policy.inj (harg.symm.trans hq)
    refine congrArg Host.Outcome.next ((State.byLock_free hlk _).trans ?_)
    change (match s.policyAt a n with | some p => _ | none => _) = _
    rw [hp]
  · next hnot => exact absurd harg (hnot _ _ _)

theorem policy_refused (hp : s.policyAt a n = none) :
    exec .policy s = .next (s.eventOwner 0 0x002 [refusedWord .illegalForm 3]).hostNext := by
  change execPolicy s = _
  unfold execPolicy
  rw [harg]
  refine congrArg Host.Outcome.next ((State.byLock_free hlk _).trans ?_)
  change (match s.policyAt a n with | some p => _ | none => _) = _
  rw [hp]

end

/-! ## Keys and switches that refuse (R452, R460) -/

/-- What an acknowledged key does: its switch has it, and every group that waits for no other is bound (R460). -/
def State.keyAcked (s : State) (p sid : Nat) : State :=
  let s := if (s.switch p).keys.contains sid then s else s.setSwitch p { s.switch p with keys := (s.switch p).keys ++ [sid] }
  s.groups.foldl (fun (s : State) e =>
    if e.1.1 = sid && e.2.st = 2 && e.2.keys.contains p then
      let g : Group := { e.2 with keys := e.2.keys.filter (· ≠ p) }
      let s : State := { s with groups := tput s.groups e.1 g }
      if g.keys = [] then s.bindGroup e.1 else s
    else s) s

theorem keyInstallAck_run {s : State} {p sid group : Nat} {rx : Rx} (harg : s.arg = .keyInstallAck p sid group rx) :
    exec .keyInstallAck s = .next (s.managed rx (fun u => u.keyAcked p sid)) := by
  change execKeyInstallAck s = _
  unfold execKeyInstallAck
  rw [harg]
  rfl

theorem State.keyAcked_noGroups {s : State} (p sid : Nat) (hgroups : s.groups = []) :
    (s.keyAcked p sid).mem = s.mem ∧ sid ∈ ((s.keyAcked p sid).switch p).keys ∧ ∀ q, q ≠ p → (s.keyAcked p sid).switch q = s.switch q := by
  by_cases hhas : (s.switch p).keys.contains sid = true
  · have heq : s.keyAcked p sid = s := by simp only [State.keyAcked, if_pos hhas, hgroups, List.foldl_nil]
    rw [heq]
    exact ⟨rfl, List.contains_iff_mem.1 hhas, fun _ _ => rfl⟩
  · have hkept : (s.setSwitch p { s.switch p with keys := (s.switch p).keys ++ [sid] }).groups = [] := hgroups
    have heq : s.keyAcked p sid = s.setSwitch p { s.switch p with keys := (s.switch p).keys ++ [sid] } := by
      simp only [State.keyAcked, if_neg hhas, hkept, List.foldl_nil]
    rw [heq, State.switch_setSwitch]
    exact ⟨rfl, List.mem_append_right _ (List.mem_singleton_self _), fun q hq => State.switch_setSwitch_other _ _ hq⟩

/-- The last key that a group waits for binds it (R450). -/
theorem State.keyAcked_binds {s : State} {p sid group rank : Nat} {g : Group} (hhas : sid ∈ (s.switch p).keys)
    (hgroups : s.groups = [((sid, group, rank), g)]) (hst : g.st = 2) (hkeys : g.keys = [p]) :
    s.keyAcked p sid = ({ s with groups := tput s.groups (sid, group, rank) { g with keys := [] } } : State).bindGroup (sid, group, rank) := by
  simp only [State.keyAcked, if_pos (List.contains_iff_mem.2 hhas)]
  rw [hgroups]
  simp [hst, hkeys, hgroups]

/-- What a switch's error does: each of its groups goes on without it (R452). -/
def State.switchErred (s : State) (p sid group : Nat) : State :=
  s.groups.foldl (fun s e => if e.1.1 = sid && e.1.2.1 = group && e.2.switches.contains p then s.dropSwitch e.1 e.2 p else s) s

theorem switchErrorAnswer_run {s : State} {p sid group : Nat} {rx : Rx} (harg : s.arg = .switchErrorAnswer p sid group rx)
    (hwhole : (s.receive rx rx.flits).2 = true) : exec .switchErrorAnswer s = .next ((s.receive rx rx.flits).1.switchErred p sid group) := by
  change execSwitchErrorAnswer s = _
  unfold execSwitchErrorAnswer
  rw [harg]
  exact congrArg Host.Outcome.next (State.received_whole hwhole _)

theorem State.switchErred_nobody {s : State} {p sid group : Nat} (hnone : ∀ e ∈ s.groups, e.1.1 ≠ sid ∨ e.1.2.1 ≠ group ∨ p ∉ e.2.switches) :
    s.switchErred p sid group = s := by
  refine List.foldlRecOn (motive := fun u : State => u = s) _ _ rfl ?_
  rintro u rfl e he
  refine if_neg fun hboth => ?_
  simp only [Bool.and_eq_true, decide_eq_true_eq, List.contains_iff_mem] at hboth
  obtain ⟨⟨hsid, hgroup⟩, hsw⟩ := hboth
  rcases hnone e he with h | h | h
  · exact h hsid
  · exact h hgroup
  · exact h hsw

theorem State.switchErred_one {s : State} {p sid group rank : Nat} {g : Group} (hgroups : s.groups = [((sid, group, rank), g)])
    (hsw : p ∈ g.switches) : s.switchErred p sid group = s.dropSwitch (sid, group, rank) g p := by
  rw [State.switchErred, hgroups]
  exact if_pos (by simp [hsw])

end Sys2Proof.Machine

namespace Sys2Proof
open Machine

/-- Settles O43: each message acts on the state as it has been received, which leaves trust alone. -/
theorem switchesAreAttested : Obligations.SwitchesAreAttested := by
  unfold Obligations.SwitchesAreAttested
  intro s
  refine ⟨fun m d => ⟨s.spdmReason_version d, fun h => ?_, fun h => ?_, fun h => ?_⟩, ?_, fun m rx harg hpart => ?_, ?_,
    fun p w harg hw => ?_, fun node m rx harg hform hwhole => ?_, fun b a n harg hlk => ?_, ?_, ?_, ?_⟩
  · rw [s.spdmReason_chain d h]
    by_cases hgood : m.chain = true ∧ m.anchor ∈ s.policy.anchors
    · simp [hgood]
    · simp [hgood]
  · rw [s.spdmReason_signed d h]
    by_cases hgood : m.ecdsa = some m.transcript
    · simp [hgood]
    · simp [hgood]
  · rw [s.spdmReason_lms d h]
    by_cases hgood : m.lms = some d
    · simp [hgood]
    · simp [hgood]
  · intro m rx v w harg hform hwhole hv hw hplane
    have hsw : v.switch m.plane = w := by rw [hv, hw, State.switch_receive]
    have hreason : v.spdmReason w.td m = s.spdmReason w.td m := by rw [hv, State.spdmReason_receive]
    have hrun : exec .spdmResponse s = .next (v.spdmJudge m) := by rw [spdmResponse_run harg, State.managed_whole hform hwhole, hv]
    refine ⟨fun hstep hsame hlast hbad => ?_, fun hstep hsame hlast hgood => ?_, fun hstep hlast => ?_, fun hpassed hlast => ?_⟩
    · rw [hrun, State.spdmJudge_refuses hplane (by rwa [hsw]) (by rwa [hsw]) hlast (by rwa [hsw, hreason]), hsw, hreason,
        State.refuseSwitch, hsw]
      rfl
    · rw [hrun, State.spdmJudge_asks hplane (by rwa [hsw]) (by rwa [hsw]) hlast (by rwa [hsw, hreason]), hsw]
      obtain ⟨hmem, hnotes⟩ := (v.setSwitch m.plane (w.learn m)).spdmAsk_notes m.plane (m.step + 1) 0
      obtain ⟨hbytes, hcycle, -⟩ := s.receive_trust rx rx.flits
      refine ⟨_, rfl, hmem.trans ?_, hnotes.trans ?_⟩
      · rw [← hbytes, ← hv]; rfl
      · rw [State.switch_setSwitch, ← hcycle, ← hv]; rfl
    · obtain ⟨-, -, -, hpol, -⟩ := s.receive_trust rx rx.flits
      obtain ⟨-, hjobs, -⟩ := s.receive_tables rx rx.flits
      have hpolicies : (v.setSwitch m.plane w).policies = s.policy :: s.jobs.map (fun e => e.2.policy) := by
        rw [← hpol, ← hjobs, ← hv]; rfl
      rw [hrun, State.spdmJudge_passes hplane (by rwa [hsw]) hlast, hsw, hpolicies]
    · rw [hrun, State.spdmJudge_ends hplane (by rwa [hsw]) hlast]
      rfl
  · rw [spdmResponse_run harg, State.managed_part hpart]
  · rintro i rx hform (⟨rfl, m, harg⟩ | ⟨rfl, node, m, harg⟩ | ⟨rfl, p, sid, group, harg⟩)
    · rw [spdmResponse_run harg, State.managed_malformed s hform]
    · rw [spdmRequest_run harg, State.managed_malformed s hform]
    · rw [keyInstallAck_run harg, State.managed_malformed s hform]
  · subst hw
    refine ⟨fun hwait => ?_, fun hstep hdue htries => ?_, fun hstep hdue htries => ?_⟩
    · rw [spdmTimeout_run harg, if_pos hwait]
    · rw [spdmTimeout_run harg, if_neg (by omega), if_pos htries]
    · rw [spdmTimeout_run harg, if_neg (by omega), if_neg (by omega)]
  · obtain ⟨v, hv⟩ : ∃ v, v = (s.receive rx rx.flits).1 := ⟨_, rfl⟩
    obtain ⟨hmem, -, hsw, hpol, hspdm, hsess, -⟩ := s.receive_trust rx rx.flits
    obtain ⟨hnode, -⟩ := s.receive_tables rx rx.flits
    rw [← hv] at hmem hsw hpol hspdm hsess hnode
    have hrun : exec .spdmRequest s = .next (v.spdmServe node m) := by rw [spdmRequest_run harg, State.managed_whole hform hwhole, hv]
    obtain ⟨hbytes, hswitches⟩ := State.spdmServe_keeps (s := v) (node := node) (m := m)
    rw [← hmem, ← hsw, ← hspdm, ← hsess, ← hnode, ← hpol]
    exact ⟨_, hrun, hbytes, hswitches, State.spdmServe_begins, State.spdmServe_opens, State.spdmServe_outOfOrder, State.spdmServe_closes⟩
  · refine ⟨fun p halign hplace hlen hread => policy_sets harg hlk ?_, fun hbad => policy_refused harg hlk ?_⟩
    · rw [State.policyAt, if_pos (by simp [halign, hplace, hlen]), hread]
    · rw [State.policyAt]
      rcases hbad with hbad | hbad
      · exact if_neg (by simp [hbad])
      · rw [hbad]; exact ite_self _
  · intro p sid group rx harg hform hwhole
    refine ⟨_, (keyInstallAck_run harg).trans (congrArg Host.Outcome.next (State.managed_whole hform hwhole _)), fun hgroups => ?_⟩
    obtain ⟨hmem, -, -, -, -, -, hkept⟩ := s.receive_trust rx rx.flits
    obtain ⟨hbytes, hhas, hothers⟩ := State.keyAcked_noGroups p sid (hkept.trans hgroups)
    exact ⟨hbytes.trans hmem, hhas, fun q hq => (hothers q hq).trans (s.switch_receive ..)⟩
  · intro p sid group rank rx g v harg hform hwhole hv hhas hgroups hst hkeys
    obtain ⟨-, -, -, -, -, -, hkept⟩ := s.receive_trust rx rx.flits
    rw [← hv] at hkept
    rw [keyInstallAck_run harg, State.managed_whole hform hwhole, ← hv,
      State.keyAcked_binds (by rwa [hv, State.switch_receive]) (hkept.trans hgroups) hst hkeys]
  · intro p sid group rx v harg hwhole hv
    obtain ⟨-, -, -, -, -, -, hkept⟩ := s.receive_trust rx rx.flits
    have hrun := switchErrorAnswer_run harg hwhole
    rw [← hv] at hkept hrun
    have hsw : v.switch p = s.switch p := by rw [hv, State.switch_receive]
    refine ⟨fun hnone => ?_, fun rank g hgroups hin => ?_⟩
    · rw [hrun, State.switchErred_nobody (by rwa [hkept])]
    · rw [hrun, State.switchErred_one (hkept.trans hgroups) hin, ← hsw]
      refine ⟨fun hst => congrArg Host.Outcome.next (if_pos hst), fun hst hkeys => ?_⟩
      have hnoKeys : g.keys.filter (· ≠ p) = [] := by simp [hkeys]
      refine congrArg Host.Outcome.next ((if_neg hst).trans ((if_pos hnoKeys).trans ?_))
      simp only [hnoKeys]

end Sys2Proof
end
